-- ==== Sys2Proof/Word.lean ====
section
/-! DEFINITION. The word types of the Camolo: bytes, 32-bit words, 64-bit words, lane masks (R4, R112, R116). -/
namespace Sys2Proof

/-- One byte of memory (R4). -/
abbrev Byte := BitVec 8
/-- A register, and one instruction word (R112, R258). -/
abbrev Word := BitVec 32
/-- A 64-bit pair, a pilot register, an address (R64, R113, R133). -/
abbrev DWord := BitVec 64
/-- One bit for each of the 96 lanes of a group (R1, R116). -/
abbrev LaneMask := BitVec 96
/-- A predicate code: 0 F, 1 T, 2 U, and 3 reads as U (R115). -/
abbrev Pred := BitVec 2

end Sys2Proof
end

