-- ==== Sys2Proof/Machine/Bits.lean ====
section
/-! DEFINITION. Bit fields, extension, byte order (R4, R7), counting and the digest step Fold64 (R8). -/
namespace Sys2Proof.Machine

/-- Bits hi:lo of a number, both ends included (R4). -/
def bits (x hi lo : Nat) : Nat := (x >>> lo) % 2 ^ (hi + 1 - lo)

/-- One bit of a number. -/
def bit (x i : Nat) : Bool := x.testBit i

/-- Sext(x, n) of R7: the n-bit field x as a signed integer. -/
def sext (x n : Nat) : Int :=
  let f := x % 2 ^ n
  if 2 ^ n ≤ 2 * f then (f : Int) - 2 ^ n else f

/-- Trunc(x, n) of R7: the low n bits of the two's-complement form of x. -/
def trunc (x : Int) (n : Nat) : Nat := (x % (2 ^ n : Nat)).toNat

/-- Trunc to a 32-bit register image. -/
def truncW (x : Int) : Word := BitVec.ofNat 32 (trunc x 32)

/-- The clamp of an exact result to a range (R316). -/
def clampInt (x lo hi : Int) : Int := min (max x lo) hi

/-- Little-endian bytes of a number, n of them (R4). -/
def leBytes (n x : Nat) : List Byte :=
  (List.range n).map fun i => BitVec.ofNat 8 (x >>> (8 * i))

/-- The number that little-endian bytes hold (R4). -/
def leNat : List Byte → Nat
  | [] => 0
  | b :: bs => b.toNat + 256 * leNat bs

/-- Big-endian bytes of a number, n of them; SHA-256 takes its words so. -/
def beBytes (n x : Nat) : List Byte := (leBytes n x).reverse

/-- n consecutive bytes of a byte list from offset k, zero beyond its end. -/
def takeAt (l : List Byte) (k n : Nat) : List Byte :=
  (List.range n).map fun i => l.getD (k + i) 0

/-- The little-endian field at bytes k+n-1:k of a record. -/
def field (l : List Byte) (k n : Nat) : Nat := leNat (takeAt l k n)

/-- A byte list with the bytes d put at offset k; its length is kept. -/
def putAt (l : List Byte) (k : Nat) (d : List Byte) : List Byte :=
  l.mapIdx fun i b => if k ≤ i ∧ i < k + d.length then d.getD (i - k) 0 else b

/-- Round n up to a multiple of k. -/
def ceilDiv (n k : Nat) : Nat := (n + k - 1) / k

/-- n is a power of two from lo to hi. -/
def isPow2In (n lo hi : Nat) : Bool := lo ≤ n && n ≤ hi && n &&& (n - 1) == 0

/-- Number of one bits among the low w bits. -/
def popCount (w x : Nat) : Nat := ((List.range w).filter (bit x)).length

/-- Leading zeros of the w-bit image; w when x = 0 (R315). -/
def leadZeros : Nat → Nat → Nat
  | 0, _ => 0
  | w + 1, x => if bit x w then 0 else 1 + leadZeros w x

/-- Bit i of the w-bit image moved to bit w-1-i (R315). -/
def bitReverse (w x : Nat) : Nat :=
  (List.range w).foldl (fun r i => if bit x i then r + 2 ^ (w - 1 - i) else r) 0

/-- Number of bits a number needs; 0 for 0. -/
def bitLen (x : Nat) : Nat := if x = 0 then 0 else Nat.log2 x + 1

/-- Integer square root of x, found one bit at a time from bit n-1 down; exact when x < 4^n. -/
def isqrtFrom (x : Nat) : Nat → Nat → Nat
  | 0, r => r
  | n + 1, r => let r' := r + 2 ^ n; isqrtFrom x n (if r' * r' ≤ x then r' else r)

/-- Floor of the square root. -/
def isqrt (x : Nat) : Nat := isqrtFrom x (bitLen x / 2 + 1) 0

/-- Floor and ceiling of a division by a power of two of a signed number. -/
def floorShift (x : Int) (n : Nat) : Int := x / (2 ^ n : Nat)

/-- The polynomial of Fold64 (R8). -/
def foldPoly : Nat := 0x42F0E1EBA9EA3693

/-- One bit of Fold64: the feedback is bit 63 of d XOR the input bit (R8). -/
def foldBit (d : Nat) (b : Bool) : Nat :=
  let d2 := (d * 2) % 2 ^ 64
  if bit d 63 != b then d2 ^^^ foldPoly else d2

/-- Fold64(d, w) of R8: bit 31 of w first. -/
def fold64 (d : DWord) (w : Word) : DWord :=
  BitVec.ofNat 64 ((List.range 32).foldl (fun d i => foldBit d (bit w.toNat (31 - i))) d.toNat)

/-- s completed when (word - s) mod 2^32 < 2^31 (R151, R377). -/
def seqReached (word s : Word) : Bool := (word - s).toNat < 2 ^ 31

/-- The next sequence number or serial: from 2^32 - 1 on to 1 (R73, R150). -/
def nextSeq (s : Word) : Word := if s = 0xFFFFFFFF then 1 else s + 1

end Sys2Proof.Machine
end

