-- ==== Sys2Proof/Machine/Fp.lean ====
section
/-! DEFINITION. Floating-point formats, exact values, rounding with flags (R204 to R209), and the arithmetic of Table 13.2
(R213, R324 to R328), on bit images as natural numbers. -/
namespace Sys2Proof.Machine

/-- A format of Table 9.1. `ieee` is false for E4M3, which has no infinity and one NaN per sign. -/
structure Fmt where
  ebits : Nat
  mbits : Nat
  bias : Nat
  ieee : Bool
  deriving DecidableEq, Repr

def fp32 : Fmt := { ebits := 8, mbits := 23, bias := 127, ieee := true }
def fp16 : Fmt := { ebits := 5, mbits := 10, bias := 15, ieee := true }
def bf16 : Fmt := { ebits := 8, mbits := 7, bias := 127, ieee := true }
def e4m3 : Fmt := { ebits := 4, mbits := 3, bias := 7, ieee := false }
def e5m2 : Fmt := { ebits := 5, mbits := 2, bias := 15, ieee := true }

/-- FTYPE of MOD layout F (Table 11.5). -/
def fmtOf (ftype : Nat) : Fmt := if ftype = 0 then fp32 else if ftype = 1 then fp16 else bf16

/-- The sign bit's weight. -/
def Fmt.signBit (f : Fmt) : Nat := 2 ^ (f.ebits + f.mbits)
/-- Image of +∞ (IEEE formats). -/
def Fmt.infImg (f : Fmt) : Nat := (2 ^ f.ebits - 1) * 2 ^ f.mbits
/-- Image of the largest finite value. -/
def Fmt.maxImg (f : Fmt) : Nat := if f.ieee then f.infImg - 1 else 2 ^ (f.ebits + f.mbits) - 2
/-- The canonical NaN of Table 9.1. -/
def Fmt.nanImg (f : Fmt) : Nat := if f.ieee then f.infImg + 2 ^ (f.mbits - 1) else 2 ^ (f.ebits + f.mbits) - 1

/-- The value of an encoding (R205). A finite value is (−1)^neg × m × 2^e. -/
inductive FVal where
  | nan (signalling : Bool)
  | inf (neg : Bool)
  | fin (neg : Bool) (m : Nat) (e : Int)
  deriving DecidableEq, Repr

/-- Decode an image (R205). -/
def fdec (f : Fmt) (x : Nat) : FVal :=
  let neg := bit x (f.ebits + f.mbits)
  let e := bits x (f.ebits + f.mbits - 1) f.mbits
  let m := x % 2 ^ f.mbits
  if e = 2 ^ f.ebits - 1 ∧ f.ieee then
    (if m = 0 then .inf neg else .nan (m < 2 ^ (f.mbits - 1)))
  else if ¬ f.ieee ∧ e = 2 ^ f.ebits - 1 ∧ m = 2 ^ f.mbits - 1 then .nan false
  else if e = 0 then .fin neg m (1 - (f.bias : Int) - f.mbits)
  else .fin neg (2 ^ f.mbits + m) ((e : Int) - f.bias - f.mbits)

def FVal.isNan : FVal → Bool
  | .nan _ => true
  | _ => false
def FVal.isSnan : FVal → Bool
  | .nan s => s
  | _ => false
def FVal.isInf : FVal → Bool
  | .inf _ => true
  | _ => false
def FVal.isZero : FVal → Bool
  | .fin _ m _ => m == 0
  | _ => false
/-- The sign; a NaN has none that matters (R206). -/
def FVal.neg : FVal → Bool
  | .nan _ => false
  | .inf n => n
  | .fin n _ _ => n
def FVal.negate : FVal → FVal
  | .nan s => .nan s
  | .inf n => .inf (!n)
  | .fin n m e => .fin (!n) m e

/-! ### Flags (Table 9.3): bit 0 NV, 1 DZ, 2 OF, 3 UF, 4 NX -/
def flNV : Nat := 1
def flDZ : Nat := 2
def flOF : Nat := 4
def flUF : Nat := 8
def flNX : Nat := 16

/-- An exact real: (−1)^neg × (m + t) × 2^e, where t is 0, or if `tail` some number strictly between 0 and 1. With a tail, m
has more bits than any format keeps. -/
structure Exact where
  neg : Bool
  m : Nat
  e : Int
  tail : Bool
  deriving DecidableEq, Repr

/-- Keep the bits at and above 2^q of m × 2^e: the kept integer, and whether it is rounded up by the mode. -/
def roundAt (mode : Nat) (x : Exact) (q : Int) : Nat × Bool :=
  if q ≤ x.e then (x.m * 2 ^ (x.e - q).toNat, x.tail)
  else
    let k := (q - x.e).toNat
    if x.m = 0 ∧ ¬ x.tail then (0, false)
    else if bitLen x.m + 2 < k then
      let up := (mode == 2 && x.neg) || (mode == 3 && !x.neg)
      (if up then 1 else 0, true)
    else
      let kept := x.m / 2 ^ k
      let rem := x.m % 2 ^ k
      let half := 2 ^ (k - 1)
      let lost := rem != 0 || x.tail
      let up := match mode with
        | 0 => half < rem || (rem == half && (x.tail || kept % 2 == 1))
        | 1 => false
        | 2 => x.neg && lost
        | _ => !x.neg && lost
      (if up then kept + 1 else kept, lost)

/-- What Table 9.2 gives on overflow: true for the largest finite value. -/
def overflowToMax (mode : Nat) (neg : Bool) : Bool :=
  match mode with
  | 0 => false
  | 1 => true
  | 2 => !neg
  | _ => neg

/-- Put the sign on an image. -/
def Fmt.sign (f : Fmt) (neg : Bool) (img : Nat) : Nat := if neg then img + f.signBit else img

/-- Round an exact nonzero value to a format: image and flags (R207 to R209). Modes: 0 RNE, 1 RTZ, 2 RDN, 3 RUP. -/
def fround (f : Fmt) (mode : Nat) (sat : Bool) (x : Exact) : Nat × Nat :=
  if x.m = 0 ∧ ¬ x.tail then (f.sign x.neg 0, 0)
  else
    let top := x.e + bitLen x.m - 1
    let qmin : Int := 1 - (f.bias : Int) - f.mbits
    let qu := top - f.mbits
    let q := max qu qmin
    let r := roundAt mode x q
    let qmax : Int := qmin + (f.maxImg >>> f.mbits : Nat) - 1
    let beyond := qmax < q || f.maxImg < (q - qmin).toNat * 2 ^ f.mbits + r.1
    if beyond then
      let fl := flOF + flNX
      if sat || overflowToMax mode x.neg then (f.sign x.neg f.maxImg, fl)
      else if f.ieee then (f.sign x.neg f.infImg, fl) else (f.nanImg, fl)
    else
      let img := (q - qmin).toNat * 2 ^ f.mbits + r.1
      let emin : Int := 1 - (f.bias : Int)
      let tiny := top + 1 < emin || (top + 1 == emin && (roundAt mode x qu).1 < 2 ^ (f.mbits + 1))
      let fl := if r.2 then (if tiny then flNX + flUF else flNX) else 0
      (f.sign x.neg img, fl)

/-- Rounding mode of a selector (Table 9.2). -/
def rmOf (fmodeRm rsel : Nat) : Nat := if rsel = 0 then fmodeRm else rsel - 1

/-- The image of an infinity under `.sat` and in E4M3 (R208, R324). -/
def finf (f : Fmt) (sat neg : Bool) : Nat × Nat :=
  if sat then (f.sign neg f.maxImg, 0)
  else if f.ieee then (f.sign neg f.infImg, 0)
  else (f.nanImg, flNV)

/-- NaN result of operands: NV if one signals (R206). -/
def fnan (f : Fmt) (vs : List FVal) : Nat × Nat := (f.nanImg, if vs.any FVal.isSnan then flNV else 0)
/-- Invalid operation. -/
def finvalid (f : Fmt) : Nat × Nat := (f.nanImg, flNV)

/-- Exact sum of two finite values; the sign of an exact zero sum is R209's. -/
def addFin (mode : Nat) (n1 : Bool) (m1 : Nat) (e1 : Int) (n2 : Bool) (m2 : Nat) (e2 : Int) : Exact :=
  if m1 = 0 ∧ m2 = 0 then { neg := if n1 = n2 then n1 else mode == 2, m := 0, e := 0, tail := false }
  else if m1 = 0 then { neg := n2, m := m2, e := e2, tail := false }
  else if m2 = 0 then { neg := n1, m := m1, e := e1, tail := false }
  else
    let e := min e1 e2
    let a : Int := (m1 * 2 ^ (e1 - e).toNat : Nat)
    let b : Int := (m2 * 2 ^ (e2 - e).toNat : Nat)
    let s := (if n1 then -a else a) + (if n2 then -b else b)
    { neg := if s = 0 then mode == 2 else s < 0, m := s.natAbs, e := e, tail := false }

/-- a + b (FADD). -/
def faddV (f : Fmt) (mode : Nat) (sat : Bool) (a b : FVal) : Nat × Nat :=
  match a, b with
  | .nan _, _ => fnan f [a, b]
  | _, .nan _ => fnan f [a, b]
  | .inf n, .inf m => if n = m then finf f sat n else finvalid f
  | .inf n, _ => finf f sat n
  | _, .inf n => finf f sat n
  | .fin n1 m1 e1, .fin n2 m2 e2 => fround f mode sat (addFin mode n1 m1 e1 n2 m2 e2)

/-- a × b (FMUL). -/
def fmulV (f : Fmt) (mode : Nat) (sat : Bool) (a b : FVal) : Nat × Nat :=
  match a, b with
  | .nan _, _ => fnan f [a, b]
  | _, .nan _ => fnan f [a, b]
  | .inf n, .inf m => finf f sat (n != m)
  | .inf n, .fin m k _ => if k = 0 then finvalid f else finf f sat (n != m)
  | .fin m k _, .inf n => if k = 0 then finvalid f else finf f sat (n != m)
  | .fin n1 m1 e1, .fin n2 m2 e2 => fround f mode sat { neg := n1 != n2, m := m1 * m2, e := e1 + e2, tail := false }

/-- a × b + c with one rounding (FMA). -/
def fmaV (f : Fmt) (mode : Nat) (sat : Bool) (a b c : FVal) : Nat × Nat :=
  let zeroInf := (a.isZero && b.isInf) || (a.isInf && b.isZero)
  if a.isNan || b.isNan || c.isNan then
    (if zeroInf then finvalid f else fnan f [a, b, c])
  else if zeroInf then finvalid f
  else
    match a, b, c with
    | .fin n1 m1 e1, .fin n2 m2 e2, .fin n3 m3 e3 =>
      fround f mode sat (addFin mode (n1 != n2) (m1 * m2) (e1 + e2) n3 m3 e3)
    | .fin _ _ _, .fin _ _ _, c => finf f sat c.neg
    | a, b, .inf n => if (a.neg != b.neg) = n then finf f sat n else finvalid f
    | a, b, _ => finf f sat (a.neg != b.neg)

def fadd (f : Fmt) (mode : Nat) (sat : Bool) (a b : Nat) : Nat × Nat := faddV f mode sat (fdec f a) (fdec f b)
def fsub (f : Fmt) (mode : Nat) (sat : Bool) (a b : Nat) : Nat × Nat := faddV f mode sat (fdec f a) (fdec f b).negate
def fmul (f : Fmt) (mode : Nat) (sat : Bool) (a b : Nat) : Nat × Nat := fmulV f mode sat (fdec f a) (fdec f b)
def fma (f : Fmt) (mode : Nat) (sat : Bool) (a b c : Nat) : Nat × Nat :=
  fmaV f mode sat (fdec f a) (fdec f b) (fdec f c)

/-- FMULZ: a zero factor masks whatever the other is (R213). -/
def fmulz (f : Fmt) (mode : Nat) (sat : Bool) (a b : Nat) : Nat × Nat :=
  let x := fdec f a
  let y := fdec f b
  if x.isZero || y.isZero then (f.sign (bit a (f.ebits + f.mbits) != bit b (f.ebits + f.mbits)) 0, 0)
  else fmulV f mode sat x y

/-- FMAZ: a zero factor gives a zero product and no flag (R213); R324 names NV there with a quiet NaN addend (DEDUCED [96]). -/
def fmaz (f : Fmt) (mode : Nat) (sat : Bool) (a b c : Nat) : Nat × Nat :=
  let x := fdec f a
  let y := fdec f b
  if x.isZero || y.isZero then
    faddV f mode sat (.fin (bit a (f.ebits + f.mbits) != bit b (f.ebits + f.mbits)) 0 0) (fdec f c)
  else fmaV f mode sat x y (fdec f c)

/-- Signed comparison of two values that are no NaN; +0 and −0 compare equal. -/
def fltV (a b : FVal) : Bool :=
  match a, b with
  | .inf n, .inf m => n && !m
  | .inf n, _ => n
  | _, .inf m => !m
  | .fin n1 m1 e1, .fin n2 m2 e2 =>
    let e := min e1 e2
    let x : Int := (m1 * 2 ^ (e1 - e).toNat : Nat)
    let y : Int := (m2 * 2 ^ (e2 - e).toNat : Nat)
    (if n1 then -x else x) < (if n2 then -y else y)
  | _, _ => false
/-- Equality of two values that are no NaN. -/
def feqV (a b : FVal) : Bool := !a.isNan && !b.isNan && !fltV a b && !fltV b a
def fleV (a b : FVal) : Bool := !a.isNan && !b.isNan && !fltV b a

/-- The order of R325: as `fltV`, and −0 below +0. -/
def fminLt (a b : FVal) : Bool := fltV a b || (a.isZero && b.isZero && a.neg && !b.neg)

/-- FMIN and FMAX (R325). -/
def fminmax (f : Fmt) (isMax : Bool) (a b : Nat) : Nat × Nat :=
  let x := fdec f a
  let y := fdec f b
  let fl := if x.isSnan || y.isSnan then flNV else 0
  let w := 2 ^ (f.ebits + f.mbits + 1)
  if x.isNan && y.isNan then (f.nanImg, fl)
  else if x.isNan then (b % w, fl)
  else if y.isNan then (a % w, fl)
  else
    let aFirst := fminLt x y
    ((if aFirst != isMax then a % w else b % w), fl)

/-- FCMP: the answer and its flags (Table 13.3). -/
def fcmp (f : Fmt) (rel a b : Nat) : Bool × Nat :=
  let x := fdec f a
  let y := fdec f b
  let n := x.isNan || y.isNan
  let s := x.isSnan || y.isSnan
  let r := match rel with
    | 0 => feqV x y
    | 1 => !feqV x y
    | 2 => !n && fltV x y
    | 3 => fleV x y
    | 4 => !n && fltV y x
    | 5 => fleV y x
    | 6 => n
    | _ => !n
  (r, if s || (n && 2 ≤ rel && rel ≤ 5) then flNV else 0)

/-- FCLASS (R327). -/
def fclass (f : Fmt) (a : Nat) : Nat :=
  match fdec f a with
  | .nan s => if s then 1 else 2
  | .inf n => if n then 4 else 512
  | .fin n m _ =>
    if m = 0 then (if n then 32 else 64)
    else if m < 2 ^ f.mbits then (if n then 16 else 128)
    else (if n then 8 else 256)

/-- Round a finite value to an integer magnitude, and whether that lost something. -/
def toInteger (mode : Nat) (neg : Bool) (m : Nat) (e : Int) : Nat × Bool :=
  roundAt mode { neg := neg, m := m, e := e, tail := false } 0

/-- FRND (R324): the sign of a is kept. -/
def frnd (f : Fmt) (mode : Nat) (a : Nat) : Nat × Nat :=
  match fdec f a with
  | .nan s => (f.nanImg, if s then flNV else 0)
  | .inf n => (f.sign n f.infImg, 0)
  | .fin n m e =>
    if 0 ≤ e ∨ m = 0 then (f.sign n (a % f.signBit), 0)
    else
      let r := toInteger mode n m e
      ((fround f 1 false { neg := n, m := r.1, e := 0, tail := false }).1, if r.2 then flNX else 0)

/-- FSCALE: a × 2^b, one rounding. -/
def fscale (f : Fmt) (mode : Nat) (sat : Bool) (a : Nat) (b : Int) : Nat × Nat :=
  match fdec f a with
  | .nan s => (f.nanImg, if s then flNV else 0)
  | .inf n => finf f sat n
  | .fin n m e => fround f mode sat { neg := n, m := m, e := e + b, tail := false }

/-- FSQRT (R324): correctly rounded. -/
def sqrtExact (m : Nat) (e : Int) : Exact :=
  let odd := e % 2 != 0
  let m' := if odd then 2 * m else m
  let e' := if odd then e - 1 else e
  let k := 40 + bitLen m'
  let x := m' * 4 ^ k
  let r := isqrt x
  { neg := false, m := r, e := e' / 2 - k, tail := r * r != x }

def fsqrt (f : Fmt) (mode : Nat) (a : Nat) : Nat × Nat :=
  match fdec f a with
  | .nan s => (f.nanImg, if s then flNV else 0)
  | .inf n => if n then finvalid f else (f.infImg, 0)
  | .fin n m e =>
    if m = 0 then (f.sign n 0, 0)
    else if n then finvalid f
    else fround f mode false (sqrtExact m e)

/-- Exact quotient with a tail: (m1 × 2^e1) ÷ (m2 × 2^e2), m2 ≠ 0. -/
def divExact (neg : Bool) (m1 : Nat) (e1 : Int) (m2 : Nat) (e2 : Int) : Exact :=
  let k := bitLen m2 + 64
  let x := m1 * 2 ^ k
  { neg := neg, m := x / m2, e := e1 - e2 - k, tail := x % m2 != 0 }

/-- Convert a value of one format to another (R329): exact when widening. -/
def fcvt (dst : Fmt) (mode : Nat) (sat : Bool) (v : FVal) : Nat × Nat :=
  match v with
  | .nan s => (dst.nanImg, if s then flNV else 0)
  | .inf n => finf dst sat n
  | .fin n m e => fround dst mode sat { neg := n, m := m, e := e, tail := false }

/-- An integer as a floating-point result: 0 is +0. -/
def fofInt (f : Fmt) (mode : Nat) (sat : Bool) (x : Int) (e : Int) : Nat × Nat :=
  fround f mode sat { neg := x < 0, m := x.natAbs, e := e, tail := false }

/-- Floating point to integer (R329): rounded, clamped; NV for a clamped value or a NaN, else NX when inexact. -/
def ftoInt (mode : Nat) (lo hi : Int) (v : FVal) : Int × Nat :=
  match v with
  | .nan _ => (0, flNV)
  | .inf n => (if n then lo else hi, flNV)
  | .fin n m e =>
    if 200 < e then (if m = 0 then (0, 0) else (if n then lo else hi, flNV))
    else
      let r := toInteger mode n m e
      let x : Int := if n then -(r.1 : Int) else r.1
      if x < lo then (lo, flNV)
      else if hi < x then (hi, flNV)
      else (x, if r.2 then flNX else 0)

end Sys2Proof.Machine
end

