-- ==== Sys2Proof/Machine/Matrix.lean ====
section
/-! DEFINITION. The matrix accumulator (R215, R219 to R225, R232): formats, tiles as functions, slices, renormalisation,
promotion. -/
namespace Sys2Proof.Machine

/-- What a format code means (Table 9.7): element width in bits, whether it is ZF8. -/
structure ZFmt where
  width : Nat
  zf8 : Bool
  deriving DecidableEq, Repr

/-- An A code of Table 9.7. -/
def aFmt (c : Nat) : Option ZFmt :=
  if 1 ≤ c ∧ c ≤ 8 then some { width := c, zf8 := false }
  else if c = 0x10 then some { width := 16, zf8 := false }
  else if c = 0x20 then some { width := 8, zf8 := true }
  else none
/-- A B code of Table 9.7: no ZB16. -/
def bFmt (c : Nat) : Option ZFmt := if c = 0x10 then none else aFmt c

/-- An agreed format word is allowed (R219, R220). -/
def fmtWordOk (w : Nat) : Bool :=
  w / 2 ^ 24 == 0 && bits w 23 16 ≤ 1 && (aFmt (w % 256)).isSome && (bFmt (bits w 15 8)).isSome

/-- The integer of an element code (R215, R221): none for an E4M3 NaN. -/
def elemInt (f : ZFmt) (code : Nat) : Option Int :=
  if f.zf8 then
    match fdec e4m3 code with
    | .fin n m e => let v : Int := (m * 2 ^ (e + 9).toNat : Nat); some (if n then -v else v)
    | _ => none
  else if f.width = 1 then some (if code = 0 then -1 else 1)
  else some (sext code f.width)

/-- RoundNE of x × 2^n to an integer; 0 when n ≤ −64 (R223). -/
def align (x n : Int) : Int :=
  if 0 ≤ n then x * 2 ^ n.toNat
  else if n ≤ -64 then 0
  else
    let k := (-n).toNat
    let fl := x / 2 ^ k
    let r := x % 2 ^ k
    if r * 2 > 2 ^ k ∨ (r * 2 = 2 ^ k ∧ fl % 2 = 1) then fl + 1 else fl

/-- One block's contribution to one cell: none for a NaN block, else S_j and x_j (R222, R224). -/
abbrev Part := Option (Int × Int)

/-- One cell: mantissa and sticky NaN flag (R222). -/
structure Cell where
  m : Int
  nan : Bool
  deriving DecidableEq, Repr

/-- The tile: cells in order, and the shared exponent, unset at the start of a period. -/
structure Acc where
  cells : List Cell
  e : Option Int
  deriving DecidableEq, Repr

def addend (p : Part) (e d : Int) : Int :=
  match p with
  | some (s, x) => align s (x - e - d)
  | none => 0

/-- The smallest d in 1 .. n by which renormalising fits every cell (R223); n if none smaller does. -/
def smallestD (cs : List (Cell × Part)) (e : Int) : Nat → Nat → Nat
  | 0, d => d
  | n + 1, d =>
    if cs.all fun c => (align c.1.m (-(d : Int)) + addend c.2 e d).natAbs < 2 ^ 46 then d
    else smallestD cs e n (d + 1)

/-- Add block j to every cell (R223). -/
def accBlock (a : Acc) (e : Int) (ps : List Part) : List Cell × Int :=
  let cs := a.cells.zip ps
  let beyond := cs.any fun c => 2 ^ 46 ≤ (c.1.m + addend c.2 e 0).natAbs
  let d : Int := if beyond then (smallestD cs e 700 1 : Nat) else 0
  (cs.map fun c =>
    { m := (if beyond then align c.1.m (-d) else c.1.m) + addend c.2 e d, nan := c.1.nan || c.2.isNone }, e + d)

/-- The largest x_j of a slice over every cell and block; 0 when every block is NaN (R223). -/
def sliceMax (blocks : List (List Part)) : Int :=
  let xs := blocks.flatMap fun ps => ps.filterMap fun p => p.map (·.2)
  xs.tail.foldl max (xs.headD 0)

/-- One slice of four blocks (R223). -/
def accSlice (a : Acc) (blocks : List (List Part)) : Acc :=
  let e := match a.e with
    | some e => e
    | none => sliceMax blocks
  let r := blocks.foldl (fun st ps => accBlock { cells := st.1, e := none } st.2 ps) (a.cells, e)
  { cells := r.1, e := some r.2 }

/-- V of a cell at promotion (R225). -/
def promoteV (c : Cell) (e : Int) : Nat := if c.nan then fp32.nanImg else (fofInt fp32 0 false c.m e).1

/-- The destination after a promotion (R225): V itself at SET's first promotion, else RoundNE(destination + V). -/
def promoteInto (set : Bool) (dest v : Nat) : Nat := if set then v else (fadd fp32 0 false dest v).1

end Sys2Proof.Machine
end

