-- ==== Sys2Proof/Machine/Sha.lean ====
section
/-! DEFINITION. SHA-256, which R23, R49, R52 and R256 name. PRESUMED [3]: it is that of FIPS 180-4, which the manual names and does not
print. Its constants are computed from what defines them: roots of the first primes. -/
namespace Sys2Proof.Machine

/-! ### Constants -/

/-- The first 64 primes: what the primes below 18 do not divide, among the numbers below 312. -/
def shaPrimes : List Nat :=
  (List.range 312).filter fun n => decide (2 ≤ n) && [2, 3, 5, 7, 11, 13, 17].all fun p => n % p != 0 || n == p

/-- Floor of the cube root, one bit at a time from bit n-1 down. -/
def cubeRootFrom (x : Nat) : Nat → Nat → Nat
  | 0, r => r
  | n + 1, r => cubeRootFrom x n (if (r + 2 ^ n) ^ 3 ≤ x then r + 2 ^ n else r)

/-- The constant of each round: the first 32 bits after the point of the cube root of a prime. -/
def roundConstants : List Word := shaPrimes.map fun p => BitVec.ofNat 32 (cubeRootFrom (p * 2 ^ 96) 36 0)

/-! ### A round

The eight working words are two histories of four, the newest first: the words that FIPS 180-4 calls a to d, and those that it calls
e to h. The sixteen next words of the schedule wait in a window, the oldest first. -/

structure ShaState where
  upper : List Word
  lower : List Word
  window : List Word

/-- The histories before the first block: square roots of the first eight primes. -/
def shaStart : List Word × List Word :=
  let roots := (shaPrimes.take 8).map fun p => (BitVec.ofNat 32 (isqrtFrom (p * 2 ^ 64) 35 0) : Word)
  (roots.take 4, roots.drop 4)

/-- XOR of three right turns of a word. -/
def turns (x : Word) (i j k : Nat) : Word := x.rotateRight i ^^^ x.rotateRight j ^^^ x.rotateRight k

/-- The word that joins the schedule sixteen rounds after the oldest word of the window. -/
def scheduleNext (w : List Word) : Word :=
  let early := w.getD 1 0
  let late := w.getD 14 0
  w.headD 0 + w.getD 9 0 + (early.rotateRight 7 ^^^ early.rotateRight 18 ^^^ (early >>> 3)) +
    (late.rotateRight 17 ^^^ late.rotateRight 19 ^^^ (late >>> 10))

/-- One round with its constant. -/
def shaStep (s : ShaState) (k : Word) : ShaState :=
  let x := fun i => s.upper.getD i 0
  let y := fun i => s.lower.getD i 0
  let mix := s.window.headD 0 + k + y 3 + turns (y 0) 6 11 25 + (y 2 ^^^ (y 0 &&& (y 1 ^^^ y 2)))
  let most := (x 0 &&& (x 1 ||| x 2)) ||| (x 1 &&& x 2)
  { upper := (mix + turns (x 0) 2 13 22 + most) :: s.upper.take 3
    lower := (x 3 + mix) :: s.lower.take 3
    window := s.window.drop 1 ++ [scheduleNext s.window] }

/-- The histories after a block of 64 bytes. -/
def shaAbsorb (h : List Word × List Word) (block : List Byte) : List Word × List Word :=
  let words := (List.range 16).map fun i => (BitVec.ofNat 32 (leNat (takeAt block (4 * i) 4).reverse) : Word)
  let s := roundConstants.foldl shaStep { upper := h.1, lower := h.2, window := words }
  (List.zipWith (· + ·) h.1 s.upper, List.zipWith (· + ·) h.2 s.lower)

/-! ### The digest -/

/-- A message with its padding: a one bit, zeros up to a whole number of blocks, its length in bits. -/
def shaPadded (m : List Byte) : List Byte :=
  m ++ 0x80 :: List.replicate (63 - (m.length + 8) % 64) 0 ++ beBytes 8 (8 * m.length)

/-- SHA-256 of a byte list, 32 bytes, digest byte 0 first (R256). -/
def sha256 (m : List Byte) : List Byte :=
  let p := shaPadded m
  let h := (List.range (p.length / 64)).foldl (fun h i => shaAbsorb h ((p.drop (64 * i)).take 64)) shaStart
  (h.1 ++ h.2).flatMap fun w => beBytes 4 w.toNat

end Sys2Proof.Machine
end

