-- ==== Sys2Proof/Syntax.lean ====
section
/-! DEFINITION. The syntax: operand layouts of the encodings (11, 12, 13, 14, 15; pilots 03 R65; Ferry descriptors 02 R36)
and `Instr`, one constructor for each of the 324 rows of spec/opcode_table.json. A row that is a hardware or host event
carries, as its operands, who it concerns and what the outside supplies. -/
namespace Sys2Proof

/-- The S-form (R259). -/
structure SOp where
  u : Bool
  d : BitVec 7
  a : BitVec 7
  b : BitVec 7
  x : Bool
  deriving DecidableEq, Repr, Inhabited

/-- The L-form, and with a third word `w2` the X-form (R262, R268). -/
structure LOp where
  u : Bool
  d : BitVec 9
  a : BitVec 9
  sub : BitVec 3
  b : BitVec 9
  bw : BitVec 2
  bh : BitVec 2
  bs : BitVec 5
  ps : BitVec 4
  pm : BitVec 2
  ak : Bool
  bk : Bool
  mod : BitVec 6
  w2 : Option Word
  deriving DecidableEq, Repr, Inhabited

/-- The control layout (R269); `w2` is GUARD's and GUARDC's second offset. -/
structure CtlOp where
  u : Bool
  d : BitVec 9
  a : BitVec 9
  sub : BitVec 3
  offset : BitVec 24
  pred : BitVec 4
  sense : BitVec 2
  kind : BitVec 2
  w2 : Option Word
  deriving DecidableEq, Repr, Inhabited

/-- The memory layout (R344); `zero` is bits 22:14, `w2` a literal offset. IVLD and IVST carry their NT bit as MOD bit 5 (R340). -/
structure MemOp where
  u : Bool
  d : BitVec 9
  a : BitVec 9
  sub : BitVec 3
  b : BitVec 9
  zero : BitVec 9
  ps : BitVec 4
  pm : BitVec 2
  ak : Bool
  bk : Bool
  nt : Bool
  scope : BitVec 3
  mark : BitVec 2
  w2 : Option Word
  deriving DecidableEq, Repr, Inhabited

/-- The atomic layout (R355); `w2` holds C, or SRED's peer. -/
structure AtomOp where
  u : Bool
  d : BitVec 9
  a : BitVec 9
  sub : BitVec 3
  b : BitVec 9
  scope : BitVec 3
  mark : BitVec 2
  zero : BitVec 4
  ps : BitVec 4
  pm : BitVec 2
  ak : Bool
  bk : Bool
  ty : BitVec 3
  x4 : Bool
  low : BitVec 2
  w2 : Option Word
  deriving DecidableEq, Repr, Inhabited

/-- The trace header of R287 (Tables 5.3 and 12.2). -/
structure TraceHdr where
  kind : BitVec 2
  mode : Bool
  nlen : BitVec 8
  nstore : BitVec 5
  nshadow : BitVec 6
  natom : BitVec 3
  npost : BitVec 3
  nspawn : Bool
  zero : Bool
  rejoin : BitVec 12
  park : BitVec 12
  deriving DecidableEq, Repr, Inhabited

/-- WAITC's four allowances (R300); 255 means no condition. -/
structure WaitCounts where
  ld : Byte
  st : Byte
  cp : Byte
  tl : Byte
  deriving DecidableEq, Repr, Inhabited

/-- LDLIT's fields (R350). -/
structure LitOp where
  u : Bool
  d : BitVec 9
  sub : BitVec 3
  offset : BitVec 24
  deriving DecidableEq, Repr, Inhabited

/-- Why a word has no instruction: the steps of R284 that end in code 48 without an opcode's own meaning. -/
inductive DecodeError where
  /-- Fewer bytes than the form needs. -/
  | short
  /-- LEN 11 (R258). -/
  | len11
  /-- An opcode no map allocates, experimental ones included (R279, R280, R282). -/
  | unallocated (op : Nat)
  /-- A reserved field, or a field value or form that the opcode's description refuses with code 48 (R266, R284). -/
  | reserved
  /-- A pilot word that the verifier refuses with code 4 or 5 (R65, R67). -/
  | pilot (code : Nat)
  deriving DecidableEq, Repr, Inhabited

/-- A Ferry command descriptor, field by field (Table 2.2). -/
structure FerryDesc where
  op : Byte
  flags : Byte
  zero1 : BitVec 16
  tag : Word
  daddr : DWord
  haddr : DWord
  len : Word
  zero2 : Word
  arg : List Byte
  deriving DecidableEq, Repr, Inhabited

/-- The six ring base and size registers of a window (Table 2.1). -/
inductive RingReg where
  | cmdBase | cmdSize | cplBase | cplSize | evBase | evSize
  deriving DecidableEq, Repr, Inhabited

/-- What the check code of a line shows as it is read (R26, R27): nothing, a corrected error found under a HOP code,
or uncorrectable words (one bit per 8-byte word of the 64-byte line). -/
inductive LineError where
  | clean
  | corrected (hop : Nat) (synd : BitVec 16)
  | bad (hop : Nat) (mask : Byte) (synd : BitVec 16)
  deriving DecidableEq, Repr, Inhabited

/-- The memory-side faults of an atomic (R156). -/
inductive MemFault where
  | secondTier | bankRetry | held
  deriving DecidableEq, Repr, Inhabited

/-- What an SRED element at its die's switch does next (R360): it joins the merge window, or it, or the pair that it stands in, goes to
its home, where a memory-side fault may stand. -/
inductive SredTurn where
  | joins
  | applies (fault : Option MemFault)
  deriving DecidableEq, Repr, Inhabited

/-- What one die finds in boot flash (R23, R48): two configuration records, the keys, certificates and firmware image. -/
structure DieFlash where
  primary : List Byte
  secondary : List Byte
  rootKey : List Byte
  firmwareCert : List Byte
  configCert : List Byte
  firmware : List Byte
  firmwareVersion : Word
  firmwareSig : List Byte
  rom : List Byte
  deriving DecidableEq, Repr, Inhabited

/-- Boot flash of the package, die 0 first, and the size each CXL port's device reports, in bytes, none if enumeration fails (R16). -/
structure BootFlash where
  dies : List DieFlash
  cxl : List (Option Nat)
  deriving DecidableEq, Repr, Inhabited

/-- The four kinds of engine queue (Table 6.6). -/
inductive QueueKind where
  | mq | cq | lq | kq
  deriving DecidableEq, Repr, Inhabited

/-- One engine queue: its kind, its core, cluster or die index, and the partition (Table 6.6). -/
structure QueueRef where
  kind : QueueKind
  unit : Nat
  part : Nat
  deriving DecidableEq, Repr, Inhabited

/-- A barrier: of a workgroup (BAR), or of one cluster of a launch (CBAR) (R305). -/
structure BarrierRef where
  part : Nat
  serial : Word
  cluster : Bool
  place : Nat
  num : Nat
  deriving DecidableEq, Repr, Inhabited

/-- What a collective peer posted and sent (R243, R244): its rank, its command fields and its bytes. -/
structure PeerContribution where
  rank : Nat
  ctype : Byte
  etype : Byte
  root : Byte
  len : Word
  nrank : Byte
  data : List Byte
  deriving DecidableEq, Repr, Inhabited

/-- A request over SPDM (R50): version, two parameters, and what follows the four bytes that every message begins with. Its code names
the row. -/
structure SpdmReq where
  version : Byte
  param1 : Byte
  param2 : Byte
  body : List Byte
  deriving DecidableEq, Repr, Inhabited

/-- The instructions: every row of the opcode table. The rows that a decoder builds (core words, pilot words, Ferry
descriptors) stand first, since Lean's compiler builds at most 244 constructors with fields; the events and the constructors without
fields follow. -/
inductive Instr where
  | ferryWrite (w : Nat) (d : FerryDesc)
  | ferryRead (w : Nat) (d : FerryDesc)
  | ferryTail (w : Nat) (d : FerryDesc)
  | ferryRearm (w : Nat) (d : FerryDesc)
  | ferryLaunch (w : Nat) (d : FerryDesc)
  | sealRange (w : Nat) (d : FerryDesc)
  | inval (w : Nat) (d : FerryDesc)
  | service (w : Nat) (d : FerryDesc)
  | budget (w : Nat) (d : FerryDesc)
  | modeset (w : Nat) (d : FerryDesc)
  | thresh (w : Nat) (d : FerryDesc)
  | pcreate (w : Nat) (d : FerryDesc)
  | pdestroy (w : Nat) (d : FerryDesc)
  | ferryBadop (w : Nat) (d : FerryDesc)
  | ldp (d : BitVec 3) (sz : BitVec 3) (imm : BitVec 18)
  | ldq (d : BitVec 3) (sz : BitVec 3) (imm : BitVec 18)
  | stq (a : BitVec 3) (sz : BitVec 3) (imm : BitVec 18)
  | ldi (d : BitVec 3) (imm : BitVec 18)
  | pilotAdd (d a b : BitVec 3)
  | pilotSub (d a b : BitVec 3)
  | pilotAddi (d a : BitVec 3) (imm : BitVec 18)
  | pilotAnd (d a b : BitVec 3)
  | pilotOr (d a b : BitVec 3)
  | pilotXor (d a b : BitVec 3)
  | pilotShl (d a : BitVec 3) (imm : BitVec 18)
  | pilotShr (d a : BitVec 3) (imm : BitVec 18)
  | beq (a b : BitVec 3) (imm : BitVec 18)
  | bne (a b : BitVec 3) (imm : BitVec 18)
  | bltu (a b : BitVec 3) (imm : BitVec 18)
  | loop (d a : BitVec 3) (imm : BitVec 18)
  | stl (a : BitVec 3) (sz : BitVec 3) (imm : BitVec 18)
  | pilotLaunch (d : BitVec 3)
  | sigw (a b : BitVec 3) (host : Bool)
  | sigwait (a b : BitVec 3) (host : Bool) (rel : BitVec 2)
  | emit (a : BitVec 3)
  | fault (imm : BitVec 18)
  | unallocatedOpcode (why : DecodeError) (w : List Word)
  | iaddS (o : SOp)
  | isubS (o : SOp)
  | imulS (o : SOp)
  | imulhS (o : SOp)
  | iminS (o : SOp)
  | imaxS (o : SOp)
  | iabsS (o : SOp)
  | inegS (o : SOp)
  | andS (o : SOp)
  | orS (o : SOp)
  | xorS (o : SOp)
  | andnS (o : SOp)
  | notS (o : SOp)
  | shlS (o : SOp)
  | shrS (o : SOp)
  | sarS (o : SOp)
  | rotS (o : SOp)
  | popcS (o : SOp)
  | clzS (o : SOp)
  | brevS (o : SOp)
  | movS (o : SOp)
  | faddS (o : SOp)
  | fsubS (o : SOp)
  | fmulS (o : SOp)
  | fmulzS (o : SOp)
  | fminS (o : SOp)
  | fmaxS (o : SOp)
  | frcpS (o : SOp)
  | frsqS (o : SOp)
  | fsqrtS (o : SOp)
  | fexp2S (o : SOp)
  | flog2S (o : SOp)
  | fsinS (o : SOp)
  | fcosS (o : SOp)
  | ftanhS (o : SOp)
  | trace (h : TraceHdr)
  | endTrace (o : CtlOp)
  | endx (o : LOp)
  | join (o : CtlOp)
  | guard (o : CtlOp)
  | guardc (o : CtlOp)
  | callt (o : CtlOp)
  | trap (o : LOp)
  | brk (o : LOp)
  | plogic (o : LOp)
  | pnot (o : LOp)
  | pmov (o : LOp)
  | pvote (o : LOp)
  | ptov (o : LOp)
  | vtop (o : LOp)
  | pforce (o : LOp)
  | waitc (c : WaitCounts)
  | waitp (o : LOp)
  | waitseq (o : LOp)
  | bar (o : CtlOp)
  | cbar (o : CtlOp)
  | fence (o : LOp)
  | qfence (o : LOp)
  | qopen (o : LOp)
  | qclose (o : LOp)
  | pushq (o : CtlOp)
  | popq (o : CtlOp)
  | qstat (o : LOp)
  | ticket (o : LOp)
  | spawn (o : LOp)
  | iadd (o : LOp)
  | isub (o : LOp)
  | iaddc (o : LOp)
  | imul (o : LOp)
  | imulh (o : LOp)
  | imad (o : LOp)
  | imin (o : LOp)
  | imax (o : LOp)
  | iabs (o : LOp)
  | ineg (o : LOp)
  | and (o : LOp)
  | or (o : LOp)
  | xor (o : LOp)
  | andn (o : LOp)
  | not (o : LOp)
  | shl (o : LOp)
  | shr (o : LOp)
  | sar (o : LOp)
  | rot (o : LOp)
  | bfe (o : LOp)
  | bfi (o : LOp)
  | popc (o : LOp)
  | clz (o : LOp)
  | brev (o : LOp)
  | icmp (o : LOp)
  | sel (o : LOp)
  | lea (o : LOp)
  | mov (o : LOp)
  | movi (o : LOp)
  | fadd (o : LOp)
  | fsub (o : LOp)
  | fmul (o : LOp)
  | fmulz (o : LOp)
  | fma (o : LOp)
  | fmaz (o : LOp)
  | fmin (o : LOp)
  | fmax (o : LOp)
  | fcmp (o : LOp)
  | fclass (o : LOp)
  | frnd (o : LOp)
  | fscale (o : LOp)
  | frcp (o : LOp)
  | frsq (o : LOp)
  | fsqrt (o : LOp)
  | fexp2 (o : LOp)
  | flog2 (o : LOp)
  | fsin (o : LOp)
  | fcos (o : LOp)
  | ftanh (o : LOp)
  | cvt (o : LOp)
  | pack (o : LOp)
  | unpack (o : LOp)
  | dot4 (o : LOp)
  | dot8 (o : LOp)
  | bscale (o : LOp)
  | ivmake (o : LOp)
  | ivadd (o : LOp)
  | ivsub (o : LOp)
  | ivmul (o : LOp)
  | ivdiv (o : LOp)
  | ivsqr (o : LOp)
  | ivsqrt (o : LOp)
  | ivhull (o : LOp)
  | ivisect (o : LOp)
  | ivmid (o : LOp)
  | ivwid (o : LOp)
  | ivcmp (o : LOp)
  | ivsplit (o : LOp)
  | ivbis (o : LOp)
  | ivld (o : MemOp)
  | ivst (o : MemOp)
  | ivmakeIv16 (o : LOp)
  | ivaddIv16 (o : LOp)
  | ivsubIv16 (o : LOp)
  | ivmulIv16 (o : LOp)
  | ivdivIv16 (o : LOp)
  | ivsqrIv16 (o : LOp)
  | ivsqrtIv16 (o : LOp)
  | ivhullIv16 (o : LOp)
  | ivisectIv16 (o : LOp)
  | ivmidIv16 (o : LOp)
  | ivwidIv16 (o : LOp)
  | ivcmpIv16 (o : LOp)
  | ivsplitIv16 (o : LOp)
  | ivbisIv16 (o : LOp)
  | ivldIv16 (o : MemOp)
  | ivstIv16 (o : MemOp)
  | shfl (o : LOp)
  | qswap (o : LOp)
  | qbcast (o : LOp)
  | matchLanes (o : LOp)
  | redux (o : LOp)
  | scan (o : LOp)
  | rdlane (o : LOp)
  | wrlane (o : LOp)
  | ld (o : MemOp)
  | st (o : MemOp)
  | ldu (o : MemOp)
  | stu (o : MemOp)
  | lds (o : MemOp)
  | sts (o : MemOp)
  | lda (o : MemOp)
  | ldlit (o : LitOp)
  | pref (o : MemOp)
  | cctl (o : MemOp)
  | icinv (o : LOp)
  | atom (o : AtomOp)
  | atoms (o : AtomOp)
  | red (o : AtomOp)
  | sred (o : AtomOp)
  | bop (o : AtomOp)
  | gang (o : LOp)
  | mma (o : LOp)
  | layout (o : LOp)
  | copy (o : LOp)
  | gather (o : LOp)
  | scatter (o : LOp)
  | coll (o : LOp)
  | seqrd (o : LOp)
  | rcall (o : CtlOp)
  | rread (o : LOp)
  | rsync (o : LOp)
  | rret (o : LOp)
  | tstep (o : LOp)
  | pdgset (o : LOp)
  | pdgrd (o : LOp)
  | dlog (o : LOp)
  | sysrd (o : LOp)
  | sysrdCycle (o : LOp)
  | syswrFmode (o : LOp)
  | syswrFstat (o : LOp)
  | syswrSfrqPop (o : LOp)
  | syswrSfrqClearLost (o : LOp)
  | syswrPreempt (o : LOp)
  | syswrSavelo (o : LOp)
  | syswrSavehi (o : LOp)
  | syswrLdaerr (o : LOp)
  | hintKeep (o : LOp)
  | hintStream (o : LOp)
  | hintOcc (o : LOp)
  | hintThr (o : LOp)
  | hintUnimplemented (k : BitVec 4) (o : LOp)
  | packageReset (flash : BootFlash)
  | boundaryFlitReceive (b : Nat) (rev : Bool) (flit : List Byte) (crc : Word)
  | boundaryRetrain (b : Nat) (ok : Bool)
  | causewayFlitReceive (port : Nat) (flit : List Byte) (crc : Word)
  | arbiterPeriodEnd (die power temp : Nat)
  | scrubLine (die : Nat) (e : LineError)
  | subarraySelfTest (core sub : Nat) (product : List Byte)
  | spdmAlgorithmsRequest (r : SpdmReq)
  | spdmCertificateRequest (r : SpdmReq)
  | spdmChallengeRequest (r : SpdmReq)
  | spdmMeasurementsRequest (r : SpdmReq)
  | spdmUnsupportedRequest (code : Byte)
  | cmdtailWrite (w : Nat) (v : DWord)
  | cplheadWrite (w : Nat) (v : DWord)
  | evheadWrite (w : Nat) (v : DWord)
  | ringBaseSizeWrite (w : Nat) (r : RingReg) (v : DWord)
  | wstateRunSet (w : Nat)
  | wstateRunClear (w : Nat)
  | registerWrite (bar off : Nat) (v : DWord)
  | eventRingWrite (w : Nat)
  | fetcherVisit (die : Nat)
  | fetchFaultRetry (part q : Nat)
  | launchPlacement (part : Nat)
  | gridTermination (part : Nat) (serial : Word)
  | taskGather (part q : Nat)
  | traceCommit (g n : Nat)
  | rejoinFusion (g n : Nat)
  | fragmentSpillMove (g n : Nat)
  | loadDataReturn (g id : Nat) (e : LineError)
  | postedStoreCheck (id : Nat)
  | storePerformed (id elem : Nat)
  | deferredAtomicPerform (id elem : Nat) (mf : Option MemFault)
  | atomicRepair (die id : Nat)
  | atomicReplay (die id : Nat)
  | sredElementApply (id elem : Nat) (turn : SredTurn)
  | sredPeerElement (part die : Nat) (addr : DWord) (op : BitVec 3) (ty : BitVec 3) (value : DWord)
  | ldaElementWrite (id elem : Nat) (e : LineError)
  | mmaEntry (core : Nat)
  | layoutEntry (clu : Nat)
  | copyEntry (core : Nat) (e : LineError)
  | gatherEntry (core : Nat)
  | scatterEntry (core : Nat)
  | collEntry (part die : Nat) (peers : List PeerContribution)
  | collPeerTimeout (part die : Nat)
  | qfenceEntry (q : QueueRef)
  | gangwayLatchOpen (g : Nat)
  | barrierComplete (b : BarrierRef)
  | ringPush (g n : Nat)
  | ringPop (g n : Nat)
  | preemptRequestArrival (part : Nat) (serial : Word) (core : Nat)
  | preemptAllowanceExpiry (g n : Nat)
  | preemptHandlerStart (g : Nat)
  | yieldSave (g : Nat)
  | launchRestore (part : Nat) (serial : Word)
  | clusterTermination (clu : Nat)
  | emulationFrame (g n : Nat)
  | emulationResultWrite (g n : Nat)
  | manifestAppend (g n : Nat)
  | landingApply (part die obj : Nat)
  | rreadMethodRun (g id : Nat)
  | upstreamLinkTraining (width rate : Nat)
  | supplyMonitorReset
  | spdmVersionRequest (r : SpdmReq)
  | spdmCapabilitiesRequest (r : SpdmReq)
  | spdmDigestsRequest (r : SpdmReq)
  | pilotStepBudgetExhausted
  | pilotFence
  | done
  | nop
  | exit
  | rett
  | kill
  | yield
  | resume
  | nopLong
  | gate
  | release
  | drain
  | savesplit
  | loadsplit
  deriving DecidableEq, Repr

end Sys2Proof
end

