-- ==== Sys2Proof/WellFormed.lean ====
section
/-! DEFINITION. Well-formedness: the static checks of R284 (steps 4 and 5), that is every reserved field (R266), every form
(R260, R268), every field value that an opcode's description refuses with code 48. Operand checks with code 6 are not
here: they are faults that the meanings take. -/
namespace Sys2Proof

/-- Not predicated: PS = 15 and PM = 00 (R265). -/
def LOp.unpred (o : LOp) : Bool := o.ps == 15 && o.pm == 0
/-- The block fields are zero. -/
def LOp.noBlk (o : LOp) : Bool := o.bw == 0 && o.bh == 0 && o.bs == 0
/-- A and AK are reserved and zero. -/
def LOp.noA (o : LOp) : Bool := o.a == 0 && !o.ak
/-- B and BK are reserved and zero. -/
def LOp.noB (o : LOp) : Bool := o.b == 0 && !o.bk
/-- U = 1 needs AK = BK = 0, no block, no predicate (R263, R265). -/
def LOp.uniOk (o : LOp) : Bool := !o.u || (!o.ak && !o.bk && o.noBlk && o.unpred)
/-- The L-form only. -/
def LOp.onlyL (o : LOp) : Bool := o.w2.isNone
/-- L-form, or X-form with a literal in place of B (Table 11.6). -/
def LOp.litOk (o : LOp) : Bool := o.w2.isNone || o.noB
/-- X-form with the third source C in bits 8:0 and zero above (Table 11.6). -/
def LOp.cOk (o : LOp) : Bool :=
  match o.w2 with
  | some w => w.toNat < 512
  | none => false

/-- ITYPE of MOD layout I (Table 11.5). -/
def LOp.itype (o : LOp) : Nat := o.mod.toNat / 8
/-- SAT of both MOD layouts (Table 11.5). -/
def LOp.sat (o : LOp) : Bool := o.mod.toNat / 4 % 2 == 1
/-- RSEL of MOD layout F (Table 11.5). -/
def LOp.rsel (o : LOp) : Nat := o.mod.toNat / 8
/-- FTYPE of MOD layout F (Table 11.5). -/
def LOp.ftype (o : LOp) : Nat := o.mod.toNat % 4

/-- MOD layout I with an accepted type and SAT. -/
def LOp.modI (o : LOp) (types : List Nat) (sat : Bool) : Bool :=
  types.contains o.itype && (sat || !o.sat) && o.mod.toNat % 4 == 0
/-- MOD layout F: a selector, FTYPE 0 to 2, SAT where allowed (Table 11.5, R324). -/
def LOp.modF (o : LOp) (anyRsel sat : Bool) : Bool :=
  (if anyRsel then o.rsel ≤ 4 else o.rsel == 0) && (sat || !o.sat) && o.ftype ≤ 2

def allTypes : List Nat := [0, 1, 2, 3, 4, 5, 6, 7]
def wideTypes : List Nat := [0, 1, 2, 3]

/-- Two-source integer opcodes (Table 13.1). -/
def LOp.wfI2 (o : LOp) (types : List Nat) (sat : Bool) : Bool :=
  o.uniOk && o.sub == 0 && o.litOk && o.modI types sat
/-- One-source integer opcodes: B reserved, no X-form. -/
def LOp.wfI1 (o : LOp) (types : List Nat) (sat : Bool) : Bool :=
  o.uniOk && o.sub == 0 && o.onlyL && o.noB && o.modI types sat
/-- Three-source integer opcodes, X-form only. -/
def LOp.wfI3 (o : LOp) (types : List Nat) (sat : Bool) : Bool :=
  o.uniOk && o.sub == 0 && o.cOk && o.modI types sat
/-- Floating-point opcodes of Table 13.2 by number of sources. -/
def LOp.wfF2 (o : LOp) (anyRsel sat : Bool) : Bool :=
  o.uniOk && o.sub == 0 && o.litOk && o.modF anyRsel sat
def LOp.wfF1 (o : LOp) (anyRsel sat : Bool) : Bool :=
  o.uniOk && o.sub == 0 && o.onlyL && o.noB && o.modF anyRsel sat
def LOp.wfF3 (o : LOp) : Bool := o.uniOk && o.sub == 0 && o.cOk && o.modF true true
/-- Interval opcodes with two sources and with one (R333). -/
def LOp.wfV2 (o : LOp) : Bool := !o.u && o.sub == 0 && o.litOk && o.mod == 0
def LOp.wfV1 (o : LOp) : Bool := !o.u && o.sub == 0 && o.onlyL && o.noB && o.mod == 0
def LOp.wfIvmake (o : LOp) : Bool :=
  !o.u && o.sub.toNat ≤ 1 && o.litOk && o.mod == 0 && (o.sub == 0 || (o.noB && o.onlyL))
def LOp.wfIvcmp (o : LOp) : Bool := !o.u && o.sub.toNat ≤ 5 && o.litOk && o.mod == 0 && o.noBlk
def LOp.wfIvisect (o : LOp) : Bool := !o.u && o.sub == 0 && o.litOk && o.mod.toNat < 16
/-- Word 2 of SPAWN and IVBIS: bits 31:30 zero (R311, R339). -/
def LOp.spawnW2 (o : LOp) : Bool :=
  match o.w2 with
  | some w => w.toNat < 2 ^ 30
  | none => false
def LOp.wfIvbis (o : LOp) : Bool :=
  !o.u && o.sub.toNat ≤ 1 && o.spawnW2 && o.mod.toNat < 16 && o.noBlk && !o.bk
/-- Predicate opcodes (R297 to R299). -/
def LOp.wfP (o : LOp) (maxSub : Nat) (useB : Bool) : Bool :=
  !o.u && o.sub.toNat ≤ maxSub && o.onlyL && o.noBlk && !o.ak && !o.bk && o.mod == 0 && (useB || o.b == 0)
/-- Uniform scalar opcodes that use D, A and SUB only where said so. -/
def LOp.wfU (o : LOp) (useD useA : Bool) (subs : List Nat) (maxMod : Nat) : Bool :=
  o.u && o.onlyL && o.noBlk && o.noB && !o.ak && o.unpred && (useD || o.d == 0) && (useA || o.a == 0) &&
    subs.contains o.sub.toNat && o.mod.toNat ≤ maxMod

/-- The integer forms of the S-form: X must be 0 (R260). -/
def SOp.wf2 (o : SOp) : Bool := !o.x
/-- One-source S-form: B zero (R259). -/
def SOp.wf1 (o : SOp) : Bool := !o.x && o.b == 0

/-- Control layout with U, D, A and SUB zero and no second word (R269). -/
def CtlOp.plain (o : CtlOp) : Bool :=
  !o.u && o.d == 0 && o.a == 0 && o.sub == 0 && o.pred == 0 && o.sense == 0 && o.kind == 0 && o.w2.isNone
def CtlOp.wfGuard (o : CtlOp) : Bool :=
  !o.u && o.d == 0 && o.a == 0 && o.sub == 0 && o.sense != 3 && o.kind == 0 &&
    (match o.w2 with
     | some w => w.toNat < 2 ^ 24
     | none => true)
def CtlOp.wfBar (o : CtlOp) : Bool :=
  !o.u && o.d == 0 && o.sub == 0 && o.pred == 0 && o.sense == 0 && o.kind == 0 && o.w2.isNone
def CtlOp.wfRing (o : CtlOp) : Bool :=
  !o.u && (o.sub == 0 || o.sub == 4) && o.sense == 0 && o.kind == 0 && o.w2.isNone
def CtlOp.wfRcall (o : CtlOp) : Bool :=
  o.u && o.sub == 0 && o.pred == 0 && o.sense == 0 && o.kind == 0 && o.w2.isNone

/-- The mark and scope of a memory opcode (R344). -/
def MemOp.markOk (o : MemOp) : Bool :=
  o.mark.toNat ≤ 1 && o.scope.toNat ≤ 5 && (o.mark != 0 || o.scope == 0)
def MemOp.litOk (o : MemOp) : Bool := o.w2.isNone || (o.b == 0 && !o.bk)
/-- Memory layout: widths accepted, U, whether marks and NT are taken. -/
def MemOp.wf (o : MemOp) (uni : Bool) (subs : List Nat) (marks nt : Bool) : Bool :=
  o.u == uni && o.zero == 0 && o.litOk && subs.contains o.sub.toNat && o.markOk &&
    (marks || o.mark == 0) && (nt || !o.nt) && (!uni || (o.ps == 15 && o.pm == 0 && !o.ak && !o.bk))
/-- IVLD and IVST (R340): SUB bits 2:1 zero, MOD bit 5 zero. -/
def MemOp.wfIv (o : MemOp) : Bool := o.wf false [0, 1] true false
/-- CCTL (R344, R352): `.invall` is uniform and uses no address. -/
def MemOp.wfCctl (o : MemOp) : Bool :=
  o.d == 0 && o.zero == 0 && o.w2.isNone && o.mark == 0 && o.scope == 0 && !o.nt &&
    ((!o.u && (o.sub == 0 || o.sub == 2)) ||
     (o.u && o.sub == 1 && o.a == 0 && o.b == 0 && !o.ak && !o.bk && o.ps == 15 && o.pm == 0))

/-- Common fields of the atomic layout (R355). -/
def AtomOp.base (o : AtomOp) (marks : List Nat) : Bool :=
  !o.u && o.scope.toNat ≤ 5 && marks.contains o.mark.toNat && (o.mark != 0 || o.scope == 0) &&
    o.zero == 0 && o.low == 0 && o.ty.toNat ≤ 5
/-- Table 14.6: which types an operation takes. -/
def atomTypeOk (sub ty : Nat) : Bool :=
  if sub == 0 || 6 ≤ sub then true else if sub ≤ 2 then ty != 5 else ty ≤ 3
/-- ATOM and ATOMS: `.cas` is the X-form with C (R342, Table 14.6). -/
def AtomOp.wfAtom (o : AtomOp) : Bool :=
  o.base [0, 1, 2, 3] && !o.x4 && atomTypeOk o.sub.toNat o.ty.toNat &&
    (match o.w2 with
     | some w => o.sub == 7 && w.toNat < 512
     | none => o.sub != 7)
def AtomOp.wfRed (o : AtomOp) : Bool :=
  o.base [0, 2] && !o.x4 && o.d == 0 && o.sub.toNat ≤ 5 && atomTypeOk o.sub.toNat o.ty.toNat && o.w2.isNone
/-- SRED: the X-form names a peer (R360). -/
def AtomOp.wfSred (o : AtomOp) : Bool :=
  o.base [0, 2] && !o.x4 && o.sub.toNat ≤ 2 && atomTypeOk o.sub.toNat o.ty.toNat &&
    (match o.w2 with
     | some w => 16 ≤ w.toNat && w.toNat < 32
     | none => true)
/-- BOP: TYPE and form of Table 14.7. -/
def AtomOp.wfBop (o : AtomOp) : Bool :=
  o.base [0, 2] && o.d == 0 &&
    (match o.sub.toNat, o.w2 with
     | 0, some w => o.ty == 4 && w.toNat < 512
     | 1, none => o.ty == 4
     | 2, none => o.ty == 0
     | 3, some w => o.ty == 0 && w.toNat < 512
     | 4, some w => o.ty == 4 && w.toNat < 512
     | 5, none => o.ty == 1
     | 6, none => o.ty == 1
     | _, _ => false)

/-- CVT (R329): the type codes, and which MOD each kind of conversion takes. -/
def LOp.wfCvt (o : LOp) : Bool :=
  let st := o.b.toNat / 16
  let dt := o.b.toNat % 16
  o.uniOk && o.sub == 0 && o.onlyL && !o.bk && st ≤ 12 && dt ≤ 12 && o.rsel ≤ 4 && o.mod.toNat % 4 == 0 &&
    (if 8 ≤ st then (8 ≤ dt || !o.sat) else (8 ≤ dt || o.rsel == 0))
/-- PACK (R330). -/
def LOp.wfPack (o : LOp) : Bool :=
  !o.u && o.onlyL && o.noBlk && o.noB && !o.ak && o.sub.toNat ≤ 6 &&
    (if o.sub.toNat ≤ 2 then o.mod == 0
     else o.rsel ≤ 4 && o.mod.toNat % 4 == 0 && (o.sub.toNat ≤ 4 || !o.sat))
def LOp.wfUnpack (o : LOp) : Bool := !o.u && o.onlyL && o.noBlk && o.noB && o.sub.toNat ≤ 6 && o.mod == 0

/-- REDUX and SCAN: operation and type (Table 14.9). -/
def reduxTypeOk (sub ty : Nat) : Bool := if sub ≤ 2 then ty ≤ 4 else sub ≤ 5 && ty ≤ 3
/-- Lane exchange (Table 14.8): no block, no X-form. -/
def LOp.wfX (o : LOp) (uni : Bool) (maxSub : Nat) (mods : List Nat) : Bool :=
  o.u == uni && o.onlyL && o.noBlk && o.sub.toNat ≤ maxSub && mods.contains o.mod.toNat
def LOp.wfRedux (o : LOp) : Bool :=
  o.onlyL && o.noBlk && o.noB && o.uniOk && o.mod.toNat % 8 == 0 && reduxTypeOk o.sub.toNat (o.mod.toNat / 8)
def LOp.wfScan (o : LOp) : Bool :=
  !o.u && o.onlyL && o.noBlk && o.noB && o.mod.toNat % 8 ≤ 1 && reduxTypeOk o.sub.toNat (o.mod.toNat / 8)

/-- Engine posts of R371. -/
def LOp.wfPost (o : LOp) : Bool :=
  o.u && o.onlyL && o.noBlk && o.unpred && !o.ak && !o.bk && o.sub == 0 && o.mod == 0
/-- MMA (R373): X-form only, not predicated, word 2 bits 31:6 zero. -/
def LOp.wfMma (o : LOp) : Bool :=
  !o.u && !o.ak && o.unpred && o.sub == 0 && o.mod == 0 &&
    (match o.w2 with
     | some w => w.toNat < 64
     | none => false)
def LOp.wfGang (o : LOp) : Bool :=
  o.u && o.noBlk && o.noB && !o.ak && o.unpred && o.d == 0 && o.sub == 0 && o.mod == 0 && (o.w2.isNone || o.a == 0)
def LOp.wfSysrd (o : LOp) : Bool :=
  o.onlyL && o.noBlk && o.noB && !o.ak && o.mod == 0 && (!o.u || o.unpred) &&
    (o.sub == 0 || (o.a == 0x0B && o.sub.toNat ≤ 4))
def LOp.wfSyswr (o : LOp) : Bool :=
  o.u && o.noBlk && o.unpred && !o.ak && !o.bk && o.d == 0 && o.sub == 0 && o.mod == 0 && o.litOk
/-- The value that a SYSWR carries in its own words (an inline constant or a literal), if it does (R384). -/
def LOp.syswrImm (o : LOp) : Option Nat :=
  match o.w2 with
  | some w => some w.toNat
  | none => if 64 ≤ o.b.toNat && o.b.toNat < 128 then some (o.b.toNat - 64) else none
/-- A SYSWR to SFRQ whose own words show that it only clears LOST: bit 1 set, bit 0 clear. -/
def LOp.clearsLost (o : LOp) : Bool :=
  match o.syswrImm with
  | some v => v % 4 == 2
  | none => false

/-- The header checks of Table 12.2 that raise code 48. -/
def TraceHdr.wf (h : TraceHdr) : Bool :=
  h.nlen != 0 && h.nstore.toNat ≤ 24 && h.nshadow.toNat ≤ 32 && h.natom.toNat ≤ 4 && h.npost.toNat ≤ 4 && !h.zero

/-- An instruction whose encoding the hardware accepts (R284 steps 4 and 5; R65 for pilots). Hardware and host events carry
no encoding and are all well formed. -/
def Instr.wf : Instr → Bool
  | .iaddS o | .isubS o | .imulS o => o.wf2
  | .imulhS _ | .iminS _ | .imaxS _ => true
  | .iabsS o | .inegS o | .notS o | .popcS o | .clzS o | .brevS o | .movS o => o.wf1
  | .andS o | .orS o | .xorS o | .andnS o | .shlS o | .shrS o | .sarS o | .rotS o => o.wf2
  | .faddS o | .fsubS o | .fmulS o | .fmulzS o | .fminS o | .fmaxS o => o.wf2
  | .frcpS o | .frsqS o | .fsqrtS o | .fexp2S o | .flog2S o | .fsinS o | .fcosS o | .ftanhS o => o.wf1
  | .trace h => h.wf
  | .endTrace o | .join o | .callt o => o.plain
  | .endx o => o.wfU false true [0] 0
  | .guard o | .guardc o => o.wfGuard
  | .trap o | .brk o =>
    !o.u && o.onlyL && o.noBlk && o.noA && o.noB && o.d == 0 && o.sub == 0 && o.mod == 0
  | .plogic o => o.wfP 3 true
  | .pnot o => o.wfP 0 false
  | .pmov o => o.wfP 3 false && (o.sub == 0 || o.a == 0)
  | .pvote o => o.wfU true true [0, 1, 2, 3] 3
  | .ptov o => o.wfP 0 false
  | .vtop o => !o.u && o.sub.toNat ≤ 1 && o.onlyL && o.noBlk && o.noB && !o.ak && o.mod == 0
  | .pforce o => o.wfP 1 false
  | .waitp o | .waitseq o => o.wfU false true [0, 1, 2, 3] 0
  | .bar o | .cbar o => o.wfBar
  | .fence o =>
    !o.u && o.onlyL && o.noBlk && o.noA && o.noB && o.unpred && o.d == 0 && o.sub.toNat ≤ 2 && o.mod.toNat ≤ 5
  | .qfence o => o.wfU true true [0, 1, 2, 3] 15
  | .qopen o | .qclose o => o.wfU false true [0, 1, 4, 5] 0
  | .pushq o | .popq o => o.wfRing
  | .qstat o => o.wfU true true [0, 1, 4, 5] 0
  | .ticket o => o.wfU true false [0] 0
  | .spawn o =>
    !o.u && o.sub == 0 && o.noBlk && o.noB && !o.ak && o.mod == 0 && o.spawnW2
  | .iadd o | .isub o | .imul o => o.wfI2 allTypes true
  | .iaddc o => !o.u && o.litOk && o.modI [1, 3] false
  | .imulh o => o.wfI2 wideTypes false
  | .imad o => o.wfI3 allTypes true
  | .imin o | .imax o => o.wfI2 allTypes false
  | .iabs o => o.wfI1 [0, 2, 4, 6] true
  | .ineg o => o.wfI1 allTypes true
  | .and o | .or o | .xor o | .andn o => o.wfI2 wideTypes false
  | .not o => o.wfI1 wideTypes false
  | .shl o => o.wfI2 allTypes true
  | .shr o | .sar o => o.wfI2 allTypes false
  | .rot o => o.wfI2 wideTypes false
  | .bfe o | .bfi o => o.wfI3 wideTypes false
  | .popc o | .clz o | .brev o => o.wfI1 wideTypes false
  | .icmp o => !o.u && o.sub.toNat ≤ 5 && o.litOk && o.noBlk && o.modI allTypes false
  | .sel o => !o.u && o.sub.toNat ≤ 1 && o.litOk && o.mod.toNat < 16
  | .lea o => o.uniOk && o.litOk && o.modI [0, 1] false
  | .mov o => o.wfI1 allTypes false
  | .movi o => o.uniOk && o.sub == 0 && o.w2.isSome && o.noA && o.noB && o.modI allTypes false
  | .fadd o | .fsub o | .fmul o | .fmulz o | .fscale o => o.wfF2 true true
  | .fma o | .fmaz o => o.wfF3
  | .fmin o | .fmax o => o.wfF2 false false
  | .fcmp o => o.uniOk && o.litOk && o.noBlk && o.modF false false
  | .fclass o | .frcp o | .frsq o | .flog2 o | .fsin o | .fcos o | .ftanh o => o.wfF1 false false
  | .frnd o | .fsqrt o => o.wfF1 true false
  | .fexp2 o => o.wfF1 false true
  | .cvt o => o.wfCvt
  | .pack o => o.wfPack
  | .unpack o => o.wfUnpack
  | .dot4 o => !o.u && o.cOk && o.sub.toNat ≤ 3 && o.modI [0] true
  | .dot8 o => !o.u && o.cOk && o.sub == 0 && o.modI [0] true
  | .bscale o => o.uniOk && o.litOk && o.sub.toNat ≤ 1 && o.modF true true
  | .ivmake o | .ivmakeIv16 o => o.wfIvmake
  | .ivadd o | .ivsub o | .ivmul o | .ivdiv o | .ivhull o => o.wfV2
  | .ivaddIv16 o | .ivsubIv16 o | .ivmulIv16 o | .ivdivIv16 o | .ivhullIv16 o => o.wfV2
  | .ivsqr o | .ivsqrt o | .ivmid o | .ivwid o | .ivsplit o => o.wfV1
  | .ivsqrIv16 o | .ivsqrtIv16 o | .ivmidIv16 o | .ivwidIv16 o | .ivsplitIv16 o => o.wfV1
  | .ivisect o | .ivisectIv16 o => o.wfIvisect
  | .ivcmp o | .ivcmpIv16 o => o.wfIvcmp
  | .ivbis o | .ivbisIv16 o => o.wfIvbis
  | .ivld o | .ivst o | .ivldIv16 o | .ivstIv16 o => o.wfIv
  | .shfl o => o.wfX false 4 [0, 1, 2, 3, 4, 5, 6, 7]
  | .qswap o => o.wfX false 2 [0, 4] && o.noB
  | .qbcast o => o.wfX false 3 [0, 4] && o.noB
  | .matchLanes o => o.wfX false 2 [0, 1, 2, 3, 4, 5, 6, 7, 8, 9, 10, 11, 12, 13, 14, 15] && o.noB
  | .redux o => o.wfRedux
  | .scan o => o.wfScan
  | .rdlane o => o.wfX true 0 [0, 4] && o.uniOk
  | .wrlane o => o.wfX false 0 [0, 4] && o.unpred
  | .ld o | .lds o => o.wf false [0, 1, 2, 3, 4, 5, 6] true true
  | .st o | .sts o => o.wf false [0, 2, 4, 5, 6] true true
  | .ldu o | .stu o => o.wf true [4, 5] true true
  | .lda o => o.wf false [0, 2, 4, 5, 6] false false
  | .ldlit o => o.sub == 4 || o.sub == 5
  | .pref o => o.wf false [0, 1] false false && o.d == 0
  | .cctl o => o.wfCctl
  | .icinv o =>
    o.u && o.onlyL && o.noBlk && o.unpred && !o.ak && !o.bk && o.d == 0 && o.sub == 0 && o.mod == 0
  | .atom o | .atoms o => o.wfAtom
  | .red o => o.wfRed
  | .sred o => o.wfSred
  | .bop o => o.wfBop
  | .gang o => o.wfGang
  | .mma o => o.wfMma
  | .layout o | .copy o | .gather o | .scatter o | .coll o => o.wfPost
  | .seqrd o => o.wfU true false [0, 1, 2, 3] 0
  | .rcall o => o.wfRcall
  | .rread o => o.wfU true true [0] 0
  | .rsync o =>
    o.u && o.onlyL && o.noBlk && o.unpred && !o.ak && !o.bk && o.d == 0 && o.sub == 0 && o.mod == 0
  | .rret o => o.wfU false true [0] 0
  | .tstep o => !o.u && o.onlyL && o.noBlk && o.noB && o.sub == 0 && o.mod.toNat < 16
  | .pdgset o => !o.u && o.onlyL && o.noBlk && o.noB && o.d == 0 && o.sub == 0 && o.mod == 0
  | .pdgrd o => !o.u && o.onlyL && o.noBlk && o.noA && o.noB && o.sub == 0 && o.mod == 0
  | .dlog o => !o.u && o.onlyL && o.noBlk && o.d == 0 && o.sub == 0 && o.mod.toNat < 16
  | .sysrd o => o.wfSysrd && o.a != 0x15
  | .sysrdCycle o => o.wfSysrd && o.a == 0x15
  | .syswrFstat o => o.wfSyswr && o.a == 0x0A
  | .syswrSfrqPop o => o.wfSyswr && o.a == 0x0C && !o.clearsLost
  | .syswrSfrqClearLost o => o.wfSyswr && o.a == 0x0C && o.clearsLost
  | .syswrPreempt o => o.wfSyswr && o.a == 0x17
  | .syswrSavelo o => o.wfSyswr && o.a == 0x18
  | .syswrSavehi o => o.wfSyswr && o.a == 0x19
  | .syswrLdaerr o => o.wfSyswr && o.a == 0x1A
  | .syswrFmode o =>
    o.wfSyswr && !([0x0A, 0x0C, 0x17, 0x18, 0x19, 0x1A].contains o.a.toNat)
  | .hintUnimplemented k _ => 4 ≤ k.toNat
  | .ldp _ sz _ | .ldq _ sz _ | .stq _ sz _ | .stl _ sz _ => sz.toNat ≤ 3
  | _ => true

end Sys2Proof
end

