-- ==== Sys2Proof/Decode.lean ====
section
/-! DEFINITION. The decoder of core instructions (R258 to R269, R279 to R284, R287, R344, R355), of pilot words (R65, R66)
and of the words the opcode table numbers; then the encoder, from the same tables. -/
namespace Sys2Proof

/-! ### Layouts: fields to words -/

/-- Word 0 of the L- and X-forms (R262). -/
def packW0 (len : BitVec 2) (op : Byte) (u : Bool) (d a : BitVec 9) (sub : BitVec 3) : Word :=
  len ++ op ++ BitVec.ofBool u ++ d ++ a ++ sub

/-- LEN of the L-form or the X-form. -/
def lenOf (w2 : Option Word) : BitVec 2 := if w2.isSome then 2 else 1

/-- Word 1 of the L-form (R262). -/
def LOp.word1 (o : LOp) : Word :=
  o.b ++ o.bw ++ o.bh ++ o.bs ++ o.ps ++ o.pm ++ BitVec.ofBool o.ak ++ BitVec.ofBool o.bk ++ o.mod
/-- Word 1 of the control layout (R269). -/
def CtlOp.word1 (o : CtlOp) : Word := o.offset ++ o.pred ++ o.sense ++ o.kind
/-- Word 1 of the memory layout (R344). -/
def MemOp.word1 (o : MemOp) : Word :=
  o.b ++ o.zero ++ o.ps ++ o.pm ++ BitVec.ofBool o.ak ++ BitVec.ofBool o.bk ++ BitVec.ofBool o.nt ++ o.scope ++ o.mark
/-- Word 1 of the atomic layout (R355). -/
def AtomOp.word1 (o : AtomOp) : Word :=
  o.b ++ o.scope ++ o.mark ++ o.zero ++ o.ps ++ o.pm ++ BitVec.ofBool o.ak ++ BitVec.ofBool o.bk ++ o.ty ++
    BitVec.ofBool o.x4 ++ o.low
/-- Word 0 of TRACE (R287): bits 21:0 are KIND, MODE, NLEN, NSTORE, NSHADOW. -/
def TraceHdr.word0 (h : TraceHdr) : Word :=
  (1 : BitVec 2) ++ (0 : Byte) ++ h.kind ++ BitVec.ofBool h.mode ++ h.nlen ++ h.nstore ++ h.nshadow
/-- Word 1 of TRACE (R287). -/
def TraceHdr.word1 (h : TraceHdr) : Word :=
  h.natom ++ h.npost ++ BitVec.ofBool h.nspawn ++ BitVec.ofBool h.zero ++ h.rejoin ++ h.park
/-- Word 1 of WAITC (R300). -/
def WaitCounts.word1 (c : WaitCounts) : Word := c.ld ++ c.st ++ c.cp ++ c.tl
/-- The S-form word (R259). -/
def SOp.word (op7 : BitVec 7) (o : SOp) : Word :=
  (0 : BitVec 2) ++ op7 ++ BitVec.ofBool o.u ++ o.d ++ o.a ++ o.b ++ BitVec.ofBool o.x
/-- A pilot word (R65). -/
def packPilot (opc : BitVec 5) (d a b : BitVec 3) (imm : BitVec 18) : Word := opc ++ d ++ a ++ b ++ imm

/-! ### Layouts: words to fields -/

/-- A field of a word: width n from bit lo. -/
abbrev fld (w : Word) (lo n : Nat) : BitVec n := w.extractLsb' lo n
/-- One bit of a word. -/
abbrev fbit (w : Word) (i : Nat) : Bool := w.getLsbD i

def unpackL (w0 w1 : Word) (w2 : Option Word) : LOp :=
  { u := fbit w0 21, d := fld w0 12 9, a := fld w0 3 9, sub := fld w0 0 3, b := fld w1 23 9, bw := fld w1 21 2,
    bh := fld w1 19 2, bs := fld w1 14 5, ps := fld w1 10 4, pm := fld w1 8 2, ak := fbit w1 7, bk := fbit w1 6,
    mod := fld w1 0 6, w2 := w2 }
def unpackCtl (w0 w1 : Word) (w2 : Option Word) : CtlOp :=
  { u := fbit w0 21, d := fld w0 12 9, a := fld w0 3 9, sub := fld w0 0 3, offset := fld w1 8 24, pred := fld w1 4 4,
    sense := fld w1 2 2, kind := fld w1 0 2, w2 := w2 }
def unpackMem (w0 w1 : Word) (w2 : Option Word) : MemOp :=
  { u := fbit w0 21, d := fld w0 12 9, a := fld w0 3 9, sub := fld w0 0 3, b := fld w1 23 9, zero := fld w1 14 9,
    ps := fld w1 10 4, pm := fld w1 8 2, ak := fbit w1 7, bk := fbit w1 6, nt := fbit w1 5, scope := fld w1 2 3,
    mark := fld w1 0 2, w2 := w2 }
def unpackAtom (w0 w1 : Word) (w2 : Option Word) : AtomOp :=
  { u := fbit w0 21, d := fld w0 12 9, a := fld w0 3 9, sub := fld w0 0 3, b := fld w1 23 9, scope := fld w1 20 3,
    mark := fld w1 18 2, zero := fld w1 14 4, ps := fld w1 10 4, pm := fld w1 8 2, ak := fbit w1 7, bk := fbit w1 6,
    ty := fld w1 3 3, x4 := fbit w1 2, low := fld w1 0 2, w2 := w2 }
def unpackTrace (w0 w1 : Word) : TraceHdr :=
  { kind := fld w0 20 2, mode := fbit w0 19, nlen := fld w0 11 8, nstore := fld w0 6 5, nshadow := fld w0 0 6,
    natom := fld w1 29 3, npost := fld w1 26 3, nspawn := fbit w1 25, zero := fbit w1 24, rejoin := fld w1 12 12,
    park := fld w1 0 12 }
def unpackWait (w1 : Word) : WaitCounts :=
  { ld := fld w1 24 8, st := fld w1 16 8, cp := fld w1 8 8, tl := fld w1 0 8 }
def unpackLit (w0 w1 : Word) : LitOp :=
  { u := fbit w0 21, d := fld w0 12 9, sub := fld w0 0 3, offset := fld w1 8 24 }
def unpackS (w : Word) : SOp :=
  { u := fbit w 22, d := fld w 15 7, a := fld w 8 7, b := fld w 1 7, x := fbit w 0 }

/-- The operands of an instruction whose every field is reserved: PS = 15, everything else zero (R266). -/
def LOp.blank : LOp :=
  { u := false, d := 0, a := 0, sub := 0, b := 0, bw := 0, bh := 0, bs := 0, ps := 15, pm := 0, ak := false,
    bk := false, mod := 0, w2 := none }
/-- The same with U = 1 (SAVESPLIT, LOADSPLIT: Table 15.1). -/
def LOp.blankU : LOp := { LOp.blank with u := true }

/-! ### Opcode maps -/

/-- The S opcode map (Table 11.15). -/
def sInstr (op : Nat) (o : SOp) : Option Instr :=
  match op with
  | 0x01 => some (.iaddS o) | 0x02 => some (.isubS o) | 0x03 => some (.imulS o) | 0x04 => some (.imulhS o)
  | 0x05 => some (.iminS o) | 0x06 => some (.imaxS o) | 0x07 => some (.iabsS o) | 0x08 => some (.inegS o)
  | 0x09 => some (.andS o) | 0x0A => some (.orS o) | 0x0B => some (.xorS o) | 0x0C => some (.andnS o)
  | 0x0D => some (.notS o) | 0x0E => some (.shlS o) | 0x0F => some (.shrS o) | 0x10 => some (.sarS o)
  | 0x11 => some (.rotS o) | 0x12 => some (.popcS o) | 0x13 => some (.clzS o) | 0x14 => some (.brevS o)
  | 0x15 => some (.movS o) | 0x20 => some (.faddS o) | 0x21 => some (.fsubS o) | 0x22 => some (.fmulS o)
  | 0x23 => some (.fmulzS o) | 0x24 => some (.fminS o) | 0x25 => some (.fmaxS o) | 0x26 => some (.frcpS o)
  | 0x27 => some (.frsqS o) | 0x28 => some (.fsqrtS o) | 0x29 => some (.fexp2S o) | 0x2A => some (.flog2S o)
  | 0x2B => some (.fsinS o) | 0x2C => some (.fcosS o) | 0x2D => some (.ftanhS o)
  | _ => none

/-- SYSWR by the special register it names (R384, Table 15.5). -/
def syswrInstr (o : LOp) : Instr :=
  if o.a = 0x0A then .syswrFstat o
  else if o.a = 0x0C then (if o.clearsLost then .syswrSfrqClearLost o else .syswrSfrqPop o)
  else if o.a = 0x17 then .syswrPreempt o
  else if o.a = 0x18 then .syswrSavelo o
  else if o.a = 0x19 then .syswrSavehi o
  else if o.a = 0x1A then .syswrLdaerr o
  else .syswrFmode o

/-- An instruction that has no operands, if its words are the reserved ones. -/
def nullary (i : Instr) (blank o : LOp) : Option Instr := if o = blank then some i else none

/-- The opcodes of Table 11.16 that read both words in the L-form layout (the control, memory, atomic, trace, WAITC and LDLIT
layouts are in `lInstr`). The inner none is a reserved field of an opcode without operands. -/
def plainInstr (op : Nat) (o : LOp) : Option (Option Instr) :=
  match op with
  | 0x02 => some (some (.endx o)) | 0x04 => some (nullary .exit .blank o) | 0x08 => some (nullary .rett .blank o)
  | 0x09 => some (some (.trap o)) | 0x0A => some (some (.brk o)) | 0x0B => some (nullary .kill .blank o)
  | 0x0C => some (nullary .yield .blank o) | 0x0D => some (nullary .resume .blank o)
  | 0x0E => some (nullary .nopLong .blank o)
  | 0x10 => some (some (.plogic o)) | 0x11 => some (some (.pnot o)) | 0x12 => some (some (.pmov o))
  | 0x13 => some (some (.pvote o)) | 0x14 => some (some (.ptov o)) | 0x15 => some (some (.vtop o))
  | 0x16 => some (some (.pforce o)) | 0x18 => some (some (.waitp o)) | 0x19 => some (some (.waitseq o))
  | 0x1C => some (some (.fence o)) | 0x1D => some (some (.qfence o)) | 0x1E => some (some (.qopen o))
  | 0x1F => some (some (.qclose o)) | 0x22 => some (some (.qstat o)) | 0x23 => some (nullary .gate .blank o)
  | 0x24 => some (nullary .release .blank o) | 0x25 => some (some (.ticket o)) | 0x26 => some (some (.spawn o))
  | 0x30 => some (some (.iadd o)) | 0x31 => some (some (.isub o)) | 0x32 => some (some (.iaddc o))
  | 0x33 => some (some (.imul o)) | 0x34 => some (some (.imulh o)) | 0x35 => some (some (.imad o))
  | 0x36 => some (some (.imin o)) | 0x37 => some (some (.imax o)) | 0x38 => some (some (.iabs o))
  | 0x39 => some (some (.ineg o)) | 0x3A => some (some (.and o)) | 0x3B => some (some (.or o))
  | 0x3C => some (some (.xor o)) | 0x3D => some (some (.andn o)) | 0x3E => some (some (.not o))
  | 0x3F => some (some (.shl o)) | 0x40 => some (some (.shr o)) | 0x41 => some (some (.sar o))
  | 0x42 => some (some (.rot o)) | 0x43 => some (some (.bfe o)) | 0x44 => some (some (.bfi o))
  | 0x45 => some (some (.popc o)) | 0x46 => some (some (.clz o)) | 0x47 => some (some (.brev o))
  | 0x48 => some (some (.icmp o)) | 0x49 => some (some (.sel o)) | 0x4A => some (some (.lea o))
  | 0x4B => some (some (.mov o)) | 0x4C => some (some (.movi o))
  | 0x50 => some (some (.fadd o)) | 0x51 => some (some (.fsub o)) | 0x52 => some (some (.fmul o))
  | 0x53 => some (some (.fmulz o)) | 0x54 => some (some (.fma o)) | 0x55 => some (some (.fmaz o))
  | 0x56 => some (some (.fmin o)) | 0x57 => some (some (.fmax o)) | 0x58 => some (some (.fcmp o))
  | 0x59 => some (some (.fclass o)) | 0x5A => some (some (.frnd o)) | 0x5B => some (some (.fscale o))
  | 0x5C => some (some (.frcp o)) | 0x5D => some (some (.frsq o)) | 0x5E => some (some (.fsqrt o))
  | 0x5F => some (some (.fexp2 o)) | 0x60 => some (some (.flog2 o)) | 0x61 => some (some (.fsin o))
  | 0x62 => some (some (.fcos o)) | 0x63 => some (some (.ftanh o))
  | 0x68 => some (some (.cvt o)) | 0x69 => some (some (.pack o)) | 0x6A => some (some (.unpack o))
  | 0x6B => some (some (.dot4 o)) | 0x6C => some (some (.dot8 o)) | 0x6D => some (some (.bscale o))
  | 0x70 => some (some (.ivmake o)) | 0x71 => some (some (.ivadd o)) | 0x72 => some (some (.ivsub o))
  | 0x73 => some (some (.ivmul o)) | 0x74 => some (some (.ivdiv o)) | 0x75 => some (some (.ivsqr o))
  | 0x76 => some (some (.ivsqrt o)) | 0x77 => some (some (.ivhull o)) | 0x78 => some (some (.ivisect o))
  | 0x79 => some (some (.ivmid o)) | 0x7A => some (some (.ivwid o)) | 0x7B => some (some (.ivcmp o))
  | 0x7C => some (some (.ivsplit o)) | 0x7D => some (some (.ivbis o))
  | 0x80 => some (some (.ivmakeIv16 o)) | 0x81 => some (some (.ivaddIv16 o)) | 0x82 => some (some (.ivsubIv16 o))
  | 0x83 => some (some (.ivmulIv16 o)) | 0x84 => some (some (.ivdivIv16 o)) | 0x85 => some (some (.ivsqrIv16 o))
  | 0x86 => some (some (.ivsqrtIv16 o)) | 0x87 => some (some (.ivhullIv16 o)) | 0x88 => some (some (.ivisectIv16 o))
  | 0x89 => some (some (.ivmidIv16 o)) | 0x8A => some (some (.ivwidIv16 o)) | 0x8B => some (some (.ivcmpIv16 o))
  | 0x8C => some (some (.ivsplitIv16 o)) | 0x8D => some (some (.ivbisIv16 o))
  | 0x90 => some (some (.shfl o)) | 0x91 => some (some (.qswap o)) | 0x92 => some (some (.qbcast o))
  | 0x93 => some (some (.matchLanes o)) | 0x94 => some (some (.redux o)) | 0x95 => some (some (.scan o))
  | 0x96 => some (some (.rdlane o)) | 0x97 => some (some (.wrlane o))
  | 0xA9 => some (nullary .drain .blank o) | 0xAB => some (some (.icinv o))
  | 0xB8 => some (some (.gang o)) | 0xB9 => some (some (.mma o)) | 0xBA => some (some (.layout o))
  | 0xBB => some (some (.copy o)) | 0xBC => some (some (.gather o)) | 0xBD => some (some (.scatter o))
  | 0xBE => some (some (.coll o)) | 0xBF => some (some (.seqrd o)) | 0xC1 => some (some (.rread o))
  | 0xC2 => some (some (.rsync o)) | 0xC3 => some (some (.rret o)) | 0xC4 => some (some (.tstep o))
  | 0xC5 => some (some (.pdgset o)) | 0xC6 => some (some (.pdgrd o)) | 0xC7 => some (some (.dlog o))
  | 0xC8 => some (some (if o.a = 0x15 then .sysrdCycle o else .sysrd o))
  | 0xC9 => some (some (syswrInstr o))
  | 0xCA => some (nullary .savesplit .blankU o) | 0xCB => some (nullary .loadsplit .blankU o)
  | 0xF0 => some (some (.hintKeep o)) | 0xF1 => some (some (.hintStream o))
  | 0xF2 => some (some (.hintOcc o)) | 0xF3 => some (some (.hintThr o))
  | n => if 0xF4 ≤ n ∧ n ≤ 0xFF then some (some (.hintUnimplemented (BitVec.ofNat 4 n) o)) else none

/-- The opcodes that read word 1 in another layout: the outer none leaves the opcode to `plainInstr`. -/
def lInstr (op : Nat) (w0 w1 : Word) (w2 : Option Word) : Option (Option Instr) :=
  match op with
  | 0x00 => some (if w2.isNone then some (.trace (unpackTrace w0 w1)) else none)
  | 0x01 => some (some (.endTrace (unpackCtl w0 w1 w2))) | 0x03 => some (some (.join (unpackCtl w0 w1 w2)))
  | 0x05 => some (some (.guard (unpackCtl w0 w1 w2))) | 0x06 => some (some (.guardc (unpackCtl w0 w1 w2)))
  | 0x07 => some (some (.callt (unpackCtl w0 w1 w2)))
  | 0x17 => some (if w2.isNone && fld w0 0 22 == 0 then some (.waitc (unpackWait w1)) else none)
  | 0x1A => some (some (.bar (unpackCtl w0 w1 w2))) | 0x1B => some (some (.cbar (unpackCtl w0 w1 w2)))
  | 0x20 => some (some (.pushq (unpackCtl w0 w1 w2))) | 0x21 => some (some (.popq (unpackCtl w0 w1 w2)))
  | 0x7E => some (some (.ivld (unpackMem w0 w1 w2))) | 0x7F => some (some (.ivst (unpackMem w0 w1 w2)))
  | 0x8E => some (some (.ivldIv16 (unpackMem w0 w1 w2))) | 0x8F => some (some (.ivstIv16 (unpackMem w0 w1 w2)))
  | 0xA0 => some (some (.ld (unpackMem w0 w1 w2))) | 0xA1 => some (some (.st (unpackMem w0 w1 w2)))
  | 0xA2 => some (some (.ldu (unpackMem w0 w1 w2))) | 0xA3 => some (some (.stu (unpackMem w0 w1 w2)))
  | 0xA4 => some (some (.lds (unpackMem w0 w1 w2))) | 0xA5 => some (some (.sts (unpackMem w0 w1 w2)))
  | 0xA6 => some (some (.lda (unpackMem w0 w1 w2)))
  | 0xA7 => some (if w2.isNone && fld w0 3 9 == 0 && fld w1 0 8 == 0 then some (.ldlit (unpackLit w0 w1)) else none)
  | 0xA8 => some (some (.pref (unpackMem w0 w1 w2))) | 0xAA => some (some (.cctl (unpackMem w0 w1 w2)))
  | 0xAC => some (some (.atom (unpackAtom w0 w1 w2))) | 0xAD => some (some (.atoms (unpackAtom w0 w1 w2)))
  | 0xAE => some (some (.red (unpackAtom w0 w1 w2))) | 0xAF => some (some (.sred (unpackAtom w0 w1 w2)))
  | 0xB0 => some (some (.bop (unpackAtom w0 w1 w2)))
  | 0xC0 => some (some (.rcall (unpackCtl w0 w1 w2)))
  | _ => none

/-! ### Core decoder -/

/-- Steps 4 and 5 of R284: the fields of an allocated opcode. -/
def checked (i : Option Instr) : Except DecodeError Instr :=
  match i with
  | none => .error .reserved
  | some i => if i.wf then .ok i else .error .reserved

/-- The L-form or X-form instruction of its words. -/
def decodeLong (w0 w1 : Word) (w2 : Option Word) : Except DecodeError Instr :=
  let op := (fld w0 22 8).toNat
  match lInstr op w0 w1 w2 with
  | some r => checked r
  | none =>
    match plainInstr op (unpackL w0 w1 w2) with
    | some r => checked r
    | none => .error (.unallocated op)

/-- The S-form instruction of its word; the all-zero word is NOP (R260). -/
def decodeShort (w : Word) : Except DecodeError Instr :=
  let op := (fld w 23 7).toNat
  if op = 0 then (if w = 0 then .ok .nop else .error .reserved)
  else
    match sInstr op (unpackS w) with
    | some i => if i.wf then .ok i else .error .reserved
    | none => .error (.unallocated op)

/-- A word from four little-endian bytes (R258). -/
def wordOfBytes (b0 b1 b2 b3 : Byte) : Word := b3 ++ b2 ++ b1 ++ b0

/-- Decode the instruction at the start of a byte list, and what follows it (R258, R284). -/
def decode (bs : List Byte) : Except DecodeError (Instr × List Byte) :=
  match bs with
  | a0 :: a1 :: a2 :: a3 :: r0 =>
    let w0 := wordOfBytes a0 a1 a2 a3
    match (fld w0 30 2).toNat with
    | 0 => (decodeShort w0).map (·, r0)
    | 1 =>
      match r0 with
      | b0 :: b1 :: b2 :: b3 :: r1 => (decodeLong w0 (wordOfBytes b0 b1 b2 b3) none).map (·, r1)
      | _ => .error .short
    | 2 =>
      match r0 with
      | b0 :: b1 :: b2 :: b3 :: c0 :: c1 :: c2 :: c3 :: r1 =>
        (decodeLong w0 (wordOfBytes b0 b1 b2 b3) (some (wordOfBytes c0 c1 c2 c3))).map (·, r1)
      | _ => .error .short
    | _ => .error .len11
  | _ => .error .short

/-! ### Pilot decoder -/

/-- The size codes of R65 occupy field B. -/
def pilotInstr (opc : Nat) (d a b : BitVec 3) (imm : BitVec 18) : Option Instr :=
  match opc with
  | 0x00 => if a = 0 then some (.ldp d b imm) else none
  | 0x01 => if a = 0 then some (.ldq d b imm) else none
  | 0x02 => if d = 0 then some (.stq a b imm) else none
  | 0x03 => if a = 0 ∧ b = 0 then some (.ldi d imm) else none
  | 0x04 => if imm = 0 then some (.pilotAdd d a b) else none
  | 0x05 => if imm = 0 then some (.pilotSub d a b) else none
  | 0x06 => if b = 0 then some (.pilotAddi d a imm) else none
  | 0x07 => if imm = 0 then some (.pilotAnd d a b) else none
  | 0x08 => if imm = 0 then some (.pilotOr d a b) else none
  | 0x09 => if imm = 0 then some (.pilotXor d a b) else none
  | 0x0A => if b = 0 then some (.pilotShl d a imm) else none
  | 0x0B => if b = 0 then some (.pilotShr d a imm) else none
  | 0x0C => if d = 0 then some (.beq a b imm) else none
  | 0x0D => if d = 0 then some (.bne a b imm) else none
  | 0x0E => if d = 0 then some (.bltu a b imm) else none
  | 0x0F => if b = 0 then some (.loop d a imm) else none
  | 0x10 => if d = 0 then some (.stl a b imm) else none
  | 0x11 => if a = 0 ∧ b = 0 ∧ imm = 0 then some (.pilotLaunch d) else none
  | 0x12 => if d = 0 ∧ (imm = 0 ∨ imm = 4) then some (.sigw a b (imm.getLsbD 2)) else none
  | 0x13 => if d = 0 ∧ imm.toNat < 8 then some (.sigwait a b (imm.getLsbD 2) (imm.extractLsb' 0 2)) else none
  | 0x14 => if d = 0 ∧ a = 0 ∧ b = 0 ∧ imm = 0 then some .pilotFence else none
  | 0x15 => if d = 0 ∧ b = 0 ∧ imm = 0 then some (.emit a) else none
  | 0x16 => if d = 0 ∧ a = 0 ∧ b = 0 ∧ imm = 0 then some .done else none
  | 0x17 => if d = 0 ∧ a = 0 ∧ b = 0 then some (.fault imm) else none
  | _ => none

/-- The pilot operation of a word, or the verifier's code 4 or 5 (R65, R67). A size code of 4 to 7, for which the spec names no code,
is given code 5 (DESIGN CHOICE [93]). -/
def decodePilot (w : Word) : Except DecodeError Instr :=
  let opc := (fld w 27 5).toNat
  if 0x18 ≤ opc then .error (.pilot 4)
  else
    match pilotInstr opc (fld w 24 3) (fld w 21 3) (fld w 18 3) (fld w 0 18) with
    | some i => if i.wf then .ok i else .error (.pilot 5)
    | none => .error (.pilot 5)

/-- Byte k of a number. -/
def byteOf (w k : Nat) : Byte := BitVec.ofNat 8 (w >>> (8 * k))

/-- The instruction of a word of the opcode table (the table numbers a word's bits from its first word up, and gives only the
pilot operations and the S-form). A 32-bit word with bits 31:30 = 00 can be both a core word and a pilot word: core memory and
the pilot store are different places. The core reading is taken when it has one; a pilot word is read otherwise. -/
def decodeTableWord (nbits w : Nat) : Option Instr :=
  let bytes := (List.range 12).map fun k => if 8 * k < nbits then byteOf w k else 0
  match decode bytes with
  | .ok (i, _) => if nbits ≤ 32 && w / 2 ^ 30 % 4 != 0 then
      (match decodePilot (BitVec.ofNat 32 w) with
       | .ok p => some p
       | .error _ => some i)
    else some i
  | .error _ =>
    match decodePilot (BitVec.ofNat 32 w) with
    | .ok p => if nbits ≤ 32 then some p else none
    | .error _ => none

/-! ### Encoder -/

/-- The words of an L- or X-form instruction. -/
def encL (op : Byte) (o : LOp) : List Word := packW0 (lenOf o.w2) op o.u o.d o.a o.sub :: o.word1 :: o.w2.toList
def encC (op : Byte) (o : CtlOp) : List Word := packW0 (lenOf o.w2) op o.u o.d o.a o.sub :: o.word1 :: o.w2.toList
def encM (op : Byte) (o : MemOp) : List Word := packW0 (lenOf o.w2) op o.u o.d o.a o.sub :: o.word1 :: o.w2.toList
def encA (op : Byte) (o : AtomOp) : List Word := packW0 (lenOf o.w2) op o.u o.d o.a o.sub :: o.word1 :: o.w2.toList

/-- The words of an instruction, from the encoding tables of 03, 11 to 15; none for an event, which has no encoding. -/
def encode : Instr → List Word
  | .ldp d sz imm => [packPilot 0x00 d 0 sz imm]
  | .ldq d sz imm => [packPilot 0x01 d 0 sz imm]
  | .stq a sz imm => [packPilot 0x02 0 a sz imm]
  | .ldi d imm => [packPilot 0x03 d 0 0 imm]
  | .pilotAdd d a b => [packPilot 0x04 d a b 0]
  | .pilotSub d a b => [packPilot 0x05 d a b 0]
  | .pilotAddi d a imm => [packPilot 0x06 d a 0 imm]
  | .pilotAnd d a b => [packPilot 0x07 d a b 0]
  | .pilotOr d a b => [packPilot 0x08 d a b 0]
  | .pilotXor d a b => [packPilot 0x09 d a b 0]
  | .pilotShl d a imm => [packPilot 0x0A d a 0 imm]
  | .pilotShr d a imm => [packPilot 0x0B d a 0 imm]
  | .beq a b imm => [packPilot 0x0C 0 a b imm]
  | .bne a b imm => [packPilot 0x0D 0 a b imm]
  | .bltu a b imm => [packPilot 0x0E 0 a b imm]
  | .loop d a imm => [packPilot 0x0F d a 0 imm]
  | .stl a sz imm => [packPilot 0x10 0 a sz imm]
  | .pilotLaunch d => [packPilot 0x11 d 0 0 0]
  | .sigw a b host => [packPilot 0x12 0 a b (if host then 4 else 0)]
  | .sigwait a b host rel => [packPilot 0x13 0 a b ((if host then 4 else 0) + rel.setWidth 18)]
  | .pilotFence => [packPilot 0x14 0 0 0 0]
  | .emit a => [packPilot 0x15 0 a 0 0]
  | .done => [packPilot 0x16 0 0 0 0]
  | .fault imm => [packPilot 0x17 0 0 0 imm]
  | .nop => [0]
  | .iaddS o => [o.word 0x01] | .isubS o => [o.word 0x02] | .imulS o => [o.word 0x03] | .imulhS o => [o.word 0x04]
  | .iminS o => [o.word 0x05] | .imaxS o => [o.word 0x06] | .iabsS o => [o.word 0x07] | .inegS o => [o.word 0x08]
  | .andS o => [o.word 0x09] | .orS o => [o.word 0x0A] | .xorS o => [o.word 0x0B] | .andnS o => [o.word 0x0C]
  | .notS o => [o.word 0x0D] | .shlS o => [o.word 0x0E] | .shrS o => [o.word 0x0F] | .sarS o => [o.word 0x10]
  | .rotS o => [o.word 0x11] | .popcS o => [o.word 0x12] | .clzS o => [o.word 0x13] | .brevS o => [o.word 0x14]
  | .movS o => [o.word 0x15] | .faddS o => [o.word 0x20] | .fsubS o => [o.word 0x21] | .fmulS o => [o.word 0x22]
  | .fmulzS o => [o.word 0x23] | .fminS o => [o.word 0x24] | .fmaxS o => [o.word 0x25] | .frcpS o => [o.word 0x26]
  | .frsqS o => [o.word 0x27] | .fsqrtS o => [o.word 0x28] | .fexp2S o => [o.word 0x29] | .flog2S o => [o.word 0x2A]
  | .fsinS o => [o.word 0x2B] | .fcosS o => [o.word 0x2C] | .ftanhS o => [o.word 0x2D]
  | .trace h => [h.word0, h.word1]
  | .endTrace o => encC 0x01 o | .endx o => encL 0x02 o | .join o => encC 0x03 o | .exit => encL 0x04 .blank
  | .guard o => encC 0x05 o | .guardc o => encC 0x06 o | .callt o => encC 0x07 o | .rett => encL 0x08 .blank
  | .trap o => encL 0x09 o | .brk o => encL 0x0A o | .kill => encL 0x0B .blank | .yield => encL 0x0C .blank
  | .resume => encL 0x0D .blank | .nopLong => encL 0x0E .blank
  | .plogic o => encL 0x10 o | .pnot o => encL 0x11 o | .pmov o => encL 0x12 o | .pvote o => encL 0x13 o
  | .ptov o => encL 0x14 o | .vtop o => encL 0x15 o | .pforce o => encL 0x16 o
  | .waitc c => [packW0 1 0x17 false 0 0 0, c.word1]
  | .waitp o => encL 0x18 o | .waitseq o => encL 0x19 o | .bar o => encC 0x1A o | .cbar o => encC 0x1B o
  | .fence o => encL 0x1C o | .qfence o => encL 0x1D o | .qopen o => encL 0x1E o | .qclose o => encL 0x1F o
  | .pushq o => encC 0x20 o | .popq o => encC 0x21 o | .qstat o => encL 0x22 o | .gate => encL 0x23 .blank
  | .release => encL 0x24 .blank | .ticket o => encL 0x25 o | .spawn o => encL 0x26 o
  | .iadd o => encL 0x30 o | .isub o => encL 0x31 o | .iaddc o => encL 0x32 o | .imul o => encL 0x33 o
  | .imulh o => encL 0x34 o | .imad o => encL 0x35 o | .imin o => encL 0x36 o | .imax o => encL 0x37 o
  | .iabs o => encL 0x38 o | .ineg o => encL 0x39 o | .and o => encL 0x3A o | .or o => encL 0x3B o
  | .xor o => encL 0x3C o | .andn o => encL 0x3D o | .not o => encL 0x3E o | .shl o => encL 0x3F o
  | .shr o => encL 0x40 o | .sar o => encL 0x41 o | .rot o => encL 0x42 o | .bfe o => encL 0x43 o
  | .bfi o => encL 0x44 o | .popc o => encL 0x45 o | .clz o => encL 0x46 o | .brev o => encL 0x47 o
  | .icmp o => encL 0x48 o | .sel o => encL 0x49 o | .lea o => encL 0x4A o | .mov o => encL 0x4B o
  | .movi o => encL 0x4C o
  | .fadd o => encL 0x50 o | .fsub o => encL 0x51 o | .fmul o => encL 0x52 o | .fmulz o => encL 0x53 o
  | .fma o => encL 0x54 o | .fmaz o => encL 0x55 o | .fmin o => encL 0x56 o | .fmax o => encL 0x57 o
  | .fcmp o => encL 0x58 o | .fclass o => encL 0x59 o | .frnd o => encL 0x5A o | .fscale o => encL 0x5B o
  | .frcp o => encL 0x5C o | .frsq o => encL 0x5D o | .fsqrt o => encL 0x5E o | .fexp2 o => encL 0x5F o
  | .flog2 o => encL 0x60 o | .fsin o => encL 0x61 o | .fcos o => encL 0x62 o | .ftanh o => encL 0x63 o
  | .cvt o => encL 0x68 o | .pack o => encL 0x69 o | .unpack o => encL 0x6A o | .dot4 o => encL 0x6B o
  | .dot8 o => encL 0x6C o | .bscale o => encL 0x6D o
  | .ivmake o => encL 0x70 o | .ivadd o => encL 0x71 o | .ivsub o => encL 0x72 o | .ivmul o => encL 0x73 o
  | .ivdiv o => encL 0x74 o | .ivsqr o => encL 0x75 o | .ivsqrt o => encL 0x76 o | .ivhull o => encL 0x77 o
  | .ivisect o => encL 0x78 o | .ivmid o => encL 0x79 o | .ivwid o => encL 0x7A o | .ivcmp o => encL 0x7B o
  | .ivsplit o => encL 0x7C o | .ivbis o => encL 0x7D o | .ivld o => encM 0x7E o | .ivst o => encM 0x7F o
  | .ivmakeIv16 o => encL 0x80 o | .ivaddIv16 o => encL 0x81 o | .ivsubIv16 o => encL 0x82 o
  | .ivmulIv16 o => encL 0x83 o | .ivdivIv16 o => encL 0x84 o | .ivsqrIv16 o => encL 0x85 o
  | .ivsqrtIv16 o => encL 0x86 o | .ivhullIv16 o => encL 0x87 o | .ivisectIv16 o => encL 0x88 o
  | .ivmidIv16 o => encL 0x89 o | .ivwidIv16 o => encL 0x8A o | .ivcmpIv16 o => encL 0x8B o
  | .ivsplitIv16 o => encL 0x8C o | .ivbisIv16 o => encL 0x8D o | .ivldIv16 o => encM 0x8E o
  | .ivstIv16 o => encM 0x8F o
  | .shfl o => encL 0x90 o | .qswap o => encL 0x91 o | .qbcast o => encL 0x92 o | .matchLanes o => encL 0x93 o
  | .redux o => encL 0x94 o | .scan o => encL 0x95 o | .rdlane o => encL 0x96 o | .wrlane o => encL 0x97 o
  | .ld o => encM 0xA0 o | .st o => encM 0xA1 o | .ldu o => encM 0xA2 o | .stu o => encM 0xA3 o
  | .lds o => encM 0xA4 o | .sts o => encM 0xA5 o | .lda o => encM 0xA6 o
  | .ldlit o => [packW0 1 0xA7 o.u o.d 0 o.sub, o.offset ++ (0 : Byte)]
  | .pref o => encM 0xA8 o | .drain => encL 0xA9 .blank | .cctl o => encM 0xAA o | .icinv o => encL 0xAB o
  | .atom o => encA 0xAC o | .atoms o => encA 0xAD o | .red o => encA 0xAE o | .sred o => encA 0xAF o
  | .bop o => encA 0xB0 o | .gang o => encL 0xB8 o | .mma o => encL 0xB9 o | .layout o => encL 0xBA o
  | .copy o => encL 0xBB o | .gather o => encL 0xBC o | .scatter o => encL 0xBD o | .coll o => encL 0xBE o
  | .seqrd o => encL 0xBF o | .rcall o => encC 0xC0 o | .rread o => encL 0xC1 o | .rsync o => encL 0xC2 o
  | .rret o => encL 0xC3 o | .tstep o => encL 0xC4 o | .pdgset o => encL 0xC5 o | .pdgrd o => encL 0xC6 o
  | .dlog o => encL 0xC7 o | .sysrd o => encL 0xC8 o | .sysrdCycle o => encL 0xC8 o
  | .syswrFmode o => encL 0xC9 o | .syswrFstat o => encL 0xC9 o | .syswrSfrqPop o => encL 0xC9 o
  | .syswrSfrqClearLost o => encL 0xC9 o | .syswrPreempt o => encL 0xC9 o | .syswrSavelo o => encL 0xC9 o
  | .syswrSavehi o => encL 0xC9 o | .syswrLdaerr o => encL 0xC9 o
  | .savesplit => encL 0xCA .blankU | .loadsplit => encL 0xCB .blankU
  | .hintKeep o => encL 0xF0 o | .hintStream o => encL 0xF1 o | .hintOcc o => encL 0xF2 o | .hintThr o => encL 0xF3 o
  | .hintUnimplemented k o => encL ((0xF : BitVec 4) ++ k) o
  | _ => []

/-- The instruction of its words in memory order. -/
def wordBytes (w : Word) : List Byte := [fldB w 0, fldB w 8, fldB w 16, fldB w 24]
where fldB (w : Word) (lo : Nat) : Byte := w.extractLsb' lo 8

/-- The bytes of an instruction, lowest address first (R258). -/
def encodeBytes (i : Instr) : List Byte := (encode i).flatMap wordBytes

/-- An instruction of the pilot's words (R65). -/
def pilotOf : Instr → Bool
  | .ldp .. => true | .ldq .. => true | .stq .. => true | .ldi .. => true | .pilotAdd .. => true | .pilotSub .. => true
  | .pilotAddi .. => true | .pilotAnd .. => true | .pilotOr .. => true | .pilotXor .. => true | .pilotShl .. => true
  | .pilotShr .. => true | .beq .. => true | .bne .. => true | .bltu .. => true | .loop .. => true | .stl .. => true
  | .pilotLaunch .. => true | .sigw .. => true | .sigwait .. => true | .pilotFence => true | .emit .. => true | .done => true
  | .fault .. => true
  | _ => false

end Sys2Proof
end

