-- ==== Sys2Proof/Config.lean ====
section
/-! DEFINITION. Constants that R1, R2, R14, R17 and R76 fix for the machine, the activities a step can choose, and the free
values: opaque constants, so that no proof can see what they are. -/
namespace Sys2Proof

/-- What moves next. Timing decides it, and the manual leaves timing open (R101, R102, R168). -/
inductive Activity where
  /-- Fragment n of group g issues its next instruction (R101, R102). -/
  | issue (g n : Nat)
  /-- The fetcher of a die takes one pilot step for the queue it visits (R61). -/
  | pilot (die : Nat)
  /-- The Ferry performs the descriptor at CMDHEAD of a window (R38). -/
  | ferry (w : Nat)
  /-- A hardware or host event of the opcode table, with what the outside supplies. -/
  | event (i : Instr)
  /-- The die's walker keeps a copy of a page-table entry (R142, R144): unit is a core, or 192 + die. -/
  | tlbFill (unit part level va : Nat)
  | tlbEvict (unit part level va : Nat)
  /-- A core's L1 keeps or drops a copy of a 64-byte line (R159). -/
  | l1Fill (core line : Nat)
  | l1Evict (core line : Nat)
  /-- A core's instruction cache keeps or drops a copy of a 64-byte line of virtual addresses (R285). -/
  | icacheFill (core part line : Nat)
  | icacheEvict (core part line : Nat)
  /-- n clocks of a die, or of a core, pass (R3). -/
  | clocks (die n : Nat)
  | coreClocks (core n : Nat)
  /-- A flit enters the route of its pair of dies (R11, R12). -/
  | flitSend (src dst : Nat) (data : List Byte)
  /-- A flit enters the replay buffer of a Causeway port, or of its peer's; the peer checks the flit that the port sends (R19). -/
  | portSend (port : Nat) (data : List Byte)
  | portPeerSend (port : Nat) (data : List Byte)
  | portPeerCheck (port : Nat) (good : Bool)
  /-- The stored bits of a line change so that its check code shows an error (R25). -/
  | lineFlaw (line : Nat) (e : LineError)
  /-- The same of a register: a lane's vector register, or a scalar; correctable, or not (Table 1.4). -/
  | regFlaw (g : Nat) (vector : Bool) (lane reg : Nat) (bad : Bool) (synd : Nat)
  /-- The same of the 4-byte bank word at an offset of a workgroup's share. -/
  | scratchFlaw (part : Nat) (serial : Word) (wkg off : Nat) (bad : Bool) (synd : Nat)
  /-- The host reads 8 bytes of BAR0 or BAR2 (R32, R34). -/
  | hostRead (bar off : Nat)
  /-- The host writes its own memory, or a host range starts or stops failing (R33). -/
  | hostWrite (addr : Nat) (data : List Byte)
  | hostFail (addr : Nat) (fails : Bool)
  deriving DecidableEq, Repr, Inhabited

namespace Config

/-- FREE VALUE [1]: who moves at step k when the agenda is empty. -/
opaque nextActivity : Nat → Activity
/-- FREE VALUE [2]: one 64-bit value the manual leaves open, fresh for every k. -/
opaque freeValue : Nat → DWord
/-- FREE VALUE [7]: the CRC-32 of a flit; the manual names no polynomial (R11). -/
opaque crc32 : List Byte → Word
/-- FREE VALUE [8]: the digest of the root key that a die's ROM holds (R48). -/
opaque rootDigest : Nat → List Byte
/-- FREE VALUE [8]: the key that a certificate carries when it verifies under a root key, none when it does not (R48). -/
opaque certKey : List Byte → List Byte → Option (List Byte)
/-- FREE VALUE [8]: the known product of the matrix self-test (R108). -/
opaque selfTestProduct : List Byte
/-- FREE VALUE [8]: the signature that a device's key makes over a message (R50). -/
opaque sign : Nat → List Byte → List Byte
/-- FREE VALUE [8]: the DER bytes of certificate i of a device's chain (R50): the root's, and what follows it. -/
opaque certificate : Nat → Nat → List Byte
/-- FREE VALUE [21]: what SPDM's CAPABILITIES says of time and sizes: the exponent of the time limit, the transfer size, the message
size (R50). -/
opaque spdmLimit : Nat → Word

/-- Dies, clusters to a die, cores to a cluster (R1, R14). -/
def dies : Nat := 4
def clustersPerDie : Nat := 12
def coresPerCluster : Nat := 4
/-- Cores of the package, numbered device-wide (R14). -/
def cores : Nat := 192
/-- Partitions and windows (R34, R45). -/
def partitions : Nat := 12
def windows : Nat := 13

end Config
end Sys2Proof
end

