-- ==== Sys2Proof/Machine/Sparse.lean ====
section
/-! DEFINITION. Sparse stores in one canonical form: keys strictly rising, no entry equal to zero, which is what an
unlisted key reads as. Device memory (list of `Host.Cell`), scratchpad shares and register files all use it. -/
namespace Sys2Proof.Machine

/-- A sparse store of w-bit values. For w = 8 it is a list of `Host.Cell`. -/
abbrev Sparse (w : Nat) := List (Nat × BitVec w)

/-- The value at a key; an unlisted key reads 0. -/
def sget {w : Nat} : Sparse w → Nat → BitVec w
  | [], _ => 0
  | (k, v) :: m, a => if a < k then 0 else if a = k then v else sget m a

/-- Write one value; writing 0 removes the entry, so that equal stores are equal lists. -/
def sset {w : Nat} : Sparse w → Nat → BitVec w → Sparse w
  | [], a, x => if x = 0 then [] else [(a, x)]
  | (k, v) :: m, a, x =>
    if a < k then (if x = 0 then (k, v) :: m else (a, x) :: (k, v) :: m)
    else if a = k then (if x = 0 then m else (a, x) :: m)
    else (k, v) :: sset m a x

/-- The canonical form: keys strictly rising from lo, no zero value. -/
def swfFrom {w : Nat} : Nat → Sparse w → Bool
  | _, [] => true
  | lo, (k, v) :: m => lo ≤ k && v != 0 && swfFrom (k + 1) m

/-- The canonical form holds. -/
def swf {w : Nat} (m : Sparse w) : Bool := swfFrom 0 m

/-- Bytes of a memory: device memory, host memory, a scratchpad share. -/
abbrev Memory := Sparse 8
/-- The canonical form of a memory. -/
abbrev Memory.wf (m : Memory) : Bool := swf m

/-- Read n consecutive keys. -/
def sread {w : Nat} (m : Sparse w) (a n : Nat) : List (BitVec w) :=
  (List.range n).map fun i => sget m (a + i)

/-- Write consecutive keys in ascending order. -/
def swrite {w : Nat} (m : Sparse w) (a : Nat) : List (BitVec w) → Sparse w
  | [] => m
  | x :: xs => swrite (sset m a x) (a + 1) xs

end Sys2Proof.Machine
end

