-- ==== Sys2Proof/Machine/State.lean ====
section
/-! DEFINITION. The state of the machine as plain data: every piece INVENTORY.md lists. -/
namespace Sys2Proof.Machine

/-- Why the machine stops. -/
inductive Fault where
  /-- Raised by `exec` of a core instruction when no fragment is issuing: the hardware never does that. SAFE. -/
  | noFragment
  /-- Raised by `exec` of a pilot operation when no pilot is being stepped. SAFE. -/
  | noPilot
  deriving DecidableEq, Repr, Inhabited

/-- Why the model has no answer. -/
inductive Refusal where
  /-- An arm of `exec` that has no meaning yet. SAFE. -/
  | notModelled (mnemonic : String)
  deriving DecidableEq, Repr, Inhabited

/-- The two address spaces of R133. -/
inductive Space where
  | global | scratch
  deriving DecidableEq, Repr, Inhabited

/-- One register of a group, as an asynchronous write names it. -/
inductive RegRef where
  | v (lane reg : Nat)
  | s (reg : Nat)
  | p (lane reg : Nat)
  | pdg (lane : Nat)
  deriving DecidableEq, Repr, Inhabited

/-- An error that the check code of a register shows (R25): correctable or not, its syndrome, and the SEQ of its record once a reader has
met it (R27, R30). -/
structure RegFlaw where
  ref : RegRef
  bad : Bool
  synd : Nat
  seq : Option Word
  deriving DecidableEq, Repr, Inhabited

/-- The same of a 4-byte bank word of a scratchpad share, by its offset. -/
structure WordFlaw where
  off : Nat
  bad : Bool
  synd : Nat
  seq : Option Word
  deriving DecidableEq, Repr, Inhabited

/-- Where an element of a buffered or committed effect stands. -/
inductive ElemSt where
  /-- buffered or committed, not checked -/
  | fresh
  /-- translated and checked before its checked commit, not accepted by the core's L1 yet (R125, R159) -/
  | translated
  /-- accepted, translated and checked (R125) -/
  | checked
  /-- held for host-assisted page-fault service (R179) -/
  | held
  /-- parked in a fault queue (R156) -/
  | parked
  /-- performed -/
  | done
  /-- refused with a record (R181), or found in error -/
  | refused
  deriving DecidableEq, Repr, Inhabited

/-- One lane's part of an effect: address as formed, bytes or operands, and where it stands. -/
structure Elem where
  lane : Nat
  addr : Nat
  data : List Byte
  b : Nat
  c : Nat
  pa : Nat
  st : ElemSt
  deriving DecidableEq, Repr, Inhabited

/-- The four opcodes of a deferred atomic (Table 5.5). -/
inductive AtomKind where
  | atom | atoms | red | sred | bop
  deriving DecidableEq, Repr, Inhabited

/-- Special registers whose write takes effect at commit (Table 15.5). -/
inductive CommitReg where
  | fstat | sfrq | preempt | ldaerr
  deriving DecidableEq, Repr, Inhabited

/-- What a buffered effect does when it commits (Table 5.5). -/
inductive EffOp where
  | store (space : Space) (width : Nat) (release : Bool) (scope : Nat) (uniform : Bool)
  | atomic (kind : AtomKind) (sub ty : Nat) (x4 : Bool) (acq rel : Bool) (scope : Nat) (dest : Nat) (peer : Option Nat)
  | post (kind : QueueKind) (entry : Nat) (op : Nat) (body : List Byte) (seqReg : Nat) (counted : Bool)
  | mma (rec : List Word) (dbase dshape dstr : Nat) (seqReg : Nat)
  | lda (width : Nat)
  | dlog (sealNum : Nat)
  | spawn (q : Nat) (entry : Nat)
  | release
  | fence (mode scope : Nat)
  | icinv (addr len : Nat)
  | sysw (r : CommitReg) (v : Word)
  | gang (v : Word)
  | ring (attach cons bench : Bool) (addr : Nat)
  | savesplit
  | loadsplit
  | rret (v : DWord)
  deriving DecidableEq, Repr, Inhabited

/-- One effect of a trace: the index of its instruction, what it does, its lanes' parts. -/
structure Eff where
  ix : Nat
  op : EffOp
  elems : List Elem
  deriving DecidableEq, Repr, Inhabited

/-- A flow modifier (R126). -/
inductive Flow where
  | kill | callt (target : Nat) | rett | yield
  deriving DecidableEq, Repr, Inhabited

/-- A terminator that has issued, or `dead` when no lane is left active (R122). -/
inductive Term where
  | fin (target : Nat)
  /-- the successor stands in a scalar pair, read once the trace's scalar writes stand (R289) -/
  | finx (a : Nat)
  | join (target : Nat)
  | exit
  | bar (cluster : Bool) (num : Nat) (target : Nat)
  | push (bench : Bool) (ring : Nat) (va pd : Nat) (target : Nat)
  | pop (bench : Bool) (ring : Nat) (va pd : Nat) (target : Nat)
  | rcall (obj method : Nat) (tag : Word) (args : List Word) (sd : Nat) (target : Nat)
  | dead
  deriving DecidableEq, Repr, Inhabited

/-- Where a failed lane goes (R121, R116); the order of the constructors is R124's order at equal INDEX. -/
inductive Dest where
  | alternative (addr : Nat) | undecided (addr : Nat) | handler | park (addr : Nat) | ends
  /-- the lane re-executes the trace once its page-fault service request is answered (R179): cause, access and address of
  Table 2.8 -/
  | service (cause access addr : Nat)
  deriving DecidableEq, Repr, Inhabited

/-- A lane that has failed: where it goes and with which s63. -/
structure Fail where
  lane : Nat
  dest : Dest
  s63 : Word
  /-- SEQ of the error record of a data error (R30) -/
  seq : Option Word
  deriving DecidableEq, Repr, Inhabited

/-- A load in flight (R120): the bytes were read at issue, and are written when they return. -/
structure Load where
  id : Nat
  node : Nat
  ix : Nat
  writes : List (RegRef × Word)
  /-- the bytes each lane consumes: lane, physical address, length (R27) -/
  spans : List (Nat × Nat × Nat)
  /-- an interval load's format in bits, 0 for none (R340) -/
  iv : Nat
  /-- the data has not been read yet: an RREAD whose method has not run (R376) -/
  rread : Option (Nat × Nat × List Word × Nat)
  /-- an RREAD whose method has run: the position to which it raises the horizon, once its object may have an entry there (R375) -/
  answered : Option Word
  deriving DecidableEq, Repr, Inhabited

/-- An instruction being emulated (R191): its words 0 to 2, what it is, its selected lanes, the next element to be framed, and how
many elements' results have been written; the registers as it issued (R314). -/
structure Emul where
  insn : List Word
  instr : Instr
  lanes : LaneMask
  next : Nat
  done : Nat
  v : Sparse 32
  s : Sparse 32
  fmode : Word
  deriving DecidableEq, Repr

/-- The trace in progress of a fragment. -/
structure Ctx where
  hdr : TraceHdr
  addr : Nat
  /-- byte address and index of the next instruction -/
  pc : Nat
  ix : Nat
  /-- 64-byte lines of the trace that have been fetched: it executes as fetched (R285) -/
  fetched : List (Nat × List Byte)
  /-- it is the launch's HANDLER (R194) -/
  inHandler : Bool
  active : LaneMask
  helpers : LaneMask
  /-- lanes cleared by a mask write -/
  cleared : LaneMask
  fails : List Fail
  /-- registers, predicates and digests of the group as the trace began (the shadows) -/
  v0 : Sparse 32
  p0 : Sparse 2
  pdg0 : Sparse 64
  /-- scalars written, with their values before (R124, R130): s0 to s59, 100 FMODE, 101 SAVELO, 102 SAVEHI -/
  owned : List (Nat × Word)
  mask0 : LaneMask
  s630 : Word
  /-- distinct vector registers written (R119) -/
  shadowed : List Nat
  effs : List Eff
  /-- flags raised: index, lane, flags (R211) -/
  flags : List (Nat × Nat × Nat)
  flow : Option Flow
  resume : Bool
  /-- this trace execution holds the group's unconfirmed grant (R85) -/
  ticket : Bool
  term : Option Term
  /-- the instruction being emulated, while the fragment is parked (R191) -/
  emul : Option Emul
  /-- its effects are entered, all with numbers below this, and it waits for what follows the commit (R354, R182) [24] -/
  entered : Option Nat
  /-- when it arrived at the gangway latch (R228) -/
  arrival : Option Nat
  deriving DecidableEq, Repr, Inhabited

/-- A synchronisation that a committed fragment performs (R124). -/
inductive Sync where
  | bar (cluster : Bool) (num : Nat) (gen : Nat)
  /-- mark: effects of the group with a lower number precede the push (R172) -/
  | push (bench : Bool) (ring : Nat) (va pd : Nat) (mark : Nat)
  | pop (bench : Bool) (ring : Nat) (va pd : Nat)
  | rcall (obj sd : Nat) (pos : Option Word)
  deriving DecidableEq, Repr, Inhabited

/-- State of a node of the split tree (R96). -/
inductive NodeSt where
  | ready | atJoin | joinNode | syncing
  /-- waits for the answer to the service request of this ticket; s63 if it takes the fault, and the kind of the trace that raised
  it, 4 for a fault at entry (R179) -/
  | service (ticket : Word) (s63 : Word) (kind : Nat)
  deriving DecidableEq, Repr, Inhabited

/-- One node of a group's split tree (R96 to R99). -/
structure Node where
  ix : Nat
  mask : LaneMask
  /-- trace address: where a leaf continues, or the rejoin address a join node holds -/
  trace : Nat
  /-- rejoin address, 0 for none -/
  rejoin : Nat
  parent : Option Nat
  rank : Nat
  st : NodeSt
  s63 : Word
  /-- successor of the JOIN or of the synchronisation waited at -/
  next : Nat
  /-- INDEX of the terminator of the synchronisation waited at (R182) -/
  termIx : Nat
  sync : Option Sync
  /-- the call or return that follows the synchronisation (R292) -/
  flow : Option Flow
  /-- kind of the trace it comes from, 4 for none (R414) -/
  prevKind : Nat
  /-- it enters the launch's HANDLER as the handler trace -/
  toHandler : Bool
  /-- it descends from a restore fragment (R295) -/
  restored : Bool
  /-- it is the pre-emption handler's fragment (R197) -/
  saver : Bool
  frozen : Bool
  greedy : Bool
  /-- it holds a split-table entry, else it lives in its spill slot (R99) -/
  tabled : Bool
  /-- s63 CODE with which it entered its trace with ENTRY 5, else 64 (R189) -/
  code : Nat
  ctx : Option Ctx
  deriving DecidableEq, Repr, Inhabited

/-- One record of the SFRQ (Table 8.3), as its 16 bytes. -/
abbrev SfrqRec := List Byte

/-- The grant register (R86): 0 empty, 1 pending, 2 unconfirmed. -/
structure Grant where
  st : Nat
  n : DWord
  c : Word
  x : Word
  y : Word
  z : Word
  deriving DecidableEq, Repr, Inhabited

/-- Progress of a group through YIELD (R197). -/
inductive YieldSt where
  | no | waiting | saved
  deriving DecidableEq, Repr, Inhabited

/-- A landing group's place (R248): die, object, position; none of this for a core's group. -/
structure LandingAt where
  die : Nat
  obj : Nat
  pos : Word
  /-- an RREAD's read-only run -/
  readOnly : Bool
  deriving DecidableEq, Repr, Inhabited

/-- A group resident on a core, or the landing group of a die and partition. -/
structure Group where
  uid : Nat
  part : Nat
  serial : Word
  wkg : Nat
  gid : Nat
  /-- device-wide core index -/
  core : Nat
  slot : Nat
  landing : Option LandingAt
  /-- number of vector registers, 16 × VREGS -/
  nregs : Nat
  base : Nat
  stamp : Nat
  v : Sparse 32
  p : Sparse 2
  pdg : Sparse 64
  /-- registers whose check code shows an error (R25) -/
  flaws : List RegFlaw
  /-- SEQ of the error record that each lane's last data error carries: lane, SEQ (R30) -/
  dataSeqs : List (Nat × Word)
  /-- return stacks: entry e of lane L at key 8L + e, a word offset from the base trace; depths by lane -/
  rstack : Sparse 24
  rdepth : Sparse 8
  s : Sparse 32
  nodes : List Node
  ld : Word
  st : Word
  cp : Word
  tl : Word
  fmode : Word
  fstat : Word
  gang : Word
  ldaerr : Word
  savelo : Word
  savehi : Word
  cycleh : Word
  /-- SYSRD of PREEMPT: 0 when the last request was accepted, else 1 (R194) -/
  preempt : Word
  sfrq : List SfrqRec
  pend : Bool
  lost : Nat
  grant : Grant
  /-- ring attachments: consumer role, bench space, address (R307) -/
  rings : List (Bool × Bool × Nat)
  /-- horizons, least recently used first: object, position (R174, R375) -/
  horizons : List (Nat × Word)
  loads : List Load
  /-- a tree loaded by LOADSPLIT: the split image and the s63 array (R386) -/
  pendingTree : Option (List Byte × List Byte)
  loadsplit : Bool
  /-- how far its YIELD has come (R197) -/
  yield : YieldSt
  /-- it was restored and has not resumed (R202) -/
  restoring : Bool
  deriving DecidableEq, Repr, Inhabited

/-- A barrier: generation and the groups arrived in it, each with the mark of its last arrival (R172, R305). -/
structure Barrier where
  num : Nat
  gen : Nat
  arrived : List (Nat × Nat)
  deriving DecidableEq, Repr, Inhabited

/-- States of Table 8.8. -/
inductive WkgSt where
  | running | stopping | saving | saved
  deriving DecidableEq, Repr, Inhabited

/-- What a group keeps outside its save block while it is saved (R197, R199 to R201): GROUPID, group slot, block address, the number it
bears again, base trace, ring attachments. -/
structure Saved where
  gid : Nat
  slot : Nat
  addr : Nat
  uid : Nat
  base : Nat
  rings : List (Bool × Bool × Nat)
  deriving DecidableEq, Repr, Inhabited

/-- A workgroup: its core, its scratchpad share, its barriers, its task slots (R79, R93). -/
structure Workgroup where
  part : Nat
  serial : Word
  wkg : Nat
  core : Nat
  share : Nat
  data : Sparse 8
  /-- bank words whose check code shows an error (R25) -/
  flaws : List WordFlaw
  bars : List Barrier
  st : WkgSt
  /-- groups that ended during SAVING without YIELD (R199) -/
  ended : List Nat
  /-- groups saved, or restored and not resumed -/
  saves : List Saved
  deriving DecidableEq, Repr, Inhabited

/-- What the pages of a workgroup that has ended hold, until another workgroup receives them (R79). -/
structure Remains where
  part : Nat
  serial : Word
  wkg : Nat
  core : Nat
  data : Sparse 8
  deriving DecidableEq, Repr, Inhabited

/-- Life of a launch (Table 4.1). -/
inductive LaunchSt where
  | waiting | placed | terminated
  deriving DecidableEq, Repr, Inhabited

/-- An accepted launch (R71 to R88). -/
structure Launch where
  part : Nat
  serial : Word
  slot : Nat
  record : List Byte
  st : LaunchSt
  release : Nat
  next : Nat
  gateOpen : Bool
  fatal : Bool
  /-- predecessor named by GATESER was live at acceptance -/
  gateLive : Bool
  /-- pre-emption requested (R194): the address of its pre-emption handler -/
  preempting : Option Nat
  /-- CBAR barriers: cluster, barrier -/
  cbars : List (Nat × Barrier)
  /-- last task slot served by the gatherer: core, GROUPID -/
  lastTask : Nat × Nat
  deriving DecidableEq, Repr, Inhabited

/-- A task queue while bound (R89, R90). -/
structure TaskQ where
  q : Nat
  serial : Word
  base : Nat
  size : Nat
  tailc : Word
  headc : Word
  /-- slots reserved by a SPAWN that has not reached its terminator -/
  reserved : List Word
  deriving DecidableEq, Repr, Inhabited

/-- States of a queue (Table 3.2). -/
inductive QSt where
  | off | active | fetchfault | faulted | stopped
  deriving DecidableEq, Repr, Inhabited

/-- One packet queue of a partition, with its fetcher-side copy (R56 to R69). -/
structure Queue where
  q : Nat
  st : QSt
  reason : Nat
  head : Word
  tail : Word
  lastser : Word
  rearmw : Nat
  /-- copy of the 64-byte descriptor -/
  desc : List Byte
  pilot : List Word
  retries : Nat
  deferred : Bool
  /-- a packet is in progress -/
  busy : Bool
  packet : List Byte
  x : List DWord
  lb : List Byte
  pc : Nat
  /-- loop stack: body start, body length, pass, passes, destination -/
  loops : List (Nat × Nat × Nat × Nat × Nat)
  steps : Nat
  suspended : Bool
  /-- its last fetch fault was raised under host-assisted recovery: the hardware does not retry it (R54) -/
  byHost : Bool
  deriving DecidableEq, Repr, Inhabited

/-- States of a seal register (R51). -/
inductive SealSt where
  | empty | sealing | sealed
  deriving DecidableEq, Repr, Inhabited

/-- A seal register (R51, R52). -/
structure SealReg where
  base : Nat
  pages : Nat
  st : SealSt
  digest : List Byte
  deriving DecidableEq, Repr, Inhabited

/-- A replayed object once its record has been read (R245). -/
structure Obj where
  obj : Nat
  record : List Byte
  next : Word
  /-- positions assigned, oldest first and not trimmed -/
  entries : List Word
  /-- position each die has applied or rejected last -/
  applied : List Word
  /-- positions among `entries` that were assigned while the object had no manifest, and have no entry (R245) -/
  unwritten : List Word
  deriving DecidableEq, Repr, Inhabited

/-- A call sent to an object's home (R375): the caller's fragment, core and mark, the call record, and WHO. -/
structure HomeWait where
  part : Nat
  obj : Nat
  g : Nat
  n : Nat
  core : Nat
  mark : Nat
  method : Nat
  tag : Word
  who : Nat
  args : List Word
  deriving DecidableEq, Repr, Inhabited

/-- A posted engine entry (R150). -/
structure EngEntry where
  addr : Nat
  seq : Word
  group : Nat
  wkg : Nat
  serial : Word
  core : Nat
  /-- command posted -/
  op : Nat
  /-- what a QFENCE may wait for: the group's other queues, and the sequence it posted there last (R171) -/
  waits : List (QueueRef × Word)
  /-- MMA: groups and committing lanes of the members -/
  members : List (Nat × LaneMask)
  /-- the counter that falls at completion: 0 none, 1 CP, 2 TL -/
  counter : Nat
  /-- it was posted before the engine found a broken chain -/
  broken : Bool
  /-- effects with a lower number precede the post (R170) -/
  mark : Nat
  /-- its 64 bytes once the engine has taken it (R150), none before -/
  taken : List Byte
  /-- promotions of an MMA that have been made (R235) -/
  done : Nat
  deriving DecidableEq, Repr, Inhabited

/-- One engine queue of a partition (Table 6.6). -/
structure EngQ where
  ref : QueueRef
  entries : List EngEntry
  nextSeq : Word
  word : Word
  err : Bool
  /-- address of the last posted entry and the workgroup whose share holds it -/
  tail : Option (Nat × Nat × Word)
  deriving DecidableEq, Repr, Inhabited

/-- A partition (R45 to R47). -/
structure Partition where
  part : Nat
  root : Nat
  clumask : Nat
  savebase : Nat
  logbase : Nat
  logsize : Nat
  pkey : Nat
  modes : Nat
  nextSerial : Word
  /-- serials assigned so far (R73) -/
  assigned : Nat
  nextTicket : Word
  /-- service requests not answered: ticket, what it concerns (an item, an emulating group's uid), body (Table 2.8) -/
  requests : List (Word × Nat × List Byte)
  queues : List Queue
  taskqs : List TaskQ
  seals : List SealReg
  budgets : List Word
  borrow : Nat
  digestH : List Byte
  digestN : Nat
  objs : List Obj
  homeWaits : List HomeWait
  engqs : List EngQ
  /-- collective group counts: GID, posts made -/
  colls : List (Word × Nat)
  deriving DecidableEq, Repr, Inhabited

/-- A committed effect on its way to where it is performed, in effect order of its group (R158). -/
structure Item where
  id : Nat
  group : Nat
  part : Nat
  serial : Word
  wkg : Nat
  core : Nat
  trace : Nat
  lanes : LaneMask
  eff : Eff
  /-- ordering kind of its pages, strongest first: 0 SO, 1 RC, 2 UO (R165); 3 not known yet -/
  kind : Nat
  /-- refused lanes so far (R181) -/
  refused : List (Nat × Nat × Nat)
  deriving DecidableEq, Repr, Inhabited

/-- A copy of a page-table entry (R144). -/
structure TlbEntry where
  unit : Nat
  part : Nat
  level : Nat
  /-- the virtual address shifted right to the level's index -/
  tag : Nat
  value : Nat
  deriving DecidableEq, Repr, Inhabited

/-- Fatal marking of a cluster (R187 to R189). -/
structure Fatal where
  clu : Nat
  reason : Nat
  code : Nat
  part : Nat
  serial : Word
  wkg : Nat
  gid : Nat
  /-- partitions whose error recovery was host-assisted when it was marked (R54) -/
  stops : List Nat
  deriving DecidableEq, Repr, Inhabited

/-- A parked atomic (R156): item and element, the cause of Table 2.8, whether its repair is asked for (1) or made (2), and whether its
repair was host-assisted when it was parked (R54). -/
structure Parked where
  id : Nat
  elem : Nat
  cause : Nat
  stage : Nat
  assisted : Bool
  deriving DecidableEq, Repr, Inhabited

/-- A frame slot in use (R190, R191): the fragment and the element it holds, and whether its results stand in it; the ticket of the
service request that carries it, in host-assisted mode. -/
structure Frame where
  slot : Nat
  g : Nat
  n : Nat
  elem : Nat
  ready : Bool
  ticket : Option Word
  deriving DecidableEq, Repr, Inhabited

/-- An entry of a die's held-line list (R28): the line, its bad 8-byte words, and the SEQ of the record that reported it (R30). -/
structure HeldLine where
  line : Nat
  mask : Byte
  seq : Word
  deriving DecidableEq, Repr, Inhabited

/-- What the check code of a stored line shows to its next reader (R25); with a SEQ the line waits for a slot of a full held-line list,
and its record bore that SEQ (R28, R30). -/
structure LineFlaw where
  line : Nat
  err : LineError
  waits : Option Word
  deriving DecidableEq, Repr, Inhabited

/-- A die. -/
structure Die where
  running : Bool
  tripped : Bool
  config : List Byte
  minSeq : Word
  minFw : Word
  measure : List (List Byte)
  cert : List Byte
  /-- the connection of SPDM (R50): version and algorithms chosen, and the messages that signatures cover: negotiation, certificates,
  measurements -/
  spdm : List Byte
  spdmVca : List Byte
  spdmCerts : List Byte
  spdmMeas : List Byte
  clock : Nat
  periods : Nat
  throttle : Nat
  counters : List Word
  thresholds : List Word
  recSeq : Word
  /-- SEQ of the record that reported its trip, and of the one that reported that it found the dies separated (R13, R22, R30) -/
  tripSeq : Word
  splitSeq : Word
  held : List HeldLine
  /-- the fault queue (R156) -/
  parked : List Parked
  /-- emulation frame slots in use (R190) -/
  frames : List Frame
  /-- fetcher: last queue served, and the queue being visited with its steps so far -/
  lastQ : Nat × Nat
  visit : Option (Nat × Nat)
  visitSteps : Nat
  scrub : Nat
  cxlSize : Nat
  deriving DecidableEq, Repr, Inhabited

/-- A flit between two dies (R11, R12). -/
structure Flit where
  src : Nat
  dst : Nat
  data : List Byte
  deriving DecidableEq, Repr, Inhabited

/-- One direction of a die boundary (R11, R13): the sender's replay buffer and the flits that the receiver accepted, both oldest first,
and the consecutive failed checks of the flit under way. -/
structure LinkDir where
  sent : List Flit
  recvd : List Flit
  retries : Nat
  deriving DecidableEq, Repr, Inhabited

structure Boundary where
  up : Bool
  fwd : LinkDir
  bwd : LinkDir
  deriving DecidableEq, Repr, Inhabited

/-- One direction of a Causeway port (R19): the sender's replay buffer and the flits that the receiver accepted, both oldest first, and the
consecutive failed checks of the flit under way. -/
structure PortDir where
  sent : List (List Byte)
  recvd : List (List Byte)
  retries : Nat
  deriving DecidableEq, Repr, Inhabited

/-- A Causeway port: from its peer, and to it (R19). -/
structure Port where
  inbound : PortDir
  outbound : PortDir
  deriving DecidableEq, Repr, Inhabited

/-- A window of BAR0 (R34). -/
structure Window where
  cmdbase : DWord
  cmdsize : DWord
  cmdtail : Word
  cmdhead : Word
  cplbase : DWord
  cplsize : DWord
  cpltail : Word
  cplhead : Word
  evbase : DWord
  evsize : DWord
  evtail : Word
  evhead : Word
  run : Bool
  halted : Bool
  badring : Bool
  /-- EVLOST, saturating at 65,535 (R43) -/
  evlost : Nat
  /-- events accepted, not yet written (R43): 64-byte bodies -/
  events : List (List Byte)
  /-- a command that waits: its descriptor and a progress count (R39, R52) -/
  waiting : Option (FerryDesc × Nat)
  /-- the device range of a WRITE or READ that moves its units, checked (R38, R40) -/
  spans : List (Nat × Nat)
  /-- a ring access failed while the command was applied: its completion will be missing (R35) -/
  mute : Bool
  deriving DecidableEq, Repr, Inhabited

/-- A pair in a die switch's merge window (R360): the elements combined, as item and element. -/
structure MergePair where
  die : Nat
  addr : Nat
  sub : Nat
  ty : Nat
  value : Nat
  from_ : List (Nat × Nat)
  deriving DecidableEq, Repr, Inhabited

/-- A landing call in progress (R248 to R251): its group, instructions issued, RRET value, reject reason, fault code; the group and
load of the RREAD that it runs for. -/
structure Call where
  g : Nat
  caller : Option (Nat × Nat)
  count : Nat
  result : DWord
  reason : Nat
  code : Nat
  deriving DecidableEq, Repr, Inhabited

/-- What issues at this step. -/
inductive Cur where
  | none
  | frag (g n : Nat)
  | pilot (part q : Nat)
  deriving DecidableEq, Repr, Inhabited

/-- The machine. -/
structure State where
  dies : List Die
  /-- clock count of each core, device-wide (R3, Table 15.5) -/
  cycles : List Nat
  /-- dies that the last package reset stopped in reset, as the package reports them (R23, R48) -/
  bootReport : List Nat
  boundaries : List Boundary
  ports : List Port
  upWidth : Nat
  upRate : Nat
  windows : List Window
  /-- MSI-X table and pending bits (R32), and vectors signalled, oldest first -/
  msix : List Byte
  pba : DWord
  signalled : List Nat
  /-- DOE mailbox (R50): the last answer -/
  doe : List Byte
  /-- what the host's last read of BAR0 or BAR2 returned (R32, R34) -/
  hostRead : DWord
  hostmem : Sparse 8
  hostfail : List (Nat × Nat)
  mem : Sparse 8
  /-- lines whose check code shows an error that no reader has met (R25 to R28) -/
  flaws : List LineFlaw
  parts : List Partition
  launches : List Launch
  wkgs : List Workgroup
  /-- pages of workgroups that have ended, not yet given to another (R79) -/
  remains : List Remains
  groups : List Group
  pipe : List Item
  tlb : List TlbEntry
  /-- L1 copies: core, line address, 64 bytes (R159) -/
  l1 : List (Nat × Nat × List Byte)
  /-- instruction-cache copies: core, partition, virtual line address, 64 bytes (R285) -/
  icache : List (Nat × Nat × Nat × List Byte)
  /-- fenced sub-arrays: core × 4 + sub-array (R108) -/
  fenced : List Nat
  /-- merge window of the die switches (R360) -/
  merge : List MergePair
  fatals : List Fatal
  /-- landing calls' journals: group, then address and prior byte, newest first (R250) -/
  journal : List (Nat × Nat × Byte)
  calls : List Call
  nextId : Nat
  stampNext : Nat
  /-- who issues in this step -/
  cur : Cur
  /-- MODEL: who moves next [1] -/
  agenda : List Activity
  /-- MODEL: counter of free values [2] -/
  tick : Nat
  deriving DecidableEq, Repr, Inhabited

namespace State

/-- A die in reset: nothing accepted, nothing started (R23). -/
def dieReset : Die :=
  { running := false, tripped := false, config := List.replicate 64 0, minSeq := 0, minFw := 0,
    measure := List.replicate 4 (List.replicate 32 0), cert := [], spdm := [],
    spdmVca := [], spdmCerts := [], spdmMeas := [], clock := 0, periods := 0, throttle := 0,
    counters := List.replicate 14 0, thresholds := List.replicate 14 256, recSeq := 0, tripSeq := 0, splitSeq := 0, held := [],
    parked := [],
    frames := [], lastQ := (11, 63), visit := none, visitSteps := 0, scrub := 0, cxlSize := 0 }

def linkReset : LinkDir := { sent := [], recvd := [], retries := 0 }
def boundaryReset : Boundary := { up := true, fwd := linkReset, bwd := linkReset }

/-- A window after reset: every register zero [4]. -/
def windowReset : Window :=
  { cmdbase := 0, cmdsize := 0, cmdtail := 0, cmdhead := 0, cplbase := 0, cplsize := 0, cpltail := 0, cplhead := 0,
    evbase := 0, evsize := 0, evtail := 0, evhead := 0, run := false, halted := false, badring := false,
    evlost := 0, events := [], waiting := none, spans := [], mute := false }

/-- The machine right after reset: the dies held in reset until PACKAGE_RESET has run (R23, R48). -/
def reset : State :=
  { dies := List.replicate 4 dieReset, cycles := List.replicate 192 0, bootReport := [], boundaries := List.replicate 4 boundaryReset,
    ports := List.replicate 16 { inbound := ⟨[], [], 0⟩, outbound := ⟨[], [], 0⟩ }, upWidth := 0, upRate := 0,
    windows := List.replicate 13 windowReset, msix := List.replicate 1024 0, pba := 0, signalled := [], doe := [], hostRead := 0,
    hostmem := [], hostfail := [], mem := [], flaws := [], parts := [], launches := [], wkgs := [], remains := [],
    groups := [],
    pipe := [], tlb := [], l1 := [], icache := [], fenced := [], merge := [], fatals := [], journal := [], calls := [],
    nextId := 0, stampNext := 0, cur := .none, agenda := [], tick := 0 }

end State
end Sys2Proof.Machine
end

