-- ==== Sys2Proof/Machine/Ops.lean ====
section
/-! DEFINITION. Named operations over the state: accessors, physical memory, translation (R133 to R144), scratchpad (R135),
registers (R112, R116, R117), faults (R177 to R180, R414) and the split tree (R96 to R98). -/
namespace Sys2Proof.Machine

/-! ### Lanes -/

/-- The mask of one lane. -/
def laneBit (l : Nat) : LaneMask := 1 <<< l
/-- The lanes of a mask, ascending. -/
def lanesOf (m : LaneMask) : List Nat := if m = 0 then [] else (List.range 96).filter fun l => m.getLsbD l
/-- The mask of some lanes. -/
def maskOf (ls : List Nat) : LaneMask := ls.foldl (fun m l => m ||| laneBit l) 0
/-- Word k (0 to 2) of a mask, in the layout of s60 to s62 (R116). -/
def maskWord (m : LaneMask) (k : Nat) : Word := m.extractLsb' (32 * k) 32
/-- The mask with word k replaced. -/
def setMaskWord (m : LaneMask) (k : Nat) (w : Word) : LaneMask :=
  let keep : LaneMask := (0xFFFFFFFF : LaneMask) <<< (32 * k)
  (m &&& ~~~keep) ||| (w.setWidth 96 <<< (32 * k))

/-! ### Accessors -/
namespace State

def die (s : State) (d : Nat) : Die := s.dies.getD d default
def setDie (s : State) (d : Nat) (x : Die) : State := { s with dies := s.dies.set d x }
def win (s : State) (w : Nat) : Window := s.windows.getD w default
def setWin (s : State) (w : Nat) (x : Window) : State := { s with windows := s.windows.set w x }
def group? (s : State) (g : Nat) : Option Group := s.groups.find? fun x => x.uid == g
def setGroup (s : State) (x : Group) : State :=
  { s with groups := s.groups.map fun y => if y.uid == x.uid then x else y }
def part? (s : State) (p : Nat) : Option Partition := s.parts.find? fun x => x.part == p
def setPart (s : State) (x : Partition) : State :=
  { s with parts := s.parts.map fun y => if y.part == x.part then x else y }
def launch? (s : State) (p : Nat) (serial : Word) : Option Launch :=
  s.launches.find? fun x => x.part == p && x.serial == serial
def setLaunch (s : State) (x : Launch) : State :=
  { s with launches := s.launches.map fun y => if y.part == x.part && y.serial == x.serial then x else y }
def wkg? (s : State) (p : Nat) (serial : Word) (k : Nat) : Option Workgroup :=
  s.wkgs.find? fun x => x.part == p && x.serial == serial && x.wkg == k
def setWkg (s : State) (x : Workgroup) : State :=
  { s with wkgs := s.wkgs.map fun y => if y.part == x.part && y.serial == x.serial && y.wkg == x.wkg then x else y }
def item? (s : State) (id : Nat) : Option Item := s.pipe.find? fun x => x.id == id
def setItem (s : State) (x : Item) : State := { s with pipe := s.pipe.map fun y => if y.id == x.id then x else y }
/-- A fresh 64-bit free value [2]. -/
def fresh (s : State) : DWord × State := (Config.freeValue s.tick, { s with tick := s.tick + 1 })

end State

def Group.node? (g : Group) (n : Nat) : Option Node := g.nodes.find? fun x => x.ix == n
def Group.setNode (g : Group) (x : Node) : Group :=
  { g with nodes := g.nodes.map fun y => if y.ix == x.ix then x else y }
def Node.leaf (n : Node) : Bool := n.st != .joinNode
def Partition.engq? (p : Partition) (r : QueueRef) : Option EngQ := p.engqs.find? fun x => x.ref == r
def Partition.setEngq (p : Partition) (x : EngQ) : Partition :=
  { p with engqs := p.engqs.map fun y => if y.ref == x.ref then x else y }
def Partition.queue? (p : Partition) (q : Nat) : Option Queue := p.queues.find? fun x => x.q == q
def Partition.setQueue (p : Partition) (x : Queue) : Partition :=
  { p with queues := p.queues.map fun y => if y.q == x.q then x else y }
def Partition.taskq? (p : Partition) (q : Nat) : Option TaskQ := p.taskqs.find? fun x => x.q == q
def Partition.setTaskq (p : Partition) (x : TaskQ) : Partition :=
  { p with taskqs := p.taskqs.map fun y => if y.q == x.q then x else y }
/-- The assist mode of Table 2.7 is host-assisted. -/
def Partition.assisted (p : Partition) (bitNo : Nat) : Bool := bit p.modes bitNo
/-- A field of a launch record (Table 3.7). -/
def Launch.fld (l : Launch) (k n : Nat) : Nat := field l.record k n

/-- Die, cluster (device-wide) and COREID of a device-wide core index (R14). -/
def dieOfCore (core : Nat) : Nat := core / 48
def cluOfCore (core : Nat) : Nat := core / 4
/-- Die of a unit: of a core, or of the units of die unit - 192 (its last-level TLB, its landing pipeline). -/
def unitDie (unit : Nat) : Nat := if unit < 192 then dieOfCore unit else unit - 192

/-- The die whose memory system serves a group. -/
def Group.die (g : Group) : Nat :=
  match g.landing with
  | some l => l.die
  | none => dieOfCore g.core

/-! ### Physical memory (R17) -/

/-- The tiers of Table 1.1. -/
inductive Tier where
  | hbm | bench | cxl
  deriving DecidableEq, Repr, Inhabited

def hbmDie : Nat := 0x3000000000
def benchBase : Nat := 0x100000000000
def benchDie : Nat := 0x8000000
def cxlBase : Nat := 0x400000000000
def cxlPort : Nat := 0x20000000000

/-- Tier and owning die of a physical address; none where Table 1.1 has no range. -/
def tierOf (pa : Nat) : Option (Tier × Nat) :=
  if pa < 4 * hbmDie then some (.hbm, pa / hbmDie)
  else if benchBase ≤ pa ∧ pa < benchBase + 4 * benchDie then some (.bench, (pa - benchBase) / benchDie)
  else if cxlBase ≤ pa ∧ pa < cxlBase + 4 * cxlPort then some (.cxl, (pa - cxlBase) / cxlPort)
  else none

/-- Number of a tier in a page-table entry (Table 6.2). -/
def Tier.num : Tier → Nat
  | .hbm => 0 | .bench => 1 | .cxl => 2

/-- The home die of an address. -/
def homeDie (pa : Nat) : Nat :=
  match tierOf pa with
  | some t => t.2
  | none => 0

/-- The HBM stack of its die, 0 to 2, that holds an address of the die's HBM range: 256-byte lines rotate across the three (R15). -/
def stackOf (pa : Nat) : Nat := pa % hbmDie / 256 % 3

/-- The address is populated (R18). -/
def populated (s : State) (pa : Nat) : Bool :=
  match tierOf pa with
  | some (.cxl, d) => (pa - cxlBase) % cxlPort < (s.die d).cxlSize
  | some _ => true
  | none => false

/-- The emulation page of a die's bench range (R190). -/
def emulationPage (pa : Nat) : Bool :=
  match tierOf pa with
  | some (.bench, _) => 0x7FF0000 ≤ (pa - benchBase) % benchDie
  | _ => false

/-- A seal register of any partition holds the address SEALING or SEALED (R51). -/
def sealHolds (s : State) (pa : Nat) : Bool :=
  s.parts.any fun p => p.seals.any fun r => r.st != .empty && r.base ≤ pa && pa < r.base + r.pages * 65536

/-- The address refuses every writer that a program or the host has: a seal register holds it, or it lies in a digest log (R51, R257). -/
def sealedPa (s : State) (pa : Nat) : Bool :=
  sealHolds s pa || s.parts.any fun p => p.logbase ≤ pa && pa < p.logbase + p.logsize * 64

/-- The page holds sealed bytes of the partition: a SEALED register covers it (R175, R249). -/
def sealedFor (s : State) (part pa : Nat) : Bool :=
  match s.part? part with
  | some p => p.seals.any fun r => r.st == .sealed && r.base ≤ pa && pa < r.base + r.pages * 65536
  | none => false

/-! ### Routes between dies (R10 to R13) -/

/-- A boundary is up. -/
def boundaryUp (s : State) (b : Nat) : Bool := (s.boundaries.getD b default).up

/-- The boundary of two neighbours (R10): 0: 0–1, 1: 2–3, 2: 0–2, 3: 1–3. -/
def boundaryOf (a b : Nat) : Nat :=
  if min a b = 0 then (if max a b = 1 then 0 else 2) else if min a b = 1 then 3 else 1

/-- The next die around the ring 0–1–3–2, one way and the other. -/
def ringNext (d : Nat) : Nat := [1, 3, 0, 2].getD d 0
def ringPrev (d : Nat) : Nat := [2, 0, 3, 1].getD d 0

/-- The dies passed from a to b, b the last, going one way around the ring. -/
def arc (turn : Nat → Nat) (a b : Nat) : List Nat :=
  let ds := [turn a, turn (turn a), turn (turn (turn a))]
  ds.take (ds.findIdx (· == b) + 1)

/-- The fixed route of a pair (R12): to a neighbour across their boundary, to the diagonal die east–west first. -/
def fixedRoute (a b : Nat) : List Nat :=
  let c := arc ringNext a b
  if c.length = 1 ∨ (c.length = 2 ∧ c.head? = some (a ^^^ 1)) then c else arc ringPrev a b

/-- The other way around the ring (R13). -/
def otherRoute (a b : Nat) : List Nat :=
  if fixedRoute a b = arc ringNext a b then arc ringPrev a b else arc ringNext a b

/-- Every boundary of a path from a die is up. -/
def pathUp (s : State) : Nat → List Nat → Bool
  | _, [] => true
  | a, d :: ds => boundaryUp s (boundaryOf a d) && pathUp s d ds

/-- The dies that traffic from a to b passes, b the last (R12, R13); none where the dies are separated. -/
def route (s : State) (a b : Nat) : Option (List Nat) :=
  if a = b then some []
  else if pathUp s a (fixedRoute a b) then some (fixedRoute a b)
  else if pathUp s a (otherRoute a b) then some (otherRoute a b)
  else none

/-- Two dies are joined (R13). -/
def joined (s : State) (a b : Nat) : Bool := (route s a b).isSome

/-- An access from a die reaches the home of an address: the home serves and a route leads to it (R13, R17, R22). -/
def reaches (s : State) (fromDie pa : Nat) : Bool := !(s.die (homeDie pa)).tripped && joined s fromDie (homeDie pa)

/-! ### Bytes and lines in error (R25 to R30) -/

/-- Bytes of device memory. -/
def pread (s : State) (pa n : Nat) : List Byte := sread s.mem pa n

/-- The held-line entry of a line, if any. -/
def heldLine? (s : State) (line : Nat) : Option HeldLine := (s.die (homeDie line)).held.find? fun h => h.line == line
def heldMask (s : State) (line : Nat) : Byte :=
  (s.die (homeDie line)).held.foldl (fun m h => if h.line == line then m ||| h.mask else m) 0

/-- The error that a line's check code shows and no reader has had entered. -/
def flaw? (s : State) (line : Nat) : Option LineFlaw := s.flaws.find? fun f => f.line == line

/-- The words that an error makes bad. -/
def errWords : LineError → Byte
  | .bad _ mask _ => mask
  | _ => 0

/-- The bad 8-byte words of a line: those of the held-line list, and those that a reader finds. -/
def badWords (s : State) (line : Nat) : Byte :=
  s.flaws.foldl (fun m f => if f.line == line then m ||| errWords f.err else m) (heldMask s line)

/-- Some byte of the span lies in a bad 8-byte word of a line, or at a home that does not serve (R27, R28, R13, R22). -/
def badSpan (s : State) (fromDie pa n : Nat) : Bool :=
  !reaches s fromDie pa ||
    (List.range (n / 8 + 2)).any fun k =>
      let w := (pa / 8 + k) * 8
      w < pa + n && (badWords s (w / 64 * 64)).getLsbD (w % 64 / 8)

/-- The lines that a span meets. -/
def linesOf (pa n : Nat) : List Nat := (List.range ((pa % 64 + n + 63) / 64)).map fun k => (pa / 64 + k) * 64

/-- SEQ of the record that reported why a span cannot be read (R30): the home's trip, the separation, or the line's error. -/
def recordSeq (s : State) (fromDie pa n : Nat) : Option Word :=
  if (s.die (homeDie pa)).tripped then some (s.die (homeDie pa)).tripSeq
  else if !joined s fromDie (homeDie pa) then some (s.die fromDie).splitSeq
  else
    ((linesOf pa n).filter fun l => badWords s l != 0).findSome? fun l =>
      match heldLine? s l with
      | some h => some h.seq
      | none => (flaw? s l).bind (·.waits)

/-- A fault as the lists of faults carry it: its code in the low byte, and for one that page-fault service replaces (R54, R143)
above it the cause 1 to 4, the access and the address of Table 2.8. A data error carries 1 + the SEQ of its record there, with cause 0
(R30). -/
def faultAt (code cause access addr : Nat) : Nat := code + 256 * (cause + 8 * (access + 8 * addr))

/-- The data error of a span, with the SEQ of its record (R30). -/
def dataError (s : State) (fromDie pa n : Nat) : Nat :=
  match recordSeq s fromDie pa n with
  | some q => faultAt 9 0 0 (q.toNat + 1)
  | none => 9

/-- A write of a span makes some bad 8-byte word of its line good: it covers the word wholly (R28). -/
def repairs (s : State) (pa n : Nat) : Bool :=
  let line := pa / 64 * 64
  let m := badWords s line
  (List.range 8).any fun k => m.getLsbD k && pa ≤ line + 8 * k && line + 8 * k + 8 ≤ pa + n

/-- An atomic parked on the line holds it (R156). -/
def lineParked (s : State) (line : Nat) : Bool :=
  s.pipe.any fun it => it.eff.elems.any fun x => x.st == .parked && x.pa / 64 * 64 == line

/-- A request for a span waits behind a parked atomic, unless it is a write that repairs the line (R156, R157). -/
def parkedBlocks (s : State) (pa n : Nat) (write : Bool) : Bool :=
  (s.pipe.any fun it => it.eff.elems.any fun x => x.st == .parked) &&
    (List.range ((pa % 64 + n + 63) / 64)).any fun k =>
      let line := pa / 64 * 64 + 64 * k
      let lo := max pa line
      let hi := min (pa + n) (line + 64)
      lineParked s line && !(write && repairs s lo (hi - lo))

/-- A line that waits for a slot of its home's full list is entered once one frees (R28). -/
def enterWaiting (s : State) (die : Nat) : State :=
  let d := s.die die
  if 256 ≤ d.held.length then s
  else
    match s.flaws.find? fun f => f.waits.isSome && homeDie f.line == die with
    | some f =>
      let t := s.setDie die { d with held := d.held ++ [{ line := f.line, mask := badWords s f.line, seq := f.waits.getD 0 }] }
      { t with flaws := s.flaws.filter fun g => g.line != f.line }
    | none => s

/-- The 8-byte words of a line that a write covers wholly. -/
def wholeWords (line pa n : Nat) : Byte :=
  (List.range 8).foldl (fun (a : Byte) k =>
    if pa ≤ line + 8 * k ∧ line + 8 * k + 8 ≤ pa + n then a ||| (1 <<< k) else a) 0

/-- A flaw once some words of its line are written whole; none is left when no word stays bad. -/
def LineFlaw.heal (f : LineFlaw) (good : Byte) : Option LineFlaw :=
  match f.err with
  | .bad hop mask synd => if mask &&& ~~~good = 0 then none else some { f with err := .bad hop (mask &&& ~~~good) synd }
  | _ => some f

/-- The same of an entry of the held-line list. -/
def HeldLine.heal (h : HeldLine) (good : Byte) : Option HeldLine :=
  if h.mask &&& ~~~good = 0 then none else some { h with mask := h.mask &&& ~~~good }

/-- Clear the bits of bad words that a write covers wholly; a line with none left leaves the held-line list (R28). -/
def healWords (s : State) (pa n : Nat) : State :=
  let line := pa / 64 * 64
  let d := homeDie pa
  if badWords s line = 0 then s
  else
    let good := wholeWords line pa n
    let x := s.die d
    let s1 : State := { s with flaws := s.flaws.filterMap fun f => (if f.line == line then f.heal good else some f) }
    enterWaiting (s1.setDie d { x with held := x.held.filterMap fun h => if h.line == line then h.heal good else some h }) d

/-- Write bytes to device memory at their home; a span of at most one line. -/
def pwrite (s : State) (pa : Nat) (d : List Byte) : State :=
  healWords { s with mem := swrite s.mem pa d } pa d.length

/-- Write a span of any length. -/
def pwriteLong (s : State) (pa : Nat) (d : List Byte) : State :=
  let lines := (List.range (d.length / 64 + 2)).map fun k => pa / 64 + k
  let s1 := { s with mem := swrite s.mem pa d }
  lines.foldl (fun s l =>
    let lo := max pa (l * 64)
    let hi := min (pa + d.length) (l * 64 + 64)
    if lo < hi then healWords s lo (hi - lo) else s) s1

/-! ### Translation (R140 to R144) -/

/-- A translated access: physical address, ordering kind (Table 6.4), tier, the leaf entry. -/
structure Xlat where
  pa : Nat
  ord : Nat
  tier : Tier
  leaf : Nat
  big : Bool
  deriving DecidableEq, Repr, Inhabited

/-- The index shift of a level (R140). -/
def levelShift (level : Nat) : Nat := if level = 1 then 42 else if level = 2 then 29 else 16

/-- A core's TLB or its die's last-level TLB holds a copy of the entry of a level (R144). -/
def tlbHit (s : State) (core die part level va : Nat) : Option TlbEntry :=
  let hit := fun u => s.tlb.find? fun e => e.unit == u && e.part == part && e.level == level && e.tag == va >>> levelShift level
  match hit core with
  | some e => some e
  | none => hit (192 + die)

/-- The address of the entry of a level in a table. -/
def pteAddr (level va base : Nat) : Nat := base + 8 * ((va >>> levelShift level) % 8192)

/-- An 8-byte entry that a die reads at its home gives an error indication in place of data (R13, R22, R28). -/
def pteBad (s : State) (fromDie a : Nat) : Bool :=
  !reaches s fromDie a || (badWords s (a / 64 * 64)).getLsbD (a % 64 / 8)

/-- The entry a walk uses at a level: a copy in a TLB of the core or its die, else memory (R142, R144). An entry that memory cannot
give is the data error of the access that walks (DEDUCED [98]). -/
def pteAt (s : State) (core die part level va base : Nat) : Except Nat Nat :=
  match tlbHit s core die part level va with
  | some e => .ok e.value
  | none =>
    let a := pteAddr level va base
    if pteBad s die a then .error (dataError s die a 8) else .ok (leNat (pread s a 8))

/-- Zero fields of an entry (Table 6.2): bits 6 and 4. -/
def pteMalformed (e : Nat) : Bool := bit e 6 || bit e 4
def ptePfn (e : Nat) : Nat := bits e 47 12
/-- A table pointer with a nonzero field that must be 0, or a base outside HBM. -/
def ptrMalformed (e : Nat) : Bool :=
  pteMalformed e || bits e 11 7 != 0 || bits e 3 1 != 0 || 4 * hbmDie ≤ ptePfn e * 65536

/-- A leaf: malformed fields of Table 6.2. A PFN in no range of Table 1.1 names no tier, and is left to R18 (DEDUCED [10]). -/
def leafMalformed (e : Nat) (big : Bool) : Bool :=
  pteMalformed e || bits e 11 10 == 3 || bits e 9 8 == 3 ||
    (big && (ptePfn e % 8192 != 0 || bits e 11 10 == 1)) ||
    (match tierOf (ptePfn e * 65536) with
     | some t => t.1.num != bits e 11 10
     | none => false)

/-- The next table of a walk, from an entry of level 1 or 2: where a present pointer leads. -/
def pteNext (e : Nat) : Option Nat := if bit e 0 && !bit e 5 && !ptrMalformed e then some (ptePfn e * 65536) else none

/-- Walk the tables: the leaf and whether it is a 512 MiB page, or fault code 1 or 2 (R142), or the data error of an entry that cannot be
read [98]. A page that the tables do not map is a translation fault, code 1 (R141, R411), also where R46 speaks of a protection fault
(DESIGN CHOICE [97]). -/
def walk (s : State) (core die part va : Nat) : Except Nat (Nat × Bool) :=
  match s.part? part with
  | none => .error 1
  | some p =>
    if 4 * hbmDie ≤ p.root then .error 2
    else
      match pteAt s core die part 1 va p.root with
      | .error e => .error e
      | .ok e1 =>
        if ¬ bit e1 0 then .error 1
        else
          match pteNext e1 with
          | none => .error 2
          | some b2 =>
            match pteAt s core die part 2 va b2 with
            | .error e => .error e
            | .ok e2 =>
              if ¬ bit e2 0 then .error 1
              else if bit e2 5 then (if leafMalformed e2 true then .error 2 else .ok (e2, true))
              else
                match pteNext e2 with
                | none => .error 2
                | some b3 =>
                  match pteAt s core die part 3 va b3 with
                  | .error e => .error e
                  | .ok e3 =>
                    if ¬ bit e3 0 then .error 1
                    else if ¬ bit e3 5 || leafMalformed e3 false then .error 2
                    else .ok (e3, false)

/-- The entries that a walk reads in memory, in order (R142). -/
def walkReads (s : State) (core die part va : Nat) : List Nat :=
  match s.part? part with
  | none => []
  | some p =>
    if 4 * hbmDie ≤ p.root || 2 ^ 55 ≤ va then []
    else
      let reads := fun (level base : Nat) => if (tlbHit s core die part level va).isSome then [] else [pteAddr level va base]
      let next := fun (level base : Nat) => match pteAt s core die part level va base with
        | .ok e => pteNext e
        | .error _ => none
      reads 1 p.root ++ match next 1 p.root with
        | none => []
        | some b2 => reads 2 b2 ++ match next 2 b2 with
          | none => []
          | some b3 => reads 3 b3

/-- What an access needs (Table 6.3). -/
inductive Need where
  | read | write | update | exec
  deriving DecidableEq, Repr, Inhabited

/-- Translate one access: code 3, 1, 2 or 4 in the order of R411, the data error of a walk [98], or the physical address. -/
def translate (s : State) (core die part va : Nat) (need : Need) : Except Nat Xlat :=
  if 2 ^ 55 ≤ va then .error 3
  else
    match walk s core die part va with
    | .error c => .error c
    | .ok (e, big) =>
      let pa := if big then ptePfn e * 65536 + va % 2 ^ 29 else ptePfn e * 65536 + va % 65536
      let key := match s.part? part with
        | some p => p.pkey
        | none => 0
      let rd := bit e 1
      let wr := bit e 2 && !bit e 7 && !sealedPa s pa
      let okPerm := match need with
        | .read => rd
        | .write => wr
        | .update => rd && wr
        | .exec => rd && bit e 3
      if bits e 63 48 != key || !okPerm || !populated s pa || emulationPage pa then .error 4
      else
        match tierOf pa with
        | some t => .ok { pa := pa, ord := bits e 9 8, tier := t.1, leaf := e, big := big }
        | none => .error 4

/-- Some atomic is parked. -/
def anyParked (s : State) : Bool := s.pipe.any fun it => it.eff.elems.any fun x => x.st == .parked

/-- An entry that a walk reads from memory lies on the line of a parked atomic (R142, R156). -/
def walkHeld (s : State) (core die part va : Nat) : Bool :=
  anyParked s && (walkReads s core die part va).any fun a => parkedBlocks s a 8 false

/-! ### Scratchpad (R135) -/

/-- The workgroup whose share a scratchpad offset reaches from a group's core, and the offset in it; none is code 4. -/
def scratchAt (s : State) (g : Group) (off n : Nat) : Option (Workgroup × Nat) :=
  match s.wkg? g.part g.serial g.wkg with
  | none => none
  | some own =>
    let win := bit off 22
    let pos := bits off 21 20
    let o := off % 2 ^ 20
    let target :=
      if off / 2 ^ 23 ≠ 0 then none
      else if ¬ win then (if pos = 0 then some own else none)
      else if g.core % 4 = pos then some own
      else
        let clustered := match s.launch? g.part g.serial with
          | some l => bit (l.fld 30 1) 4
          | none => false
        if clustered then
          s.wkgs.find? fun w => w.part == g.part && w.serial == g.serial && w.core == g.core / 4 * 4 + pos && w.st != .saved
        else none
    match target with
    | some w => if o + n ≤ w.share then some (w, o) else none
    | none => none

/-! ### Ordinary registers (R112, R116, R117) -/

def vkey (lane reg : Nat) : Nat := reg * 96 + lane
def Group.rv (g : Group) (lane reg : Nat) : Word := sget g.v (vkey lane reg)
/-- A register that is written shows no error any more (R27). -/
def Group.mend (g : Group) (ref : RegRef) : List RegFlaw := g.flaws.filter fun f => f.ref != ref
def Group.wv (g : Group) (lane reg : Nat) (x : Word) : Group :=
  { g with v := sset g.v (vkey lane reg) x, flaws := g.mend (.v lane reg) }
/-- A predicate; p15 reads T and 0b11 reads as U (R115, Table 5.1). -/
def Group.rp (g : Group) (lane reg : Nat) : Pred :=
  if reg = 15 then 1 else let x := sget g.p (vkey lane reg); if x = 3 then 2 else x
def Group.wp (g : Group) (lane reg : Nat) (x : Pred) : Group :=
  if reg = 15 then g else { g with p := sset g.p (vkey lane reg) x }
def Group.rpdg (g : Group) (lane : Nat) : DWord := sget g.pdg lane
def Group.wpdg (g : Group) (lane : Nat) (x : DWord) : Group := { g with pdg := sset g.pdg lane x }

/-- The fragment's lane mask as s60 to s62 read it: cleared lanes have left (R116). -/
def Node.curMask (n : Node) : LaneMask :=
  match n.ctx with
  | some c => n.mask &&& ~~~c.cleared
  | none => n.mask

/-- A scalar register as a fragment reads it. -/
def readS (g : Group) (n : Node) (r : Nat) : Word :=
  if r < 60 then sget g.s r else if r < 63 then maskWord n.curMask (r - 60) else n.s63

/-- Registers that only bear another number in the ownership rule (R130, R211, R384). -/
def regFmode : Nat := 100
def regSavelo : Nat := 101
def regSavehi : Nat := 102

/-- The value of an owned register. -/
def Group.ownedVal (g : Group) (r : Nat) : Word :=
  if r = regFmode then g.fmode else if r = regSavelo then g.savelo else if r = regSavehi then g.savehi else sget g.s r
def Group.setOwned (g : Group) (r : Nat) (x : Word) : Group :=
  if r = regFmode then { g with fmode := x }
  else if r = regSavelo then { g with savelo := x }
  else if r = regSavehi then { g with savehi := x }
  else { g with s := sset g.s r x, flaws := g.mend (.s r) }

/-- s63 of Table 5.2. -/
def s63Of (entry outcome code index : Nat) : Word :=
  BitVec.ofNat 32 (index % 256 * 2 ^ 24 + code % 256 * 2 ^ 16 + outcome % 256 * 2 ^ 8 + entry % 16)

/-! ### Launch facts -/

/-- Byte address of the launch's HANDLER, 0 for a landing group (Table 3.7). -/
def handlerOf (s : State) (g : Group) : Nat :=
  match s.launch? g.part g.serial with
  | some l => l.fld 8 8
  | none => 0

/-! ### Faults: how lanes are taken to the handler (R121, R177, R178, R180) -/

/-- The first failure of a lane counts (R121). -/
def Ctx.addFail (c : Ctx) (x : Fail) : Ctx :=
  if c.active.getLsbD x.lane then
    { c with active := c.active &&& ~~~laneBit x.lane, fails := c.fails ++ [x] }
  else c

def faultCode (x : Nat) : Nat := x % 256
def faultCause (x : Nat) : Nat := x / 256 % 8
def faultAccess (x : Nat) : Nat := x / 2048 % 8
def faultAddr (x : Nat) : Nat := x / 16384
/-- A fault of an access, by its code: codes 1 to 4 are served (R179). -/
def accessFault (code access addr : Nat) : Nat := if 1 ≤ code ∧ code ≤ 4 then faultAt code code access addr else code

/-- The SEQ that a data error carries (R30). -/
def faultSeq (x : Nat) : Option Word :=
  if faultCode x = 9 ∧ faultAddr x ≠ 0 then some (BitVec.ofNat 32 (faultAddr x - 1)) else none

/-- TAKING A FAULT, the one shared operation (R121, R177): the lane stops, its destination is the handler trace, and s63 will
hold ENTRY 5, OUTCOME 3, the code, and the INDEX of the faulting instruction. In host-assisted page-fault service, codes 1 to 4
wait for an answer instead (R179). -/
def Ctx.takeFault (c : Ctx) (assisted : Bool) (lane fault index : Nat) : Ctx :=
  let s63 := s63Of 5 3 (faultCode fault) index
  if assisted && faultCause fault != 0 then
    c.addFail { lane := lane, dest := .service (faultCause fault) (faultAccess fault) (faultAddr fault), s63 := s63, seq := none }
  else c.addFail { lane := lane, dest := .handler, s63 := s63, seq := faultSeq fault }

/-- When no lane remains active, the rest of the trace does not execute (R122). -/
def Ctx.settle (c : Ctx) : Ctx := if c.active = 0 ∧ c.term = none then { c with term := some .dead } else c

/-- Partitions whose error recovery is host-assisted (Table 2.7, bit 4). -/
def assistedRecovery (s : State) : List Nat := (s.parts.filter (·.assisted 4)).map (·.part)

/-- Mark the group's cluster for fatal termination (R187): it stops issuing at once (R188). -/
def addFatal (s : State) (g : Group) (reason code : Nat) : State :=
  if s.fatals.any fun f => f.clu == cluOfCore g.core then s
  else
    { s with fatals := s.fatals ++
      [{ clu := cluOfCore g.core, reason := reason, code := code, part := g.part, serial := g.serial, wkg := g.wkg,
         gid := g.gid, stops := assistedRecovery s }] }

/-- Reject a landing call (R249): the first reason counts. -/
def rejectCall (s : State) (g : Group) (reason code : Nat) : State :=
  { s with calls := s.calls.map fun c =>
      if c.g == g.uid && c.reason == 0 then { c with reason := reason, code := code } else c }

/-- The partition of a group has host-assisted page-fault service (Table 2.7, bit 0). -/
def pageAssisted (s : State) (g : Group) : Bool :=
  match s.part? g.part with
  | some p => p.assisted 0
  | none => false

/-- Put a fragment's trace back into its group and the group into the state. -/
def putCtx (s : State) (g : Group) (n : Node) (c : Ctx) : State := s.setGroup (g.setNode { n with ctx := some c })

/-- Precise lane faults at the instruction of index c.ix (R177, R178, R249); the fragment then stands at `next`. In a trace of
kind 2 or 3 any fault that page-fault service does not replace is fatal, and in a method it rejects the call. -/
def faultLanes (s : State) (g : Group) (n : Node) (c : Ctx) (fs : List (Nat × Nat)) (next : Ctx → Ctx) : State :=
  match fs.filter fun f => c.active.getLsbD f.1 with
  | [] => putCtx s g n (next c).settle
  | f :: rest =>
    let a := pageAssisted s g
    if g.landing.isSome then rejectCall (putCtx s g n c) g 4 (faultCode f.2)
    else if (c.hdr.kind = 2 ∨ c.hdr.kind = 3) ∧ ¬ (a ∧ ∀ x ∈ f :: rest, faultCause x.2 ≠ 0) then addFatal (putCtx s g n c) g 1 n.code
    else
      let c1 := (f :: rest).foldl (fun c x => c.takeFault a x.1 x.2 c.ix) c
      putCtx s g n (next c1).settle

/-- A group fault: every active lane of the fragment fails at the faulting instruction (R177). -/
def groupFault (s : State) (g : Group) (n : Node) (c : Ctx) (code : Nat) : State :=
  faultLanes s g n c ((lanesOf c.active).map fun l => (l, code)) id

/-- Lanes see the SEQ of the record of their data error. -/
def Group.noteSeqs (g : Group) (qs : List (Nat × Word)) : Group :=
  { g with dataSeqs := (g.dataSeqs.filter fun x => !qs.any fun q => q.1 == x.1) ++ qs }

/-- A fault as a fragment enters a trace (R414): against the trace entered, INDEX 0; fatal with 65 when that trace is the
handler entered as the handler, with 64 when the fragment comes from a trace of kind 2 or 3. -/
def entryFault (s : State) (g : Group) (n : Node) (fault : Nat) : State :=
  let code := faultCode fault
  if g.landing.isSome then rejectCall s g 4 code
  else if n.toHandler then addFatal s g 2 (n.s63.toNat / 2 ^ 16 % 256)
  else if n.prevKind = 2 ∨ n.prevKind = 3 then addFatal s g 1 n.code
  else
    let g1 := match faultSeq fault with
      | some q => g.noteSeqs ((lanesOf n.mask).map fun l => (l, q))
      | none => g
    s.setGroup (g1.setNode { n with trace := handlerOf s g, s63 := s63Of 5 3 code 0, toHandler := true, prevKind := 4,
                                    code := code, ctx := none })

/-! ### The split tree (R97, R98) -/

/-- One above the highest rank a leaf holds, after renumbering the leaves when it would pass 255 (R97). -/
def renumber (ns : List Node) : List Node :=
  let ranks := (ns.filter Node.leaf).map (·.rank)
  ns.map fun n => if n.leaf then { n with rank := (ranks.filter (· < n.rank)).length } else n
def nextRank (ns : List Node) : Nat := (ns.filter Node.leaf).foldl (fun r n => max r (n.rank + 1)) 0
def withRank (ns : List Node) : List Node × Nat :=
  let r := nextRank ns
  if r ≤ 255 then (ns, r) else let ns' := renumber ns; (ns', nextRank ns')

/-- The lowest unused node index (R96). -/
def freeIx (ns : List Node) : Nat := ((List.range 192).find? fun k => ns.all fun n => n.ix != k).getD 0

/-- Children of a node. -/
def childrenOf (ns : List Node) (k : Nat) : List Node := ns.filter fun n => n.parent == some k

/-- Collapse join nodes left with one child or none (R97), as often as there are nodes. -/
def collapse : Nat → List Node → List Node
  | 0, ns => ns
  | k + 1, ns =>
    match ns.find? fun n => n.st == .joinNode && (childrenOf ns n.ix).length ≤ 1 with
    | none => ns
    | some j =>
      let parentRejoin := match j.parent with
        | some p => (ns.find? fun n => n.ix == p).map (·.trace) |>.getD 0
        | none => 0
      let rest := ns.filter fun n => n.ix != j.ix
      collapse k (rest.map fun n =>
        if n.parent == some j.ix then
          let n' := { n with parent := j.parent, rejoin := parentRejoin }
          -- a leaf waiting at JOIN of the removed node passes through to the JOIN's successor, with ENTRY 2
          if n.st == .atJoin && parentRejoin != j.trace then
            { n' with st := .ready, trace := n.next, s63 := s63Of 2 0 0 0 }
          else n'
        else n)

def collapseAll (ns : List Node) : List Node := collapse (ns.length + 1) ns

/-! ### Forwarding and loads -/

/-- Overlay bytes `d` at address a on the bytes `bs` that start at address k. -/
def overlay (bs : List Byte) (k a : Nat) (d : List Byte) : List Byte :=
  bs.mapIdx fun i b => if a ≤ k + i ∧ k + i < a + d.length then d.getD (k + i - a) 0 else b

/-- The lane's own buffered bytes of this trace (R127): global addresses by virtual address, scratchpad by offset as formed. -/
def ownBuffered (c : Ctx) (space : Space) (lane : Nat) (addr : Nat) (bs : List Byte) : List Byte :=
  c.effs.foldl (fun bs e =>
    match e.op with
    | .store sp _ _ _ uni =>
      if sp = space then
        e.elems.foldl (fun bs x => if uni || x.lane == lane then overlay bs addr x.addr x.data else bs) bs
      else bs
    | _ => bs) bs

/-- A physical address of bench memory. -/
def isBench (pa : Nat) : Bool :=
  match tierOf pa with
  | some (.bench, _) => true
  | _ => false

/-- The L1 of its core has accepted a store element that is not performed at its home: the core's loads see it (Table 7.1). Bench bytes
and those of SO pages are seen at their home alone. -/
def inL1 (it : Item) (x : Elem) : Bool := x.st == .checked && (it.kind == 1 || it.kind == 2) && !isBench x.pa

/-- A committed store element counts for a load of a group on a core: its own group's at once (R160); another group's of the
same core when the L1 has accepted it, and the load's page is not SO (R159). -/
def forwards (it : Item) (x : Elem) (g core : Nat) (so : Bool) : Bool :=
  x.st != .done && x.st != .refused && (it.group == g || (!so && it.core == core && inL1 it x))

/-- Where an element lies: as it was translated, or as it would be now. -/
def elemPa (s : State) (it : Item) (x : Elem) (need : Need) : Option Nat :=
  if x.st = .fresh ∨ x.st = .held then
    match translate s it.core (dieOfCore it.core) it.part x.addr need with
    | .ok t => some t.pa
    | .error _ => none
  else some x.pa

/-- Committed stores not yet performed, forwarded over bytes of global memory at va and pa (R160): by where they lie, and by virtual
address where they do not translate; one that a seal refuses is no part of a sealed page's bytes (R51, R175). -/
def forwardGlobal (s : State) (g : Group) (va pa : Nat) (so : Bool) (bs : List Byte) : List Byte :=
  s.pipe.foldl (fun bs it =>
    match it.eff.op with
    | .store .global _ _ _ _ =>
      it.eff.elems.foldl (fun bs x =>
        if forwards it x g.uid g.core so then
          match elemPa s it x .write with
          | some p => overlay bs pa p x.data
          | none => if it.part = g.part ∧ sealedPa s pa = false then overlay bs va x.addr x.data else bs
        else bs) bs
    | _ => bs) bs

/-- The L1 copy of the line of a physical address. -/
def l1Copy (s : State) (core pa : Nat) : Option (List Byte) :=
  (s.l1.find? fun x => x.1 == core && x.2.1 == pa / 64 * 64).map (·.2.2)

/-- The L1 copy that serves a load: a plain access of an RC or UO page of HBM or of the second tier (R159). -/
def servedByL1 (s : State) (g : Group) (x : Xlat) (atHome : Bool) : Option (List Byte) :=
  if atHome || x.ord == 0 || x.tier == .bench then none else l1Copy s g.core x.pa

/-- Bytes of global memory as a load sees them before forwarding: an L1 copy, else the home (R159). -/
def loadGlobal (s : State) (g : Group) (x : Xlat) (atHome : Bool) (n : Nat) : List Byte :=
  match servedByL1 s g x atHome with
  | some line => takeAt line (x.pa % 64) n
  | none => pread s x.pa n

/-- Drop a core's L1 copy of one line, or of all its RC and UO lines (R163, R352). -/
def l1Drop (s : State) (core pa : Nat) : State :=
  { s with l1 := s.l1.filter fun x => !(x.1 == core && x.2.1 == pa / 64 * 64) }
def l1DropAll (s : State) (core : Nat) : State := { s with l1 := s.l1.filter fun x => x.1 != core }

/-- A core's own store or atomic, once performed, also stands in the core's copy of its line: the L1 is write-through (R159). -/
def l1Write (s : State) (core pa : Nat) (d : List Byte) : State :=
  { s with l1 := s.l1.map fun x =>
      if x.1 == core && x.2.1 == pa / 64 * 64 then (x.1, x.2.1, putAt x.2.2 (pa % 64) d) else x }

/-- A deferred atomic of the group over the bytes at va and pa, or a ring's count there, is committed and not performed: the load waits
(R160, R307). -/
def atomicPending (s : State) (g : Group) (va pa n : Nat) : Bool :=
  s.pipe.any fun it => it.group == g.uid &&
    (match it.eff.op with
     | .atomic kind _ ty x4 _ _ _ _ peer =>
       kind != .atoms && peer.isNone &&
         it.eff.elems.any fun x =>
           let m := if x4 then 16 else if ty == 2 || ty == 3 || ty == 5 then 8 else 4
           x.st != .done && x.st != .refused &&
             (match elemPa s it x .update with
              | some p => decide (p < pa + n) && decide (pa < p + m)
              | none => decide (x.addr < va + n) && decide (va < x.addr + m))
     | .ring _ _ true _ => it.eff.elems.any fun x => x.st != .done && decide (x.addr < va + n) && decide (va < x.addr + 64)
     | _ => false)

end Sys2Proof.Machine
end

