-- ==== Sys2Proof/Machine/Flags.lean ====
section
/-! DEFINITION. The five arithmetic flags: FMODE's fields, which flag traps, and which flags a commit keeps (R206, R211, R212). -/
namespace Sys2Proof.Machine

/-- FMODE's rounding mode, RM (R211). -/
def fmodeRm (fmode : Word) : Nat := fmode.toNat % 4
/-- FMODE's trap enables, in the order of the flags (R211). -/
def fmodeTraps (fmode : Word) : Nat := fmode.toNat / 256 % 32

/-- The lowest set bit of five flags, as a position. -/
def lowestFlag (f : Nat) : Nat := ((List.range 5).find? (bit f)).getD 0

/-- The fault code of flags raised: that of the lowest enabled one, 10 to 14, or 0 (R212). -/
def trapCode (flags : Nat) (fmode : Word) : Nat :=
  let hit := flags &&& fmodeTraps fmode
  if hit = 0 then 0 else 10 + lowestFlag hit

/-- Flag records of lane 96 are the fragment's own, from uniform instructions. -/
def uniLane : Nat := 96

/-- Flags of committing lanes and of uniform instructions, those of instructions after the trace's last write of FSTAT (R211). -/
def commitFlags (c : Ctx) : Nat :=
  let last := c.effs.foldl (fun k e => match e.op with
    | .sysw .fstat _ => e.ix
    | _ => k) 0
  (c.flags.filter fun f => last < f.1 && (f.2.1 == uniLane || c.active.getLsbD f.2.1)).foldl (fun a f => a ||| f.2.2) 0

end Sys2Proof.Machine
end

