-- ==== Sys2Proof/Machine/Host.lean ====
section
/-! DEFINITION. What the device tells the host and how it reaches host memory (R26 to R33, R43, R44, R55): host bytes, vectors,
events, error records, service requests, lines found in error, clusters marked for termination. -/
namespace Sys2Proof.Machine

/-- Index in `State.windows` of the management window, window 15. -/
def mgmt : Nat := 12

/-! ### Host memory (R33) -/

/-- CXL.cache completes an access to these host bytes: no failing 64-byte line meets them. -/
def hostOk (s : State) (a n : Nat) : Bool := s.hostfail.all fun r => a + n ≤ r.1 || r.1 + r.2 ≤ a
def hread (s : State) (a n : Nat) : List Byte := sread s.hostmem a n
def hwrite (s : State) (a : Nat) (d : List Byte) : State := { s with hostmem := swrite s.hostmem a d }

/-! ### Vectors (R32) -/

/-- First vector of a window. -/
def vectorOf (w : Nat) : Nat := if w = mgmt then 60 else 4 * w

/-- Signal a vector: a masked one (bit 0 of its vector control, PRESUMED [16]) becomes pending. -/
def signal (s : State) (v : Nat) : State :=
  if (s.msix.getD (16 * v + 12) 0).getLsbD 0 then { s with pba := s.pba ||| (1 <<< v) }
  else { s with signalled := s.signalled ++ [v] }

/-! ### Events (R43). Events beyond the 64th still wait in their sources [13]. -/

def bufferFull (s : State) (w : Nat) : Bool := 64 ≤ (s.win w).events.length

/-- An event entry: TYPE, ticket, body of 32 bytes. -/
def eventEntry (type : Nat) (ticket : Word) (body : List Byte) : List Byte :=
  leBytes 4 type ++ leBytes 4 ticket.toNat ++ List.replicate 24 0 ++ takeAt body 0 32

/-- An event other than an error record. -/
def pushEvent (s : State) (w : Nat) (e : List Byte) : State :=
  let x := s.win w
  s.setWin w { x with events := x.events ++ [e] }

/-- An error record for one window: dropped and counted when the buffer is full. -/
def pushRecord (s : State) (w : Nat) (e : List Byte) : State :=
  let x := s.win w
  if bufferFull s w then s.setWin w { x with evlost := min 65535 (x.evlost + 1) } else pushEvent s w e

/-- An error record (Table 1.5). -/
structure ErrRec where
  die : Nat
  kind : Nat
  hop : Nat
  part : Option Nat
  core : Nat
  addr : Nat
  synd : Nat
  deriving DecidableEq, Repr, Inhabited

def ErrRec.bytes (r : ErrRec) (seq : Word) : List Byte :=
  leBytes 8 r.kind ++ [0, 0, 0, 0] ++ leBytes 1 r.hop ++ leBytes 1 r.die ++ [0, 0] ++ leBytes 1 r.core ++
    leBytes 1 (r.part.getD 0xFF) ++ leBytes 2 r.synd ++ leBytes 4 seq.toNat ++ leBytes 8 r.addr

/-- A die writes one error record, to the partition's window and to window 15 (R30, R43). `own` is false where window 15 only counts
it as lost (R35). -/
def writeErrTo (s : State) (r : ErrRec) (own : Bool) : State :=
  let d := s.die r.die
  let e := eventEntry 1 0 (r.bytes d.recSeq)
  let s1 := s.setDie r.die { d with recSeq := d.recSeq + 1 }
  let s2 := match r.part with
    | some p => pushRecord s1 p e
    | none => s1
  if own then pushRecord s2 mgmt e
  else
    let x := s2.win mgmt
    s2.setWin mgmt { x with evlost := min 65535 (x.evlost + 1) }
def writeErr (s : State) (r : ErrRec) : State := writeErrTo s r true

/-! ### Service requests (R44, R55) -/

/-- WHO of a group (Table 8.7). -/
def whoOf (g : Group) : Nat := g.part * 2 ^ 24 + g.die * 2 ^ 16 + g.core % 48 * 2 ^ 8 + g.slot
/-- WHO, or all ones when the group has ended. -/
def whoIs (s : State) (gid : Nat) : Nat :=
  match s.group? gid with
  | some g => whoOf g
  | none => 0xFFFFFFFF

/-- Fields of a service request body (Table 2.8). -/
structure SvcReq where
  class_ : Nat
  access : Nat
  cause : Nat
  who : Nat
  addr : Nat
  count : Nat
  serial : Word
  deriving DecidableEq, Repr, Inhabited

def SvcReq.bytes (r : SvcReq) : List Byte :=
  leBytes 1 r.class_ ++ leBytes 1 r.access ++ leBytes 1 r.cause ++ [0] ++ leBytes 4 r.who ++ leBytes 8 r.addr ++
    leBytes 4 r.count ++ leBytes 4 r.serial.toNat ++ List.replicate 8 0

/-- The first ticket from t on, in steps of 12, that is not 0 and that no unanswered request bears (R43, R44). -/
def freeTicket (s : State) : Nat → Word → Word
  | 0, t => t
  | k + 1, t => if t = 0 || s.parts.any fun p => p.requests.any fun r => r.1 == t then freeTicket s k (t + 12) else t

/-- Raise a service request: a ticket that no other request bears, and a TYPE 2 event (R44). Tickets of partition p are
p + 1, p + 13, … [14]. -/
def raiseService (s : State) (part about : Nat) (r : SvcReq) : State × Word :=
  match s.part? part with
  | some p =>
    let t := freeTicket s (s.parts.foldl (fun n p => n + p.requests.length) 2) p.nextTicket
    let s1 := s.setPart { p with nextTicket := t + 12, requests := p.requests ++ [(t, about, r.bytes)] }
    (pushEvent s1 part (eventEntry 2 t r.bytes), t)
  | none => (s, 0)

/-! ### Clusters marked for termination (R187) -/

/-- Mark one cluster. -/
def markCluster (s : State) (clu reason : Nat) : State :=
  if s.fatals.any fun f => f.clu == clu then s
  else { s with fatals := s.fatals ++
    [{ clu := clu, reason := reason, code := 0, part := 0, serial := 0, wkg := 0, gid := 0xFFFF, stops := assistedRecovery s }] }
/-- Mark every cluster of a set. -/
def markClusters (s : State) (mask reason : Nat) : State :=
  ((List.range 48).filter (bit mask)).foldl (fun s k => markCluster s k reason) s
/-- Mark every cluster of a partition. -/
def markPart (s : State) (part reason : Nat) : State :=
  match s.part? part with
  | some p => markClusters s p.clumask reason
  | none => s

/-! ### Lines found in error (R26 to R28) -/

/-- Count a corrected error under its HOP code (R26). -/
def countCorrected (s : State) (die hop synd addr : Nat) (part : Option Nat) (core : Nat) : State :=
  let d := s.die die
  let c := (d.counters.getD hop 0).toNat
  let t := (d.thresholds.getD hop 0).toNat
  let put := fun (x : Nat) => s.setDie die { d with counters := d.counters.set hop (BitVec.ofNat 32 x) }
  if t = 0 then put (min (2 ^ 32 - 1) (c + 1))
  else if t ≤ c + 1 then
    writeErr (put 0) { die := die, kind := 1, hop := hop, part := part, core := core, addr := addr, synd := synd }
  else put (c + 1)

/-- Bad words an error marks: all of the line where the HBM controller or a second-tier device finds it (R27, R28); so a poisoned
second-tier line enters the held-line list whole (DESIGN CHOICE [84]). -/
def badMask (hop : Nat) (mask : Byte) : Byte := if mask = 0 then 0 else if hop ≤ 1 then 0xFF else mask

/-- The check code of a line comes to show an error (R25); an uncorrectable one covers what was there. -/
def setFlaw (s : State) (line : Nat) (e : LineError) : State :=
  let put := fun (e : LineError) => ({ s with
    flaws := s.flaws.filter (fun f => f.line != line) ++ [{ line := line, err := e, waits := (flaw? s line).bind (·.waits) }] } : State)
  match e with
  | .clean => s
  | .corrected hop synd => if badWords s line &&& ~~~heldMask s line = 0 then put (.corrected hop synd) else s
  | .bad hop mask synd =>
    let m := (badMask hop mask &&& ~~~heldMask s line) ||| (badWords s line &&& ~~~heldMask s line)
    if m = 0 then s else put (.bad hop m synd)

/-- Enter a line found in error in its home's held-line list (R28), under the SEQ of its record. The list is full: the line stays to be
found again, and the partition of the finder ends, the line then waiting for a slot, or a record of KIND 2 and HOP 10 is written
(the KIND is a DESIGN CHOICE [84]). -/
def enterHeld (s : State) (line : Nat) (mask : Byte) (seq : Word) (part : Option Nat) : State :=
  let die := homeDie line
  let d := s.die die
  let rest := s.flaws.filter fun f => f.line != line
  if (heldLine? s line).isSome then
    { s.setDie die { d with held := d.held.map fun h =>
        if h.line == line then { h with mask := h.mask ||| mask, seq := seq } else h } with flaws := rest }
  else if d.held.length < 256 then
    { s.setDie die { d with held := d.held ++ [{ line := line, mask := mask, seq := seq }] } with flaws := rest }
  else
    match part with
    | some p => markPart { s with flaws := s.flaws.map fun f => if f.line == line then { f with waits := some seq } else f } p 5
    | none => writeErr s { die := die, kind := 2, hop := 10, part := none, core := 0xFF, addr := line, synd := 0 }

/-- A read of a line that reaches its home meets what its check code shows (R26 to R28): a correction counted and written back, or an
uncorrectable error with its record. -/
def seeFlaw (s : State) (line : Nat) (part : Option Nat) (core : Nat) : State :=
  let die := homeDie line
  match flaw? s line with
  | some ⟨_, .corrected hop synd, _⟩ =>
    countCorrected { s with flaws := s.flaws.filter fun f => f.line != line } die (min hop 13) synd.toNat line part core
  | some ⟨_, .bad hop mask synd, _⟩ =>
    enterHeld (writeErr s { die := die, kind := 2, hop := min hop 6, part := part, core := core, addr := line,
                            synd := synd.toNat }) line mask (s.die die).recSeq part
  | _ => s

/-- A line is read that shows an error now. -/
def seeLine (s : State) (line : Nat) (e : LineError) (part : Option Nat) (core : Nat) : State :=
  seeFlaw (setFlaw s line e) line part core

/-- A span is read at its home: each of its lines meets its check code. -/
def seeSpan (s : State) (fromDie pa n : Nat) (part : Option Nat) (core : Nat) : State :=
  if s.flaws.isEmpty || !reaches s fromDie pa then s
  else (linesOf pa n).foldl (fun s l => seeFlaw s l part core) s

/-- CORE of an error record about an access of a unit: a core, or 0xFF for a unit of a die (Table 1.5). -/
def unitCore (unit : Nat) : Nat := if unit < 192 then unit % 48 else 0xFF

/-- A walk meets the check codes of the entries that it reads in memory (R26, R27, R142). -/
def seeWalk (s : State) (core die part va : Nat) : State :=
  if s.flaws.isEmpty then s
  else (walkReads s core die part va).foldl (fun s a => seeSpan s die a 8 (some part) (unitCore core)) s

/-- An access of a unit of the partition walks, and meets the check codes of what it reads there. -/
def seeVaOf (s : State) (core die part va n : Nat) (need : Need) : State :=
  if s.flaws.isEmpty then s
  else
    let s1 := seeWalk s core die part va
    match translate s1 core die part va need with
    | .ok x => seeSpan s1 die x.pa n (some part) (unitCore core)
    | .error _ => s1

/-! ### Physical accesses of the hardware's own records -/

/-- Write hardware fields at a physical address, from a die; an unpopulated one holds nothing, a home that cannot be reached takes nothing
(R13, R22), and a sealed range refuses them (R51) [85]. -/
def hwWrite (s : State) (die pa : Nat) (d : List Byte) : State :=
  if reaches s die pa && populated s pa && !sealHolds s pa && !sealHolds s (pa + (d.length - 1)) then pwriteLong s pa d else s

/-- Hardware fields at a physical address as a die reads them; a bad word, or a home that cannot be reached, gives none (R13, R22,
R28). -/
def hwRead (s : State) (die pa n : Nat) : Option (List Byte) := if badSpan s die pa n then none else some (pread s pa n)

/-- The Ferry's and the fetcher's translation: through the die's last-level TLB only (R38, R144). -/
def xlate (s : State) (die part va : Nat) (need : Need) : Except Nat Xlat := translate s (192 + die) die part va need

/-- An access of a unit of the partition waits: an entry of its walk, or a line of its span, is held by a parked atomic (R142, R156). -/
def vaHeld (s : State) (core die part va n : Nat) (need : Need) : Bool :=
  anyParked s && (walkHeld s core die part va ||
    (match translate s core die part va need with
     | .ok t => parkedBlocks s t.pa n (need == .write)
     | .error _ => false))

/-- A span of virtual addresses cut at 64 KiB pages, ascending: address and length of each part. -/
def pageSpans (va n : Nat) : List (Nat × Nat) :=
  (List.range (ceilDiv (va % 65536 + n) 65536)).map fun k =>
    let lo := max va ((va / 65536 + k) * 65536)
    let hi := min (va + n) ((va / 65536 + k + 1) * 65536)
    (lo, hi - lo)

/-- Translate each part of a span: physical spans in order, or the lowest failing address. -/
def spansOf (s : State) (die part : Nat) (need : Need) : List (Nat × Nat) → Except Nat (List (Nat × Nat))
  | [] => .ok []
  | (va, n) :: rest =>
    match xlate s die part va need with
    | .error _ => .error va
    | .ok x =>
      match spansOf s die part need rest with
      | .error e => .error e
      | .ok ps => .ok ((x.pa, n) :: ps)

/-- Bytes of physical spans. -/
def readSpans (s : State) (ps : List (Nat × Nat)) : List Byte := ps.flatMap fun p => pread s p.1 p.2
/-- Write bytes over physical spans. -/
def writeSpans (s : State) : List (Nat × Nat) → List Byte → State
  | [], _ => s
  | p :: ps, d => writeSpans (pwriteLong s p.1 (d.take p.2)) ps (d.drop p.2)
/-- Some byte of the spans cannot be read. -/
def spansBad (s : State) (die : Nat) (ps : List (Nat × Nat)) : Bool := ps.any fun p => badSpan s die p.1 p.2

end Sys2Proof.Machine
end

