-- ==== Sys2Proof/Machine/Issue.lean ====
section
/-! DEFINITION. How an instruction of a fragment issues: readiness (R101), ownership of scalars (R130), roll-back (R131),
trace limits (R119), predication (R115), helper lanes (R111), flags and traps (R212), and the shared operation of every
register-only instruction. -/
namespace Sys2Proof.Machine

/-- The fragment that issues in this step. -/
def curFrame (s : State) : Option (Group × Node) :=
  match s.cur with
  | .frag g n =>
    match s.group? g with
    | some gr =>
      match gr.node? n with
      | some nd => if nd.leaf then some (gr, nd) else none
      | none => none
    | none => none
  | _ => none

/-- The group's cores issue: the die runs, the cluster is not being terminated, the group has not yielded, pre-emption lets the
fragment go on, and the fragment holds a split-table entry (R99, R101, R188, R195 to R197). -/
def canIssue (s : State) (g : Group) (n : Node) : Bool :=
  n.st == .ready && n.tabled && !n.frozen && g.yield == .no &&
    (match g.landing with
     | some l => (s.die l.die).running && !(s.die l.die).tripped &&
         (s.calls.any fun c => c.g == g.uid && c.reason == 0)
     | none =>
       (s.die (dieOfCore g.core)).running && !(s.die (dieOfCore g.core)).tripped &&
         !(s.fatals.any fun f => f.clu == cluOfCore g.core) &&
         (match s.wkg? g.part g.serial g.wkg with
          | some w =>
            match w.st with
            | .running => true
            | .stopping => n.ctx.isSome
            | .saving => n.saver
            | .saved => false
          | none => false))

/-- What an instruction reads or writes, for the scoreboard and for ownership. -/
structure Use where
  sr : List Nat
  vr : List Nat
  pr : List Nat
  pdg : Bool
  /-- lanes whose registers matter besides the fragment's own -/
  extra : LaneMask
  /-- vector and scalar registers among them that are only written -/
  wv : List Nat := []
  ws : List Nat := []
  /-- the predicate and mode that select the lanes (R115) -/
  ps : Nat := 15
  pm : Nat := 0
  deriving DecidableEq, Repr, Inhabited

def Use.none : Use := { sr := [], vr := [], pr := [], pdg := false, extra := 0 }

/-- An outstanding write meets the registers in use. -/
def Use.hits (u : Use) (lanes : LaneMask) : RegRef → Bool
  | .v l r => lanes.getLsbD l && u.vr.contains r
  | .s r => u.sr.contains r
  | .p l r => lanes.getLsbD l && u.pr.contains r
  | .pdg l => u.pdg && lanes.getLsbD l

/-- 64-bit element types of Table 14.5. -/
def wideTy (ty : Nat) : Bool := ty == 2 || ty == 3 || ty == 5

/-- The registers that a deferred atomic still has to write (R357); with `parked` false, parked elements apart (R200). -/
def itemReturns (parked : Bool) (it : Item) : List RegRef :=
  match it.eff.op with
  | .atomic kind _ ty _ _ _ _ dest _ =>
    if kind == .atom || kind == .atoms then
      it.eff.elems.flatMap fun x =>
        if x.st == .done || x.st == .refused || (x.st == .parked && !parked) then []
        else if wideTy ty then [.v x.lane dest, .v x.lane (dest + 1)] else [.v x.lane dest]
    else []
  | _ => []

/-- The fragment waits on a scoreboarded register (R101, R120); in a trace of kind 2 not for a parked atomic's return (R200). -/
def scoreboarded (s : State) (g : Group) (n : Node) (c : Ctx) (u : Use) : Bool :=
  let lanes := n.mask ||| c.helpers ||| u.extra
  (g.loads.any fun l => l.writes.any fun w => u.hits lanes w.1) ||
    (s.pipe.any fun it => it.group == g.uid && (itemReturns (c.hdr.kind != 2) it).any (u.hits lanes))

/-! ### Roll-back (R131) -/

/-- The entries of `m` with those of the lanes taken from `m0`; lane numbers are what `lane` makes of a key. -/
def takeLanes {w : Nat} (lane : Nat → Nat) (lanes : LaneMask) (m0 m : Sparse w) : Sparse w :=
  let keep := m.filter fun e => !lanes.getLsbD (lane e.1)
  (m0.filter fun e => lanes.getLsbD (lane e.1)).foldl (fun v e => sset v e.1 e.2) keep

/-- Restore lanes' registers and predicates from the shadows. -/
def restoreLanes (g : Group) (c : Ctx) (lanes : LaneMask) : Group :=
  { g with v := takeLanes (· % 96) lanes c.v0 g.v, p := takeLanes (· % 96) lanes c.p0 g.p }

/-- Restore lanes' path digests to trace entry. -/
def restorePdg (g : Group) (c : Ctx) (lanes : LaneMask) : Group := { g with pdg := takeLanes id lanes c.pdg0 g.pdg }

/-- Scalars written by the trace return to their shadows (R124). -/
def restoreOwned (g : Group) (c : Ctx) : Group := c.owned.foldl (fun g o => g.setOwned o.1 o.2) g

/-- Byte address of task slot c (R91). -/
def taskSlotVa (q : TaskQ) (c : Word) : Nat := q.base + 32 * (c.toNat % q.size)

/-- Write bytes of the partition's memory through its tables, from a die; nothing where the walk fails, or where the home cannot be reached
(R13, R22). -/
def writeVa (s0 : State) (core die part va : Nat) (d : List Byte) : State :=
  let s := seeWalk s0 core die part va
  match translate s core die part va .write with
  | .ok x => if reaches s die x.pa then pwrite s x.pa d else s
  | .error _ => s

/-- Set the state bits of a task slot: 0 empty, 1 reserved, 3 void (R91); its other bytes stay. -/
def setSlotState (s : State) (g : Group) (q : TaskQ) (c : Word) (st : Nat) : State :=
  match translate s g.core (dieOfCore g.core) g.part (taskSlotVa q c + 24) .write with
  | .ok x =>
    writeVa s g.core (dieOfCore g.core) g.part (taskSlotVa q c + 24) (leBytes 1 (leNat (pread s x.pa 1) / 4 * 4 + st))
  | .error _ => seeWalk s g.core (dieOfCore g.core) g.part (taskSlotVa q c + 24)

/-- The slots that a trace's SPAWN reserved for some lanes become void (R92). -/
def voidSlots (s : State) (g : Group) (c : Ctx) (lanes : LaneMask) : State :=
  c.effs.foldl (fun s e =>
    match e.op with
    | .spawn q _ =>
      match s.part? g.part with
      | some p =>
        match p.taskq? q with
        | some tq =>
          let dead := (e.elems.filter fun x => lanes.getLsbD x.lane).map fun x => BitVec.ofNat 32 x.c
          let s1 := s.setPart (p.setTaskq { tq with reserved := tq.reserved.filter (fun r => !dead.contains r) })
          dead.foldl (fun s k => setSlotState s g tq k 3) s1
        | none => s
      | none => s
    | _ => s) s

/-- A fragment's emulation frames are abandoned, and their slots are free (R193). -/
def dropFrames (s : State) (gid nix : Nat) : State :=
  { s with dies := s.dies.map fun (d : Die) => { d with frames := d.frames.filter fun f => !(f.g == gid && f.n == nix) } }

/-- Roll a fragment's trace back: it leaves no trace of having run, and stands at its start with OUTCOME 5 (R131). A horizon that an RSYNC
or RREAD of the trace has raised, CYCLEH, and the tree of a LOADSPLIT are not in R131's list and stay (DESIGN CHOICE [99]). -/
def rollBack (s : State) (gid nix : Nat) : State :=
  match s.group? gid with
  | none => s
  | some g =>
    match g.node? nix with
    | none => s
    | some n =>
      match n.ctx with
      | none => s
      | some c =>
        let s1 := dropFrames (voidSlots s g c n.mask) gid nix
        let g1 := restoreOwned (restorePdg (restoreLanes g c (n.mask ||| c.helpers)) c n.mask) c
        let s63 := (c.s630 &&& 0xFFFF00FF) ||| 0x500
        let g2 := { g1 with
          loads := g1.loads.filter (fun l => l.node != nix),
          grant := if c.ticket then { g1.grant with st := 1 } else g1.grant }
        s1.setGroup (g2.setNode { n with s63 := s63, ctx := none, trace := c.addr })

/-- Fragments of the group whose open traces own a scalar in use (R130). -/
def owners (g : Group) (n : Node) (sr : List Nat) : List Node :=
  g.nodes.filter fun m => m.ix != n.ix && (match m.ctx with
    | some c => c.owned.any fun o => sr.contains o.1
    | none => false)

/-! ### Selection and helper lanes -/

/-- The lanes that PS and PM select among some lanes (R115, R265). -/
def selects (g : Group) (ps pm lane : Nat) : Bool :=
  let x := g.rp lane ps
  if pm = 0 then x == 1 else if pm = 1 then x == 0 else if pm = 2 then x == 2 else x != 0
def selected (g : Group) (ps pm : Nat) (lanes : LaneMask) : List Nat :=
  (lanesOf lanes).filter (selects g ps pm)

/-- Lanes that some leaf of the group holds. -/
def heldLanes (g : Group) : LaneMask := g.nodes.foldl (fun m n => if n.leaf then m ||| n.mask else m) 0

/-- All lanes of the quads that hold a lane of the mask. -/
def quadLanes (m : LaneMask) : LaneMask := maskOf ((List.range 96).filter fun l =>
  (List.range 4).any fun k => m.getLsbD (l / 4 * 4 + k))

/-- A register file with the lanes that run as helpers of open traces as they were before (R110). -/
def beforeHelp {w : Nat} (g : Group) (file : Sparse w) (shadow : Ctx → Sparse w) : Sparse w :=
  g.nodes.foldl (fun m n => match n.ctx with
    | some k => if k.helpers = 0 then m else takeLanes (· % 96) k.helpers (shadow k) m
    | none => m) file

/-- Helper lanes run from a quad operation on (R110, R111); their shadows are what they hold before they begin. -/
def Ctx.engage (c : Ctx) (g : Group) (n : Node) : Ctx :=
  let new := quadLanes n.mask &&& ~~~heldLanes g &&& ~~~c.helpers
  if new = 0 then c
  else
    { c with helpers := c.helpers ||| new,
             v0 := takeLanes (· % 96) new (beforeHelp g g.v (·.v0)) c.v0,
             p0 := takeLanes (· % 96) new (beforeHelp g g.p (·.p0)) c.p0 }

/-! ### Registers in error (R25 to R27, R30) -/

/-- What one lane of an instruction reads: its own registers, or those of other lanes. -/
structure Reads where
  lane : Nat
  own : List Nat
  others : List (Nat × Nat)
  scalars : List Nat
  deriving DecidableEq, Repr, Inhabited

/-- A list without one occurrence of each of some entries. -/
def without (xs gone : List Nat) : List Nat := gone.foldl List.erase xs

/-- What the lanes that an instruction selects read of their own. -/
def Use.reads (u : Use) (lanes : List Nat) : List Reads :=
  lanes.map fun l => { lane := l, own := without u.vr u.wv, others := [], scalars := without u.sr u.ws }

/-- A lane reads the register of a flaw. -/
def Reads.meets (r : Reads) (f : RegFlaw) : Bool :=
  match f.ref with
  | .v l k => (l == r.lane && r.own.contains k) || r.others.contains (l, k)
  | .s k => r.scalars.contains k
  | _ => false

/-- CORE of an error record about a group: 0xFF for the landing pipeline (Table 1.5). -/
def Group.coreNo (g : Group) : Nat := if g.landing.isSome then 0xFF else g.core % 48

/-- Record of an error in a group's register (R26, R27). -/
def regRecord (g : Group) (f : RegFlaw) : ErrRec :=
  { die := g.die, kind := 2, hop := 6, part := some g.part, core := g.coreNo, addr := 0, synd := f.synd }

/-- The reads of an instruction meet what the check codes of the registers show: a correction is counted and written back, an
uncorrectable error has one record. -/
def meetFlaws (s : State) (uid : Nat) (rs : List Reads) : State :=
  match s.group? uid with
  | none => s
  | some g => g.flaws.foldl (fun s f =>
      if !rs.any (·.meets f) then s
      else
        let put := fun (s : State) (fs : List RegFlaw → List RegFlaw) =>
          match s.group? uid with
          | some x => s.setGroup { x with flaws := fs x.flaws }
          | none => s
        if f.bad then
          if f.seq.isSome then s
          else put (writeErr s (regRecord g f)) fun fs => fs.map fun x =>
            if x.ref == f.ref then { x with seq := some (s.die g.die).recSeq } else x
        else
          countCorrected (put s fun fs => fs.filter fun x => x.ref != f.ref) g.die 6 f.synd 0 (some g.part) g.coreNo) s

/-- The data error that a lane's reads meet, with its record's SEQ; 0 for none. -/
def Group.regError (g : Group) (r : Reads) : Nat :=
  match g.flaws.find? fun f => f.bad && r.meets f with
  | some f => faultAt 9 0 0 ((f.seq.getD 0).toNat + 1)
  | none => 0

/-! ### Readiness -/

/-- Outcome of the checks that precede every core instruction: it goes no further, or it issues. -/
inductive Pre where
  | stop (s : State)
  | go (s : State) (g : Group) (n : Node) (c : Ctx)

/-- The trace has reached its NINSN-th instruction (R119): a header of NLEN has NLEN + 1 instructions. -/
def Ctx.lastIx (c : Ctx) : Nat := c.hdr.nlen.toNat

/-- The selected lanes that read a register in error take their data error (R27), and the instruction issues for the others. A lane
exchange looks at its source lanes itself. -/
def regCheck (s : State) (g : Group) (n : Node) (c : Ctx) (u : Use) : Pre :=
  if g.flaws.isEmpty || u.extra != 0 then .go s g n c
  else
    let rs := u.reads (selected g u.ps u.pm (c.active ||| c.helpers))
    let s1 := meetFlaws s g.uid rs
    match s1.group? g.uid with
    | none => .stop s1
    | some g1 =>
      match (rs.filter fun r => c.active.getLsbD r.lane && g1.regError r != 0).map fun r => (r.lane, g1.regError r) with
      | [] => .go s1 g1 n c
      | fs =>
        let s2 := faultLanes s1 g1 n c fs id
        match (s2.group? g.uid).bind fun g2 => (g2.node? n.ix).bind fun n2 => n2.ctx.map fun c2 => (g2, n2, c2) with
        | some (g2, n2, c2) =>
          if c2.term.isSome || c2.active = 0 || !canIssue s2 g2 n2 || s2.calls.any (fun k => k.g == g.uid && k.reason != 0) then .stop s2
          else .go s2 g2 n2 c2
        | none => .stop s2

/-- The checks before an instruction other than TRACE issues: the fragment is ready (R101, R130), it stands in an open trace
(R128, R414), within its length (R119), a terminator stands last (R120), and a method has not issued 65,536 instructions
(R249). -/
def precheck (s : State) (g : Group) (n : Node) (isTerm : Bool) (u : Use) : Pre :=
  if !canIssue s g n then .stop s
  else
    match n.ctx with
    | none => .stop (entryFault s g n 48)
    | some c =>
      if c.term.isSome || c.emul.isSome then .stop s
      else if g.landing.isSome && s.calls.any (fun k => k.g == g.uid && 65536 ≤ k.count) then .stop (rejectCall s g 5 0)
      else if c.lastIx < c.ix || (isTerm && c.ix != c.lastIx) then .stop (groupFault s g n c 48)
      else
        let os := owners g n u.sr
        if os.any fun m => m.rank < n.rank then .stop s
        else
          let s1 := os.foldl (fun s m => rollBack s g.uid m.ix) s
          match s1.group? g.uid with
          | some g1 => if scoreboarded s1 g1 n c u then .stop s1 else regCheck s1 g1 n c u
          | none => .stop s1

/-- The fragment moves past an instruction of some words. -/
def Ctx.advance (c : Ctx) (words : Nat) : Ctx := { c with pc := c.pc + 4 * words, ix := c.ix + 1 }

/-- Count an instruction of a landing call (R249). -/
def countCall (s : State) (g : Group) : State :=
  if g.landing.isSome then
    { s with calls := s.calls.map fun k => if k.g == g.uid then { k with count := k.count + 1 } else k }
  else s

/-! ### Writes -/

/-- A write to a scalar register within a trace: shadowed and owned (R130), narrowing the mask (R116), or s63 (R117). -/
def writeS (st : Group × Node × Ctx) (r : Nat) (x : Word) : Group × Node × Ctx :=
  match st with
  | (g, n, c) =>
    if r < 60 ∨ 100 ≤ r then
      let c1 := if c.owned.any fun o => o.1 == r then c else { c with owned := (r, g.ownedVal r) :: c.owned }
      (g.setOwned r x, n, c1)
    else if r < 63 then
      let gone := (lanesOf (n.mask &&& ~~~setMaskWord n.mask (r - 60) x)).filter fun l => !c.cleared.getLsbD l
      let dest := if c.hdr.park = 0 ∨ (c.hdr.kind = 3 ∧ c.inHandler) then Dest.ends
        else .park (((c.addr : Int) + 4 * c.hdr.park.toInt).toNat)
      let c1 := gone.foldl (fun c l => c.addFail { lane := l, dest := dest, s63 := s63Of 6 4 0 c.ix, seq := none }) c
      let c2 := { c1 with cleared := c1.cleared ||| maskOf gone }
      (g, { n with ctx := some c2 }, c2)
    else (g, { n with s63 := x &&& 0xFFFFFF0F }, c)

/-- One register write at issue. -/
def writeRef (st : Group × Node × Ctx) (w : RegRef × Word) : Group × Node × Ctx :=
  match w.1 with
  | .v l r => (st.1.wv l r w.2, st.2.1, st.2.2)
  | .p l r => (st.1.wp l r (w.2.setWidth 2), st.2.1, st.2.2)
  | .s r => writeS st r w.2
  | .pdg _ => st

/-- What one lane of an instruction gives: a fault code or 0, flags, register writes, a new path digest. -/
structure LaneOut where
  code : Nat
  flags : Nat
  w : List (RegRef × Word)
  pdg : Option DWord
  deriving DecidableEq, Repr, Inhabited

def LaneOut.ofW (w : List (RegRef × Word)) : LaneOut := { code := 0, flags := 0, w := w, pdg := none }
def LaneOut.fault (code : Nat) (w : List (RegRef × Word)) : LaneOut := { code := code, flags := 0, w := w, pdg := none }

/-- The fault a lane takes: its own, or the lowest enabled flag's code 10 to 14 (R212). -/
def LaneOut.trap (o : LaneOut) (fmode : Word) : Nat :=
  if o.code ≠ 0 then o.code else trapCode o.flags fmode

/-- Apply one lane's result; a helper lane that would fault writes zero instead (R111). -/
def applyOut (fmode : Word) (st : (Group × Node × Ctx) × List (Nat × Nat)) (x : Nat × LaneOut) :
    (Group × Node × Ctx) × List (Nat × Nat) :=
  let o := x.2
  let helper := st.1.2.2.helpers.getLsbD x.1
  let code := o.trap fmode
  if code ≠ 0 then
    if helper then (o.w.foldl (fun st w => writeRef st (w.1, 0)) st.1, st.2)
    else (st.1, st.2 ++ [(x.1, code)])
  else
    let st1 := o.w.foldl writeRef st.1
    let g1 := match o.pdg with
      | some d => if helper then st1.1 else st1.1.wpdg x.1 d
      | none => st1.1
    let c1 := if o.flags = 0 ∨ helper then st1.2.2 else { st1.2.2 with flags := st1.2.2.flags ++ [(st1.2.2.ix, x.1, o.flags)] }
    ((g1, st1.2.1, c1), st.2)

/-! ### Trace limits (R119) -/

/-- Vector registers written for the first time in this trace. -/
def newShadows (c : Ctx) (dst : List Nat) : List Nat :=
  dst.foldl (fun a r => if c.shadowed.contains r || a.contains r then a else a ++ [r]) []

/-- A first write beyond NSHADOW distinct registers. -/
def overShadow (c : Ctx) (dst : List Nat) : Bool :=
  !(newShadows c dst).isEmpty && decide (c.hdr.nshadow.toNat < c.shadowed.length + (newShadows c dst).length)

/-! ### The shared operation of register-only instructions -/

/-- What a register-only instruction is: its length, how it selects lanes, what it uses, its operand check, its effect. -/
structure LaneSpec where
  words : Nat
  uni : Bool
  ps : Nat
  pm : Nat
  use : Use
  dst : List Nat
  /-- operand fault of every selected lane (R113), 0 for none -/
  chk : Nat
  quad : Bool
  /-- a method may not execute it: reason 6 (R370) -/
  noMethod : Bool
  body : Group → Node → Ctx → Nat → LaneOut
  /-- helper lanes take no part (R362) -/
  noHelpers : Bool := false
  /-- a lane exchange's registers of A, and the lanes that it reads them in (R363) -/
  exch : Option (List Nat × (Group → Node → Ctx → Nat → List Nat)) := none
  /-- predicates written -/
  pdst : List Nat := []

/-- Add vector registers to those the trace has written. -/
def Ctx.shadow (c : Ctx) (dst : List Nat) : Ctx := { c with shadowed := c.shadowed ++ newShadows c dst }

/-- What a lane of the instruction reads. -/
def LaneSpec.readsOf (d : LaneSpec) (g : Group) (n : Node) (c : Ctx) (lane : Nat) : Reads :=
  match d.exch with
  | none => { lane := lane, own := without d.use.vr d.dst, others := [], scalars := without d.use.sr d.use.ws }
  | some (a, src) =>
    { lane := lane, own := without d.use.vr (d.dst ++ a), others := (src g n c lane).flatMap fun l => a.map fun r => (l, r),
      scalars := without d.use.sr d.use.ws }

/-- A helper lane's destinations take zero (R111). -/
def zeroLane (dst pdst : List Nat) (g : Group) (lane : Nat) : Group :=
  let g1 := (dst.filter (· < g.nregs)).foldl (fun g r => g.wv lane r 0) g
  pdst.foldl (fun g r => g.wp lane r 0) g1

/-- An operand fault of an instruction (R113) in the lanes that it hits; helper lanes write zero instead (R111). -/
def operandFault (s : State) (g : Group) (n : Node) (c : Ctx) (dst pdst help hit : List Nat) (code : Nat) (next : Ctx → Ctx) : State :=
  let tooMany := !help.isEmpty && overShadow c dst
  let g1 := if tooMany then g else help.foldl (zeroLane dst pdst) g
  let c1 := if tooMany || help.isEmpty then c else c.shadow dst
  faultLanes s g1 n c1 (hit.map (fun l => (l, code)) ++ if tooMany then (lanesOf c.active).map (fun l => (l, 49)) else []) next

/-- The effect, once the instruction issues. -/
def laneEffect (s0 : State) (g0 : Group) (n : Node) (c : Ctx) (d : LaneSpec) : State :=
  let c1 := if d.quad then c.engage g0 n else c
  let sel := if d.uni then [] else selected g0 d.ps d.pm (if d.noHelpers then c1.active else c1.active ||| c1.helpers)
  if d.chk ≠ 0 then
    operandFault s0 g0 n c1 d.dst d.pdst (sel.filter fun l => c1.helpers.getLsbD l)
      (if d.uni then lanesOf c1.active else sel) d.chk (·.advance d.words)
  else if !(sel.isEmpty) && overShadow c1 d.dst then groupFault s0 g0 n c1 49
  else
    let ls := if d.uni then [uniLane] else sel
    let at_ := fun l => if d.uni then 0 else l
    let s := if g0.flaws.isEmpty then s0 else meetFlaws s0 g0.uid (ls.map fun l => d.readsOf g0 n c1 (at_ l))
    let g := if g0.flaws.isEmpty then g0 else (s.group? g0.uid).getD g0
    let c2 := if sel.isEmpty then c1 else c1.shadow d.dst
    let outs := ls.map fun l =>
      let o := d.body g n c2 (at_ l)
      let e := if g.flaws.isEmpty then 0 else g.regError (d.readsOf g n c2 (at_ l))
      (l, if e = 0 then o else { o with code := e })
    let r := outs.foldl (applyOut g.fmode) ((g, n, c2), [])
    let fs := if d.uni then (match r.2 with
        | [] => []
        | f :: _ => (lanesOf c2.active).map fun l => (l, f.2))
      else r.2
    faultLanes s r.1.1 r.1.2.1 r.1.2.2 fs (·.advance d.words)

/-- What the instruction uses: its destinations are only written, and its lanes are those it selects. -/
def LaneSpec.used (d : LaneSpec) : Use := { d.use with wv := d.dst, ps := if d.uni then 15 else d.ps, pm := if d.uni then 0 else d.pm }

/-- Issue a register-only instruction for a fragment. -/
def laneStep (s : State) (g : Group) (n : Node) (d : LaneSpec) : State :=
  match precheck s g n false d.used with
  | .stop s1 => s1
  | .go s1 g1 n1 c1 =>
    if d.noMethod && g1.landing.isSome then rejectCall s1 g1 6 0
    else laneEffect (countCall s1 g1) g1 n1 c1 d

/-- Every register-only instruction (Table 5.5, R313). -/
def laneOp (d : LaneSpec) (s : State) : Host.Outcome State Fault Refusal :=
  match curFrame s with
  | some (g, n) => .next (laneStep s g n d)
  | none => .fault .noFragment

/-- Any other core instruction: its effect once the checks before issue are passed. -/
def coreOp (isTerm : Bool) (u : Use) (noMethod : Nat) (f : State → Group → Node → Ctx → State) (s : State) :
    Host.Outcome State Fault Refusal :=
  match curFrame s with
  | some (g, n) =>
    .next (match precheck s g n isTerm u with
      | .stop s1 => s1
      | .go s1 g1 n1 c1 =>
        if noMethod ≠ 0 && g1.landing.isSome then rejectCall s1 g1 noMethod (if noMethod = 4 then 48 else 0)
        else f (countCall s1 g1) g1 n1 c1)
  | none => .fault .noFragment

/-- As `coreOp`, for an instruction that may wait: while its condition does not hold the fragment is not ready (R101), and nothing
but a roll-back of a younger owner happens. -/
def waitOp (isTerm : Bool) (u : Use) (noMethod : Nat) (ready : State → Group → Node → Ctx → Bool)
    (f : State → Group → Node → Ctx → State) (s : State) : Host.Outcome State Fault Refusal :=
  match curFrame s with
  | some (g, n) =>
    .next (match precheck s g n isTerm u with
      | .stop s1 => s1
      | .go s1 g1 n1 c1 =>
        if noMethod ≠ 0 && g1.landing.isSome then rejectCall s1 g1 noMethod (if noMethod = 4 then 48 else 0)
        else if ready s1 g1 n1 c1 then f (countCall s1 g1) g1 n1 c1 else s1)
  | none => .fault .noFragment

end Sys2Proof.Machine
end

