-- ==== Sys2Proof/Machine/Fetch.lean ====
section
/-! DEFINITION. Fetching the words of an instruction (R143, R258, R285), what a fragment issues in a step (R284, R414), and the
bytes of an instruction word placed for a fetch. -/
namespace Sys2Proof.Machine

/-- Lines that a trace in progress has fetched: virtual line address, 64 bytes. -/
abbrev Fetches := List (Nat × List Byte)

/-- The instruction-cache copy of a line of virtual addresses. -/
def icacheLine (s : State) (g : Group) (va : Nat) : Option (List Byte) :=
  (s.icache.find? fun e => e.1 == g.core && e.2.1 == g.part && e.2.2.1 == va / 64 * 64).map (·.2.2.2)

/-- One instruction word by its virtual address: as the trace has fetched its line already, else from an instruction-cache copy, else
from its home (R285). A bad word, its own or of its walk, gives code 9 (DEDUCED [12], [98]). -/
def fetchWord (s : State) (g : Group) (got : Fetches) (va : Nat) : Except Nat Word :=
  match got.find? fun e => e.1 == va / 64 * 64 with
  | some e => .ok (BitVec.ofNat 32 (leNat (takeAt e.2 (va % 64) 4)))
  | none =>
    match translate s g.core g.die g.part va .exec with
    | .error e => .error (if faultCode e = 9 then e else faultAt 51 e 3 va)
    | .ok x =>
      match icacheLine s g va with
      | some l => .ok (BitVec.ofNat 32 (leNat (takeAt l (va % 64) 4)))
      | none =>
        if badSpan s g.die x.pa 4 then .error (dataError s g.die x.pa 4)
        else .ok (BitVec.ofNat 32 (leNat (pread s x.pa 4)))

/-- Further words at an address. -/
def fetchMore (s : State) (g : Group) (got : Fetches) (va : Nat) : Nat → Except Nat (List Word)
  | 0 => .ok []
  | k + 1 =>
    match fetchWord s g got va with
    | .error c => .error c
    | .ok w =>
      match fetchMore s g got (va + 4) k with
      | .error c => .error c
      | .ok ws => .ok (w :: ws)

/-- Words of an instruction by bits 31:30 of its first (R258). -/
def moreWords (w : Word) : Nat := if w.toNat / 2 ^ 30 = 3 then 0 else w.toNat / 2 ^ 30

/-- The words of the instruction at an address: one, two or three (R258). -/
def fetchWords (s : State) (g : Group) (got : Fetches) (va : Nat) : Except Nat (List Word) :=
  match fetchWord s g got va with
  | .error c => .error c
  | .ok w =>
    match fetchMore s g got (va + 4) (moreWords w) with
    | .error c => .error c
    | .ok ws => .ok (w :: ws)

/-- A fetch's walk, and the fetch where it reaches the home of a word's line, meet the check codes there (R26, R27, R142), once no atomic is
parked there. -/
def seeWord (s : State) (g : Group) (got : Fetches) (va : Nat) : State :=
  if s.flaws.isEmpty || (got.any fun e => e.1 == va / 64 * 64) then s
  else if (icacheLine s g va).isSome then seeWalk s g.core g.die g.part va
  else
    seeVaOf s g.core g.die g.part va 4 .exec

/-- The same of an instruction's words. -/
def seeWords (s : State) (g : Group) (got : Fetches) (va : Nat) : State :=
  let s1 := seeWord s g got va
  match fetchWord s1 g got va with
  | .ok w => (List.range (moreWords w)).foldl (fun s k => seeWord s g got (va + 4 + 4 * k)) s1
  | .error _ => s1

/-- A line that a fetch uses, whole: none where it has a bad word. -/
def lineNow (s : State) (g : Group) (va : Nat) : Option (List Byte) :=
  match icacheLine s g va with
  | some l => some l
  | none =>
    match translate s g.core g.die g.part va .exec with
    | .ok x => if badSpan s g.die (x.pa / 64 * 64) 64 then none else some (pread s (x.pa / 64 * 64) 64)
    | .error _ => none

/-- The lines of n words, added to those that the trace has fetched. -/
def keepLines (s : State) (g : Group) (va : Nat) : Nat → Fetches → Fetches
  | 0, got => got
  | k + 1, got =>
    let l := va / 64 * 64
    keepLines s g (va + 4) k (if got.any fun e => e.1 == l then got else match lineNow s g va with
      | some bs => got ++ [(l, bs)]
      | none => got)

/-- A word waits behind an atomic parked on its line, where it is read at its home, or on a line that its walk reads (R156). -/
def wordHeld (s : State) (g : Group) (got : Fetches) (va : Nat) : Bool :=
  anyParked s && !(got.any fun e => e.1 == va / 64 * 64) &&
    (walkHeld s g.core g.die g.part va ||
      ((icacheLine s g va).isNone &&
        (match translate s g.core g.die g.part va .exec with
         | .ok x => parkedBlocks s x.pa 4 false
         | .error _ => false)))
/-- The same of an instruction's words. -/
def wordsHeld (s : State) (g : Group) (got : Fetches) (va : Nat) : Bool :=
  wordHeld s g got va ||
    (match fetchWord s g got va with
     | .ok w => (List.range (moreWords w)).any fun k => wordHeld s g got (va + 4 + 4 * k)
     | .error _ => false)

/-- Bytes of words in memory order (R4). -/
def bytesOf (ws : List Word) : List Byte := ws.flatMap fun w => leBytes 4 w.toNat

/-- What a fragment has to issue: nothing yet, a fault of its fetch, or an instruction. -/
inductive Fetched where
  | idle
  | fault (s : State)
  | instr (s : State) (i : Instr)

/-- The instruction of some words; undecodable words are the opcode that no map allocates (R284). -/
def instrOf (ws : List Word) : Instr :=
  match decode (bytesOf ws) with
  | .ok (i, _) => i
  | .error e => .unallocatedOpcode e ws

/-- The bytes of a table word of nbits bits, laid out as memory holds them, with zeros up to three words. -/
def tableBytes (nbits w : Nat) : List Byte :=
  (List.range 12).map fun k => if 8 * k < nbits then BitVec.ofNat 8 (w >>> (8 * k)) else 0

end Sys2Proof.Machine
end

