-- ==== Sys2Proof/Machine/Queues.lean ====
section
/-! DEFINITION. Command queues and launches: launch records and their acceptance (R71 to R73, R76, R90), queue states and parking
(R57 to R60), the pilot verifier (R67), and reading a packet (R58, R61 to R63). -/
namespace Sys2Proof.Machine

/-! ### Launch records (R71, R72) -/

/-- The part's stepping (CAPS1 of Table 15.6). -/
def partStepping : Nat := 1

/-- Where a task queue's descriptor stands (Table 4.4), and its bytes. -/
def taskDescAt (p : Partition) (q : Nat) : Nat := p.savebase + 0x2000 + 32 * q
def taskDesc (s : State) (p : Partition) (q : Nat) : List Byte := pread s (taskDescAt p q) 32

/-- A task queue's descriptor passes the checks of Table 4.4. -/
def taskDescOk (s : State) (p : Partition) (d : List Byte) : Bool :=
  let base := field d 24 8
  let size := field d 20 4
  base % 4096 == 0 && isPow2In size 8 65536 && field d 16 4 == 0 && field d 0 8 == 0 &&
    (BitVec.ofNat 32 (field d 12 4) - BitVec.ofNat 32 (field d 8 4)).toNat ≤ size &&
    (pageSpans base (size * 32)).all fun sp =>
      match xlate s 0 p.part sp.1 .update with
      | .ok x => x.tier == .bench && !x.big
      | .error _ => false

/-- Distance back from the last assigned serial to g (R73): serials go round 1 to 2^32 - 1. -/
def serialBack (p : Partition) (g : Nat) : Nat :=
  ((p.nextSerial.toNat : Int) - 1 - g) % (2 ^ 32 - 1) |>.toNat

/-- What the checks of a bound launch record read meets its check codes: the descriptor, and the walks of its pages (R26, R27). -/
def seeLaunch (s : State) (p : Partition) (r : List Byte) : State :=
  if s.flaws.isEmpty || !bit (field r 47 1) 7 then s
  else
    let q := field r 47 1 % 64
    let s1 := seeSpan s 0 (taskDescAt p q) 32 (some p.part) 0xFF
    let d := taskDesc s1 p q
    if isPow2In (field d 20 4) 8 65536 then
      (pageSpans (field d 24 8) (field d 20 4 * 32)).foldl (fun s sp => seeWalk s 192 0 p.part sp.1) s1
    else s1

/-- The checks of a launch record, in the order of Table 3.8; a descriptor that cannot be read fails code 11 [98]. -/
def launchChecks (s : State) (p : Partition) (r : List Byte) : List (Nat × Bool) :=
  let f := field r
  let core := f 30 1
  let groups := f 31 1
  let vregs := f 32 1
  let taskq := f 47 1
  let addrBad := fun a => a % 4 != 0 || 2 ^ 55 ≤ a
  [ (1, f 60 4 != 0 || core / 32 != 0 || bit taskq 6),
    (2, addrBad (f 0 8) || addrBad (f 8 8)),
    (3, f 24 6 == 0 || f 24 6 ||| p.clumask != p.clumask),
    (4, core % 16 == 0 || (bit core 4 && core % 16 != 15)),
    (5, groups == 0 || 48 < groups),
    (6, vregs == 0 || 20 < vregs),
    (7, 1536 * 1024 < groups * vregs * 16 * 384),
    (8, 1048576 < f 33 1 * 4096 + groups * 1536),
    (9, f 36 4 == 0 || f 40 2 == 0 || f 42 2 == 0 || f 44 2 == 0),
    (10, 1 < f 46 1 % 16 || 6 < f 46 1 / 16 || (f 46 1 % 16 == 0 && f 46 1 / 16 != 0)),
    (11, bit taskq 7 && ((p.taskq? (taskq % 64)).isSome || badSpan s 0 (taskDescAt p (taskq % 64)) 32 ||
      !taskDescOk s p (taskDesc s p (taskq % 64)))),
    (12, f 48 4 != 0 && !(serialBack p (f 48 4) < min p.assigned (2 ^ 31))),
    (13, f 34 2 != 0 && f 34 2 != partStepping),
    (14, f 16 8 % 8 != 0) ]

/-- The lowest code of Table 3.8 that applies; 0 when the record passes. -/
def launchCode (s : State) (p : Partition) (r : List Byte) : Nat :=
  match (launchChecks s p r).find? (·.2) with
  | some c => c.1
  | none => 0

/-- The lowest launch slot of the partition that no launch holds (R76) [17]. -/
def freeLaunchSlot (s : State) (part : Nat) : Option Nat :=
  (List.range 32).find? fun k => !(s.launches.any fun l => l.part == part && l.slot == k)

/-- Accept a launch record that passed its checks, in a free slot: the next serial, the gate, the binding (R73, R76, R88, R90). -/
def acceptLaunch (s : State) (p : Partition) (slot : Nat) (r : List Byte) : State × Word :=
  let serial := p.nextSerial
  let gser := BitVec.ofNat 32 (field r 48 4)
  let gthr := field r 52 4
  let pred := s.launch? p.part gser
  let open_ := gser == 0 || (match pred with
    | none => true
    | some l => gthr != 0 && gthr ≤ l.release)
  let bound := bit (field r 47 1) 7
  let q := field r 47 1 % 64
  let d := taskDesc s p q
  let p1 := { p with
    nextSerial := nextSeq serial, assigned := p.assigned + 1,
    taskqs := if bound then p.taskqs ++
        [{ q := q, serial := serial, base := field d 24 8, size := field d 20 4, tailc := BitVec.ofNat 32 (field d 12 4),
           headc := BitVec.ofNat 32 (field d 8 4), reserved := [] }] else p.taskqs }
  let l : Launch :=
    { part := p.part, serial := serial, slot := slot, record := takeAt r 0 64, st := .waiting, release := 0, next := 0,
      gateOpen := open_, fatal := false, gateLive := pred.isSome, preempting := none, cbars := [],
      lastTask := (191, 47) }
  ({ s.setPart p1 with launches := s.launches ++ [l] }, serial)

/-! ### Queue records in memory (R56, R57) -/

/-- Physical address of a queue's table entry. -/
def queueAt (p : Partition) (q : Nat) : Nat := p.savebase + 128 * q

/-- Fields of the fetcher's copy of the descriptor (Table 3.1). -/
def Queue.fld (x : Queue) (k n : Nat) : Nat := field x.desc k n
def Queue.ringSize (x : Queue) : Nat := x.fld 16 4
def Queue.hostRing (x : Queue) : Bool := bit (x.fld 22 1) 0
def Queue.prio (x : Queue) : Bool := bit (x.fld 22 1) 1
def Queue.maxSlot (x : Queue) : Nat := x.fld 23 1
def Queue.homeDie (x : Queue) : Nat := x.fld 24 1

def QSt.code : QSt → Nat
  | .off => 0 | .active => 1 | .fetchfault => 2 | .faulted => 3 | .stopped => 4

/-- Put a queue back, writing each field of R57 that changed to its descriptor. -/
def putQueue (s : State) (part : Nat) (x : Queue) : State :=
  match s.part? part with
  | none => s
  | some p =>
    match p.queue? x.q with
    | none => s
    | some o =>
      let a := queueAt p x.q
      let w := fun (s : State) (same : Bool) (off n v : Nat) => if same then s else hwWrite s x.homeDie (a + off) (leBytes n v)
      let s1 := s.setPart (p.setQueue x)
      let s2 := w s1 (o.head == x.head) 32 4 x.head.toNat
      let s3 := w s2 (o.tail == x.tail) 36 4 x.tail.toNat
      let s4 := w s3 (o.st == x.st) 40 1 x.st.code
      let s5 := w s4 (o.reason == x.reason) 41 1 x.reason
      let s6 := w s5 (o.rearmw == x.rearmw) 48 4 x.rearmw
      w s6 (o.lastser == x.lastser) 52 4 x.lastser.toNat

/-- The state a park reason leads to (Table 3.5). -/
def parkState (reason : Nat) : QSt :=
  if reason = 10 then .stopped else if reason = 1 ∨ reason = 2 ∨ reason = 3 ∨ reason = 9 then .fetchfault else .faulted

/-- Write one byte or count of a queue's descriptor, changed or not: the fetcher does so for REASON at each park and for TAIL at each
Ferry TAIL (R59, Table 3.1). -/
def writeDesc (s : State) (part : Nat) (x : Queue) (off n v : Nat) : State :=
  match s.part? part with
  | some p => hwWrite s x.homeDie (queueAt p x.q + off) (leBytes n v)
  | none => s

/-- The partition's ring fetch faults are recovered by the host (Table 2.7, bit 3). -/
def fetchAssisted (s : State) (part : Nat) : Bool :=
  match s.part? part with
  | some p => p.assisted 3
  | none => false

/-- Park a queue: state, REASON, a TYPE 3 event (R59); the mode of Table 2.7 as the fault is raised decides who recovers it (R54). -/
def parkQueue (s : State) (part : Nat) (x : Queue) (reason tag extra : Nat) : State :=
  let s1 := putQueue s part { x with st := parkState reason, reason := reason, byHost := fetchAssisted s part }
  pushEvent (writeDesc s1 part x 41 1 reason) part (eventEntry 3 0
    (leBytes 4 x.q ++ leBytes 4 reason ++ leBytes 4 x.head.toNat ++ leBytes 4 tag ++ List.replicate 12 0 ++ leBytes 4 extra))

/-- TAG of the packet in progress. -/
def Queue.tag (x : Queue) : Nat := if x.busy then field x.packet 4 4 else 0

/-- End the packet in progress: HEAD moves past its slots (R63). -/
def Queue.endPacket (x : Queue) : Queue :=
  { x with head := x.head + BitVec.ofNat 32 (field x.packet 1 1), busy := false, suspended := false, retries := 0 }

/-! ### The verifier (R67) -/

/-- The words of a loop: index of its LOOP and its body's length. -/
def loopsOf (prog : List Instr) : List (Nat × Nat) :=
  (prog.zipIdx).filterMap fun x =>
    match x.1 with
    | .loop _ _ imm => some (x.2, imm.toNat)
    | _ => none

/-- Branches: index and target. -/
def branchesOf (prog : List Instr) : List (Nat × Nat) :=
  (prog.zipIdx).filterMap fun x =>
    match x.1 with
    | .beq _ _ imm => some (x.2, x.2 + 1 + imm.toNat)
    | .bne _ _ imm => some (x.2, x.2 + 1 + imm.toNat)
    | .bltu _ _ imm => some (x.2, x.2 + 1 + imm.toNat)
    | _ => none

/-- A branch neither enters nor leaves a LOOP body (R67); one that skips exactly to the body's end ends the pass (DEDUCED [18]). -/
def branchOk (len : Nat) (loops : List (Nat × Nat)) (b : Nat × Nat) : Bool :=
  b.2 < len && loops.all fun l =>
    let lo := l.1 + 1
    let hi := l.1 + 1 + l.2
    if lo ≤ b.1 ∧ b.1 < hi then lo ≤ b.2 && b.2 ≤ hi else b.2 ≤ l.1 || hi ≤ b.2 || b.2 < lo

/-- LOOP bodies: 1 to 255 instructions, inside the pilot, at most 2 deep. One that overlaps another without lying in it is rejected with
code 7 too; R67 names no code for that (DESIGN CHOICE [93]). -/
def loopOk (len : Nat) (loops : List (Nat × Nat)) (l : Nat × Nat) : Bool :=
  let hi := l.1 + 1 + l.2
  1 ≤ l.2 && l.2 ≤ 255 && hi ≤ len &&
    (loops.all fun m => !(m.1 < l.1 && l.1 < m.1 + 1 + m.2) || hi ≤ m.1 + 1 + m.2) &&
    (loops.filter fun m => m.1 < l.1 && l.1 < m.1 + 1 + m.2).length ≤ 1

/-- A sized offset lies in its window, aligned to its size. -/
def offsetOk (window sz imm : Nat) : Bool := imm % 2 ^ sz == 0 && imm + 2 ^ sz ≤ window

/-- The offset and shift rule of one instruction. -/
def pilotOffsetOk (maxSlot : Nat) : Instr → Bool
  | .ldp _ sz imm => offsetOk (64 * maxSlot) sz.toNat imm.toNat
  | .ldq _ sz imm => offsetOk 64 sz.toNat imm.toNat
  | .stq _ sz imm => offsetOk 64 sz.toNat imm.toNat
  | .stl _ sz imm => offsetOk 64 sz.toNat imm.toNat
  | .pilotShl _ _ imm => imm.toNat < 64
  | .pilotShr _ _ imm => imm.toNat < 64
  | _ => true

/-- The lowest verifier code of a pilot's words; 0 when they pass (DEDUCED [18]: lowest). -/
def verifyPilot (maxSlot : Nat) (ws : List Word) : Nat :=
  let dec := ws.map decodePilot
  let codeIs := fun (k : Nat) => dec.any fun d =>
    match d with
    | .error (.pilot c) => c == k
    | .error _ => k == 4
    | .ok _ => false
  let prog := dec.map fun d =>
    match d with
    | .ok i => i
    | .error _ => Instr.done
  let loops := loopsOf prog
  let lastOk := match prog.getLast? with
    | some .done => true
    | some (.fault _) => true
    | _ => false
  if codeIs 4 then 4
  else if codeIs 5 then 5
  else if !(branchesOf prog).all (branchOk prog.length loops) then 6
  else if !loops.all (loopOk prog.length loops) then 7
  else if !prog.all (pilotOffsetOk maxSlot) then 8
  else if !lastOk then 9
  else 0

/-- The verifier over a descriptor and its pilot (R67, Table 3.1): the lowest code, or the pilot's words. -/
def verify (s : State) (p : Partition) (d : List Byte) : Except Nat (List Word) :=
  let f := field d
  let home := f 24 1
  if f 56 8 != 0 || f 42 6 != 0 || f 25 7 != 0 || f 22 1 / 4 != 0 || !isPow2In (f 16 4) 16 65536 || f 0 8 % 4096 != 0 then
    .error 1
  else if 3 < home || bits p.clumask (12 * home + 11) (12 * home) == 0 then .error 2
  else if f 20 2 = 0 || 1024 < f 20 2 || f 8 8 % 4 != 0 then .error 3
  else
    match spansOf s home p.part .read (pageSpans (f 8 8) (4 * f 20 2)) with
    | .error _ => .error 3
    | .ok ps =>
      if spansBad s home ps then .error 3
      else
        let bs := readSpans s ps
        let ws := (List.range (f 20 2)).map fun k => BitVec.ofNat 32 (field bs (4 * k) 4)
        match verifyPilot (f 23 1) ws with
        | 0 => if 1 ≤ f 23 1 && f 23 1 ≤ 4 then .ok ws else .error 10
        | k => .error k

/-- The pages of the pilot that a descriptor names, where its fields allow one. -/
def pilotPages (d : List Byte) : List (Nat × Nat) :=
  if 3 < field d 24 1 || field d 20 2 = 0 || 1024 < field d 20 2 then [] else pageSpans (field d 8 8) (4 * field d 20 2)

/-- A reload's reads wait behind a parked atomic (R142, R156). -/
def reloadHeld (s : State) (p : Partition) (x : Queue) : Bool :=
  let d := pread s (queueAt p x.q) 64
  let home := field d 24 1
  anyParked s && (parkedBlocks s (queueAt p x.q) 64 false || (pilotPages d).any fun sp =>
    vaHeld s (192 + home) home p.part sp.1 sp.2 .read)

/-- A reload's reads meet the check codes of their lines (R26, R27). -/
def seeReload (s : State) (p : Partition) (x : Queue) : State :=
  if s.flaws.isEmpty then s
  else
    let a := queueAt p x.q
    let s1 := seeSpan s (homeDie a) a 64 (some p.part) 0xFF
    let d := pread s1 a 64
    (pilotPages d).foldl (fun s sp => seeVaOf s (192 + field d 24 1) (field d 24 1) p.part sp.1 sp.2 .read) s1

/-- Reload a queue's descriptor and pilot (R60): the queue with them, or the verifier's code. HEAD comes from the descriptor; one that
cannot be read has code 1 (DESIGN CHOICE [93]). -/
def reload (s : State) (p : Partition) (x : Queue) : Except Nat Queue :=
  let d := pread s (queueAt p x.q) 64
  if badSpan s (homeDie (queueAt p x.q)) (queueAt p x.q) 64 then .error 1
  else
  match verify s p d with
  | .error c => .error c
  | .ok ws => .ok { x with desc := d, pilot := ws, head := BitVec.ofNat 32 (field d 32 4) }

/-! ### Packets (R58, R62, R63) -/

/-- Address of ring slot n. -/
def Queue.slotAt (x : Queue) (n : Word) : Nat := x.fld 0 8 + 64 * (n.toNat % x.ringSize)

/-- A ring slot in device memory, or the walk to it, waits behind a parked atomic (R156). -/
def slotHeld (s : State) (part : Nat) (x : Queue) (n : Word) : Bool :=
  !x.hostRing && vaHeld s (192 + x.homeDie) x.homeDie part (x.slotAt n) 64 .read

/-- The read of a ring slot in device memory meets its line's check code (R26, R27). -/
def seeSlot (s : State) (part : Nat) (x : Queue) (n : Word) : State :=
  if x.hostRing then s else seeVaOf s (192 + x.homeDie) x.homeDie part (x.slotAt n) 64 .read

/-- Read one ring slot: 64 bytes, or park reason 1, 2 or 9 (9 also where its walk cannot be read [98]); 0 while it waits. -/
def readSlot (s : State) (part : Nat) (x : Queue) (n : Word) : Except Nat (List Byte) :=
  if slotHeld s part x n then .error 0
  else if x.hostRing then (if hostOk s (x.slotAt n) 64 then .ok (hread s (x.slotAt n) 64) else .error 2)
  else
    match xlate s x.homeDie part (x.slotAt n) .read with
    | .error e => .error (if faultCode e = 9 then 9 else 1)
    | .ok r => if badSpan s x.homeDie r.pa 64 then .error 9 else .ok (pread s r.pa 64)

/-- The rest of a packet's slots. -/
def readSlots (s : State) (part : Nat) (x : Queue) (n : Word) : Nat → Except Nat (List Byte)
  | 0 => .ok []
  | k + 1 =>
    match readSlot s part x n with
    | .error e => .error e
    | .ok b =>
      match readSlots s part x (n + 1) k with
      | .error e => .error e
      | .ok bs => .ok (b ++ bs)

/-- What the packet at HEAD gives: not all pending or readable yet, a park reason with its TAG, or its bytes. -/
inductive Packet where
  | none
  | park (reason tag : Nat)
  | bytes (b : List Byte)
  deriving DecidableEq, Repr, Inhabited

/-- A read of slots that fails: it waits, or it parks the queue. -/
def failedRead (reason tag : Nat) : Packet := if reason = 0 then .none else .park reason tag

def packetAt (s : State) (part : Nat) (x : Queue) : Packet :=
  let pending := (x.tail - x.head).toNat
  if pending = 0 then .none
  else
    match readSlot s part x x.head with
    | .error r => failedRead r 0
    | .ok b =>
      let n := field b 1 1
      let tag := field b 4 4
      if n = 0 || x.maxSlot < n || field b 2 2 != 0 then .park 4 tag
      else if pending < n then .none
      else
        match readSlots s part x x.head n with
        | .error r => failedRead r tag
        | .ok bs => .bytes bs

/-- A slot of the packet at HEAD waits behind a parked atomic (R156). -/
def packetHeld (s : State) (part : Nat) (x : Queue) : Bool :=
  let pending := (x.tail - x.head).toNat
  let waits := fun (r : Except Nat (List Byte)) => match r with
    | .error e => e == 0
    | .ok _ => false
  pending != 0 && match readSlot s part x x.head with
    | .error e => e == 0
    | .ok b =>
      let n := field b 1 1
      !(n = 0 || x.maxSlot < n || field b 2 2 != 0) && decide (n ≤ pending) && waits (readSlots s part x x.head n)

/-- The reads of the packet at HEAD, its header's first, meet their lines' check codes (R63). -/
def seePacket (s : State) (part : Nat) (x : Queue) : State :=
  let pending := (x.tail - x.head).toNat
  if pending = 0 || s.flaws.isEmpty then s
  else
    let s1 := seeSlot s part x x.head
    match readSlot s1 part x x.head with
    | .error _ => s1
    | .ok b =>
      let n := min (field b 1 1) x.maxSlot
      if pending < n then s1 else (List.range n).foldl (fun s k => seeSlot s part x (x.head + BitVec.ofNat 32 k)) s1

/-- Start the packet: registers and launch buffer cleared, the pilot at its first step (R63). -/
def Queue.start (x : Queue) (b : List Byte) : Queue :=
  { x with busy := true, packet := takeAt b 0 (64 * x.maxSlot), x := List.replicate 8 0, lb := List.replicate 64 0, pc := 0,
           loops := [], steps := 0, suspended := false }

end Sys2Proof.Machine
end

