-- ==== Sys2Proof/Machine/Pilot.lean ====
section
/-! DEFINITION. The fetcher's visits and the 24 pilot operations (R61, R63 to R70). SIGW is performed as it executes and LAUNCH
is answered before the next step, so that a FENCE finds nothing to wait for [19]. -/
namespace Sys2Proof.Machine

/-- The queue whose pilot is being stepped. -/
def curPilot (s : State) : Option (Partition × Queue) :=
  match s.cur with
  | .pilot part q =>
    match s.part? part with
    | some p =>
      match p.queue? q with
      | some x => if x.busy then some (p, x) else none
      | none => none
    | none => none
  | _ => none

/-- End the visit that serves a queue (R61). -/
def endVisit (s : State) (part q : Nat) : State :=
  { s with dies := s.dies.map fun d => if d.visit == some (part, q) then { d with visit := none, visitSteps := 0 } else d }

/-- Registers of a pilot. -/
def Queue.reg (x : Queue) (r : BitVec 3) : DWord := x.x.getD r.toNat 0
def Queue.setReg (x : Queue) (r : BitVec 3) (v : DWord) : Queue := { x with x := x.x.set r.toNat v }

/-- Count a step once, however often it is retried (R68). -/
def Queue.count (x : Queue) : Queue := if x.suspended then x else { x with steps := x.steps + 1 }

/-- At the end of a LOOP body: the next pass, with the pass number in xD, or out of the loop (R66). -/
def loopBack : Nat → Queue → Queue
  | 0, x => x
  | k + 1, x =>
    match x.loops with
    | [] => x
    | (start, len, pass, n, d) :: rest =>
      if x.pc = start + len then
        if pass + 1 < n then
          { x with pc := start, loops := (start, len, pass + 1, n, d) :: rest,
                   x := x.x.set d (BitVec.ofNat 64 (pass + 1)) }
        else loopBack k { x with loops := rest }
      else x

/-- Move to an instruction. -/
def Queue.goto (x : Queue) (pc : Nat) : Queue := loopBack 3 { x with pc := pc, suspended := false }

/-- A packet whose pilot stops with a reason that advances HEAD (R63, Table 3.5). A deferred REARM of the queue stays deferred: the queue
parks, and reloads at the next boundary it comes to (DESIGN CHOICE [93]). -/
def stopPilot (s : State) (p : Partition) (x : Queue) (reason extra : Nat) : State :=
  endVisit (parkQueue s p.part x.endPacket reason (x.tag) extra) p.part x.q

/-- The step is retried at a later visit (R61). -/
def suspend (s : State) (p : Partition) (x : Queue) : State :=
  endVisit (putQueue s p.part { x.count with suspended := true }) p.part x.q

/-- The queue parks with its pilot suspended at this step (reasons 2, 3 and 9). -/
def parkSuspended (s : State) (p : Partition) (x : Queue) (reason : Nat) : State :=
  endVisit (parkQueue s p.part { x.count with suspended := true } reason x.tag 0) p.part x.q

/-- A visit ends after 64 steps (R61). -/
def visitStep (s : State) (part q : Nat) : State :=
  { s with dies := s.dies.map fun d =>
      if d.visit == some (part, q) then
        (if 64 ≤ d.visitSteps + 1 then { d with visit := none, visitSteps := 0 } else { d with visitSteps := d.visitSteps + 1 })
      else d }

/-- End the packet without parking (DONE). -/
def finishPacket (s : State) (p : Partition) (x : Queue) : State := endVisit (putQueue s p.part x.endPacket) p.part x.q

/-- The step completes: the queue at its next instruction, one more step of the visit. A pilot that runs past its last instruction
has ended its packet (DEDUCED [18]). -/
def completeStep (s : State) (p : Partition) (x : Queue) (pc : Nat) : State :=
  let y := x.count.goto pc
  if y.pc < y.pilot.length then visitStep (putQueue s p.part y) p.part x.q else finishPacket s p y

/-- A pilot operation: what it does to a queue at its step. -/
def pilotOp (f : State → Partition → Queue → State) (s : State) : Host.Outcome State Fault Refusal :=
  match curPilot s with
  | some (p, x) => .next (f s p x)
  | none => .fault .noPilot

/-- An operation that writes xD and goes on. -/
def pilotReg (d : BitVec 3) (f : State → Partition → Queue → DWord) (s : State) : Host.Outcome State Fault Refusal :=
  pilotOp (fun s p x => completeStep s p (x.setReg d (f s p x)) (x.pc + 1)) s

/-- Sext(imm, 18). -/
def imm18 (imm : BitVec 18) : DWord := imm.signExtend 64

/-- LDP.sz xD, imm (R66). -/
def execLdp (d sz : BitVec 3) (imm : BitVec 18) (s : State) : Host.Outcome State Fault Refusal :=
  pilotReg d (fun _ _ x => BitVec.ofNat 64 (field x.packet imm.toNat (2 ^ sz.toNat))) s

/-- Where byte imm of a queue's state block stands (R57, R64). -/
def stateAt (p : Partition) (x : Queue) (imm : BitVec 18) : Nat := queueAt p x.q + 64 + imm.toNat

/-- LDQ.sz xD, imm (R64, R66): it waits behind a parked atomic (R156), meets the check code of its line (R26, R27), and where the block
cannot be read parks the queue at the step with reason 9 (DESIGN CHOICE [98]). -/
def execLdq (d sz : BitVec 3) (imm : BitVec 18) (s : State) : Host.Outcome State Fault Refusal :=
  pilotOp (fun s p x =>
    let n := 2 ^ sz.toNat
    if parkedBlocks s (stateAt p x imm) n false then suspend s p x
    else
      let s1 := seeSpan s x.homeDie (stateAt p x imm) n (some p.part) 0xFF
      match hwRead s1 x.homeDie (stateAt p x imm) n with
      | some b => completeStep s1 p (x.setReg d (BitVec.ofNat 64 (leNat b))) (x.pc + 1)
      | none => parkSuspended s1 p x 9) s

/-- STQ.sz xA, imm (R64, R66); it waits behind a parked atomic (R156, R157). -/
def execStq (a sz : BitVec 3) (imm : BitVec 18) (s : State) : Host.Outcome State Fault Refusal :=
  pilotOp (fun s p x =>
    if parkedBlocks s (stateAt p x imm) (2 ^ sz.toNat) true then suspend s p x
    else
      completeStep (hwWrite s x.homeDie (stateAt p x imm) (leBytes (2 ^ sz.toNat) (x.reg a).toNat)) p x (x.pc + 1)) s

/-- LDI xD, imm (R66). -/
def execLdi (d : BitVec 3) (imm : BitVec 18) (s : State) : Host.Outcome State Fault Refusal :=
  pilotReg d (fun _ _ _ => imm18 imm) s
/-- ADD xD, xA, xB (R66). -/
def execPilotAdd (d a b : BitVec 3) (s : State) : Host.Outcome State Fault Refusal :=
  pilotReg d (fun _ _ x => x.reg a + x.reg b) s
/-- SUB xD, xA, xB (R66). -/
def execPilotSub (d a b : BitVec 3) (s : State) : Host.Outcome State Fault Refusal :=
  pilotReg d (fun _ _ x => x.reg a - x.reg b) s
/-- ADDI xD, xA, imm (R66). -/
def execPilotAddi (d a : BitVec 3) (imm : BitVec 18) (s : State) : Host.Outcome State Fault Refusal :=
  pilotReg d (fun _ _ x => x.reg a + imm18 imm) s
/-- AND xD, xA, xB (R66). -/
def execPilotAnd (d a b : BitVec 3) (s : State) : Host.Outcome State Fault Refusal :=
  pilotReg d (fun _ _ x => x.reg a &&& x.reg b) s
/-- OR xD, xA, xB (R66). -/
def execPilotOr (d a b : BitVec 3) (s : State) : Host.Outcome State Fault Refusal :=
  pilotReg d (fun _ _ x => x.reg a ||| x.reg b) s
/-- XOR xD, xA, xB (R66). -/
def execPilotXor (d a b : BitVec 3) (s : State) : Host.Outcome State Fault Refusal :=
  pilotReg d (fun _ _ x => x.reg a ^^^ x.reg b) s
/-- SHL xD, xA, imm (R66). -/
def execPilotShl (d a : BitVec 3) (imm : BitVec 18) (s : State) : Host.Outcome State Fault Refusal :=
  pilotReg d (fun _ _ x => x.reg a <<< imm.toNat) s
/-- SHR xD, xA, imm (R66). -/
def execPilotShr (d a : BitVec 3) (imm : BitVec 18) (s : State) : Host.Outcome State Fault Refusal :=
  pilotReg d (fun _ _ x => x.reg a >>> imm.toNat) s

/-- A branch skips the next imm instructions. -/
def pilotBranch (imm : BitVec 18) (taken : Queue → Bool) (s : State) : Host.Outcome State Fault Refusal :=
  pilotOp (fun s p x => completeStep s p x (x.pc + 1 + (if taken x then imm.toNat else 0))) s

/-- BEQ xA, xB, imm (R66). -/
def execBeq (a b : BitVec 3) (imm : BitVec 18) (s : State) : Host.Outcome State Fault Refusal :=
  pilotBranch imm (fun x => x.reg a == x.reg b) s
/-- BNE xA, xB, imm (R66). -/
def execBne (a b : BitVec 3) (imm : BitVec 18) (s : State) : Host.Outcome State Fault Refusal :=
  pilotBranch imm (fun x => x.reg a != x.reg b) s
/-- BLTU xA, xB, imm (R66). -/
def execBltu (a b : BitVec 3) (imm : BitVec 18) (s : State) : Host.Outcome State Fault Refusal :=
  pilotBranch imm (fun x => (x.reg a).ult (x.reg b)) s

/-- LOOP xD, xA, imm: the body runs xA times; above 64 the pilot stops with reason 6 (R66). -/
def execLoop (d a : BitVec 3) (imm : BitVec 18) (s : State) : Host.Outcome State Fault Refusal :=
  pilotOp (fun s p x =>
    let n := (x.reg a).toNat
    if 64 < n then stopPilot s p x.count 6 0
    else if n = 0 then completeStep s p x (x.pc + 1 + imm.toNat)
    else
      completeStep s p ({ x with loops := (x.pc + 1, imm.toNat, 0, n, d.toNat) :: x.loops }.setReg d 0) (x.pc + 1)) s

/-- STL.sz xA, imm (R66). -/
def execStl (a sz : BitVec 3) (imm : BitVec 18) (s : State) : Host.Outcome State Fault Refusal :=
  pilotOp (fun s p x =>
    completeStep s p { x with lb := putAt x.lb imm.toNat (leBytes (2 ^ sz.toNat) (x.reg a).toNat) } (x.pc + 1)) s

/-- LAUNCH xD: the launch buffer is submitted; suspends while no launch slot is free (R66, R71 to R73, R76). -/
def execPilotLaunch (d : BitVec 3) (s : State) : Host.Outcome State Fault Refusal :=
  pilotOp (fun s0 p x =>
    let s := seeLaunch s0 p x.lb
    match launchCode s p x.lb with
    | 0 =>
      match freeLaunchSlot s p.part with
      | none => suspend s p x
      | some slot =>
        match acceptLaunch s p slot x.lb with
        | (s1, serial) =>
          completeStep s1 p ({ x with lastser := serial }.setReg d (serial.setWidth 64)) (x.pc + 1)
    | code => completeStep s p (x.setReg d (BitVec.ofNat 64 (2 ^ 32 + code))) (x.pc + 1)) s

/-- Where a signal goes: host memory, a physical address, nowhere yet because its line or its walk waits behind a parked atomic (R156),
or a park reason (R66). -/
inductive SigSpot where
  | host
  | device (pa : Nat)
  | held
  | park (reason : Nat)
  deriving DecidableEq, Repr, Inhabited

/-- Where the 8 bytes at an aligned address are for a queue's SIGW or SIGWAIT. A walk that cannot be read, and a home that cannot be
reached, park it with reason 9, a SIGW too, for which Table 3.5 names no reason (DESIGN CHOICE [73], [98]). -/
def sigSpot (s : State) (p : Partition) (x : Queue) (addr : Nat) (host : Bool) (need : Need) : SigSpot :=
  if host then (if hostOk s addr 8 then .host else .park 2)
  else if walkHeld s (192 + x.homeDie) x.homeDie p.part addr then .held
  else
    match xlate s x.homeDie p.part addr need with
    | .error e => .park (if faultCode e = 9 then 9 else 3)
    | .ok r =>
      if parkedBlocks s r.pa 8 (need == .write) then .held
      else if reaches s x.homeDie r.pa then .device r.pa
      else .park 9

/-- The walk of a SIGW or SIGWAIT to device memory meets the check codes of its entries, once no parked atomic holds one. -/
def seeSig (s : State) (p : Partition) (x : Queue) (addr : Nat) (host : Bool) : State :=
  if host || walkHeld s (192 + x.homeDie) x.homeDie p.part addr then s else seeWalk s (192 + x.homeDie) x.homeDie p.part addr

/-- SIGW xA, xB: eight bytes written to a device or host address (R66, R70). -/
def execSigw (a b : BitVec 3) (host : Bool) (s : State) : Host.Outcome State Fault Refusal :=
  pilotOp (fun s0 p x =>
    let addr := (x.reg a).toNat
    let d := leBytes 8 (x.reg b).toNat
    if addr % 8 ≠ 0 then stopPilot s0 p x.count 8 0
    else
      let s := seeSig s0 p x addr host
      match sigSpot s p x addr host .write with
      | .host => completeStep (hwrite s addr d) p x (x.pc + 1)
      | .device pa => completeStep (pwrite s pa d) p x (x.pc + 1)
      | .held => suspend s p x
      | .park r => parkSuspended s p x r) s

/-- The comparison of SIGWAIT by imm bits 1:0. -/
def sigCompare (rel : BitVec 2) (v w : DWord) : Bool :=
  if rel = 0 then v == w else if rel = 1 then v != w else if rel = 2 then w.ule v else v.ult w

/-- SIGWAIT xA, xB: eight bytes read and compared; while the comparison fails, it suspends and is read again once a visit (R66). -/
def execSigwait (a b : BitVec 3) (host : Bool) (rel : BitVec 2) (s : State) : Host.Outcome State Fault Refusal :=
  pilotOp (fun s0 p x =>
    let addr := (x.reg a).toNat
    let decide_ := fun (s : State) (bs : List Byte) =>
      if sigCompare rel (BitVec.ofNat 64 (leNat bs)) (x.reg b) then completeStep s p x (x.pc + 1) else suspend s p x
    if addr % 8 ≠ 0 then stopPilot s0 p x.count 8 0
    else
      let s := seeSig s0 p x addr host
      match sigSpot s p x addr host .read with
      | .host => decide_ s (hread s addr 8)
      | .device pa =>
        let s1 := seeSpan s x.homeDie pa 8 (some p.part) 0xFF
        if badSpan s1 x.homeDie pa 8 then parkSuspended s1 p x 9 else decide_ s1 (pread s1 pa 8)
      | .held => suspend s p x
      | .park r => parkSuspended s p x r) s

/-- FENCE: every earlier SIGW is performed and every earlier LAUNCH answered [19] (R66, R70). -/
def execPilotFence (s : State) : Host.Outcome State Fault Refusal :=
  pilotOp (fun s p x => completeStep s p x (x.pc + 1)) s

/-- EMIT xA: a TYPE 4 event and the EMIT vector; suspends while the event buffer is full (R66). -/
def execEmit (a : BitVec 3) (s : State) : Host.Outcome State Fault Refusal :=
  pilotOp (fun s p x =>
    if bufferFull s p.part then suspend s p x
    else
      let e := eventEntry 4 0 (leBytes 4 x.q ++ leBytes 4 x.tag ++ leBytes 1 (field x.packet 0 1) ++ List.replicate 7 0 ++
        leBytes 8 (x.reg a).toNat ++ leBytes 4 x.head.toNat)
      completeStep (signal (pushEvent s p.part e) (vectorOf p.part + 2)) p x (x.pc + 1)) s

/-- DONE ends the packet (R63, R66). -/
def execDone (s : State) : Host.Outcome State Fault Refusal := pilotOp (fun s p x => finishPacket s p x.count) s

/-- FAULT imm ends the packet and parks the queue with reason 7 (R66). -/
def execFault (imm : BitVec 18) (s : State) : Host.Outcome State Fault Refusal :=
  pilotOp (fun s p x => stopPilot s p x.count 7 imm.toNat) s

/-- The 513th step is not executed: the pilot stops with reason 5 (R68). -/
def execPilotStepBudgetExhausted (s : State) : Host.Outcome State Fault Refusal :=
  match curPilot s with
  | some (p, x) => .next (if 512 ≤ x.steps ∧ ¬ x.suspended then stopPilot s p x 5 0 else s)
  | none => .next s

/-! ### Visits -/

/-- How a suspended step would go now: it would complete or end its pilot, wait on, or park with a reason. -/
inductive Retry where
  | goes | waits
  | parks (reason : Nat)
  deriving DecidableEq, Repr, Inhabited

/-- The step that a queue's pilot is suspended at, tried (Table 3.4). -/
def stepRetry (s : State) (p : Partition) (x : Queue) : Retry :=
  match decodePilot (x.pilot.getD x.pc 0) with
  | .ok (.pilotLaunch _) => if launchCode s p x.lb = 0 ∧ freeLaunchSlot s p.part = none then .waits else .goes
  | .ok (.emit _) => if bufferFull s p.part then .waits else .goes
  | .ok (.ldq _ sz imm) =>
    if parkedBlocks s (stateAt p x imm) (2 ^ sz.toNat) false then .waits
    else if (hwRead s x.homeDie (stateAt p x imm) (2 ^ sz.toNat)).isNone then .parks 9 else .goes
  | .ok (.stq _ sz imm) => if parkedBlocks s (stateAt p x imm) (2 ^ sz.toNat) true then .waits else .goes
  | .ok (.sigw a _ host) =>
    (match sigSpot s p x (x.reg a).toNat host .write with
     | .held => .waits
     | .park r => .parks r
     | _ => .goes)
  | .ok (.sigwait a b host rel) =>
    let done := fun (bs : List Byte) => if sigCompare rel (BitVec.ofNat 64 (leNat bs)) (x.reg b) then Retry.goes else .waits
    (match sigSpot s p x (x.reg a).toNat host .read with
     | .host => done (hread s (x.reg a).toNat 8)
     | .device pa => if badSpan s x.homeDie pa 8 then .parks 9 else done (pread s pa 8)
     | .held => .waits
     | .park r => .parks r)
  | _ => .goes

/-- The queue has work (R61): a pilot that runs or is ready to resume, a deferred reload at a packet boundary, or a packet all of whose
slots are pending. -/
def hasWork (s : State) (part : Nat) (x : Queue) : Bool :=
  x.st == .active &&
    (if x.busy then
       !x.suspended || (match s.part? part with
         | some p => stepRetry s p x != .waits
         | none => false)
     else if x.deferred then (match s.part? part with
       | some p => !reloadHeld s p x
       | none => false)
     else packetAt s part x != .none)

/-- A SIGWAIT whose comparison fails: it is read again once a visit (Table 3.4), but holds up no other queue (R61). -/
def rereads (s : State) (part : Nat) (x : Queue) : Bool :=
  x.st == .active && x.busy && x.suspended && !hasWork s part x &&
    (match decodePilot (x.pilot.getD x.pc 0) with
     | .ok (.sigwait _ _ _ _) => true
     | _ => false)

/-- Queues of a die that some test picks, in its fetcher's circular order from after the last one served (R61). -/
def circular (s : State) (die : Nat) (pick : Nat → Queue → Bool) : List (Nat × Queue) :=
  let last := (s.die die).lastQ
  let all := (List.range 12).flatMap fun k => match s.part? k with
    | some p => p.queues.filterMap fun x => if x.homeDie == die && pick k x then some (k, x) else none
    | none => []
  let key := fun (y : Nat × Queue) => y.1 * 64 + y.2.q
  (all.filter fun y => last.1 * 64 + last.2 < key y) ++ all.filter fun y => key y ≤ last.1 * 64 + last.2

/-- Queues that a die's fetcher serves: those with work, PRIO first, then those that only read their signal again (R61). -/
def visitOrder (s : State) (die : Nat) : List (Nat × Queue) :=
  let order := circular s die (hasWork s)
  (order.filter (·.2.prio) ++ order.filter fun y => !y.2.prio) ++ circular s die (rereads s)

/-- At a packet boundary: a deferred reload, or a park with reason 11 (R60). -/
def boundaryReload (s : State) (part : Nat) (x : Queue) : State × Option Queue :=
  if x.deferred then
    match s.part? part with
    | none => (s, none)
    | some p =>
      let s1 := seeReload s p x
      match reload s1 p { x with deferred := false } with
      | .ok y => (putQueue s1 part y, some y)
      | .error c => (parkQueue s1 part { x with deferred := false } 11 0 c, none)
  else (s, some x)

/-- The fetcher visits the next queue with work and starts its packet or goes on with its pilot; the pilot's steps follow one by one
(R61 to R63). Where the visit's deferred reload moves HOMEDIE, this visit still runs its packet on the die that made it (DESIGN
CHOICE [93]). -/
def execFetcherVisit (die : Nat) (s : State) : Host.Outcome State Fault Refusal :=
  .next (if !(s.die die).running || (s.die die).tripped || (s.die die).visit.isSome then s
    else
      match visitOrder s die with
      | [] => s
      | (part, x) :: _ =>
        let d := s.die die
        let s1 := s.setDie die { d with lastQ := (part, x.q) }
        let open_ := fun (s : State) =>
          let d := s.die die
          s.setDie die { d with visit := some (part, x.q), visitSteps := 0 }
        if x.busy then open_ s1
        else
          match boundaryReload s1 part x with
          | (s2, none) => s2
          | (s2, some y) =>
            let s3 := seePacket s2 part y
            match packetAt s3 part y with
            | .none => s3
            | .park reason tag => parkQueue s3 part y reason tag 0
            | .bytes b => open_ (putQueue s3 part (y.start b)))

/-- What a die's fetcher executes next for the queue it visits. -/
def pilotFetch (s : State) (die : Nat) : Option (Nat × Nat × Instr) :=
  let d := s.die die
  if !d.running || d.tripped then none
  else
    match d.visit with
    | none => none
    | some (part, q) =>
      match s.part? part with
      | none => none
      | some p =>
        match p.queue? q with
        | none => none
        | some x =>
          if !x.busy || x.st != .active then none
          else if 512 ≤ x.steps ∧ ¬ x.suspended then some (part, q, .pilotStepBudgetExhausted)
          else
            match decodePilot (x.pilot.getD x.pc 0) with
            | .ok i => some (part, q, i)
            | .error _ => none

/-- The access that a suspended pilot would retry waits behind a parked atomic (R156). -/
def stepHeld (s : State) (p : Partition) (x : Queue) : Bool :=
  let held := fun (a : BitVec 3) (host : Bool) (need : Need) => sigSpot s p x (x.reg a).toNat host need == .held
  match decodePilot (x.pilot.getD x.pc 0) with
  | .ok (.sigw a _ host) => held a host .write
  | .ok (.sigwait a _ host _) => held a host .read
  | .ok (.ldq _ sz imm) => parkedBlocks s (stateAt p x imm) (2 ^ sz.toNat) false
  | .ok (.stq _ sz imm) => parkedBlocks s (stateAt p x imm) (2 ^ sz.toNat) true
  | _ => false

/-- The retry of a parked queue's access: a pilot suspended mid-packet tries its step, any other queue its slots; it succeeds, waits behind
a parked atomic, or meets a reason again. -/
def retryMeets (s : State) (p : Partition) (x : Queue) : Retry :=
  if x.busy then
    if stepHeld s p x then .waits
    else
      match stepRetry s p x with
      | .parks r => .parks r
      | _ => .goes
  else if packetHeld s p.part x then .waits
  else
    match packetAt s p.part x with
    | .park r _ => if r = 4 then .goes else .parks r
    | _ => .goes

/-- One bounded retry by the management core of a queue parked by a fetch fault in hardware mode (Table 2.7 bit 3): one a period,
16 in all (R54, R59); a retry that waits behind a parked atomic has neither failed nor succeeded, and stands as it was (R156). One that
meets another cause rewrites REASON, with no entry and no event (DESIGN CHOICE [93]). -/
def execFetchFaultRetry (part q : Nat) (s : State) : Host.Outcome State Fault Refusal :=
  .next (match s.part? part with
    | none => s
    | some p =>
      match p.queue? q with
      | none => s
      | some x =>
        if x.st != .fetchfault || x.byHost || 16 ≤ x.retries then s
        else
          match retryMeets s p x with
          | .parks reason => putQueue s part { x with retries := x.retries + 1, reason := reason }
          | .waits => s
          | .goes => putQueue s part { x with st := .active, retries := 0 })

end Sys2Proof.Machine
end

