-- ==== Sys2Proof/Machine/Front.lean ====
section
/-! DEFINITION. What a fragment issues in a step, and its faults at fetch (R54, R101, R119, R143, R156, R284, R285, R414). -/
namespace Sys2Proof.Machine

/-- A fetch that fails as a fragment enters a trace: page-fault service takes its place where the partition has it (R143). -/
def entryFetchFault (s : State) (g : Group) (n : Node) (fault : Nat) : State :=
  if faultCause fault != 0 && pageAssisted s g && g.landing.isNone then
    match raiseService s g.part g.uid
        { class_ := 1, access := 3, cause := faultCause fault, who := whoOf g, addr := faultAddr fault,
          count := (lanesOf n.mask).length, serial := g.serial } with
    | (s1, t) => s1.setGroup (g.setNode { n with st := .service t (s63Of 5 3 51 0) 4 })
  else entryFault s g n fault

/-- Fetch for fragment n of group g (R101, R119, R143, R414). -/
def fetchFor (s : State) (gid nix : Nat) : Fetched :=
  match s.group? gid with
  | none => .idle
  | some g =>
    match g.node? nix with
    | none => .idle
    | some n =>
      if !n.leaf || !canIssue s g n then .idle
      else
        match n.ctx with
        | none =>
          if n.trace % 4 ≠ 0 ∨ 2 ^ 55 ≤ n.trace then .fault (entryFault s g n 48)
          else if wordsHeld s g [] n.trace then .idle
          else
            let s1 := seeWords s g [] n.trace
            (match fetchWords s1 g [] n.trace with
             | .error e => .fault (entryFetchFault s1 g n e)
             | .ok ws => .instr s1 (instrOf ws))
        | some c =>
          if c.term.isSome || c.emul.isSome then .idle
          else if c.lastIx < c.ix then .fault (groupFault s g n c 48)
          else if wordsHeld s g c.fetched c.pc then .idle
          else
            let s1 := seeWords s g c.fetched c.pc
            match fetchWords s1 g c.fetched c.pc with
            | .error e => .fault (groupFault s1 g n c e)
            | .ok ws =>
              .instr (putCtx s1 g n { c with fetched := keepLines s1 g c.pc ws.length c.fetched }) (instrOf ws)

end Sys2Proof.Machine
end

