-- ==== Sys2Proof/Machine/Operands.lean ====
section
/-! DEFINITION. Operand forms of compute instructions: register fields (Table 11.4), inline constants and literals (R261,
R268), blocks (R114, R264, R314), predicates (R263), typed reads and writes (R275), and the checks of R113 with code 6. -/
namespace Sys2Proof
namespace Machine

/-- What a source field names (Table 11.4, Table 11.6). -/
inductive Src where
  | v (r : Nat) | bcast (r : Nat) | s (r : Nat) | k (n : Nat) | lit (w : Word) | bad
  deriving DecidableEq, Repr, Inhabited

/-- A source field by U and its AK or BK. -/
def srcOf (u key : Bool) (f : Nat) : Src :=
  if u then (if f < 64 then .s f else if f < 128 then .k (f - 64) else .bad)
  else if key then
    (if f < 64 then .s f else if f < 128 then .k (f - 64) else if f < 320 then .bcast (f - 128)
     else if f < 448 then .bcast (f - 128) else .bad)
  else if f < 320 then .v f else .bad

end Machine

open Machine

def LOp.srcA (o : LOp) : Src := srcOf o.u o.ak o.a.toNat
/-- B, or the literal that stands in its place. -/
def LOp.srcB (o : LOp) : Src :=
  match o.w2 with
  | some w => .lit w
  | none => srcOf o.u o.bk o.b.toNat
/-- C of the X-form; with U = 1 it is read as the other scalar operands are (DEDUCED [11]). -/
def LOp.srcC (o : LOp) : Src :=
  match o.w2 with
  | some w => srcOf o.u false (w.toNat % 512)
  | none => .bad

/-- A block instruction: more than one element. -/
def LOp.isBlk (o : LOp) : Bool := o.bw != 0 || o.bh != 0
def LOp.blkW (o : LOp) : Nat := 2 ^ o.bw.toNat
def LOp.blkH (o : LOp) : Nat := 2 ^ o.bh.toNat
def LOp.blkT (o : LOp) : Nat := if o.bs = 0 then o.blkW else o.bs.toNat

/-- Register offsets of a block in row-major order; `even` keeps the even columns (R114, R314). -/
def LOp.offs (o : LOp) (even : Bool) : List Nat :=
  if o.isBlk then
    (List.range o.blkH).flatMap fun i =>
      ((List.range o.blkW).filter fun j => !even || j % 2 == 0).map fun j => i * o.blkT + j
  else [0]

end Sys2Proof

namespace Sys2Proof.Machine

/-- The L-form instruction that an S-form instruction is (R260); `mod` is the MOD that R260 gives. -/
def sToL (o : SOp) (mod : Nat) : LOp :=
  { u := o.u, d := o.d.setWidth 9, a := o.a.setWidth 9, sub := 0, b := o.b.setWidth 9, bw := 0, bh := 0, bs := 0,
    ps := 15, pm := 0, ak := false, bk := false, mod := BitVec.ofNat 6 mod, w2 := none }

/-- Words of an L- or X-form instruction. -/
def lenWords (w2 : Option Word) : Nat := if w2.isSome then 3 else 2

/-- How an operand's image is read (R275, R261, R268). -/
inductive Kd where
  /-- an integer of the type code of Table 11.5 -/
  | int (ty : Nat)
  /-- one 32-bit register, unsigned, whatever the type (R314) -/
  | raw
  | flt (f : Fmt)
  | iv32
  | iv16
  deriving DecidableEq, Repr, Inhabited

/-- Width and signedness of an ITYPE (Table 11.5). -/
def tyWidth (ty : Nat) : Nat := if ty < 2 then 32 else if ty < 4 then 64 else if ty < 6 then 16 else 8
def tySigned (ty : Nat) : Bool := ty % 2 == 0
def tyMin (ty : Nat) : Int := if tySigned ty then -(2 ^ (tyWidth ty - 1) : Int) else 0
def tyMax (ty : Nat) : Int := if tySigned ty then 2 ^ (tyWidth ty - 1) - 1 else 2 ^ tyWidth ty - 1

/-- The operand is an even/odd pair (R113). -/
def Kd.pair : Kd → Bool
  | .int ty => tyWidth ty == 64
  | .iv32 => true
  | _ => false

/-- Image of an inline constant (R261); an 8-bit floating-point source, which R261 does not name, takes n as its register image
(DEDUCED [43]). -/
def Kd.const : Kd → Nat → Nat
  | .int _, n => n
  | .raw, n => n
  | .flt f, n => if f.ebits + f.mbits = 7 then n else (fofInt f 0 false n 0).1
  | .iv32, n => let x := (fofInt fp32 0 false n 0).1; x + x * 2 ^ 32
  | .iv16, n => let x := (fofInt fp16 0 false n 0).1; x + x * 2 ^ 16

/-- Image of a literal (R268). -/
def Kd.lit : Kd → Word → Nat
  | .int ty, w => if tyWidth ty = 64 ∧ tySigned ty then (w.signExtend 64).toNat else w.toNat
  | .raw, w => w.toNat
  | .flt _, w => w.toNat
  | .iv32, w => w.toNat + w.toNat * 2 ^ 32
  | .iv16, w => w.toNat

/-- Two registers as a 64-bit image, low word even. -/
def pairOf (lo hi : Word) : Nat := lo.toNat + hi.toNat * 2 ^ 32

/-- The image of a source in a lane at a block offset. -/
def readSrc (g : Group) (n : Node) (lane : Nat) (kd : Kd) (src : Src) (off : Nat) : Nat :=
  let vr := fun r => if kd.pair then pairOf (g.rv lane r) (g.rv lane (r + 1)) else (g.rv lane r).toNat
  match src with
  | .v r => vr (r + off)
  | .bcast r => vr r
  | .s r => if kd.pair then pairOf (readS g n r) (readS g n (r + 1)) else (readS g n r).toNat
  | .k x => kd.const x
  | .lit w => kd.lit w
  | .bad => 0

/-- The integer of an image (R275, R316). -/
def intOf (ty img : Nat) : Int := if tySigned ty then sext img (tyWidth ty) else ((img % 2 ^ tyWidth ty : Nat) : Int)

/-- The register image of an integer result: Trunc to W, then R275's extension to the register or pair. -/
def intImg (ty : Nat) (x : Int) : Nat :=
  let w := tyWidth ty
  let t := trunc x w
  if w = 64 then t
  else if tySigned ty then trunc (sext t w) 32 else t

/-- Clamp under SAT, then the image (R316). -/
def intRes (ty : Nat) (sat : Bool) (x : Int) : Nat := intImg ty (if sat then clampInt x (tyMin ty) (tyMax ty) else x)

/-! ### Checks -/

/-- A source operand is legal (R113, R114, R263): false is code 6. -/
def srcOk (nregs : Nat) (kd : Kd) (offs : List Nat) (src : Src) : Bool :=
  let top := if kd.pair then 1 else 0
  match src with
  | .v r => (!kd.pair || r % 2 == 0) && offs.all fun o => r + o + top < nregs
  | .bcast r => (!kd.pair || r % 2 == 0) && r + top < nregs
  | .s r => !kd.pair || r % 2 == 0
  | .k _ => true
  | .lit _ => true
  | .bad => false

/-- A destination register or block is legal (Table 11.4). -/
def dstOk (u : Bool) (nregs : Nat) (pair : Bool) (offs : List Nat) (d : Nat) : Bool :=
  let top := if pair then 1 else 0
  (!pair || d % 2 == 0) && (if u then d + top < 64 else offs.all fun o => d + o + top < nregs)

/-- Two blocks are identical or disjoint (R264). -/
def blocksOk (offs : List Nat) (bases : List Nat) : Bool :=
  bases.all fun x => bases.all fun y => x == y || offs.all fun i => offs.all fun j => x + i != y + j

/-- A predicate field (R263). -/
def predOk (d : Nat) : Bool := d < 16

/-- Scalars that a source reads. -/
def Src.scalars (kd : Kd) : Src → List Nat
  | .s r => if kd.pair then [r, r + 1] else [r]
  | _ => []
/-- Vector registers that a source reads. -/
def Src.vectors (kd : Kd) (offs : List Nat) : Src → List Nat
  | .v r => offs.flatMap fun o => if kd.pair then [r + o, r + o + 1] else [r + o]
  | .bcast r => if kd.pair then [r, r + 1] else [r]
  | _ => []

/-! ### The builder of element-wise compute instructions -/

/-- What one element gives. -/
structure EltOut where
  code : Nat
  flags : Nat
  img : Nat
  deriving DecidableEq, Repr, Inhabited

def EltOut.val (x : Nat) : EltOut := { code := 0, flags := 0, img := x }
def EltOut.fp (r : Nat × Nat) : EltOut := { code := 0, flags := r.2, img := r.1 }

/-- Where an element's result goes. -/
inductive DstKd where
  /-- a register or a pair at D -/
  | reg (pair : Bool)
  /-- the predicate that D names -/
  | pred
  deriving DecidableEq, Repr, Inhabited

/-- An element-wise instruction: how each operand is read (none: the opcode has no such operand), and the function of the
images a, b, c and the old D. -/
structure Comp where
  a : Option Kd
  b : Option Kd
  c : Option Kd
  dst : DstKd
  /-- D is read first (BFI) -/
  readD : Bool
  /-- FMODE is read: rounding or traps (R211, R212) -/
  fp : Bool
  f : Word → Nat → Nat → Nat → Nat → EltOut

/-- The instruction works on pairs: its elements are the even columns (R314). -/
def Comp.paired (k : Comp) : Bool :=
  (match k.a with
   | some x => x.pair
   | none => false) || (match k.b with
   | some x => x.pair
   | none => false) || (match k.dst with
   | .reg p => p
   | .pred => false)

/-- B of an element-wise instruction: its register field where word 2 holds C, else as `LOp.srcB` reads it (Table 11.6). -/
def Comp.srcB (k : Comp) (o : LOp) : Src := if k.c.isSome then srcOf o.u o.bk o.b.toNat else o.srcB

/-- Write an element's image to D. -/
def dstWrites (u : Bool) (lane d off : Nat) (pair : Bool) (img : Nat) : List (RegRef × Word) :=
  let w := fun k => BitVec.ofNat 32 (img / 2 ^ (32 * k))
  if u then (if pair then [(.s d, w 0), (.s (d + 1), w 1)] else [(.s d, w 0)])
  else if pair then [(.v lane (d + off), w 0), (.v lane (d + off + 1), w 1)]
  else [(.v lane (d + off), w 0)]

/-- The code-6 checks of an element-wise instruction. -/
def Comp.check (k : Comp) (o : LOp) (nregs : Nat) : Nat :=
  let offs := o.offs k.paired
  let src := fun (x : Option Kd) (s : Src) => match x with
    | some kd => srcOk nregs kd offs s
    | none => true
  let okD := match k.dst with
    | .reg p => dstOk o.u nregs p offs o.d.toNat
    | .pred => predOk o.d.toNat
  let base := fun (x : Option Kd) (s : Src) => match x, s with
    | some _, .v r => [r]
    | _, _ => []
  let bases := (match k.dst with
    | .reg _ => if o.u then [] else [o.d.toNat]
    | .pred => []) ++ base k.a o.srcA ++ base k.b (k.srcB o) ++ base k.c o.srcC
  let okShape := !(o.isBlk && k.paired) || (o.blkW % 2 == 0 && o.blkT % 2 == 0)
  if okD && src k.a o.srcA && src k.b (k.srcB o) && src k.c o.srcC && okShape && (!o.isBlk || blocksOk (o.offs false) bases)
  then 0 else 6

/-- Vector registers written. -/
def Comp.dstRegs (k : Comp) (o : LOp) : List Nat :=
  match k.dst with
  | .reg p => if o.u then [] else (o.offs k.paired).flatMap fun x =>
      if p then [o.d.toNat + x, o.d.toNat + x + 1] else [o.d.toNat + x]
  | .pred => []

/-- Registers an element-wise instruction uses. -/
def Comp.use (k : Comp) (o : LOp) : Use :=
  let offs := o.offs k.paired
  let sv := fun (x : Option Kd) (s : Src) => match x with
    | some kd => s.vectors kd offs
    | none => []
  let ss := fun (x : Option Kd) (s : Src) => match x with
    | some kd => s.scalars kd
    | none => []
  let d := o.d.toNat
  { sr := ss k.a o.srcA ++ ss k.b (k.srcB o) ++ ss k.c o.srcC ++
      (match k.dst with
       | .reg p => if o.u then (if p then [d, d + 1] else [d]) else []
       | .pred => []) ++ (if k.fp then [regFmode] else []),
    ws := match k.dst with
      | .reg p => if o.u && !k.readD then (if p then [d, d + 1] else [d]) else []
      | .pred => [],
    vr := sv k.a o.srcA ++ sv k.b (k.srcB o) ++ sv k.c o.srcC ++ (if k.readD then k.dstRegs o else []) ++ k.dstRegs o,
    pr := o.ps.toNat :: (match k.dst with
      | .pred => [d]
      | .reg _ => []),
    pdg := false, extra := 0 }

/-- One element in one lane. -/
def Comp.elt (k : Comp) (o : LOp) (g : Group) (n : Node) (lane off : Nat) : EltOut :=
  let rd := fun (x : Option Kd) (s : Src) => match x with
    | some kd => readSrc g n lane kd s off
    | none => 0
  let old := if k.readD then
      (match k.dst with
       | .reg p => readSrc g n lane (if p then .int 3 else .raw) (if o.u then .s o.d.toNat else .v o.d.toNat) off
       | .pred => 0) else 0
  k.f g.fmode (rd k.a o.srcA) (rd k.b (k.srcB o)) (rd k.c o.srcC) old

/-- The whole lane: every element from the values before the instruction; the first element's fault counts, flags join. -/
def Comp.lane (k : Comp) (o : LOp) (g : Group) (n : Node) (c : Ctx) (lane : Nat) : LaneOut :=
  let outs := (o.offs k.paired).map fun off => (off, k.elt o g n lane off)
  { code := outs.foldl (fun a x => if a = 0 then x.2.code else a) 0,
    flags := outs.foldl (fun a x => a ||| x.2.flags) 0,
    w := outs.flatMap fun x => match k.dst with
      | .reg p => dstWrites o.u lane o.d.toNat x.1 p x.2.img
      | .pred =>
        if o.u then (lanesOf c.active).map fun l => (.p l o.d.toNat, BitVec.ofNat 32 x.2.img)
        else [(.p lane o.d.toNat, BitVec.ofNat 32 x.2.img)],
    pdg := none }

/-- The instruction for `laneOp`. -/
def Comp.spec (k : Comp) (o : LOp) (words nregs : Nat) : LaneSpec :=
  { words := words, uni := o.u, ps := o.ps.toNat, pm := o.pm.toNat, use := k.use o, dst := k.dstRegs o,
    chk := k.check o nregs, quad := false, noMethod := false, body := k.lane o,
    pdst := match k.dst with
      | .reg _ => []
      | .pred => if o.u then [] else [o.d.toNat] }

/-- Registers of the issuing group (R113). -/
def curNregs (s : State) : Nat :=
  match curFrame s with
  | some (g, _) => g.nregs
  | none => 0

/-- Run an element-wise compute instruction. -/
def compOp (k : Comp) (o : LOp) (words : Nat) (s : State) : Host.Outcome State Fault Refusal :=
  laneOp (k.spec o words (curNregs s)) s

end Sys2Proof.Machine
end

