-- ==== Sys2Proof/Machine/Integer.lean ====
section
/-! DEFINITION. Integer and address instructions (R313 to R323). -/
namespace Sys2Proof

/-- ITYPE and SAT of MOD layout I (Table 11.5). -/
def LOp.ity (o : LOp) : Nat := o.mod.toNat / 8
def LOp.isSat (o : LOp) : Bool := o.mod.toNat / 4 % 2 == 1
/-- The type's values are pairs. -/
def LOp.ity64 (o : LOp) : Bool := Machine.tyWidth o.ity == 64

end Sys2Proof

namespace Sys2Proof.Machine

/-- Type codes `.i32` and `.n32` as MOD values of layout I. -/
def modI32 : Nat := 0
def modN32 : Nat := 8

/-- A two-source integer instruction: exact result of the two integers (R316). -/
def intBin (o : LOp) (f : Int → Int → Int) : Comp :=
  { a := some (.int o.ity), b := some (.int o.ity), c := none, dst := .reg o.ity64, readD := false, fp := false,
    f := fun _ a b _ _ => .val (intRes o.ity o.isSat (f (intOf o.ity a) (intOf o.ity b))) }

/-- A one-source integer instruction (R316). -/
def intUn (o : LOp) (f : Int → Int) : Comp :=
  { a := some (.int o.ity), b := none, c := none, dst := .reg o.ity64, readD := false, fp := false,
    f := fun _ a _ _ _ => .val (intRes o.ity o.isSat (f (intOf o.ity a))) }

/-- A three-source integer instruction (R316). -/
def intTern (o : LOp) (f : Int → Int → Int → Int) : Comp :=
  { a := some (.int o.ity), b := some (.int o.ity), c := some (.int o.ity), dst := .reg o.ity64, readD := false, fp := false,
    f := fun _ a b c _ => .val (intRes o.ity o.isSat (f (intOf o.ity a) (intOf o.ity b) (intOf o.ity c))) }

/-- The W-bit image of a source. -/
def wImg (o : LOp) (x : Nat) : Nat := x % 2 ^ tyWidth o.ity

/-- A bitwise instruction on images. -/
def bitBin (o : LOp) (f : Nat → Nat → Nat) : Comp :=
  { a := some (.int o.ity), b := some (.int o.ity), c := none, dst := .reg o.ity64, readD := false, fp := false,
    f := fun _ a b _ _ => .val (intImg o.ity ((f (wImg o a) (wImg o b) : Nat) : Int)) }

/-- A shift: B is one register per element, whatever the type (R314, R318). -/
def shiftBin (o : LOp) (f : Nat → Nat → Nat) : Comp :=
  { a := some (.int o.ity), b := some .raw, c := none, dst := .reg o.ity64, readD := false, fp := false,
    f := fun _ a b _ _ => .val (f a b) }

/-- A count of the image's bits, written to one register (R314, R315). -/
def countUn (o : LOp) (f : Nat → Nat) : Comp :=
  { a := some (.int o.ity), b := none, c := none, dst := .reg false, readD := false, fp := false,
    f := fun _ a _ _ _ => .val (f (wImg o a)) }

/-- IADD: a + b (R315, R316). -/
def kIadd (o : LOp) : Comp := intBin o (· + ·)
/-- IADD: a + b (R315, R316). -/
def execIadd (o : LOp) (s : State) : Host.Outcome State Fault Refusal :=
  compOp (kIadd o) o (lenWords o.w2) s
/-- The S-form of IADD: (R260). -/
def execIaddS (o : SOp) (s : State) : Host.Outcome State Fault Refusal :=
  compOp (kIadd (sToL o modI32)) (sToL o modI32) 1 s

/-- ISUB: a − b (R315, R316). -/
def kIsub (o : LOp) : Comp := intBin o (· - ·)
/-- ISUB: a − b (R315, R316). -/
def execIsub (o : LOp) (s : State) : Host.Outcome State Fault Refusal :=
  compOp (kIsub o) o (lenWords o.w2) s
/-- The S-form of ISUB: (R260). -/
def execIsubS (o : SOp) (s : State) : Host.Outcome State Fault Refusal :=
  compOp (kIsub (sToL o modI32)) (sToL o modI32) 1 s

/-- IMUL: a × b (R315, R316). -/
def kImul (o : LOp) : Comp := intBin o (· * ·)
/-- IMUL: a × b (R315, R316). -/
def execImul (o : LOp) (s : State) : Host.Outcome State Fault Refusal :=
  compOp (kImul o) o (lenWords o.w2) s
/-- The S-form of IMUL: (R260). -/
def execImulS (o : SOp) (s : State) : Host.Outcome State Fault Refusal :=
  compOp (kImul (sToL o modI32)) (sToL o modI32) 1 s

/-- IMULH: floor(a × b ÷ 2^W) (R315, R316). -/
def kImulh (o : LOp) : Comp := intBin o fun a b => floorShift (a * b) (tyWidth o.ity)
/-- IMULH: floor(a × b ÷ 2^W) (R315, R316). -/
def execImulh (o : LOp) (s : State) : Host.Outcome State Fault Refusal :=
  compOp (kImulh o) o (lenWords o.w2) s
/-- The S-form of IMULH: (R260). -/
def execImulhS (o : SOp) (s : State) : Host.Outcome State Fault Refusal :=
  compOp (kImulh (sToL o (if o.x then modN32 else modI32))) (sToL o (if o.x then modN32 else modI32)) 1 s

/-- IMAD: a × b + c (R315, R316). -/
def kImad (o : LOp) : Comp := intTern o fun a b c => a * b + c
/-- IMAD: a × b + c (R315, R316). -/
def execImad (o : LOp) (s : State) : Host.Outcome State Fault Refusal :=
  compOp (kImad o) o (lenWords o.w2) s

/-- IMIN: min(a, b) (R315, R316). -/
def kImin (o : LOp) : Comp := intBin o min
/-- IMIN: min(a, b) (R315, R316). -/
def execImin (o : LOp) (s : State) : Host.Outcome State Fault Refusal :=
  compOp (kImin o) o (lenWords o.w2) s
/-- The S-form of IMIN: (R260). -/
def execIminS (o : SOp) (s : State) : Host.Outcome State Fault Refusal :=
  compOp (kImin (sToL o (if o.x then modN32 else modI32))) (sToL o (if o.x then modN32 else modI32)) 1 s

/-- IMAX: max(a, b) (R315, R316). -/
def kImax (o : LOp) : Comp := intBin o max
/-- IMAX: max(a, b) (R315, R316). -/
def execImax (o : LOp) (s : State) : Host.Outcome State Fault Refusal :=
  compOp (kImax o) o (lenWords o.w2) s
/-- The S-form of IMAX: (R260). -/
def execImaxS (o : SOp) (s : State) : Host.Outcome State Fault Refusal :=
  compOp (kImax (sToL o (if o.x then modN32 else modI32))) (sToL o (if o.x then modN32 else modI32)) 1 s

/-- IABS: |a| (R315, R316). -/
def kIabs (o : LOp) : Comp := intUn o fun a => (a.natAbs : Int)
/-- IABS: |a| (R315, R316). -/
def execIabs (o : LOp) (s : State) : Host.Outcome State Fault Refusal :=
  compOp (kIabs o) o (lenWords o.w2) s
/-- The S-form of IABS: (R260). -/
def execIabsS (o : SOp) (s : State) : Host.Outcome State Fault Refusal :=
  compOp (kIabs (sToL o modI32)) (sToL o modI32) 1 s

/-- INEG: −a (R315, R316). -/
def kIneg (o : LOp) : Comp := intUn o (- ·)
/-- INEG: −a (R315, R316). -/
def execIneg (o : LOp) (s : State) : Host.Outcome State Fault Refusal :=
  compOp (kIneg o) o (lenWords o.w2) s
/-- The S-form of INEG: (R260). -/
def execInegS (o : SOp) (s : State) : Host.Outcome State Fault Refusal :=
  compOp (kIneg (sToL o modI32)) (sToL o modI32) 1 s

/-- AND: bitwise and (R315). -/
def kAnd (o : LOp) : Comp := bitBin o (· &&& ·)
/-- AND: bitwise and (R315). -/
def execAnd (o : LOp) (s : State) : Host.Outcome State Fault Refusal :=
  compOp (kAnd o) o (lenWords o.w2) s
/-- The S-form of AND: (R260). -/
def execAndS (o : SOp) (s : State) : Host.Outcome State Fault Refusal :=
  compOp (kAnd (sToL o modI32)) (sToL o modI32) 1 s

/-- OR: bitwise or (R315). -/
def kOr (o : LOp) : Comp := bitBin o (· ||| ·)
/-- OR: bitwise or (R315). -/
def execOr (o : LOp) (s : State) : Host.Outcome State Fault Refusal :=
  compOp (kOr o) o (lenWords o.w2) s
/-- The S-form of OR: (R260). -/
def execOrS (o : SOp) (s : State) : Host.Outcome State Fault Refusal :=
  compOp (kOr (sToL o modI32)) (sToL o modI32) 1 s

/-- XOR: bitwise exclusive or (R315). -/
def kXor (o : LOp) : Comp := bitBin o (· ^^^ ·)
/-- XOR: bitwise exclusive or (R315). -/
def execXor (o : LOp) (s : State) : Host.Outcome State Fault Refusal :=
  compOp (kXor o) o (lenWords o.w2) s
/-- The S-form of XOR: (R260). -/
def execXorS (o : SOp) (s : State) : Host.Outcome State Fault Refusal :=
  compOp (kXor (sToL o modI32)) (sToL o modI32) 1 s

/-- ANDN: a AND NOT b (R315). -/
def kAndn (o : LOp) : Comp := bitBin o fun a b => a &&& (2 ^ tyWidth o.ity - 1 - b)
/-- ANDN: a AND NOT b (R315). -/
def execAndn (o : LOp) (s : State) : Host.Outcome State Fault Refusal :=
  compOp (kAndn o) o (lenWords o.w2) s
/-- The S-form of ANDN: (R260). -/
def execAndnS (o : SOp) (s : State) : Host.Outcome State Fault Refusal :=
  compOp (kAndn (sToL o modI32)) (sToL o modI32) 1 s

/-- NOT: bitwise complement (R315). -/
def kNot (o : LOp) : Comp := intUn o fun a => -a - 1
/-- NOT: bitwise complement (R315). -/
def execNot (o : LOp) (s : State) : Host.Outcome State Fault Refusal :=
  compOp (kNot o) o (lenWords o.w2) s
/-- The S-form of NOT: (R260). -/
def execNotS (o : SOp) (s : State) : Host.Outcome State Fault Refusal :=
  compOp (kNot (sToL o modI32)) (sToL o modI32) 1 s

/-- SHL: a × 2^c, clamped under `.sat` (R318). -/
def kShl (o : LOp) : Comp := shiftBin o fun a c => intRes o.ity o.isSat (intOf o.ity a * 2 ^ min c 64)
/-- SHL: a × 2^c, clamped under `.sat` (R318). -/
def execShl (o : LOp) (s : State) : Host.Outcome State Fault Refusal :=
  compOp (kShl o) o (lenWords o.w2) s
/-- The S-form of SHL: (R260). -/
def execShlS (o : SOp) (s : State) : Host.Outcome State Fault Refusal :=
  compOp (kShl (sToL o modI32)) (sToL o modI32) 1 s

/-- SHR: zeros in from the top (R318). -/
def kShr (o : LOp) : Comp := shiftBin o fun a c => intImg o.ity ((wImg o a >>> min c 64 : Nat) : Int)
/-- SHR: zeros in from the top (R318). -/
def execShr (o : LOp) (s : State) : Host.Outcome State Fault Refusal :=
  compOp (kShr o) o (lenWords o.w2) s
/-- The S-form of SHR: (R260). -/
def execShrS (o : SOp) (s : State) : Host.Outcome State Fault Refusal :=
  compOp (kShr (sToL o modI32)) (sToL o modI32) 1 s

/-- SAR: copies of bit W − 1 in from the top (R318). -/
def kSar (o : LOp) : Comp := shiftBin o fun a c => intImg o.ity (floorShift (sext a (tyWidth o.ity)) (min c (tyWidth o.ity - 1)))
/-- SAR: copies of bit W − 1 in from the top (R318). -/
def execSar (o : LOp) (s : State) : Host.Outcome State Fault Refusal :=
  compOp (kSar o) o (lenWords o.w2) s
/-- The S-form of SAR: (R260). -/
def execSarS (o : SOp) (s : State) : Host.Outcome State Fault Refusal :=
  compOp (kSar (sToL o modI32)) (sToL o modI32) 1 s

/-- ROT: rotation left by c mod W (R318). -/
def kRot (o : LOp) : Comp := shiftBin o fun a c =>
  let wd := tyWidth o.ity
  let r := c % wd
  intImg o.ity (((wImg o a * 2 ^ r) % 2 ^ wd + wImg o a / 2 ^ (wd - r) : Nat) : Int)
/-- ROT: rotation left by c mod W (R318). -/
def execRot (o : LOp) (s : State) : Host.Outcome State Fault Refusal :=
  compOp (kRot o) o (lenWords o.w2) s
/-- The S-form of ROT: (R260). -/
def execRotS (o : SOp) (s : State) : Host.Outcome State Fault Refusal :=
  compOp (kRot (sToL o modI32)) (sToL o modI32) 1 s

/-- Width of a field of BFE and BFI: 0 where it is empty (R319). -/
def fieldWidth (wd off wid : Nat) : Nat := if wd ≤ off then 0 else min wid (wd - off)

/-- BFE: a field extracted (R319). -/
def kBfe (o : LOp) : Comp := 
  { a := some (.int o.ity), b := some .raw, c := some .raw, dst := .reg o.ity64, readD := false, fp := false,
    f := fun _ a off wid _ =>
      let n := fieldWidth (tyWidth o.ity) off wid
      let x := wImg o a / 2 ^ min off 64 % 2 ^ n
      .val (if n = 0 then 0 else intImg o.ity (if tySigned o.ity then sext x n else (x : Int))) }
/-- BFE: a field extracted (R319). -/
def execBfe (o : LOp) (s : State) : Host.Outcome State Fault Refusal :=
  compOp (kBfe o) o (lenWords o.w2) s

/-- BFI: a field inserted into D (R319). -/
def kBfi (o : LOp) : Comp := 
  { a := some (.int o.ity), b := some .raw, c := some .raw, dst := .reg o.ity64, readD := true, fp := false,
    f := fun _ a off wid d =>
      let n := fieldWidth (tyWidth o.ity) off wid
      let k := min off 64
      let low := d % 2 ^ k
      let mid := wImg o a % 2 ^ n
      let high := d / 2 ^ (k + n)
      .val (if n = 0 then d else low + mid * 2 ^ k + high * 2 ^ (k + n)) }
/-- BFI: a field inserted into D (R319). -/
def execBfi (o : LOp) (s : State) : Host.Outcome State Fault Refusal :=
  compOp (kBfi o) o (lenWords o.w2) s

/-- POPC: number of one bits (R315). -/
def kPopc (o : LOp) : Comp := countUn o (popCount (tyWidth o.ity))
/-- POPC: number of one bits (R315). -/
def execPopc (o : LOp) (s : State) : Host.Outcome State Fault Refusal :=
  compOp (kPopc o) o (lenWords o.w2) s
/-- The S-form of POPC: (R260). -/
def execPopcS (o : SOp) (s : State) : Host.Outcome State Fault Refusal :=
  compOp (kPopc (sToL o modI32)) (sToL o modI32) 1 s

/-- CLZ: leading zero bits (R315). -/
def kClz (o : LOp) : Comp := countUn o (leadZeros (tyWidth o.ity))
/-- CLZ: leading zero bits (R315). -/
def execClz (o : LOp) (s : State) : Host.Outcome State Fault Refusal :=
  compOp (kClz o) o (lenWords o.w2) s
/-- The S-form of CLZ: (R260). -/
def execClzS (o : SOp) (s : State) : Host.Outcome State Fault Refusal :=
  compOp (kClz (sToL o modI32)) (sToL o modI32) 1 s

/-- BREV: bit i moved to bit W − 1 − i (R315). -/
def kBrev (o : LOp) : Comp := 
  { a := some (.int o.ity), b := none, c := none, dst := .reg o.ity64, readD := false, fp := false,
    f := fun _ a _ _ _ => .val (bitReverse (tyWidth o.ity) (wImg o a)) }
/-- BREV: bit i moved to bit W − 1 − i (R315). -/
def execBrev (o : LOp) (s : State) : Host.Outcome State Fault Refusal :=
  compOp (kBrev o) o (lenWords o.w2) s
/-- The S-form of BREV: (R260). -/
def execBrevS (o : SOp) (s : State) : Host.Outcome State Fault Refusal :=
  compOp (kBrev (sToL o modI32)) (sToL o modI32) 1 s

/-- The relations of ICMP (R320). -/
def relHolds (rel : Nat) (a b : Int) : Bool :=
  match rel with
  | 0 => a == b
  | 1 => a != b
  | 2 => a < b
  | 3 => a ≤ b
  | 4 => b < a
  | _ => b ≤ a

/-- ICMP.rel: T where the relation holds, else F (R320). -/
def kIcmp (o : LOp) : Comp := 
  { a := some (.int o.ity), b := some (.int o.ity), c := none, dst := .pred, readD := false, fp := false,
    f := fun _ a b _ _ => .val (if relHolds o.sub.toNat (intOf o.ity a) (intOf o.ity b) then 1 else 0) }
/-- ICMP.rel: T where the relation holds, else F (R320). -/
def execIcmp (o : LOp) (s : State) : Host.Outcome State Fault Refusal :=
  compOp (kIcmp o) o (lenWords o.w2) s

/-- LEA: base + index × 2^sh (R322). -/
def kLea (o : LOp) : Comp := 
  { a := some (.int 3), b := some (.int o.ity), c := none, dst := .reg true, readD := false, fp := false,
    f := fun _ a b _ _ => .val (trunc ((a : Int) + intOf o.ity b * 2 ^ o.sub.toNat) 64) }
/-- LEA: base + index × 2^sh (R322). -/
def execLea (o : LOp) (s : State) : Host.Outcome State Fault Refusal :=
  compOp (kLea o) o (lenWords o.w2) s

/-- MOV: a, read as the type (R323). -/
def kMov (o : LOp) : Comp := intUn o id
/-- MOV: a, read as the type (R323). -/
def execMov (o : LOp) (s : State) : Host.Outcome State Fault Refusal :=
  compOp (kMov o) o (lenWords o.w2) s
/-- The S-form of MOV: (R260). -/
def execMovS (o : SOp) (s : State) : Host.Outcome State Fault Refusal :=
  compOp (kMov (sToL o modI32)) (sToL o modI32) 1 s

/-- MOVI: the literal, read as the type (R323). -/
def kMovi (o : LOp) : Comp := 
  { a := none, b := some (.int o.ity), c := none, dst := .reg o.ity64, readD := false, fp := false,
    f := fun _ _ b _ _ => .val (intRes o.ity false (intOf o.ity b)) }
/-- MOVI: the literal, read as the type (R323). -/
def execMovi (o : LOp) (s : State) : Host.Outcome State Fault Refusal :=
  compOp (kMovi o) o (lenWords o.w2) s

/-- IADDC's operands (R317). -/
def kIaddc (o : LOp) : Comp := intBin o fun a b => a + b

/-- IADDC in one lane: the elements in block order, each with the carry of the one before (R317). -/
def iaddcLane (o : LOp) (g : Group) (n : Node) (lane : Nat) : LaneOut :=
  let k := kIaddc o
  let wd := tyWidth o.ity
  let r := (o.offs k.paired).foldl (fun (st : Nat × List (RegRef × Word)) off =>
    let x := wImg o (readSrc g n lane (.int o.ity) o.srcA off) + wImg o (readSrc g n lane (.int o.ity) o.srcB off) + st.1
    (x / 2 ^ wd, st.2 ++ dstWrites false lane o.d.toNat off o.ity64 (x % 2 ^ wd)))
    ((if g.rp lane o.sub.toNat = 1 then 1 else 0), [])
  .ofW (r.2 ++ [(.p lane o.sub.toNat, BitVec.ofNat 32 r.1)])

/-- IADDC vd, va, vb, pc (R317). -/
def iaddcSpec (o : LOp) (nr : Nat) : LaneSpec :=
  let d := (kIaddc o).spec o (lenWords o.w2) nr
  { d with use := { d.use with pr := o.sub.toNat :: d.use.pr }, body := fun g n _ lane => iaddcLane o g n lane,
           pdst := [o.sub.toNat] }
/-- IADDC (R317). -/
def execIaddc (o : LOp) (s : State) : Host.Outcome State Fault Refusal := laneOp (iaddcSpec o (curNregs s)) s

/-- SEL's operands: 32-bit copies (R321). -/
def kSel (pick : Bool) : Comp :=
  { a := some .raw, b := some .raw, c := none, dst := .reg false, readD := false, fp := false,
    f := fun _ a b _ _ => .val (if pick then a else b) }

/-- SEL vd, va, vb, pc (R321). -/
def selSpec (o : LOp) (nr : Nat) : LaneSpec :=
  let pc := o.mod.toNat % 16
  let d := (kSel true).spec o (lenWords o.w2) nr
  { d with
    use := { d.use with pr := pc :: d.use.pr },
    body := fun g n c lane =>
      let p := g.rp lane pc
      (kSel (if o.sub = 0 then p == 1 else p != 0)).lane o g n c lane }
/-- SEL (R321). -/
def execSel (o : LOp) (s : State) : Host.Outcome State Fault Refusal := laneOp (selSpec o (curNregs s)) s

end Sys2Proof.Machine
end

