-- ==== Sys2Proof/Machine/Special.lean ====
section
/-! DEFINITION. The special functions (R328, Table 13.4): each takes an FP32 input, forms the exact value of the function to
640 fractional bits with a tail, and rounds it once by RNE. DEDUCED [6]: 640 bits decide every rounding, since the values are
irrational outside the exact cases of Table 13.4, which are formed exactly. -/
namespace Sys2Proof.Machine

/-- Fractional bits of the fixed-point numbers here. -/
def fxBits : Nat := 640
/-- One. -/
def fxOne : Nat := 2 ^ fxBits
def fxMul (a b : Nat) : Nat := a * b / fxOne

/-- Terms t, t·x/k, t·x·x/(k(k+1)), ... summed: the exponential series from its k-th term. -/
def expSeries (x : Nat) : Nat → Nat → Nat → Nat → Nat
  | 0, _, _, acc => acc
  | n + 1, k, t, acc => let t' := fxMul t x / k; expSeries x n (k + 1) t' (acc + t')

/-- e^x for 0 ≤ x < 1. -/
def fxExp (x : Nat) : Nat := expSeries x 150 1 fxOne fxOne

/-- z + z³/3 + z⁵/5 + ... (atanh), given z and z². -/
def atanhSeries (z2 : Nat) : Nat → Nat → Nat → Nat → Nat
  | 0, _, _, acc => acc
  | n + 1, k, t, acc => let t' := fxMul t z2; atanhSeries z2 n (k + 2) t' (acc + t' / (k + 2))

/-- ln(p/q) for q ≤ p ≤ 2q, by 2·atanh((p − q)/(p + q)). -/
def fxLn (p q : Nat) : Nat :=
  let z := (p - q) * fxOne / (p + q)
  2 * atanhSeries (fxMul z z) 210 1 z z

def fxLn2 : Nat := fxLn 2 1

/-- arctan(1/n) with b fractional bits, by its alternating series. -/
def atanInv (n b : Nat) : Nat :=
  go (b / 2) 1 (2 ^ b / n) (2 ^ b / n : Nat)
where go : Nat → Nat → Nat → Int → Nat
  | 0, _, _, acc => acc.toNat
  | c + 1, k, t, acc =>
    let t' := t / (n * n)
    let d : Int := (t' / (2 * k + 1) : Nat)
    if t' = 0 then acc.toNat else go c (k + 1) t' (if k % 2 = 1 then acc - d else acc + d)

/-- Fractional bits of π: enough to reduce any FP32 number. -/
def piBits : Nat := 840
/-- π by Machin's formula. -/
def fxPi : Nat := 16 * atanInv 5 piBits - 4 * atanInv 239 piBits

/-- Alternating series of sine (k = 1) or cosine (k = 0): the terms after the first. -/
def trigSeries (x2 : Nat) : Nat → Nat → Nat → Bool → Int → Int
  | 0, _, _, _, acc => acc
  | n + 1, k, t, minus, acc =>
    let t' := fxMul t x2 / ((k + 1) * (k + 2))
    trigSeries x2 n (k + 2) t' (!minus) (if minus then acc - t' else acc + t')

/-- sin and cos of 0 ≤ x ≤ π/4. -/
def fxSin (x : Nat) : Int := trigSeries (fxMul x x) 75 1 x true x
def fxCos (x : Nat) : Int := trigSeries (fxMul x x) 75 0 fxOne true fxOne

/-- A fixed-point value as an exact irrational: floor and tail. -/
def fxExact (neg : Bool) (x : Nat) : Exact := { neg := neg, m := x, e := -(fxBits : Int), tail := true }

/-- |a| = m × 2^e, a nonzero, reduced modulo π/2: the quadrant and the rest at `fxBits`. -/
def piReduce (m : Nat) (e : Int) : Nat × Nat :=
  let x := if 0 ≤ e then m * 2 ^ e.toNat * 2 ^ piBits else m * 2 ^ piBits / 2 ^ (-e).toNat
  let half := fxPi / 2
  (x / half % 4, x % half / 2 ^ (piBits - fxBits))

/-- sin (phase 0) or cos (phase 1) of m × 2^e > 0: sin of the angle plus phase quarter turns. -/
def trigExact (neg : Bool) (m : Nat) (e : Int) (phase : Nat) : Exact :=
  let qr := piReduce m e
  let q := (qr.1 + phase) % 4
  let halfPi := fxPi / 2 / 2 ^ (piBits - fxBits)
  -- sin(r + q·π/2): even quadrants sine, odd ones cosine; above π/4 by the complement
  let useCos := q % 2 == 1
  let flip := fxOne * 3141 / 4000 < qr.2
  let y := if flip then halfPi - qr.2 else qr.2
  let v := if useCos != flip then fxCos y else fxSin y
  let minus := 2 ≤ q
  fxExact (minus != neg) v.toNat

/-- 2^a for a finite a (FEXP2). -/
def exp2Exact (neg : Bool) (m : Nat) (e : Int) : Exact :=
  let isInt := 0 ≤ e || m % 2 ^ (-e).toNat == 0
  if isInt then
    let n := if 0 ≤ e then m * 2 ^ (min e 200).toNat else m / 2 ^ (-e).toNat
    { neg := false, m := 1, e := if neg then -(n : Int) else n, tail := false }
  else
    -- e < 0: a = ±m / 2^k
    let k := (-e).toNat
    let n : Int := if neg then -(m / 2 ^ k : Nat) - 1 else (m / 2 ^ k : Nat)
    let fr := if neg then 2 ^ k - m % 2 ^ k else m % 2 ^ k
    let x := fxMul (fr * 2 ^ (fxBits - k)) fxLn2
    let r := fxExact false (fxExp x)
    { r with e := r.e + n }

/-- log₂ of m × 2^e > 0 that is no power of two (FLOG2). -/
def log2Exact (m : Nat) (e : Int) : Exact :=
  let l := bitLen m - 1
  let n : Int := e + l
  let x := fxLn m (2 ^ l) * fxOne / fxLn2
  let v : Int := n * fxOne + x
  { neg := v < 0, m := v.natAbs, e := -(fxBits : Int), tail := true }

/-- tanh of ±m × 2^e, m ≠ 0 (FTANH). -/
def tanhExact (neg : Bool) (m : Nat) (e : Int) : Exact :=
  if 7 ≤ e + bitLen m then { neg := neg, m := 2 ^ 64 - 1, e := -64, tail := true }
  else
    -- y = 2|a| < 128; e^y = 2^n · e^r
    let y := if 0 ≤ e + 1 then m * 2 ^ (e + 1).toNat * fxOne else m * fxOne / 2 ^ (-(e + 1)).toNat
    let n := y / fxLn2
    let ex := fxExp (y % fxLn2) * 2 ^ n
    fxExact neg ((ex - fxOne) * fxOne / (ex + fxOne))

/-- FRCP, FRSQ, FEXP2, FLOG2, FSIN, FCOS, FTANH. -/
inductive Spec1 where
  | rcp | rsq | exp2 | log2 | sin | cos | tanh
  deriving DecidableEq, Repr

/-- One special function on an FP32 image: FP32 image and flags (R328). -/
def special32 (s : Spec1) (sat : Bool) (a : Nat) : Nat × Nat :=
  let f := fp32
  match fdec f a with
  | .nan sg => (f.nanImg, if sg then flNV else 0)
  | .inf n =>
    match s with
    | .rcp => (f.sign n 0, 0)
    | .rsq => if n then finvalid f else (0, 0)
    | .exp2 => if n then (0, 0) else finf f sat false
    | .log2 => if n then finvalid f else (f.infImg, 0)
    | .sin => finvalid f
    | .cos => finvalid f
    | .tanh => (f.sign n 0x3F800000, 0)
  | .fin n m e =>
    if m = 0 then
      match s with
      | .rcp => (f.sign n f.infImg, flDZ)
      | .rsq => (f.sign n f.infImg, flDZ)
      | .exp2 => (0x3F800000, 0)
      | .log2 => (f.sign true f.infImg, flDZ)
      | .sin => (f.sign n 0, 0)
      | .cos => (0x3F800000, 0)
      | .tanh => (f.sign n 0, 0)
    else
      match s with
      | .rcp => fround f 0 false (divExact n 1 0 m e)
      | .rsq =>
        if n then finvalid f
        else
          let odd := e % 2 != 0
          let m' := if odd then 2 * m else m
          let e' := if odd then e - 1 else e
          let k := 64 + bitLen m'
          let r := isqrt (4 ^ k / m')
          fround f 0 false { neg := false, m := r, e := -(e' / 2) - k, tail := r * r * m' != 4 ^ k }
      | .exp2 => fround f 0 sat (exp2Exact n m e)
      | .log2 =>
        if n then finvalid f
        else if m = 2 ^ (bitLen m - 1) then fofInt f 0 false (e + bitLen m - 1) 0
        else fround f 0 false (log2Exact m e)
      | .sin => fround f 0 false (trigExact n m e 0)
      | .cos => fround f 0 false (trigExact false m e 1)
      | .tanh => fround f 0 false (tanhExact n m e)

/-- A special function in a format: FP16 and BF16 round the FP32 result again, and keep the flags of both (R328). -/
def special (s : Spec1) (f : Fmt) (sat : Bool) (a : Nat) : Nat × Nat :=
  if f = fp32 then special32 s sat a
  else
    let v := fdec f a
    let x := fcvt fp32 0 false v
    let r := special32 s false x.1
    let z := fcvt f 0 sat (fdec fp32 r.1)
    (z.1, (if v.isSnan then flNV else 0) ||| r.2 ||| z.2)

end Sys2Proof.Machine
end

