-- ==== Sys2Proof/Machine/Float.lean ====
section
/-! DEFINITION. Floating-point instructions and special functions (R324 to R328). -/
namespace Sys2Proof

/-- FTYPE and RSEL of MOD layout F (Table 11.5). -/
def LOp.fty (o : LOp) : Machine.Fmt := Machine.fmtOf (o.mod.toNat % 4)
/-- The rounding mode: FMODE.RM under selector 0 (R207). -/
def LOp.rm (o : LOp) (fmode : Word) : Nat := Machine.rmOf (Machine.fmodeRm fmode) (o.mod.toNat / 8)

end Sys2Proof

namespace Sys2Proof.Machine

/-- A floating-point instruction with two sources (R324). -/
def fltBin (o : LOp) (f : Fmt → Nat → Bool → Nat → Nat → Nat × Nat) : Comp :=
  { a := some (.flt o.fty), b := some (.flt o.fty), c := none, dst := .reg false, readD := false, fp := true,
    f := fun fm a b _ _ => .fp (f o.fty (o.rm fm) o.isSat a b) }
/-- With one source. -/
def fltUn (o : LOp) (f : Fmt → Nat → Bool → Nat → Nat × Nat) : Comp :=
  { a := some (.flt o.fty), b := none, c := none, dst := .reg false, readD := false, fp := true,
    f := fun fm a _ _ _ => .fp (f o.fty (o.rm fm) o.isSat a) }
/-- With three sources. -/
def fltTern (o : LOp) (f : Fmt → Nat → Bool → Nat → Nat → Nat → Nat × Nat) : Comp :=
  { a := some (.flt o.fty), b := some (.flt o.fty), c := some (.flt o.fty), dst := .reg false, readD := false, fp := true,
    f := fun fm a b c _ => .fp (f o.fty (o.rm fm) o.isSat a b c) }

/-- FADD: a + b (R324). -/
def kFadd (o : LOp) : Comp := fltBin o fadd
/-- FADD: a + b (R324). -/
def execFadd (o : LOp) (s : State) : Host.Outcome State Fault Refusal :=
  compOp (kFadd o) o (lenWords o.w2) s
/-- The S-form of FADD: (R260). -/
def execFaddS (o : SOp) (s : State) : Host.Outcome State Fault Refusal :=
  compOp (kFadd (sToL o 0)) (sToL o 0) 1 s

/-- FSUB: a − b (R324). -/
def kFsub (o : LOp) : Comp := fltBin o fsub
/-- FSUB: a − b (R324). -/
def execFsub (o : LOp) (s : State) : Host.Outcome State Fault Refusal :=
  compOp (kFsub o) o (lenWords o.w2) s
/-- The S-form of FSUB: (R260). -/
def execFsubS (o : SOp) (s : State) : Host.Outcome State Fault Refusal :=
  compOp (kFsub (sToL o 0)) (sToL o 0) 1 s

/-- FMUL: a × b (R324). -/
def kFmul (o : LOp) : Comp := fltBin o fmul
/-- FMUL: a × b (R324). -/
def execFmul (o : LOp) (s : State) : Host.Outcome State Fault Refusal :=
  compOp (kFmul o) o (lenWords o.w2) s
/-- The S-form of FMUL: (R260). -/
def execFmulS (o : SOp) (s : State) : Host.Outcome State Fault Refusal :=
  compOp (kFmul (sToL o 0)) (sToL o 0) 1 s

/-- FMULZ: a zero factor masks the other (R213). -/
def kFmulz (o : LOp) : Comp := fltBin o fmulz
/-- FMULZ: a zero factor masks the other (R213). -/
def execFmulz (o : LOp) (s : State) : Host.Outcome State Fault Refusal :=
  compOp (kFmulz o) o (lenWords o.w2) s
/-- The S-form of FMULZ: (R260). -/
def execFmulzS (o : SOp) (s : State) : Host.Outcome State Fault Refusal :=
  compOp (kFmulz (sToL o 0)) (sToL o 0) 1 s

/-- FMA: a × b + c, one rounding (R324). -/
def kFma (o : LOp) : Comp := fltTern o fma
/-- FMA: a × b + c, one rounding (R324). -/
def execFma (o : LOp) (s : State) : Host.Outcome State Fault Refusal :=
  compOp (kFma o) o (lenWords o.w2) s

/-- FMAZ: FMA with a masking product (R213). -/
def kFmaz (o : LOp) : Comp := fltTern o fmaz
/-- FMAZ: FMA with a masking product (R213). -/
def execFmaz (o : LOp) (s : State) : Host.Outcome State Fault Refusal :=
  compOp (kFmaz o) o (lenWords o.w2) s

/-- FMIN: the smaller, −0 below +0 (R325). -/
def kFmin (o : LOp) : Comp := fltBin o fun f _ _ a b => fminmax f false a b
/-- FMIN: the smaller, −0 below +0 (R325). -/
def execFmin (o : LOp) (s : State) : Host.Outcome State Fault Refusal :=
  compOp (kFmin o) o (lenWords o.w2) s
/-- The S-form of FMIN: (R260). -/
def execFminS (o : SOp) (s : State) : Host.Outcome State Fault Refusal :=
  compOp (kFmin (sToL o 0)) (sToL o 0) 1 s

/-- FMAX: the larger, −0 below +0 (R325). -/
def kFmax (o : LOp) : Comp := fltBin o fun f _ _ a b => fminmax f true a b
/-- FMAX: the larger, −0 below +0 (R325). -/
def execFmax (o : LOp) (s : State) : Host.Outcome State Fault Refusal :=
  compOp (kFmax o) o (lenWords o.w2) s
/-- The S-form of FMAX: (R260). -/
def execFmaxS (o : SOp) (s : State) : Host.Outcome State Fault Refusal :=
  compOp (kFmax (sToL o 0)) (sToL o 0) 1 s

/-- FCMP.rel: T or F (R326). -/
def kFcmp (o : LOp) : Comp := 
  { a := some (.flt o.fty), b := some (.flt o.fty), c := none, dst := .pred, readD := false, fp := true,
    f := fun _ a b _ _ =>
      let r := fcmp o.fty o.sub.toNat a b
      .fp (if r.1 then 1 else 0, r.2) }
/-- FCMP.rel: T or F (R326). -/
def execFcmp (o : LOp) (s : State) : Host.Outcome State Fault Refusal :=
  compOp (kFcmp o) o (lenWords o.w2) s

/-- FCLASS: one bit for the class of a (R327). -/
def kFclass (o : LOp) : Comp := fltUn o fun f _ _ a => (fclass f a, 0)
/-- FCLASS: one bit for the class of a (R327). -/
def execFclass (o : LOp) (s : State) : Host.Outcome State Fault Refusal :=
  compOp (kFclass o) o (lenWords o.w2) s

/-- FRND: a rounded to an integral value (R324). -/
def kFrnd (o : LOp) : Comp := fltUn o fun f rm _ a => frnd f rm a
/-- FRND: a rounded to an integral value (R324). -/
def execFrnd (o : LOp) (s : State) : Host.Outcome State Fault Refusal :=
  compOp (kFrnd o) o (lenWords o.w2) s

/-- FSCALE: a × 2^b (R324). -/
def kFscale (o : LOp) : Comp := 
  { a := some (.flt o.fty), b := some (.int 0), c := none, dst := .reg false, readD := false, fp := true,
    f := fun fm a b _ _ => .fp (fscale o.fty (o.rm fm) o.isSat a (sext b 32)) }
/-- FSCALE: a × 2^b (R324). -/
def execFscale (o : LOp) (s : State) : Host.Outcome State Fault Refusal :=
  compOp (kFscale o) o (lenWords o.w2) s

/-- FRCP: 1 ÷ a (R328). -/
def kFrcp (o : LOp) : Comp := fltUn o fun f _ sat a => special .rcp f sat a
/-- FRCP: 1 ÷ a (R328). -/
def execFrcp (o : LOp) (s : State) : Host.Outcome State Fault Refusal :=
  compOp (kFrcp o) o (lenWords o.w2) s
/-- The S-form of FRCP: (R260). -/
def execFrcpS (o : SOp) (s : State) : Host.Outcome State Fault Refusal :=
  compOp (kFrcp (sToL o 0)) (sToL o 0) 1 s

/-- FRSQ: 1 ÷ √a (R328). -/
def kFrsq (o : LOp) : Comp := fltUn o fun f _ sat a => special .rsq f sat a
/-- FRSQ: 1 ÷ √a (R328). -/
def execFrsq (o : LOp) (s : State) : Host.Outcome State Fault Refusal :=
  compOp (kFrsq o) o (lenWords o.w2) s
/-- The S-form of FRSQ: (R260). -/
def execFrsqS (o : SOp) (s : State) : Host.Outcome State Fault Refusal :=
  compOp (kFrsq (sToL o 0)) (sToL o 0) 1 s

/-- FSQRT: √a (R324, R328). -/
def kFsqrt (o : LOp) : Comp := fltUn o fun f rm _ a => fsqrt f rm a
/-- FSQRT: √a (R324, R328). -/
def execFsqrt (o : LOp) (s : State) : Host.Outcome State Fault Refusal :=
  compOp (kFsqrt o) o (lenWords o.w2) s
/-- The S-form of FSQRT: (R260). -/
def execFsqrtS (o : SOp) (s : State) : Host.Outcome State Fault Refusal :=
  compOp (kFsqrt (sToL o 0)) (sToL o 0) 1 s

/-- FEXP2: 2^a (R328). -/
def kFexp2 (o : LOp) : Comp := fltUn o fun f _ sat a => special .exp2 f sat a
/-- FEXP2: 2^a (R328). -/
def execFexp2 (o : LOp) (s : State) : Host.Outcome State Fault Refusal :=
  compOp (kFexp2 o) o (lenWords o.w2) s
/-- The S-form of FEXP2: (R260). -/
def execFexp2S (o : SOp) (s : State) : Host.Outcome State Fault Refusal :=
  compOp (kFexp2 (sToL o 0)) (sToL o 0) 1 s

/-- FLOG2: log₂ a (R328). -/
def kFlog2 (o : LOp) : Comp := fltUn o fun f _ sat a => special .log2 f sat a
/-- FLOG2: log₂ a (R328). -/
def execFlog2 (o : LOp) (s : State) : Host.Outcome State Fault Refusal :=
  compOp (kFlog2 o) o (lenWords o.w2) s
/-- The S-form of FLOG2: (R260). -/
def execFlog2S (o : SOp) (s : State) : Host.Outcome State Fault Refusal :=
  compOp (kFlog2 (sToL o 0)) (sToL o 0) 1 s

/-- FSIN: sin a (R328). -/
def kFsin (o : LOp) : Comp := fltUn o fun f _ sat a => special .sin f sat a
/-- FSIN: sin a (R328). -/
def execFsin (o : LOp) (s : State) : Host.Outcome State Fault Refusal :=
  compOp (kFsin o) o (lenWords o.w2) s
/-- The S-form of FSIN: (R260). -/
def execFsinS (o : SOp) (s : State) : Host.Outcome State Fault Refusal :=
  compOp (kFsin (sToL o 0)) (sToL o 0) 1 s

/-- FCOS: cos a (R328). -/
def kFcos (o : LOp) : Comp := fltUn o fun f _ sat a => special .cos f sat a
/-- FCOS: cos a (R328). -/
def execFcos (o : LOp) (s : State) : Host.Outcome State Fault Refusal :=
  compOp (kFcos o) o (lenWords o.w2) s
/-- The S-form of FCOS: (R260). -/
def execFcosS (o : SOp) (s : State) : Host.Outcome State Fault Refusal :=
  compOp (kFcos (sToL o 0)) (sToL o 0) 1 s

/-- FTANH: tanh a (R328). -/
def kFtanh (o : LOp) : Comp := fltUn o fun f _ sat a => special .tanh f sat a
/-- FTANH: tanh a (R328). -/
def execFtanh (o : LOp) (s : State) : Host.Outcome State Fault Refusal :=
  compOp (kFtanh o) o (lenWords o.w2) s
/-- The S-form of FTANH: (R260). -/
def execFtanhS (o : SOp) (s : State) : Host.Outcome State Fault Refusal :=
  compOp (kFtanh (sToL o 0)) (sToL o 0) 1 s

end Sys2Proof.Machine
end

