-- ==== Sys2Proof/Machine/Convert.lean ====
section
/-! DEFINITION. Conversion, packing, narrow dot products and block scaling (R329 to R332). -/
namespace Sys2Proof.Machine

/-- The format of a CVT type code from 8 up (R329). -/
def cvtFmt (code : Nat) : Fmt :=
  match code with
  | 8 => fp32
  | 9 => fp16
  | 10 => bf16
  | 11 => e4m3
  | _ => e5m2

/-- How a CVT source is read. -/
def cvtKd (code : Nat) : Kd := if code < 8 then .int code else .flt (cvtFmt code)

/-- One conversion (R329). -/
def cvtOne (src dst mode : Nat) (sat : Bool) (x : Nat) : Nat × Nat :=
  if 8 ≤ src then
    let v := fdec (cvtFmt src) x
    if 8 ≤ dst then fcvt (cvtFmt dst) mode sat v
    else
      let r := ftoInt mode (tyMin dst) (tyMax dst) v
      (intImg dst r.1, r.2)
  else if 8 ≤ dst then fofInt (cvtFmt dst) mode sat (intOf src x) 0
  else (intRes dst sat (intOf src x), 0)

/-- CVT.dtype.stype: STYPE and DTYPE stand in the B field (R329). -/
def kCvt (o : LOp) : Comp :=
  let src := o.b.toNat / 16
  let dst := o.b.toNat % 16
  { a := some (cvtKd src), b := none, c := none, dst := .reg (dst == 2 || dst == 3), readD := false, fp := true,
    f := fun fm a _ _ _ => .fp (cvtOne src dst (o.rm fm) o.isSat a) }

/-- CVT (R329). -/
def execCvt (o : LOp) (s : State) : Host.Outcome State Fault Refusal := compOp (kCvt o) o 2 s

/-! ### Packing (Table 13.5) -/

/-- Elements and bits of one element of a packing. -/
def packCount (sub : Nat) : Nat := if sub = 2 then 8 else if sub ≤ 4 then 4 else 2
def packBits (sub : Nat) : Nat := 32 / packCount sub
/-- The narrow format of packings 3 to 6. -/
def packFmt (sub : Nat) : Fmt := if sub = 3 then e4m3 else if sub = 4 then e5m2 else if sub = 5 then fp16 else bf16

/-- One element packed: its bits and flags. -/
def packOne (sub mode : Nat) (sat : Bool) (x : Nat) : Nat × Nat :=
  match sub with
  | 0 => (trunc (clampInt (sext x 32) (-128) 127) 8, 0)
  | 1 => (trunc (clampInt (x : Int) 0 255) 8, 0)
  | 2 => (trunc (clampInt (sext x 32) (-8) 7) 4, 0)
  | _ => fcvt (packFmt sub) mode sat (fdec fp32 x)

/-- One element unpacked: its 32-bit image and flags. -/
def unpackOne (sub : Nat) (x : Nat) : Nat × Nat :=
  match sub with
  | 0 => (trunc (sext x 8) 32, 0)
  | 1 => (x, 0)
  | 2 => (trunc (sext x 4) 32, 0)
  | _ => fcvt fp32 0 false (fdec (packFmt sub) x)

/-- PACK vd, va: n registers into one (R330). -/
def packSpec (o : LOp) (nr : Nat) : LaneSpec :=
  let sub := o.sub.toNat
  let n := packCount sub
  let a := o.a.toNat
  let d := o.d.toNat
  { words := 2, uni := false, ps := o.ps.toNat, pm := o.pm.toNat,
    use := { sr := if sub ≤ 2 then [] else [regFmode], vr := d :: (List.range n).map (a + ·), pr := [o.ps.toNat], pdg := false, extra := 0 },
    dst := [d], chk := if a + n ≤ nr && d < nr then 0 else 6, quad := false, noMethod := false,
    body := fun g _ _ lane =>
      let xs := (List.range n).map fun i => packOne sub (o.rm g.fmode) o.isSat (g.rv lane (a + i)).toNat
      let img := (xs.zipIdx).foldl (fun r x => r + x.1.1 % 2 ^ packBits sub * 2 ^ (packBits sub * x.2)) 0
      { code := 0, flags := xs.foldl (fun f x => f ||| x.2) 0, w := [(.v lane d, BitVec.ofNat 32 img)], pdg := none } }
/-- PACK (R330). -/
def execPack (o : LOp) (s : State) : Host.Outcome State Fault Refusal := laneOp (packSpec o (curNregs s)) s

/-- UNPACK vd, va: one register into n (R330). -/
def unpackSpec (o : LOp) (nr : Nat) : LaneSpec :=
  let sub := o.sub.toNat
  let n := packCount sub
  let d := o.d.toNat
  { words := 2, uni := false, ps := o.ps.toNat, pm := o.pm.toNat,
    use := { sr := (if sub ≤ 2 then [] else [regFmode]) ++ o.srcA.scalars .raw, vr := (List.range n).map (d + ·) ++ o.srcA.vectors .raw [0],
             pr := [o.ps.toNat], pdg := false, extra := 0 },
    dst := (List.range n).map (d + ·), chk := if srcOk nr .raw [0] o.srcA && d + n ≤ nr then 0 else 6, quad := false,
    noMethod := false,
    body := fun g nd _ lane =>
      let x := readSrc g nd lane .raw o.srcA 0
      let xs := (List.range n).map fun i => unpackOne sub (x / 2 ^ (packBits sub * i) % 2 ^ packBits sub)
      { code := 0, flags := xs.foldl (fun f x => f ||| x.2) 0,
        w := (xs.zipIdx).map fun y => (.v lane (d + y.2), BitVec.ofNat 32 y.1.1), pdg := none } }
/-- UNPACK (R330). -/
def execUnpack (o : LOp) (s : State) : Host.Outcome State Fault Refusal := laneOp (unpackSpec o (curNregs s)) s

/-! ### Dot products and block scale -/

/-- Element i of a packed register of w-bit elements (R214). -/
def packedElem (signed : Bool) (w x i : Nat) : Int :=
  let e := x / 2 ^ (w * i) % 2 ^ w
  if signed then sext e w else e

/-- The exact dot product of two packed registers. -/
def dotSum (n w : Nat) (sa sb : Bool) (a b : Nat) : Int :=
  (List.range n).foldl (fun s i => s + packedElem sa w a i * packedElem sb w b i) 0

/-- A dot product with its addend (R331). -/
def dotComp (o : LOp) (n w : Nat) (sa sb : Bool) : Comp :=
  { a := some .raw, b := some .raw, c := some (.int 0), dst := .reg false, readD := false, fp := false,
    f := fun _ a b c _ => .val (intRes 0 o.isSat (sext c 32 + dotSum n w sa sb a b)) }

/-- DOT4: `.q8x4` elements, each operand signed or unsigned (R331). -/
def execDot4 (o : LOp) (s : State) : Host.Outcome State Fault Refusal :=
  compOp (dotComp o 4 8 (!o.sub.getLsbD 0) (!o.sub.getLsbD 1)) o 3 s

/-- DOT8: signed `.q4x8` elements (R331). -/
def execDot8 (o : LOp) (s : State) : Host.Outcome State Fault Refusal :=
  compOp (dotComp o 8 4 true true) o 3 s

/-- BSCALE's operands and result (R332). -/
def kBscale (o : LOp) : Comp :=
  { a := some (.int o.sub.toNat), b := some .raw, c := none, dst := .reg false, readD := false, fp := true,
    f := fun fm a b _ _ =>
      let e := b % 256
      if e = 255 then .fp (o.fty.nanImg, 0)
      else .fp (fofInt o.fty (o.rm fm) o.isSat (intOf o.sub.toNat a) ((e : Int) - 127)) }

/-- BSCALE: an integer times a block scale (R332). -/
def execBscale (o : LOp) (s : State) : Host.Outcome State Fault Refusal := compOp (kBscale o) o (lenWords o.w2) s

end Sys2Proof.Machine
end

