-- ==== Sys2Proof/Machine/Interval.lean ====
section
/-! DEFINITION. Interval arithmetic on pairs of bit images (R216 to R218, R333 to R339). -/
namespace Sys2Proof.Machine

/-- An interval: images of the two bounds in the format. -/
structure Ival where
  lo : Nat
  hi : Nat
  deriving DecidableEq, Repr

/-- The empty pattern [+∞, −∞] (R216). -/
def Ival.empty (f : Fmt) : Ival := { lo := f.infImg, hi := f.infImg + f.signBit }

/-- The check of one operand (R217): fault code 8 or 7, 0 for none. -/
def Ival.check (f : Fmt) (x : Ival) : Nat :=
  let l := fdec f x.lo
  let h := fdec f x.hi
  if l.isNan || h.isNan then 8
  else if fltV h l || l == .inf false || h == .inf true then 7
  else 0

/-- The first failing operand, in the order A, B (R217). -/
def ivCheck (f : Fmt) (xs : List Ival) : Nat := xs.foldl (fun c x => if c = 0 then x.check f else c) 0

/-- A bound is written with +0 for either zero (R216). -/
def posZero (f : Fmt) (img : Nat) : Nat := if img = f.signBit then 0 else img

/-- Round a value outward: down for a low bound, up for a high one (R218). -/
def boundDown (f : Fmt) (v : FVal) : Nat := posZero f (fcvt f 2 false v).1
def boundUp (f : Fmt) (v : FVal) : Nat := posZero f (fcvt f 3 false v).1

/-- The smaller and the larger of two bound images. -/
def minImg (f : Fmt) (a b : Nat) : Nat := if fltV (fdec f b) (fdec f a) then b else a
def maxImg (f : Fmt) (a b : Nat) : Nat := if fltV (fdec f a) (fdec f b) then b else a
def minImgs (f : Fmt) (xs : List Nat) : Nat := xs.tail.foldl (minImg f) (xs.headD 0)
def maxImgs (f : Fmt) (xs : List Nat) : Nat := xs.tail.foldl (maxImg f) (xs.headD 0)

def ivAdd (f : Fmt) (a b : Ival) : Ival :=
  { lo := posZero f (faddV f 2 false (fdec f a.lo) (fdec f b.lo)).1
    hi := posZero f (faddV f 3 false (fdec f a.hi) (fdec f b.hi)).1 }
def ivSub (f : Fmt) (a b : Ival) : Ival :=
  { lo := posZero f (faddV f 2 false (fdec f a.lo) (fdec f b.hi).negate).1
    hi := posZero f (faddV f 3 false (fdec f a.hi) (fdec f b.lo).negate).1 }

/-- P(a, b) of R218 rounded one way: a zero factor gives zero. -/
def ivProd (f : Fmt) (mode : Nat) (a b : Nat) : Nat :=
  let x := fdec f a
  let y := fdec f b
  if x.isZero || y.isZero then 0 else posZero f (fmulV f mode false x y).1

/-- The four pairs of bounds. -/
def ivPairs (a b : Ival) : List (Nat × Nat) := [(a.lo, b.lo), (a.lo, b.hi), (a.hi, b.lo), (a.hi, b.hi)]

def ivMul (f : Fmt) (a b : Ival) : Ival :=
  { lo := minImgs f ((ivPairs a b).map fun p => ivProd f 2 p.1 p.2)
    hi := maxImgs f ((ivPairs a b).map fun p => ivProd f 3 p.1 p.2) }

/-- Q(a, b) of R334 rounded one way: one value, or both 0 and a signed infinity. -/
def ivQuot (f : Fmt) (mode : Nat) (a b : Nat) : List Nat :=
  match fdec f a, fdec f b with
  | .fin n m e, .fin n2 m2 e2 => [posZero f (fround f mode false (divExact (n != n2) m e m2 e2)).1]
  | .fin _ _ _, .inf _ => [0]
  | .inf n, .fin n2 _ _ => [f.sign (n != n2) f.infImg]
  | .inf n, .inf n2 => [0, f.sign (n != n2) f.infImg]
  | _, _ => [0]

def ivDiv (f : Fmt) (a b : Ival) : Ival :=
  let zero := FVal.fin false 0 0
  if fleV (fdec f b.lo) zero && fleV zero (fdec f b.hi) then { lo := f.infImg + f.signBit, hi := f.infImg }
  else
    { lo := minImgs f ((ivPairs a b).flatMap fun p => ivQuot f 2 p.1 p.2)
      hi := maxImgs f ((ivPairs a b).flatMap fun p => ivQuot f 3 p.1 p.2) }

def ivSqr (f : Fmt) (a : Ival) : Ival :=
  let zero := FVal.fin false 0 0
  let sq := fun mode x => posZero f (fmulV f mode false (fdec f x) (fdec f x)).1
  let up := maxImg f (sq 3 a.lo) (sq 3 a.hi)
  if fleV (fdec f a.lo) zero && fleV zero (fdec f a.hi) then { lo := 0, hi := up }
  else { lo := minImg f (sq 2 a.lo) (sq 2 a.hi), hi := up }

/-- A bound's square root rounded one way; a negative bound counts as 0. -/
def ivRoot (f : Fmt) (mode : Nat) (x : Nat) : Nat :=
  match fdec f x with
  | .fin n m e => if n || m = 0 then 0 else (fround f mode false (sqrtExact m e)).1
  | .inf n => if n then 0 else f.infImg
  | .nan _ => 0

def ivSqrt (f : Fmt) (a : Ival) : Ival :=
  if fltV (fdec f a.hi) (.fin false 0 0) then Ival.empty f
  else { lo := ivRoot f 2 a.lo, hi := ivRoot f 3 a.hi }

/-- IVMAKE (R335): bounds from FP32 values, or a fault code. -/
def ivMake (f : Fmt) (a b : Nat) : Nat × Ival :=
  let x := fdec fp32 a
  let y := fdec fp32 b
  if x.isNan || y.isNan then (8, Ival.empty f)
  else if fltV y x || x == .inf false || y == .inf true then (7, Ival.empty f)
  else (0, { lo := boundDown f x, hi := boundUp f y })

def ivHull (f : Fmt) (a b : Ival) : Ival :=
  if a = Ival.empty f then { lo := posZero f b.lo, hi := posZero f b.hi }
  else if b = Ival.empty f then { lo := posZero f a.lo, hi := posZero f a.hi }
  else { lo := posZero f (minImg f a.lo b.lo), hi := posZero f (maxImg f a.hi b.hi) }

/-- IVISECT (R336): the result and whether it is nonempty. -/
def ivIsect (f : Fmt) (a b : Ival) : Ival × Bool :=
  if a = Ival.empty f || b = Ival.empty f then (Ival.empty f, false)
  else
    let lo := posZero f (maxImg f a.lo b.lo)
    let hi := posZero f (minImg f a.hi b.hi)
    if fltV (fdec f hi) (fdec f lo) then (Ival.empty f, false) else ({ lo := lo, hi := hi }, true)

/-- IVMID (R337). -/
def ivMid (f : Fmt) (a : Ival) : Nat :=
  match fdec f a.lo, fdec f a.hi with
  | .inf _, .inf _ => 0
  | .inf _, _ => f.maxImg + f.signBit
  | _, .inf _ => f.maxImg
  | .fin n1 m1 e1, .fin n2 m2 e2 =>
    let s := addFin 0 n1 m1 e1 n2 m2 e2
    posZero f (fround f 0 false { s with e := s.e - 1 }).1
  | _, _ => 0

/-- IVWID (R337). -/
def ivWid (f : Fmt) (a : Ival) : Nat :=
  match fdec f a.lo, fdec f a.hi with
  | .fin n1 m1 e1, .fin n2 m2 e2 => posZero f (fround f 3 false (addFin 3 n2 m2 e2 (!n1) m1 e1)).1
  | _, _ => f.infImg

/-- IVCMP (Table 13.6): a predicate code. -/
def ivCmp (f : Fmt) (rel : Nat) (a b : Ival) : Pred :=
  let al := fdec f a.lo
  let ah := fdec f a.hi
  let bl := fdec f b.lo
  let bh := fdec f b.hi
  let same := feqV al ah && feqV bl bh && feqV al bl
  let apart := fltV ah bl || fltV bh al
  let tf : Bool × Bool := match rel with
    | 0 => (fltV ah bl, fleV bh al)
    | 1 => (fleV ah bl, fltV bh al)
    | 2 => (fltV bh al, fleV ah bl)
    | 3 => (fleV bh al, fltV ah bl)
    | 4 => (same, apart)
    | _ => (apart, same)
  if tf.1 then 1 else if tf.2 then 0 else 2

end Sys2Proof.Machine
end

