-- ==== Sys2Proof/Machine/IntervalOps.lean ====
section
/-! DEFINITION. Interval instructions on registers, for `.iv32` and `.iv16` (R333 to R338). -/
namespace Sys2Proof.Machine

/-- Format of an interval's bounds: FP16 for `.iv16`, else FP32. -/
def ivFmt (h : Bool) : Fmt := if h then fp16 else fp32
/-- How an interval operand is read. -/
def ivKd (h : Bool) : Kd := if h then .iv16 else .iv32
/-- Bits of one bound in the register image (R216). -/
def ivHalf (h : Bool) : Nat := if h then 16 else 32
/-- The interval of an image, and the image of an interval. -/
def ivOf (h : Bool) (x : Nat) : Ival := { lo := x % 2 ^ ivHalf h, hi := x / 2 ^ ivHalf h % 2 ^ ivHalf h }
def ivImg (h : Bool) (x : Ival) : Nat := x.lo + x.hi * 2 ^ ivHalf h

/-- The result of checked operands: the first failing operand's code, or the value (R217). -/
def ivChecked (h : Bool) (xs : List Ival) (img : Nat) : EltOut :=
  match ivCheck (ivFmt h) xs with
  | 0 => .val img
  | c => { code := c, flags := 0, img := 0 }

/-- An interval instruction with two interval sources. -/
def ivBin (h : Bool) (f : Fmt → Ival → Ival → Ival) : Comp :=
  { a := some (ivKd h), b := some (ivKd h), c := none, dst := .reg (!h), readD := false, fp := false,
    f := fun _ a b _ _ => ivChecked h [ivOf h a, ivOf h b] (ivImg h (f (ivFmt h) (ivOf h a) (ivOf h b))) }
/-- With one. -/
def ivUn (h : Bool) (f : Fmt → Ival → Ival) : Comp :=
  { a := some (ivKd h), b := none, c := none, dst := .reg (!h), readD := false, fp := false,
    f := fun _ a _ _ _ => ivChecked h [ivOf h a] (ivImg h (f (ivFmt h) (ivOf h a))) }
/-- One interval source, one floating-point result in one register (R337). -/
def ivScalar (h : Bool) (f : Fmt → Ival → Nat) : Comp :=
  { a := some (ivKd h), b := none, c := none, dst := .reg false, readD := false, fp := false,
    f := fun _ a _ _ _ => ivChecked h [ivOf h a] (f (ivFmt h) (ivOf h a)) }
/-- IVMAKE: FP32 sources; SUB 1 (`.pt`) takes a for both (R335). -/
def ivMakeComp (h : Bool) (o : LOp) : Comp :=
  { a := some (.flt fp32), b := if o.sub = 1 then none else some (.flt fp32), c := none, dst := .reg (!h), readD := false,
    fp := false,
    f := fun _ a b _ _ =>
      let r := ivMake (ivFmt h) a (if o.sub = 1 then a else b)
      { code := r.1, flags := 0, img := ivImg h r.2 } }
/-- Operands of IVHULL and IVISECT: the exact empty pattern stands for the empty set (R336). -/
def ivSets (h : Bool) (xs : List Ival) : List Ival := xs.filter fun x => x != Ival.empty (ivFmt h)
def ivHullComp (h : Bool) : Comp :=
  { ivBin h ivHull with
    f := fun _ a b _ _ =>
      ivChecked h (ivSets h [ivOf h a, ivOf h b]) (ivImg h (ivHull (ivFmt h) (ivOf h a) (ivOf h b))) }
def ivIsectComp (h : Bool) : Comp :=
  { ivBin h ivHull with
    f := fun _ a b _ _ =>
      ivChecked h (ivSets h [ivOf h a, ivOf h b]) (ivImg h (ivIsect (ivFmt h) (ivOf h a) (ivOf h b)).1) }
/-- IVCMP.rel (R338). -/
def ivCmpComp (h : Bool) (o : LOp) : Comp :=
  { a := some (ivKd h), b := some (ivKd h), c := none, dst := .pred, readD := false, fp := false,
    f := fun _ a b _ _ =>
      ivChecked h [ivOf h a, ivOf h b] (ivCmp (ivFmt h) o.sub.toNat (ivOf h a) (ivOf h b)).toNat }

/-- IVISECT with its predicate, T for a nonempty result; in a block the last element's (R336, DEDUCED [22]). -/
def isectSpec (h : Bool) (o : LOp) (nr : Nat) : LaneSpec :=
  let k := ivIsectComp h
  let pr := o.mod.toNat % 16
  let d := k.spec o (lenWords o.w2) nr
  { d with
    use := { d.use with pr := pr :: d.use.pr }, pdst := [pr],
    body := fun g n c lane =>
      let r := k.lane o g n c lane
      let last := (o.offs k.paired).getLast?.getD 0
      let x := ivIsect (ivFmt h) (ivOf h (readSrc g n lane (ivKd h) o.srcA last)) (ivOf h (readSrc g n lane (ivKd h) o.srcB last))
      { r with w := r.w ++ [(.p lane pr, if x.2 then 1 else 0)] } }

/-- IVSPLIT: [A.lo, m] to D and [m, A.hi] to the next interval register (R337); in a block, element after element, so that where two
elements' halves meet the later element's stands (R114; DEDUCED [44]). -/
def splitSpec (h : Bool) (o : LOp) (nr : Nat) : LaneSpec :=
  let k := ivUn h fun f a => { lo := posZero f a.lo, hi := ivMid f a }
  let step := if h then 1 else 2
  let offs := o.offs k.paired
  let d := k.spec o (lenWords o.w2) nr
  let second := offs.flatMap fun x => if h then [o.d.toNat + x + 1] else [o.d.toNat + x + 2, o.d.toNat + x + 3]
  { d with
    dst := d.dst ++ second, use := { d.use with vr := d.use.vr ++ second },
    chk := if d.chk ≠ 0 then d.chk else if second.all fun r => decide (r < nr) then 0 else 6,
    body := fun g n c lane =>
      let r := k.lane o g n c lane
      let w := offs.flatMap fun x =>
        let a := ivOf h (readSrc g n lane (ivKd h) o.srcA x)
        dstWrites false lane o.d.toNat x (!h) (k.elt o g n lane x).img ++
          dstWrites false lane (o.d.toNat + step) x (!h)
            (ivImg h { lo := ivMid (ivFmt h) a, hi := posZero (ivFmt h) a.hi })
      { r with w := w } }

/-- IVMAKE, `.iv32` (R335). -/
def execIvmake (o : LOp) (s : State) : Host.Outcome State Fault Refusal := compOp (ivMakeComp false o) o (lenWords o.w2) s
/-- IVMAKE, `.iv16` (R335). -/
def execIvmakeIv16 (o : LOp) (s : State) : Host.Outcome State Fault Refusal := compOp (ivMakeComp true o) o (lenWords o.w2) s

/-- IVADD, `.iv32` (R334). -/
def execIvadd (o : LOp) (s : State) : Host.Outcome State Fault Refusal := compOp (ivBin false ivAdd) o (lenWords o.w2) s
/-- IVADD, `.iv16` (R334). -/
def execIvaddIv16 (o : LOp) (s : State) : Host.Outcome State Fault Refusal := compOp (ivBin true ivAdd) o (lenWords o.w2) s

/-- IVSUB, `.iv32` (R334). -/
def execIvsub (o : LOp) (s : State) : Host.Outcome State Fault Refusal := compOp (ivBin false ivSub) o (lenWords o.w2) s
/-- IVSUB, `.iv16` (R334). -/
def execIvsubIv16 (o : LOp) (s : State) : Host.Outcome State Fault Refusal := compOp (ivBin true ivSub) o (lenWords o.w2) s

/-- IVMUL, `.iv32` (R218, R334). -/
def execIvmul (o : LOp) (s : State) : Host.Outcome State Fault Refusal := compOp (ivBin false ivMul) o (lenWords o.w2) s
/-- IVMUL, `.iv16` (R218, R334). -/
def execIvmulIv16 (o : LOp) (s : State) : Host.Outcome State Fault Refusal := compOp (ivBin true ivMul) o (lenWords o.w2) s

/-- IVDIV, `.iv32` (R334). -/
def execIvdiv (o : LOp) (s : State) : Host.Outcome State Fault Refusal := compOp (ivBin false ivDiv) o (lenWords o.w2) s

/-- IVSQR, `.iv32` (R334). -/
def execIvsqr (o : LOp) (s : State) : Host.Outcome State Fault Refusal := compOp (ivUn false ivSqr) o (lenWords o.w2) s
/-- IVSQR, `.iv16` (R334). -/
def execIvsqrIv16 (o : LOp) (s : State) : Host.Outcome State Fault Refusal := compOp (ivUn true ivSqr) o (lenWords o.w2) s

/-- IVSQRT, `.iv32` (R334). -/
def execIvsqrt (o : LOp) (s : State) : Host.Outcome State Fault Refusal := compOp (ivUn false ivSqrt) o (lenWords o.w2) s

/-- IVHULL, `.iv32` (R336). -/
def execIvhull (o : LOp) (s : State) : Host.Outcome State Fault Refusal := compOp (ivHullComp false) o (lenWords o.w2) s
/-- IVHULL, `.iv16` (R336). -/
def execIvhullIv16 (o : LOp) (s : State) : Host.Outcome State Fault Refusal := compOp (ivHullComp true) o (lenWords o.w2) s

/-- IVISECT, `.iv32` (R336). -/
def execIvisect (o : LOp) (s : State) : Host.Outcome State Fault Refusal :=
  laneOp (isectSpec false o (curNregs s)) s
/-- IVISECT, `.iv16` (R336). -/
def execIvisectIv16 (o : LOp) (s : State) : Host.Outcome State Fault Refusal :=
  laneOp (isectSpec true o (curNregs s)) s

/-- IVMID, `.iv32` (R337). -/
def execIvmid (o : LOp) (s : State) : Host.Outcome State Fault Refusal := compOp (ivScalar false ivMid) o (lenWords o.w2) s
/-- IVMID, `.iv16` (R337). -/
def execIvmidIv16 (o : LOp) (s : State) : Host.Outcome State Fault Refusal := compOp (ivScalar true ivMid) o (lenWords o.w2) s

/-- IVWID, `.iv32` (R337). -/
def execIvwid (o : LOp) (s : State) : Host.Outcome State Fault Refusal := compOp (ivScalar false ivWid) o (lenWords o.w2) s
/-- IVWID, `.iv16` (R337). -/
def execIvwidIv16 (o : LOp) (s : State) : Host.Outcome State Fault Refusal := compOp (ivScalar true ivWid) o (lenWords o.w2) s

/-- IVCMP, `.iv32` (R338). -/
def execIvcmp (o : LOp) (s : State) : Host.Outcome State Fault Refusal := compOp (ivCmpComp false o) o (lenWords o.w2) s
/-- IVCMP, `.iv16` (R338). -/
def execIvcmpIv16 (o : LOp) (s : State) : Host.Outcome State Fault Refusal := compOp (ivCmpComp true o) o (lenWords o.w2) s

/-- IVSPLIT, `.iv32` (R337). -/
def execIvsplit (o : LOp) (s : State) : Host.Outcome State Fault Refusal :=
  laneOp (splitSpec false o (curNregs s)) s
/-- IVSPLIT, `.iv16` (R337). -/
def execIvsplitIv16 (o : LOp) (s : State) : Host.Outcome State Fault Refusal :=
  laneOp (splitSpec true o (curNregs s)) s

end Sys2Proof.Machine
end

