-- ==== Sys2Proof/Machine/Flow.lean ====
section
/-! DEFINITION. Trace headers, guards, terminators at issue, calls, traps, hints, and what an opcode outside the maps does
(R116 to R122, R281, R284, R287 to R296). -/
namespace Sys2Proof.Machine

/-! ### Opening a trace -/

/-- The group with the lanes that run as helpers of some open trace as they were before (R111). -/
def withoutHelpers (g : Group) : Group :=
  g.nodes.foldl (fun g m => match m.ctx with
    | some k => if k.helpers = 0 then g else restoreLanes g k k.helpers
    | none => g) g

/-- The trace a header opens: shadows of everything as it stands (R124, R288). -/
def openCtx (g' : Group) (n : Node) (h : TraceHdr) : Ctx :=
  let g := withoutHelpers g'
  { hdr := h, addr := n.trace, pc := n.trace + 8, ix := 1, active := n.mask, helpers := 0, cleared := 0, fails := [],
    v0 := g.v, p0 := g.p, pdg0 := g.pdg, owned := [], mask0 := n.mask, s630 := n.s63, shadowed := [], effs := [], flags := [],
    fetched := [], inHandler := false, flow := none, resume := false, ticket := false, term := none, emul := none, entered := none, arrival := none }

/-- What a fragment does at a TRACE header (R118, R178, R288, R414). -/
def openTrace (s : State) (g : Group) (n : Node) (h : TraceHdr) : State :=
  if h.kind = 1 && g.landing.isNone then entryFault s g n 48
  else if n.toHandler && h.kind != 3 then addFatal s g 2 (n.s63.toNat / 2 ^ 16 % 256)
  else
    let code := if n.s63.toNat % 16 = 5 then n.s63.toNat / 2 ^ 16 % 256 else 64
    let c := { openCtx g n h with fetched := keepLines s g n.trace 2 [], inHandler := decide (n.trace = handlerOf s g) && g.landing.isNone }
    (countCall s g).setGroup (g.setNode { n with code := code, ctx := some c })

/-- TRACE (R287, R288); one reached in any other way is code 48. -/
def execTrace (h : TraceHdr) (s : State) : Host.Outcome State Fault Refusal :=
  match curFrame s with
  | none => .fault .noFragment
  | some (g, n) =>
    .next (match n.ctx with
      | some _ =>
        (match precheck s g n false Use.none with
         | .stop s1 => s1
         | .go s1 g1 n1 c1 => groupFault s1 g1 n1 c1 48)
      | none => if canIssue s g n then openTrace s g n h else s)

/-- An encoding that no opcode of either map takes, or a bad reserved field: code 48 (R177, R266, R284). -/
def execUnallocatedOpcode (_why : DecodeError) (_w : List Word) (s : State) : Host.Outcome State Fault Refusal :=
  coreOp false Use.none 0 (fun s g n c => groupFault s g n c 48) s

/-! ### Targets -/

/-- The address of a word offset from an address; a negative address is out of range. -/
def relAddr (a : Nat) (off : BitVec 24) : Nat :=
  let x := (a : Int) + 4 * off.toInt
  if x < 0 then 2 ^ 64 - 4 else x.toNat
/-- The header's rejoin and park addresses (Table 5.3). -/
def Ctx.rejoinAddr (c : Ctx) : Nat := if c.hdr.rejoin = 0 then 0 else ((c.addr : Int) + 4 * c.hdr.rejoin.toInt).toNat
def Ctx.parkAddr (c : Ctx) : Nat := if c.hdr.park = 0 then 0 else ((c.addr : Int) + 4 * c.hdr.park.toInt).toNat

/-- A trace lies within 2^23 words of the group's base trace (R100). -/
def inWindow (g : Group) (a : Nat) : Bool :=
  let d := (a : Int) - g.base
  decide (-(2 ^ 25 : Int) ≤ d) && decide (d < 2 ^ 25)

/-! ### Terminators -/

/-- A terminator issues: the trace stands at it and waits to commit (R124). A successor or callee outside the code window is a group
fault here (R100); CALLT or RETT before JOIN or EXIT, YIELD before any but END or EXIT, RESUME before any but EXIT are code 48
(R292, R295). -/
def terminate (s : State) (g : Group) (n : Node) (c : Ctx) (t : Term) (targets : List Nat) : State :=
  let isFin := match t with
    | .fin _ => true
    | _ => false
  let isExit := t == .exit
  let isJoin := match t with
    | .join _ => true
    | _ => false
  let flowBad := match c.flow with
    | some (.callt _) => isExit || isJoin
    | some .rett => isExit || isJoin
    | some .yield => !isFin && !isExit
    | _ => false
  let callee := match c.flow with
    | some (.callt a) => [a]
    | _ => []
  let used := match c.flow with
    | some .rett => []
    | some .yield => []
    | some .kill => []
    | _ => targets ++ callee
  if flowBad || (c.resume && !isExit) then groupFault s g n c 48
  else if used.any fun a => !inWindow g a then groupFault s g n c 50
  else putCtx s g n { c with term := some t }

/-- END target (R289). -/
def execEndTrace (o : CtlOp) (s : State) : Host.Outcome State Fault Refusal :=
  coreOp true Use.none 0 (fun s g n c =>
    let t := relAddr c.pc o.offset
    terminate s g n c (.fin t) [t]) s

/-- ENDX sa: the successor is the scalar pair (R289); a pair that is odd or no scalar is code 6. -/
def execEndx (o : LOp) (s : State) : Host.Outcome State Fault Refusal :=
  let a := o.a.toNat
  coreOp true { Use.none with sr := [a, a + 1] } 0 (fun s g n c =>
    if a % 2 ≠ 0 ∨ 63 ≤ a then groupFault s g n c 6
    else terminate s g n c (.finx a) []) s

/-- JOIN target (R98, R289). -/
def execJoin (o : CtlOp) (s : State) : Host.Outcome State Fault Refusal :=
  coreOp true Use.none 0 (fun s g n c =>
    let t := relAddr c.pc o.offset
    terminate s g n c (.join t) [t]) s

/-- EXIT (R289). -/
def execExit (s : State) : Host.Outcome State Fault Refusal :=
  coreOp true Use.none 0 (fun s g n c => terminate s g n c .exit []) s

/-! ### Guards -/

/-- One fold of a guard's outcome (R123). -/
def foldGuard (g : Group) (lane pc outcome : Nat) : Group :=
  g.wpdg lane (fold64 (g.rpdg lane) (BitVec.ofNat 32 pc ||| BitVec.ofNat 32 outcome))

/-- The targets of a guard: alternative, and undecided if named (R290). -/
def guardAlt (c : Ctx) (o : CtlOp) : Nat := relAddr c.pc o.offset
def guardUnd (c : Ctx) (o : CtlOp) : Option Nat := o.w2.map fun w => relAddr c.pc (w.setWidth 24)

/-- A lane fails at a guard: its destination, with s63 (R117, R121). -/
def guardFail (c : Ctx) (o : CtlOp) (lane : Nat) (p : Pred) : Fail :=
  match guardUnd c o with
  | some u =>
    if p = 2 then { lane := lane, dest := .undecided u, s63 := s63Of 4 2 0 c.ix, seq := none }
    else { lane := lane, dest := .alternative (guardAlt c o), s63 := s63Of 3 1 0 c.ix, seq := none }
  | none => { lane := lane, dest := .alternative (guardAlt c o), s63 := s63Of 3 1 0 c.ix, seq := none }

/-- A failure in a method whose destination is its PARK trace: the call is rejected when the lane leaves (R249, reason 3). -/
def parksMethod (g : Group) (c : Ctx) (f : Fail) : Bool :=
  g.landing.isSome && c.hdr.kind = 1 && c.hdr.park ≠ 0 &&
    (match f.dest with
     | .alternative a => a == c.parkAddr
     | .undecided a => a == c.parkAddr
     | .park _ => true
     | _ => false)

/-- Apply a guard's lane outcomes: lanes with their fold value and, where they fail, their failure. -/
def applyGuard (s : State) (g : Group) (n : Node) (c : Ctx) (o : CtlOp) (outs : List (Nat × Nat × Option Fail)) : State :=
  let g1 := outs.foldl (fun g x => foldGuard g x.1 c.pc x.2.1) g
  let fails := outs.filterMap fun x => x.2.2
  let c1 := fails.foldl Ctx.addFail c
  putCtx s g1 n (c1.advance (if o.w2.isSome then 3 else 2)).settle

/-- The fold value of a failing lane. -/
def failFold (p : Pred) : Nat := if p = 2 then 2 else 1

/-- GUARD p, alt, und (R121, R290). -/
def execGuard (o : CtlOp) (s : State) : Host.Outcome State Fault Refusal :=
  coreOp false { Use.none with pr := [o.pred.toNat], pdg := true } 0 (fun s g n c =>
    applyGuard s g n c o ((lanesOf c.active).map fun l =>
      let p := g.rp l o.pred.toNat
      if p = o.sense then (l, 0, none) else (l, failFold p, some (guardFail c o l p)))) s

/-- GUARDC: the lanes pass or fail together (R291). -/
def execGuardc (o : CtlOp) (s : State) : Host.Outcome State Fault Refusal :=
  coreOp false { Use.none with pr := [o.pred.toNat], pdg := true } 0 (fun s g n c =>
    let ls := lanesOf c.active
    let allPass := ls.all fun l => g.rp l o.pred.toNat == o.sense
    applyGuard s g n c o (ls.map fun l =>
      let p := g.rp l o.pred.toNat
      if allPass then (l, 0, none) else (l, failFold p, some (guardFail c o l p)))) s

/-! ### Flow modifiers -/

/-- A flow modifier takes its place; the second one of a trace is code 48 (R126, R294). -/
def setFlow (f : Flow) (s : State) (g : Group) (n : Node) (c : Ctx) : State :=
  if c.flow.isSome then groupFault s g n c 48 else putCtx s g n ({ c with flow := some f }.advance 2)

/-- CALLT target: a lane whose return stack holds 8 entries takes code 15 (R126, R292). -/
def execCallt (o : CtlOp) (s : State) : Host.Outcome State Fault Refusal :=
  coreOp false Use.none 0 (fun s g n c =>
    if c.flow.isSome then groupFault s g n c 48
    else
      faultLanes s g n { c with flow := some (.callt (relAddr c.pc o.offset)) }
        (((lanesOf c.active).filter fun l => decide (8 ≤ (sget g.rdepth l).toNat)).map fun l => (l, 15)) (·.advance 2)) s

/-- RETT: a lane whose return stack is empty takes code 16 (R126, R292). -/
def execRett (s : State) : Host.Outcome State Fault Refusal :=
  coreOp false Use.none 0 (fun s g n c =>
    if c.flow.isSome then groupFault s g n c 48
    else
      faultLanes s g n { c with flow := some .rett }
        (((lanesOf c.active).filter fun l => sget g.rdepth l == 0).map fun l => (l, 16)) (·.advance 2)) s

/-- KILL: not in a method (R294). -/
def execKill (s : State) : Host.Outcome State Fault Refusal :=
  coreOp false Use.none 0 (fun s g n c => if c.hdr.kind = 1 then groupFault s g n c 48 else setFlow .kill s g n c) s

/-- The group's workgroup is in SAVING (Table 8.8). -/
def inSaving (s : State) (g : Group) : Bool :=
  match s.wkg? g.part g.serial g.wkg with
  | some w => w.st == .saving
  | none => false

/-- YIELD: only in a trace of kind 2 of a group whose workgroup is in SAVING (R295). -/
def execYield (s : State) : Host.Outcome State Fault Refusal :=
  coreOp false Use.none 0 (fun s g n c =>
    if c.hdr.kind = 2 && inSaving s g then setFlow .yield s g n c else groupFault s g n c 48) s

/-- The instruction that stands some instructions further on in the trace. -/
def lookAhead (s : State) (g : Group) (got : Fetches) : Nat → Nat → Option Instr
  | 0, va =>
    match fetchWords s g got va with
    | .ok ws => some (instrOf ws)
    | .error _ => none
  | k + 1, va =>
    match fetchWords s g got va with
    | .ok ws => lookAhead s g got k (va + 4 * ws.length)
    | .error _ => none

/-- The trace's terminator is another than EXIT, as far as it can be fetched. -/
def endsOtherwise (s : State) (g : Group) (c : Ctx) : Bool :=
  match lookAhead s g c.fetched (c.lastIx - c.ix) c.pc with
  | some i => i != .exit
  | none => false

/-- RESUME: only in a trace of kind 2 that ends in EXIT, in a fragment that descends from a restore fragment of a group whose LOADSPLIT
has committed (R295). -/
def execResume (s : State) : Host.Outcome State Fault Refusal :=
  coreOp false Use.none 0 (fun s g n c =>
    if c.hdr.kind = 2 && n.restored && g.loadsplit && !endsOtherwise s g c then putCtx s g n ({ c with resume := true }.advance 2)
    else groupFault s g n c 48) s

/-! ### Traps, NOP, hints -/

/-- TRAP and BRK: every selected lane fails with a code (R293). -/
def trapSpec (code : Nat) (o : LOp) : LaneSpec :=
  { words := 2, uni := false, ps := o.ps.toNat, pm := o.pm.toNat, use := { Use.none with pr := [o.ps.toNat] }, dst := [],
    chk := 0, quad := false, noMethod := false, body := fun _ _ _ _ => .fault code [] }

/-- TRAP (R293). -/
def execTrap (o : LOp) (s : State) : Host.Outcome State Fault Refusal := laneOp (trapSpec 17 o) s
/-- BRK (R293). -/
def execBrk (o : LOp) (s : State) : Host.Outcome State Fault Refusal := laneOp (trapSpec 18 o) s

/-- An instruction of some words that changes nothing but the trace's count. -/
def nopOp (words : Nat) (s : State) : Host.Outcome State Fault Refusal :=
  coreOp false Use.none 0 (fun s g n c => putCtx s g n (c.advance words)) s

/-- NOP, S-form (R296). -/
def execNop (s : State) : Host.Outcome State Fault Refusal := nopOp 1 s
/-- NOP, L-form (R296). -/
def execNopLong (s : State) : Host.Outcome State Fault Refusal := nopOp 2 s
/-- HINT.keep changes timing only (Table 11.18). -/
def execHintKeep (o : LOp) (s : State) : Host.Outcome State Fault Refusal := nopOp (lenWords o.w2) s
/-- HINT.stream changes timing only (Table 11.18). -/
def execHintStream (o : LOp) (s : State) : Host.Outcome State Fault Refusal := nopOp (lenWords o.w2) s
/-- A hint that the part does not implement is NOP (R281). -/
def execHintUnimplemented (_k : BitVec 4) (o : LOp) (s : State) : Host.Outcome State Fault Refusal := nopOp (lenWords o.w2) s

/-- A hint that writes a scalar; an operand that would fault makes it NOP (R281). -/
def hintWrite (o : LOp) (val : State → Group → Word) (s : State) : Host.Outcome State Fault Refusal :=
  if o.u && decide (o.d.toNat < 64) then
    coreOp false { Use.none with sr := [o.d.toNat], ws := [o.d.toNat] } 0 (fun s g n c =>
      match writeS (g, n, c) o.d.toNat (val s g) with
      | (g1, n1, c1) => putCtx s g1 n1 (c1.advance (lenWords o.w2)).settle) s
  else nopOp (lenWords o.w2) s

/-- HINT.occ: the number of groups resident on the core (Table 11.18). -/
def execHintOcc (o : LOp) (s : State) : Host.Outcome State Fault Refusal :=
  hintWrite o (fun s g => BitVec.ofNat 32 (s.groups.filter fun x => x.core == g.core).length) s

/-- HINT.thr: the die's throttle level (Table 11.18). -/
def execHintThr (o : LOp) (s : State) : Host.Outcome State Fault Refusal :=
  hintWrite o (fun s g => BitVec.ofNat 32 (s.die g.die).throttle) s

end Sys2Proof.Machine
end

