-- ==== Sys2Proof/Machine/Access.lean ====
section
/-! DEFINITION. How lanes read memory at issue (R127, R134, R135, R143, R158 to R164, R346, R411), what a method may reach
(R249), the counts of a trace's limits (R119), and the reads and writes of fields in rings and entries. -/
namespace Sys2Proof.Machine

/-! ### What a method may reach (R248, R249) -/

/-- The landing group's state block on its die: address and bytes (Table 10.9). -/
def stateBlock (s : State) (g : Group) : Option (Nat × Nat) :=
  match g.landing with
  | none => none
  | some l =>
    match s.part? g.part with
    | none => none
    | some p => (p.objs.find? fun o => o.obj == l.obj).map fun o => (field o.record (16 + 8 * l.die) 8, field o.record 8 4)

/-- The span lies in the state block. -/
def inStateBlock (s : State) (g : Group) (va n : Nat) : Bool :=
  match stateBlock s g with
  | some b => b.1 ≤ va && va + n ≤ b.1 + b.2
  | none => false

/-- A method's load stays in the state block and sealed pages; any other group's may go anywhere (R249, reason 1). -/
def methodMayLoad (s : State) (g : Group) (va n pa : Nat) : Bool :=
  g.landing.isNone || inStateBlock s g va n || sealedFor s g.part pa

/-- A method's store stays in the state block, and a read-only run stores nothing (R249, R251, reason 2). -/
def methodMayStore (s : State) (g : Group) (va n : Nat) : Bool :=
  match g.landing with
  | none => true
  | some l => !l.readOnly && inStateBlock s g va n

/-! ### Scopes -/

/-- Scopes from cluster outward drop the L1 copies of RC and UO lines at an acquire (R163). -/
def wideScope (scope : Nat) : Bool := 2 ≤ scope

/-- An acquire's L1 drop (R163); bench and SO lines are not held. -/
def acquire (s : State) (g : Group) (scope : Nat) : State := if wideScope scope then l1DropAll s g.core else s

/-- An atomic of the item is parked at its home (R156). -/
def Item.parks (it : Item) : Bool := it.eff.elems.any fun x => x.st == .parked

/-- The group has an atomic parked at its home: acquires, releases and SO accesses behind it wait (R168, R176). -/
def parkedAtomic (s : State) (g : Group) : Bool := s.pipe.any fun it => it.group == g.uid && it.parks

/-- The item touches global memory. -/
def Item.isGlobal (it : Item) : Bool :=
  match it.eff.op with
  | .store .global _ _ _ _ => true
  | .atomic kind _ _ _ _ _ _ _ _ => kind != .atoms
  | _ => false

/-- An element has still to be performed or refused. -/
def Elem.open (x : Elem) : Bool := x.st != .done && x.st != .refused

/-- The core's L1 or scratchpad path has accepted the element, translated and checked (R125). -/
def Elem.accepted (x : Elem) : Bool := x.st != .fresh && x.st != .held && x.st != .translated

/-- A store element is performed at workgroup scope (Table 7.1): accepted by the L1, but a bench or SO one at its home. -/
def Elem.inWorkgroup (x : Elem) (kind : Nat) : Bool := if kind = 0 ∨ isBench x.pa then !x.open else x.accepted

/-- An item is performed at a scope (Table 7.1, R168): at group scope on entry; at workgroup scope as its elements are; beyond that,
and for atomics, when every element is resolved. A peer element counts at system scope alone. -/
def Item.doneAt (it : Item) (scope : Nat) : Bool :=
  match it.eff.op with
  | .store .global _ _ _ _ => scope == 0 || it.eff.elems.all fun x => if scope = 1 then x.inWorkgroup it.kind else !x.open
  | .store .scratch _ _ _ _ => scope == 0 || it.eff.elems.all fun x => !x.open
  | .atomic _ _ _ _ _ _ _ _ peer => scope == 0 || (peer.isSome && scope < 5) || it.eff.elems.all fun x => !x.open
  | .release => scope == 0 || it.eff.elems.all fun x => !x.open
  | .spawn _ _ => scope == 0 || it.eff.elems.all fun x => !x.open
  | .dlog _ => scope == 0 || it.eff.elems.all fun x => !x.open
  | .ring _ _ _ _ => scope == 0 || it.eff.elems.all fun x => !x.open
  | _ => true

/-- An acquire atomic that is not performed (R163); a mark on UO pages does not count (R164). -/
def Item.acquires (it : Item) : Bool :=
  match it.eff.op with
  | .atomic _ _ _ _ acq _ _ _ _ => acq && it.kind != 2 && it.eff.elems.any Elem.open
  | _ => false

/-- The group's items before one of some number, oldest first. -/
def priors (s : State) (g id : Nat) : List Item := (s.pipe.takeWhile (·.id != id)).filter (·.group == g)

/-- Stores of other groups that a core's loads already see, and that a release or fence at cluster scope or wider carries along
(R163, cumulative) [25]. -/
def coreSeen (s : State) (core g id scope : Nat) : Bool :=
  scope < 2 || (s.pipe.filter (·.id < id)).all fun it =>
    it.core != core || it.group == g ||
      (match it.eff.op with
       | .store .global _ _ _ _ => it.eff.elems.all fun x => !inL1 it x
       | _ => true)

/-- A FENCE has taken effect: what precedes it is performed at its scope, and no atomic before it is parked (R166, R168). -/
def fencePassed (s : State) (it : Item) : Bool :=
  match it.eff.op with
  | .fence mode scope =>
    let ps := priors s it.group it.id
    (mode == 2 || (ps.all (·.doneAt scope) && coreSeen s it.core it.group it.id scope)) && ps.all fun p => !p.parks
  | _ => true

/-- What a group committed before a mark is performed at a scope, as a release needs it (R163, R166, R168, R172). -/
def releasedTo (s : State) (g core mark scope : Nat) : Bool :=
  let ps := s.pipe.filter fun it => it.group == g && it.id < mark
  ps.all (fencePassed s) && (ps.all fun p => !p.parks && (p.kind == 2 || p.doneAt scope)) && coreSeen s core g mark scope

/-- Every FENCE of the group among some items has taken effect. -/
def fencesPassed (s : State) (its : List Item) : Bool := its.all (fencePassed s)

/-- The group's own effects in the pipeline. -/
def ofGroup (s : State) (g : Group) : List Item := s.pipe.filter (·.group == g.uid)

/-- An acquire that is no load, and a wait that observes others, come after the group's FENCEs, its parked atomics and its acquiring ones
(R163, R166, R168). -/
def acquireReady (s : State) (g : Group) : Bool :=
  fencesPassed s (ofGroup s g) && !parkedAtomic s g && !(ofGroup s g).any (·.acquires)

/-- An SO access waits for the group's earlier SO accesses (R162), which may be among those not yet translated. -/
def soPending (s : State) (g : Group) : Bool :=
  s.pipe.any fun it => it.group == g.uid && it.isGlobal && (it.kind == 0 || it.kind == 3) && it.eff.elems.any Elem.open

/-! ### Entering the pipeline -/

/-- Put an item at the end of the pipeline. -/
def addItem (s : State) (it : Item) : State := { s with pipe := s.pipe ++ [{ it with id := s.nextId }], nextId := s.nextId + 1 }

/-- An item of a group's trace, for the committing lanes. -/
def itemOf (g : Group) (c : Ctx) (e : Eff) (kind : Nat) : Item :=
  { id := 0, group := g.uid, part := g.part, serial := g.serial, wkg := g.wkg, core := g.core, trace := c.addr, lanes := c.active,
    eff := e, kind := kind, refused := [] }

/-- FENCEs that have taken effect leave the pipeline; one that acquires drops the L1 copies as it does (R166). -/
def tidy (s : State) : State :=
  let passed := s.pipe.filter fun it => match it.eff.op with
    | .fence _ _ => fencePassed s it
    | _ => false
  passed.foldl (fun s it => match it.eff.op with
    | .fence mode scope => if mode != 1 && wideScope scope then l1DropAll s it.core else s
    | _ => s) { s with pipe := s.pipe.filter fun it => !(passed.any fun p => p.id == it.id) }

/-! ### Reading -/

/-- What one lane's read gives: a fault code, the reject reason of a method, or bytes with their physical address. -/
inductive Got where
  | fault (code : Nat)
  | reject (reason : Nat)
  | ok (bytes : List Byte) (pa : Nat)
  deriving DecidableEq, Repr, Inhabited

/-- Byte i of a span is supplied by a store, not by memory: two different backgrounds give one value. -/
def suppliedBy (f : List Byte → List Byte) (n : Nat) : List Bool :=
  ((f (List.replicate n 0)).zip (f (List.replicate n 0xFF))).map fun p => p.1 == p.2

/-- The stores that a load sees over what its memory holds: its group's, its core's, and the lane's own buffered ones (R127, R160). -/
def loadPatch (s : State) (g : Group) (c : Ctx) (lane va : Nat) (x : Xlat) (bs : List Byte) : List Byte :=
  ownBuffered c .global lane va (forwardGlobal s g va x.pa (x.ord == 0) bs)

/-- A naturally aligned load of a global address, in R411's order, with the group's stores and the lane's own buffered bytes over it (R127,
R160). `home`: the instruction is served at the home, as `.nt` and an acquire are (R163, R164). In a method a fault is reason 4 before
reasons 1 and 2 (DESIGN CHOICE [99]). -/
def loadLane (s : State) (g : Group) (c : Ctx) (lane va n : Nat) (home : Bool) : Got :=
  if 2 ^ 55 ≤ va then .fault (accessFault 3 0 va)
  else if va % n ≠ 0 then .fault 5
  else
    match translate s g.core g.die g.part va .read with
    | .error e => .fault (accessFault e 0 va)
    | .ok x =>
      if !methodMayLoad s g va n x.pa then .reject 1
      else
        let patch := loadPatch s g c lane va x
        let own := suppliedBy patch n
        if (servedByL1 s g x home).isNone && (List.range n).any fun i => !(own.getD i false) && badSpan s g.die (x.pa + i) 1 then
          .fault (dataError s g.die x.pa n)
        else .ok (patch (loadGlobal s g x home n)) x.pa

/-- The ordering kind of a load's page; none where it does not translate. -/
def loadKind (s : State) (g : Group) (va : Nat) : Option Nat :=
  match translate s g.core g.die g.part va .read with
  | .ok x => some x.ord
  | .error _ => none

/-- Where a load reaches the home of its bytes; none where an L1 copy serves it or it does not translate. -/
def homeRead (s : State) (g : Group) (va : Nat) (home : Bool) : Option Nat :=
  match translate s g.core g.die g.part va .read with
  | .ok x => if (servedByL1 s g x home).isSome then none else some x.pa
  | .error _ => none

/-- The bytes of a load that its home supplies, for a lane: lane, physical address, length (R27). -/
def homeSpans (s : State) (g : Group) (c : Ctx) (lane va n : Nat) (home : Bool) : List (Nat × Nat × Nat) :=
  match translate s g.core g.die g.part va .read with
  | .ok x =>
    let own := suppliedBy (loadPatch s g c lane va x) n
    if (servedByL1 s g x home).isSome then []
    else if own.any id then ((List.range n).filter fun i => !own.getD i false).map fun i => (lane, x.pa + i, 1)
    else [(lane, x.pa, n)]
  | .error _ => []

/-- A load's walk, and the load where it reaches the home, meet the check codes of their lines (R26, R27, R142). -/
def seeLoad (s : State) (g : Group) (va n : Nat) (home : Bool) : State :=
  if s.flaws.isEmpty then s
  else
    let s1 := seeWalk s g.core g.die g.part va
    match homeRead s1 g va home with
    | some pa => seeSpan s1 g.die pa n (some g.part) g.coreNo
    | none => s1

/-- A load's line is held by a parked atomic at its home, or its walk is (R156, R160). -/
def loadBlocked (s : State) (g : Group) (va n : Nat) (home : Bool) : Bool :=
  walkHeld s g.core g.die g.part va ||
    (match homeRead s g va home with
     | some pa => parkedBlocks s pa n false
     | none => false)

/-- A load of these bytes is ready: no update of the group over them is outstanding (R160), the group's FENCEs have taken effect
(R166), no parked atomic holds its line, no acquire atomic of the group is outstanding (R163), which UO pages do not wait for (R164), an
SO load follows the group's SO accesses (R162), and an acquire or SO load follows a parked atomic (R168, R176). `so` and `acq` hold of
the instruction as a whole (R165). -/
def loadReady (s : State) (g : Group) (va n : Nat) (so acq home : Bool) : Bool :=
  let pa := match translate s g.core g.die g.part va .read with
    | .ok x => x.pa
    | .error _ => 2 ^ 64
  let mine := ofGroup s g
  !atomicPending s g va pa n && fencesPassed s mine && !loadBlocked s g va n home &&
    ((!so && loadKind s g va == some 2) || !mine.any (·.acquires)) &&
    (!so || !soPending s g) && (!(acq || so) || !parkedAtomic s g)

/-- One name for each byte of a share: the own core's position in the window is the own share (R135). -/
def scratchName (g : Group) (off : Nat) : Nat :=
  if bit off 22 && bits off 21 20 == g.core % 4 && off < 2 ^ 23 then off % 2 ^ 20 else off

/-- Stores of the group to scratchpad that are committed and not performed, over bytes at a named offset (R160). -/
def forwardScratch (s : State) (g : Group) (off : Nat) (bs : List Byte) : List Byte :=
  s.pipe.foldl (fun bs it =>
    if it.group != g.uid then bs
    else
      match it.eff.op with
      | .store .scratch _ _ _ _ =>
        it.eff.elems.foldl (fun bs x => if x.open then overlay bs off x.addr x.data else bs) bs
      | _ => bs) bs

/-- An ATOMS of the group over these bytes is outstanding (R160), or, through the cluster window, any store or ATOMS of the group to
the same target core, since its accesses arrive there in effect order (R169). -/
def scratchPending (s : State) (g : Group) (off n : Nat) : Bool :=
  let target := fun (a : Nat) => bit off 22 && a / 2 ^ 20 == off / 2 ^ 20
  (ofGroup s g).any fun it =>
    match it.eff.op with
    | .atomic .atoms _ ty _ _ _ _ _ _ =>
      it.eff.elems.any fun x => x.open && ((x.addr < off + n && off < x.addr + (if wideTy ty then 8 else 4)) || target x.addr)
    | .store .scratch _ _ _ _ => it.eff.elems.any fun x => x.open && target x.addr
    | .lda _ => it.eff.elems.any fun x => x.open && target x.b
    | .ring _ _ false _ => it.eff.elems.any fun x => x.open && decide (x.addr < off + n) && decide (off < x.addr + 64)
    | _ => false

/-- A load of scratchpad is ready (R160, R163, R166, R168, R169). -/
def scratchReady (s : State) (g : Group) (off n : Nat) (acq : Bool) : Bool :=
  !scratchPending s g (scratchName g off) n && fencesPassed s (ofGroup s g) && !(ofGroup s g).any (·.acquires) &&
    (!acq || !parkedAtomic s g)

/-! ### Scratchpad words in error (R25 to R27) -/

/-- A write of a share; a bank word written whole shows no error any more. -/
def Workgroup.put (w : Workgroup) (o : Nat) (d : List Byte) : Workgroup :=
  { w with data := swrite w.data o d, flaws := w.flaws.filter fun f => !(decide (o ≤ f.off) && decide (f.off + 4 ≤ o + d.length)) }

/-- A flaw lies in a span of a share. -/
def WordFlaw.inSpan (f : WordFlaw) (o n : Nat) : Bool := decide (f.off < o + n) && decide (o < f.off + 4)

/-- A read of a span of a share meets its check codes: a correction is counted and written back, an uncorrectable error has one
record. -/
def seeScratch (s : State) (w0 : Workgroup) (o n : Nat) : State :=
  if w0.flaws.isEmpty then s
  else
    w0.flaws.foldl (fun s f =>
      if !f.inSpan o n then s
      else
        match s.wkg? w0.part w0.serial w0.wkg with
        | none => s
        | some w =>
          let die := dieOfCore w.core
          if f.bad then
            if f.seq.isSome then s
            else
              writeErr (s.setWkg { w with flaws := w.flaws.map fun x => if x.off == f.off then { x with seq := some (s.die die).recSeq } else x })
                { die := die, kind := 2, hop := 5, part := some w.part, core := w.core % 48, addr := 0, synd := f.synd }
          else
            countCorrected (s.setWkg { w with flaws := w.flaws.filter fun x => x.off != f.off }) die 5 f.synd 0 (some w.part) (w.core % 48)) s

/-- The data error of a span of a share, if some word of it is bad: with its record's SEQ (R30). -/
def Workgroup.badWord (w : Workgroup) (o n : Nat) : Option Nat :=
  (w.flaws.find? fun f => f.bad && f.inSpan o n).map fun f => faultAt 9 0 0 ((f.seq.getD 0).toNat + 1)

/-- The same of a scratchpad offset that a group names. -/
def seeOffset (s : State) (g : Group) (off n : Nat) : State :=
  match scratchAt s g off n with
  | some w => seeScratch s w.1 w.2 n
  | none => s

/-- A load of a scratchpad offset (R135, R411). -/
def loadScratch (s : State) (g : Group) (c : Ctx) (lane off n : Nat) : Got :=
  match scratchAt s g off 1 with
  | none => .fault (accessFault 4 0 off)
  | some w =>
    if off % n ≠ 0 then .fault 5
    else
      let name := scratchName g off
      let patch := fun bs => ownBuffered c .scratch lane name (forwardScratch s g name bs)
      let own := suppliedBy patch n
      match (List.range n).findSome? fun i => if own.getD i false then none else w.1.badWord (w.2 + i) 1 with
      | some e => .fault e
      | none => .ok (patch (sread w.1.data w.2 n)) 0

/-! ### Limits of a trace (R119) -/

/-- Entries that a lane holds of the trace's buffered stores. -/
def storeEntries (c : Ctx) (lane : Nat) : Nat :=
  c.effs.foldl (fun k e =>
    match e.op with
    | .store _ _ _ _ uni => if uni || e.elems.any fun x => x.lane == lane then k + 1 else k
    | _ => k) 0
/-- Deferred atomics that a lane holds. -/
def atomEntries (c : Ctx) (lane : Nat) : Nat :=
  c.effs.foldl (fun k e =>
    match e.op with
    | .atomic _ _ _ _ _ _ _ _ _ => if e.elems.any fun x => x.lane == lane then k + 1 else k
    | _ => k) 0
/-- Engine posts of the fragment. -/
def postCount (c : Ctx) : Nat :=
  c.effs.foldl (fun k e =>
    match e.op with
    | .post _ _ _ _ _ _ => k + 1
    | .mma _ _ _ _ _ => k + 1
    | .lda _ => k + 1
    | .dlog _ => k + 1
    | _ => k) 0
/-- The trace has issued its SPAWN. -/
def spawnCount (c : Ctx) : Nat :=
  c.effs.foldl (fun k e =>
    match e.op with
    | .spawn _ _ => k + 1
    | _ => k) 0

/-- Buffer an effect. -/
def Ctx.buffer (c : Ctx) (op : EffOp) (elems : List Elem) : Ctx :=
  { c with effs := c.effs ++ [{ ix := c.ix, op := op, elems := elems }] }

def Elem.mk0 (lane addr : Nat) (data : List Byte) : Elem :=
  { lane := lane, addr := addr, data := data, b := 0, c := 0, pa := 0, st := .fresh }

/-! ### Fields of rings and entries -/

/-- An address of a ring or entry: a scratchpad offset, or a bench address. -/
structure Spot where
  bench : Bool
  addr : Nat
  deriving DecidableEq, Repr, Inhabited

/-- Where a ring or entry of n bytes stands for a group: the check of R135 or R143 (TIER bench, one 64 KiB page), or a code. -/
def spotCheck (s : State) (g : Group) (x : Spot) (n align : Nat) (need : Need) : Nat :=
  if x.bench then
    if 2 ^ 55 ≤ x.addr then accessFault 3 4 x.addr
    else if x.addr % align ≠ 0 then 5
    else
      match translate s g.core g.die g.part x.addr need with
      | .error e => accessFault e 4 x.addr
      | .ok t => if t.tier != .bench || 65536 < x.addr % 65536 + n then accessFault 4 4 x.addr else 0
  else
    if (scratchAt s g x.addr 1).isNone then accessFault 4 4 x.addr
    else if x.addr % align ≠ 0 then 5
    else if (scratchAt s g x.addr n).isNone then accessFault 4 4 x.addr
    else 0

/-- Bytes at a spot that cannot be read, or that a parked atomic or a walk's line holds. -/
def spotBad (s : State) (g : Group) (x : Spot) (n : Nat) : Bool :=
  if x.bench then
    match translate s g.core g.die g.part x.addr .read with
    | .ok t => badSpan s g.die t.pa n
    | .error _ => true
  else
    match scratchAt s g x.addr n with
    | some w => (w.1.badWord w.2 n).isSome
    | none => false
def spotParked (s : State) (g : Group) (x : Spot) (n : Nat) : Bool := x.bench && vaHeld s g.core g.die g.part x.addr n .read
/-- The walk of a check at issue waits behind a parked atomic (R142, R156). -/
def spotWalkHeld (s : State) (g : Group) (x : Spot) : Bool := x.bench && walkHeld s g.core g.die g.part x.addr
/-- The walk of such a check meets the check codes of its entries. -/
def seeSpotWalk (s : State) (g : Group) (x : Spot) : State := if x.bench then seeWalk s g.core g.die g.part x.addr else s

/-- Bytes at a spot; zeros where it reaches nothing. -/
def spotRead (s : State) (g : Group) (x : Spot) (n : Nat) : List Byte :=
  if x.bench then
    match translate s g.core g.die g.part x.addr .read with
    | .ok t => pread s t.pa n
    | .error _ => List.replicate n 0
  else
    match scratchAt s g x.addr n with
    | some w => sread w.1.data w.2 n
    | none => List.replicate n 0

/-- A method's write to its state block is journalled: what it overwrites, newest first (R250). -/
def journalled (s : State) (g : Group) (pa n : Nat) : State :=
  if g.landing.isSome then
    { s with journal := ((pread s pa n).mapIdx fun i b => (g.uid, pa + i, b)).reverse ++ s.journal }
  else s

/-- Write bytes at a spot; nothing where it reaches nothing. -/
def spotWrite (s : State) (g : Group) (x : Spot) (d : List Byte) : State :=
  if x.bench then
    match translate s g.core g.die g.part x.addr .write with
    | .ok t => pwriteLong (journalled s g t.pa d.length) t.pa d
    | .error _ => s
  else
    match scratchAt s g x.addr d.length with
    | some w => s.setWkg (w.1.put w.2 d)
    | none => s

/-! ### Uniform operands -/

/-- A fault of a uniform instruction in every active lane (R129). -/
def uniFault (s : State) (g : Group) (n : Node) (c : Ctx) (code : Nat) (next : Ctx → Ctx) : State :=
  faultLanes s g n c ((lanesOf c.active).map fun l => (l, code)) next

/-- A U = 1 source: a scalar, or an inline constant (Table 11.4). -/
def scalarOk (f : Nat) : Bool := f < 128
def readScalar (g : Group) (n : Node) (f : Nat) : Word := if f < 64 then readS g n f else BitVec.ofNat 32 (f - 64)
/-- Scalars that a U = 1 source reads. -/
def scalarUse (f : Nat) : List Nat := if f < 64 then [f] else []

end Sys2Proof.Machine
end

