-- ==== Sys2Proof/Machine/Sync.lean ====
section
/-! DEFINITION. Waits, fences, barriers, rings, releases, tickets and spawning, as they issue (R83 to R92, R147, R300 to R311,
R339). What commits is in Commit. -/
namespace Sys2Proof.Machine

/-- The queue that SUB names for a group, in the order of R301. -/
def queueRefOf (g : Group) (sub : Nat) : QueueRef :=
  match sub with
  | 0 => { kind := .mq, unit := g.core, part := g.part }
  | 1 => { kind := .cq, unit := g.core, part := g.part }
  | 2 => { kind := .lq, unit := cluOfCore g.core, part := g.part }
  | _ => { kind := .kq, unit := g.die, part := g.part }

/-- A queue of the group's partition. -/
def engqFor (s : State) (g : Group) (sub : Nat) : Option EngQ :=
  match s.part? g.part with
  | some p => p.engq? (queueRefOf g sub)
  | none => none

/-! ### Waits (R147, R300 to R302) -/

/-- A wait passes: it is an acquire and changes no register. -/
def passWait (s : State) (g : Group) (n : Node) (c : Ctx) : State := putCtx (acquire s g 4) g n (c.advance 2)

/-- A counter is at or below an allowance; 255 is no condition (R300). -/
def allowed (count : Word) (a : Byte) : Bool := a == 255 || count.toNat ≤ a.toNat

/-- WAITC (R300). -/
def execWaitc (c : WaitCounts) (s : State) : Host.Outcome State Fault Refusal :=
  waitOp false Use.none 0
    (fun s g _ _ => allowed g.ld c.ld && allowed g.st c.st && allowed g.cp c.cp && allowed g.tl c.tl && acquireReady s g) passWait s

/-- The counter that SUB names: LD, ST, CP, TL. -/
def counterOf (g : Group) (sub : Nat) : Word :=
  match sub with
  | 0 => g.ld
  | 1 => g.st
  | 2 => g.cp
  | _ => g.tl

/-- WAITP.class sa (R300); a field that is no scalar and no constant is code 6. -/
def execWaitp (o : LOp) (s : State) : Host.Outcome State Fault Refusal :=
  let a := o.a.toNat
  waitOp false { Use.none with sr := scalarUse a } 0
    (fun s g n _ => !scalarOk a || ((counterOf g o.sub.toNat).toNat ≤ (readScalar g n a).toNat && acquireReady s g))
    (fun s g n c => if scalarOk a then passWait s g n c else uniFault s g n c 6 (·.advance 2)) s

/-- WAITSEQ.queue sa, by the modulo comparison of R151 (R301). -/
def execWaitseq (o : LOp) (s : State) : Host.Outcome State Fault Refusal :=
  let a := o.a.toNat
  waitOp false { Use.none with sr := scalarUse a } 0
    (fun s g n _ => !scalarOk a ||
      (match engqFor s g o.sub.toNat with
       | some q => seqReached q.word (readScalar g n a) && acquireReady s g
       | none => false))
    (fun s g n c => if scalarOk a then passWait s g n c else uniFault s g n c 6 (·.advance 2)) s

/-- GATE: not ready while the launch's gate is closed (R88, R302). A landing group has no launch, and so no gate. -/
def execGate (s : State) : Host.Outcome State Fault Refusal :=
  waitOp false Use.none 0
    (fun s g _ _ => match s.launch? g.part g.serial with
      | some l => l.gateOpen && acquireReady s g
      | none => true) passWait s

/-! ### Fences, releases, barriers -/

/-- FENCE takes its place at commit (R166, R303). -/
def execFence (o : LOp) (s : State) : Host.Outcome State Fault Refusal :=
  coreOp false Use.none 0 (fun s g n c =>
    putCtx s g n ((c.buffer (.fence o.sub.toNat o.mod.toNat) []).advance 2)) s

/-- RELEASE counts at commit (R87, R310). -/
def execRelease (s : State) : Host.Outcome State Fault Refusal :=
  coreOp false Use.none 6 (fun s g n c => putCtx s g n ((c.buffer .release []).advance 2)) s

/-- The group's launch has CLUSTER (R78). -/
def inClusterLaunch (s : State) (g : Group) : Bool :=
  match s.launch? g.part g.serial with
  | some l => bit (l.fld 30 1) 4
  | none => false

/-- BAR number, target (R305). -/
def execBar (o : CtlOp) (s : State) : Host.Outcome State Fault Refusal :=
  coreOp true Use.none 6 (fun s g n c =>
    if 15 < o.a.toNat then groupFault s g n c 6
    else
      let t := relAddr c.pc o.offset
      terminate s g n c (.bar false o.a.toNat t) [t]) s

/-- CBAR number, target: only in a launch with CLUSTER (R305). -/
def execCbar (o : CtlOp) (s : State) : Host.Outcome State Fault Refusal :=
  coreOp true Use.none 6 (fun s g n c =>
    if 3 < o.a.toNat || !inClusterLaunch s g then groupFault s g n c 6
    else
      let t := relAddr c.pc o.offset
      terminate s g n c (.bar true o.a.toNat t) [t]) s

/-! ### Rings (R306 to R309) -/

/-- A pair operand of U = 1: an even scalar pair, or an inline constant. -/
def pairOk (f : Nat) : Bool := if f < 64 then f % 2 == 0 else f < 128
def readPair (g : Group) (n : Node) (f : Nat) : Nat :=
  if f < 64 then pairOf (readS g n f) (readS g n (f + 1)) else f - 64
def pairUse (f : Nat) : List Nat := if f < 64 then [f, f + 1] else []

/-- The ring that a register names: a scratchpad offset under its one name, or a bench address. -/
def ringSpot (g : Group) (n : Node) (bench : Bool) (f : Nat) : Spot :=
  if bench then { bench := true, addr := readPair g n f }
  else { bench := false, addr := scratchName g (readScalar g n f).toNat }
def ringRegOk (bench : Bool) (f : Nat) : Bool := if bench then pairOk f else scalarOk f
def ringUse (bench : Bool) (f : Nat) : List Nat := if bench then pairUse f else scalarUse f

/-- A ring header (Table 12.4). -/
abbrev RingHdr := List Byte
def RingHdr.headc (h : RingHdr) : Word := BitVec.ofNat 32 (field h 0 4)
def RingHdr.tailc (h : RingHdr) : Word := BitVec.ofNat 32 (field h 4 4)
def RingHdr.nprod (h : RingHdr) : Nat := field h 8 2
def RingHdr.ncons (h : RingHdr) : Nat := field h 10 2
def RingHdr.flags (h : RingHdr) : Nat := field h 12 1
def RingHdr.logslots (h : RingHdr) : Nat := field h 13 1
def RingHdr.words (h : RingHdr) : Nat := field h 14 1
/-- The zero field, WORDS and LOGSLOTS keep Table 12.4. -/
def RingHdr.ok (h : RingHdr) : Bool :=
  leNat (takeAt h 15 49) == 0 && 4 ≤ h.words && h.words ≤ 96 && h.words % 4 == 0 && 1 ≤ h.logslots && h.logslots ≤ 12
def RingHdr.bytes (h : RingHdr) : Nat := 64 + 2 ^ h.logslots * 4 * h.words
/-- Offset of slot i (R306). -/
def RingHdr.slotAt (h : RingHdr) (i : Word) : Nat := 64 + i.toNat % 2 ^ h.logslots * 4 * h.words

/-- Join reads of 8 bytes; the first fault stands. -/
def joinGot : List Got → Got
  | [] => .ok [] 0
  | x :: xs =>
    match x with
    | .ok b pa =>
      (match joinGot xs with
       | .ok bs _ => .ok (b ++ bs) pa
       | y => y)
    | y => y

/-- The header as the fragment loads it at issue. -/
def loadHeader (s : State) (g : Group) (c : Ctx) (x : Spot) : Got :=
  joinGot ((List.range 8).map fun k =>
    if x.bench then loadLane s g c uniLane (x.addr + 8 * k) 8 true else loadScratch s g c uniLane (x.addr + 8 * k) 8)

/-- Loads of the header are ready. -/
def headerReady (s : State) (g : Group) (x : Spot) : Bool :=
  if x.bench then loadReady s g x.addr 64 (loadKind s g x.addr == some 0) false true else scratchReady s g x.addr 64 false

/-- A read at a spot meets the check codes there (R26, R27). -/
def seeSpot (s : State) (g : Group) (x : Spot) (n : Nat) : State :=
  if x.bench then seeLoad s g x.addr n true else seeOffset s g x.addr n

/-- The checks of a ring that the instruction updates, at issue: its place (R135, R143), its header (code 6), its whole extent (code 4)
[81]. -/
def ringCheck (s : State) (g : Group) (c : Ctx) (x : Spot) : Got :=
  match spotCheck s g x 64 64 .update with
  | 0 =>
    (match loadHeader s g c x with
     | .ok h pa =>
       if !RingHdr.ok h then .fault 6
       else if spotCheck s g x (RingHdr.bytes h) 64 .update ≠ 0 then .fault (accessFault 4 4 x.addr)
       else .ok h pa
     | y => y)
  | e => .fault e

/-- Attachments that a trace has buffered. -/
def pendingAttach (c : Ctx) : List (Bool × Bool × Nat) :=
  c.effs.filterMap fun e =>
    match e.op with
    | .ring true cons bench addr => some (cons, bench, addr)
    | _ => none

/-- Attachments that the group holds, or that one of its open traces has buffered (R307). -/
def attachments (g : Group) : List (Bool × Bool × Nat) :=
  (g.rings ++ (g.nodes.flatMap fun n => match n.ctx with
    | some c => if c.entered.isSome then [] else pendingAttach c
    | none => [])).eraseDups

/-- QOPEN.role sa: the header is read and checked at issue, the attachment is made at commit (R307). A method may execute it, and QCLOSE,
since R249 names neither; an attachment that a landing group makes is not given back when its call ends (DESIGN CHOICE [100]). -/
def execQopen (o : LOp) (s : State) : Host.Outcome State Fault Refusal :=
  let a := o.a.toNat
  let bench := bit o.sub.toNat 2
  let cons := bit o.sub.toNat 0
  waitOp false { Use.none with sr := ringUse bench a } 0
    (fun s g n _ => !ringRegOk bench a || headerReady s g (ringSpot g n bench a))
    (fun s0 g n c =>
      if !ringRegOk bench a then uniFault s0 g n c 6 (·.advance 2)
      else
        let x := ringSpot g n bench a
        let s := seeSpot s0 g x 64
        match ringCheck s g c x with
        | .fault e => uniFault s g n c e (·.advance 2)
        | .reject r => rejectCall s g r 0
        | .ok _ _ =>
          let held := attachments g
          if !held.contains (cons, bench, x.addr) && 8 ≤ held.length then uniFault s g n c 6 (·.advance 2)
          else putCtx s g n ((c.buffer (.ring true cons bench x.addr) []).advance 2)) s

/-- QCLOSE.role sa (R307). -/
def execQclose (o : LOp) (s : State) : Host.Outcome State Fault Refusal :=
  let a := o.a.toNat
  let bench := bit o.sub.toNat 2
  let cons := bit o.sub.toNat 0
  coreOp false { Use.none with sr := ringUse bench a } 0 (fun s g n c =>
    if !ringRegOk bench a then uniFault s g n c 6 (·.advance 2)
    else
      let x := ringSpot g n bench a
      putCtx s g n ((c.buffer (.ring false cons bench x.addr) []).advance 2)) s

/-- QSTAT.sel sd, sa: a snapshot of the header (R309). -/
def execQstat (o : LOp) (s : State) : Host.Outcome State Fault Refusal :=
  let a := o.a.toNat
  let d := o.d.toNat
  let bench := bit o.sub.toNat 2
  let okRegs := ringRegOk bench a && decide (d < 64)
  waitOp false { Use.none with sr := d :: ringUse bench a, ws := [d] } 0
    (fun s g n _ => !okRegs || headerReady s g (ringSpot g n bench a))
    (fun s0 g n c =>
      if !okRegs then uniFault s0 g n c 6 (·.advance 2)
      else
        let x := ringSpot g n bench a
        let s := seeSpot s0 g x 64
        match (match spotCheck s g x 64 64 .read with
          | 0 => loadHeader s g c x
          | e => .fault e) with
        | .fault e => uniFault s g n c e (·.advance 2)
        | .reject r => rejectCall s g r 0
        | .ok h _ =>
          let v : Word := if bit o.sub.toNat 0 then
              BitVec.ofNat 32 (RingHdr.flags h % 4 + min (RingHdr.nprod h) 255 * 2 ^ 8 + min (RingHdr.ncons h) 255 * 2 ^ 16)
            else RingHdr.tailc h - RingHdr.headc h
          match writeS (g, n, c) d v with
          | (g1, n1, c1) => putCtx s g1 n1 (c1.advance 2).settle) s

/-- PUSHQ and POPQ at issue: operands, attachment, ring and header (R308). -/
def ringTerm (cons : Bool) (o : CtlOp) (mk : Bool → Nat → Nat → Nat → Nat → Term) (s : State) : Host.Outcome State Fault Refusal :=
  let d := o.d.toNat
  let bench := bit o.sub.toNat 2
  let okD := decide (d < 64) && ringRegOk bench d
  waitOp true { Use.none with sr := ringUse bench d, vr := [o.a.toNat], pr := [o.pred.toNat] } 6
    (fun s g n _ => !okD || headerReady s g (ringSpot g n bench d))
    (fun s0 g n c =>
      if !okD || g.nregs ≤ o.a.toNat then groupFault s0 g n c 6
      else
        let x := ringSpot g n bench d
        let s := seeSpot s0 g x 64
        if !g.rings.contains (cons, bench, x.addr) then groupFault s g n c 6
        else
          match ringCheck s g c x with
          | .fault e => groupFault s g n c e
          | .reject r => rejectCall s g r 0
          | .ok _ _ =>
            let t := relAddr c.pc o.offset
            terminate s g n c (mk bench x.addr o.a.toNat o.pred.toNat t) [t]) s

/-- PUSHQ pd, sr, va, target (R308). -/
def execPushq (o : CtlOp) (s : State) : Host.Outcome State Fault Refusal :=
  ringTerm false o (fun b r v p t => .push b r v p t) s
/-- POPQ pd, sr, va, target (R308). -/
def execPopq (o : CtlOp) (s : State) : Host.Outcome State Fault Refusal :=
  ringTerm true o (fun b r v p t => .pop b r v p t) s

/-! ### Tickets (R83 to R86) -/

/-- Coordinates of position n under a launch's walk (R84). -/
def walkAt (l : Launch) (n : Nat) : Nat × Nat × Nat :=
  let x := l.fld 36 4
  let y := l.fld 40 2
  let w := 2 ^ (l.fld 46 1 / 16)
  if l.fld 46 1 % 16 = 0 then (n % x, n / x % y, n / (x * y))
  else
    let q := n % (x * y)
    let y0 := q / (x * w) * w
    let h := min w (y - y0)
    let q' := q - y0 * x
    (q' / h, y0 + q' % h, n / (x * y))

/-- The size of the index space (R83). -/
def Launch.space (l : Launch) : Nat := l.fld 36 4 * l.fld 40 2 * l.fld 42 2

/-- The grant that the Tollhouse takes from its next position (R83, R84). -/
def takeGrant (l : Launch) : Grant :=
  let k := min (l.fld 44 2) (l.space - l.next)
  let p := if k = 0 then (0, 0, 0) else walkAt l l.next
  { st := 2, n := BitVec.ofNat 64 l.next, c := BitVec.ofNat 32 k, x := BitVec.ofNat 32 p.1, y := BitVec.ofNat 32 p.2.1,
    z := BitVec.ofNat 32 p.2.2 }

/-- TICKET sd: takes effect at issue, confirmed at commit (R84 to R86, R310). -/
def execTicket (o : LOp) (s : State) : Host.Outcome State Fault Refusal :=
  let d := o.d.toNat
  let okD := decide (d % 2 = 0 ∧ d ≤ 54)
  waitOp false { Use.none with sr := (List.range 6).map (d + ·), ws := (List.range 6).map (d + ·) } 6
    (fun _ g _ c => !okD || g.grant.st != 2 || c.ticket)
    (fun s g n c =>
      if !okD then uniFault s g n c 6 (·.advance 2)
      else
        match s.launch? g.part g.serial with
        | none => putCtx s g n (c.advance 2)
        | some l =>
          let fresh := g.grant.st == 0
          let t := if fresh then takeGrant l else { g.grant with st := 2 }
          let s1 := if fresh then s.setLaunch { l with next := l.next + t.c.toNat } else s
          let ws := [(d, t.n.setWidth 32), (d + 1, (t.n >>> 32).setWidth 32), (d + 2, t.c), (d + 3, t.x), (d + 4, t.y), (d + 5, t.z)]
          match ws.foldl (fun st w => writeS st w.1 w.2) ({ g with grant := t }, n, { c with ticket := true }) with
          | (g1, n1, c1) => putCtx s1 g1 n1 (c1.advance 2)) s

/-! ### Spawning (R92, R311, R339) -/

/-- What spawning reserved: the state, and the lanes that hold a slot with its count. -/
structure Reserved where
  s : State
  won : List (Nat × Word)

/-- Reserve slots of a task queue for lanes in ascending order (R92). -/
def reserveSlots (s : State) (g : Group) (q : Nat) (lanes : List Nat) : Reserved :=
  match s.part? g.part with
  | none => { s := s, won := [] }
  | some p =>
    match p.taskq? q with
    | none => { s := s, won := [] }
    | some tq =>
      let room := tq.size - (tq.tailc - tq.headc).toNat
      let won := (lanes.take room).mapIdx fun i l => (l, tq.tailc + BitVec.ofNat 32 i)
      let s1 := s.setPart (p.setTaskq { tq with tailc := tq.tailc + BitVec.ofNat 32 won.length,
                                                reserved := tq.reserved ++ won.map (·.2) })
      { s := won.foldl (fun s w => setSlotState s g tq w.2 1) s1, won := won }

/-- Queue and entry address of word 2 (R311). -/
def spawnQueue (o : LOp) : Nat := bits (o.w2.getD 0).toNat 29 24
def spawnEntry (c : Ctx) (o : LOp) : Nat := relAddr c.pc ((o.w2.getD 0).setWidth 24) % 2 ^ 55

/-- The buffered SPAWN: each winner's 24-byte argument record and its slot count. -/
def spawnEff (c : Ctx) (q entry : Nat) (won : List (Nat × Word)) (rec_ : Nat → List Byte) : Ctx :=
  c.buffer (.spawn q entry) (won.map fun w =>
    { lane := w.1, addr := 0, data := rec_ w.1, b := 0, c := w.2.toNat, pa := 0, st := .fresh })

/-- SPAWN pd, va, q, entry (R92, R311): a helper lane offers nothing (R111). -/
def execSpawn (o : LOp) (s : State) : Host.Outcome State Fault Refusal :=
  let a := o.a.toNat
  let d := o.d.toNat
  coreOp false { Use.none with vr := (List.range 6).map (a + ·), pr := [d, o.ps.toNat], ps := o.ps.toNat, pm := o.pm.toNat } 6
    (fun s g n c =>
      let lanes := selected g o.ps.toNat o.pm.toNat c.active
      let help := selected g o.ps.toNat o.pm.toNat c.helpers
      if spawnCount c ≠ 0 then groupFault s g n c 49
      else if !predOk d || g.nregs < a + 6 then operandFault s g n c [] (if predOk d then [d] else []) help lanes 6 (·.advance 3)
      else
        let r := reserveSlots s g (spawnQueue o) lanes
        let g1 := (lanes ++ help).foldl (fun g l => g.wp l d (if r.won.any fun w => w.1 == l then 1 else 0)) g
        let rec_ := fun l => (List.range 6).flatMap fun k => leBytes 4 (g.rv l (a + k)).toNat
        putCtx r.s g1 n ((spawnEff c (spawnQueue o) (spawnEntry c o) r.won rec_).advance 3)) s

/-- IVBIS.half vd, va, vb, pr, q, entry (R339): a helper lane offers nothing (R111), and zero bounds are written as +0 (R333). -/
def bisectOp (h : Bool) (o : LOp) (s : State) : Host.Outcome State Fault Refusal :=
  let d := o.d.toNat
  let b := o.b.toNat
  let pr := o.mod.toNat % 16
  let dst := if h then [d] else [d, d + 1]
  let u : Use := { sr := o.srcA.scalars (ivKd h), vr := dst ++ (List.range 4).map (b + ·) ++ o.srcA.vectors (ivKd h) [0],
                   pr := [pr, o.ps.toNat], pdg := false, extra := 0, wv := dst, ps := o.ps.toNat, pm := o.pm.toNat }
  coreOp false u 6 (fun s g n c =>
    let lanes := selected g o.ps.toNat o.pm.toNat c.active
    let help := selected g o.ps.toNat o.pm.toNat c.helpers
    let okRegs := dstOk false g.nregs (!h) [0] d && srcOk g.nregs (ivKd h) [0] o.srcA && decide (b + 4 ≤ g.nregs)
    if spawnCount c ≠ 0 then groupFault s g n c 49
    else if !okRegs then operandFault s g n c dst [pr] help lanes 6 (·.advance 3)
    else if !(lanes ++ help).isEmpty && overShadow c dst then groupFault s g n c 49
    else
      let f := ivFmt h
      let iv := fun l => ivOf h (readSrc g n l (ivKd h) o.srcA 0)
      let code := fun l => ivCheck f [iv l]
      let bad := fun l => code l != 0 || (u.reads [l]).any fun r => g.regError r != 0
      let good := lanes.filter fun l => code l == 0
      let r := reserveSlots s g (spawnQueue o) good
      let half := fun l (low : Bool) =>
        let x := iv l
        let m := ivMid f x
        ivImg h (if low then { lo := posZero f x.lo, hi := m } else { lo := m, hi := posZero f x.hi })
      let whole := fun l => ivImg h { lo := posZero f (iv l).lo, hi := posZero f (iv l).hi }
      let low := o.sub == 0
      let rec_ := fun l =>
        (if h then leBytes 4 (half l !low) ++ [0, 0, 0, 0] else leBytes 8 (half l !low)) ++
          (List.range 4).flatMap fun k => leBytes 4 (g.rv l (b + k)).toNat
      let put := fun (g : Group) l (img : Nat) (p : Pred) =>
        ((dstWrites false l d 0 (!h) img).foldl (fun x w => (writeRef (x, n, c) w).1) g).wp l pr p
      let g1 := good.foldl (fun g l =>
        if r.won.any fun w => w.1 == l then put g l (half l low) 1 else put g l (whole l) 0) g
      let g2 := help.foldl (fun g l => if bad l then zeroLane dst [pr] g l else put g l (whole l) 0) g1
      let c1 := spawnEff (if (lanes ++ help).isEmpty then c else c.shadow dst) (spawnQueue o) (spawnEntry c o) r.won rec_
      faultLanes r.s g2 n c1 ((lanes.filter fun l => code l != 0).map fun l => (l, code l)) (·.advance 3)) s

/-- IVBIS, `.iv32` (R339). -/
def execIvbis (o : LOp) (s : State) : Host.Outcome State Fault Refusal := bisectOp false o s
/-- IVBIS, `.iv16` (R339). -/
def execIvbisIv16 (o : LOp) (s : State) : Host.Outcome State Fault Refusal := bisectOp true o s

end Sys2Proof.Machine
end

