-- ==== Sys2Proof/Machine/Mem.lean ====
section
/-! DEFINITION. Loads, buffered stores, asynchronous loads, literals and cache control, as they issue (R340, R342 to R354). -/
namespace Sys2Proof.Machine

/-! ### Operands and addresses (R343, R345) -/

def memSrcA (o : MemOp) : Src := srcOf o.u o.ak o.a.toNat
/-- B, or the literal that stands in its place. -/
def memSrcB (o : MemOp) : Src :=
  match o.w2 with
  | some w => .lit w
  | none => srcOf o.u o.bk o.b.toNat

/-- Bytes, registers and sign extension of a width code (Table 14.4). -/
def widthBytes (sub : Nat) : Nat := if sub < 2 then 1 else if sub < 4 then 2 else if sub = 4 then 4 else if sub = 5 then 8 else 16
def widthRegs (sub : Nat) : Nat := if sub < 5 then 1 else if sub = 5 then 2 else 4
def widthSigned (sub : Nat) : Bool := sub == 1 || sub == 3

/-- What a memory instruction accesses. -/
structure MemForm where
  scratch : Bool
  bytes : Nat
  regs : Nat
  signed : Bool
  /-- an interval load's format in bits, 0 for none -/
  iv : Nat
  deriving DecidableEq, Repr, Inhabited

def formOf (scratch : Bool) (sub : Nat) : MemForm :=
  { scratch := scratch, bytes := widthBytes sub, regs := widthRegs sub, signed := widthSigned sub, iv := 0 }
/-- IVLD and IVST: SUB bit 0 selects the space (R340). -/
def ivForm (h : Bool) (o : MemOp) : MemForm :=
  { scratch := bit o.sub.toNat 0, bytes := if h then 4 else 8, regs := if h then 1 else 2, signed := false,
    iv := if h then 16 else 32 }

/-- The data register D of an image: aligned to it, and allocated (R345). -/
def dataOk (uni : Bool) (nregs regs d : Nat) : Bool :=
  d % regs == 0 && (if uni then d + regs ≤ 64 else d + regs ≤ nregs)
/-- How A is read. -/
def addrKd (scratch : Bool) : Kd := if scratch then .raw else .int 3

/-- A lane's address as formed (Table 14.2). -/
def memAddr (g : Group) (n : Node) (o : MemOp) (scratch : Bool) (lane : Nat) : Nat :=
  let a := readSrc g n lane (addrKd scratch) (memSrcA o) 0
  let b := sext (readSrc g n lane .raw (memSrcB o) 0) 32
  trunc (a + b) (if scratch then 32 else 64)

/-- Operand check of a memory instruction (code 6). -/
def memChk (o : MemOp) (m : MemForm) (nregs : Nat) (useD : Bool) : Bool :=
  (!useD || dataOk o.u nregs m.regs o.d.toNat) && srcOk nregs (addrKd m.scratch) [0] (memSrcA o) && srcOk nregs .raw [0] (memSrcB o)

/-- Registers used. -/
def memUse (o : MemOp) (m : MemForm) : Use :=
  let ds := (List.range m.regs).map (o.d.toNat + ·)
  { sr := (memSrcA o).scalars (addrKd m.scratch) ++ (memSrcB o).scalars .raw ++ (if o.u then ds else []),
    vr := (memSrcA o).vectors (addrKd m.scratch) [0] ++ (memSrcB o).vectors .raw [0] ++ (if o.u then [] else ds),
     pr := if o.u then [] else [o.ps.toNat], pdg := false, extra := 0,
    ps := if o.u then 15 else o.ps.toNat, pm := if o.u then 0 else o.pm.toNat }
/-- The same of a load, which only writes D. -/
def loadUse (o : MemOp) (m : MemForm) : Use :=
  let ds := (List.range m.regs).map (o.d.toNat + ·)
  { memUse o m with wv := if o.u then [] else ds, ws := if o.u then ds else [] }

/-- Words of a memory instruction. -/
def memWords (o : MemOp) : Nat := lenWords o.w2
/-- The lanes that access memory: the fragment once, or the selected active lanes (R129, R342). -/
def memLanes (g : Group) (c : Ctx) (o : MemOp) : List Nat := if o.u then [uniLane] else selected g o.ps.toNat o.pm.toNat c.active
/-- A uniform access's fault is every active lane's (R129). -/
def spreadFaults (c : Ctx) (uni : Bool) (fs : List (Nat × Nat)) : List (Nat × Nat) :=
  if uni then
    match fs with
    | [] => []
    | f :: _ => (lanesOf c.active).map fun l => (l, f.2)
  else fs

/-! ### Loads -/

/-- The register image of loaded bytes, word by word (Table 14.4); an interval's zero bounds enter as +0 (R216). -/
def loadImage (m : MemForm) (bs : List Byte) : List Word :=
  let x := leNat bs
  if m.iv ≠ 0 then
    let y := ivOf (m.iv == 16) x
    let f := ivFmt (m.iv == 16)
    let z := ivImg (m.iv == 16) { lo := posZero f y.lo, hi := posZero f y.hi }
    (List.range m.regs).map fun k => BitVec.ofNat 32 (z / 2 ^ (32 * k))
  else if m.signed then [truncW (sext x (8 * m.bytes))]
  else (List.range m.regs).map fun k => BitVec.ofNat 32 (x / 2 ^ (32 * k))

/-- A trace owns a scalar that a load will write (R130). -/
def Ctx.own (c : Ctx) (g : Group) (r : Nat) : Ctx :=
  if 60 ≤ r || c.owned.any fun o => o.1 == r then c else { c with owned := (r, g.ownedVal r) :: c.owned }

/-- The lowest lane whose read is outside what a method may reach. -/
def rejectOf (rs : List (Nat × Nat × Got)) : Option Nat :=
  rs.findSome? fun r => match r.2.2 with
    | .reject x => some x
    | _ => none
/-- The faults of some reads. -/
def faultsOf (rs : List (Nat × Nat × Got)) : List (Nat × Nat) :=
  rs.filterMap fun r => match r.2.2 with
    | .fault e => some (r.1, e)
    | _ => none

/-- Put a load in flight: its registers are scoreboarded until it returns (R120, R346). -/
def issueLoad (s : State) (g : Group) (n : Node) (c : Ctx) (dst : List RegRef) (l : Load) : State × Group × Ctx :=
  let c1 := dst.foldl (fun c r => match r with
    | .s k => c.own g k
    | _ => c) c
  ({ s with nextId := s.nextId + 1 }, { g with loads := g.loads ++ [{ l with id := s.nextId, node := n.ix, ix := c.ix }] }, c1)

/-- The ordering kinds of the pages that a memory instruction's lanes touch (R165). -/
def memKinds (o : MemOp) (m : MemForm) (s : State) (g : Group) (n : Node) (c : Ctx) : List Nat :=
  if m.scratch then [] else (memLanes g c o).filterMap fun l => loadKind s g (memAddr g n o m.scratch l)

/-- The load is an acquire: it bears the mark, and its pages are not all UO (R163 to R165). -/
def memAcquires (o : MemOp) (m : MemForm) (s : State) (g : Group) (n : Node) (c : Ctx) : Bool :=
  o.mark == 1 && (m.scratch || !(memKinds o m s g n c).all (· == 2))

/-- Every lane's read meets the check codes of what it reads (R26, R27). -/
def seeLanes (o : MemOp) (m : MemForm) (home : Bool) (s : State) (g : Group) (n : Node) (c : Ctx) : State :=
  (memLanes g c o).foldl (fun s l =>
    let a := memAddr g n o m.scratch l
    if m.scratch then seeOffset s g a m.bytes else seeLoad s g a m.bytes home) s

/-- What every lane reads. -/
def readLanes (o : MemOp) (m : MemForm) (home : Bool) (s : State) (g : Group) (n : Node) (c : Ctx) : List (Nat × Nat × Got) :=
  (memLanes g c o).map fun l =>
    let a := memAddr g n o m.scratch l
    (l, a, if m.scratch then loadScratch s g c l a m.bytes else loadLane s g c l a m.bytes home)

/-- The effect of a load once it issues (R346): an acquire drops the L1 copies before the reads, and what a read at the home passes by is
dropped too, so that no later load goes back behind it (R161, R163). -/
def loadEffect (o : MemOp) (m : MemForm) (s : State) (g : Group) (n : Node) (c : Ctx) : State :=
  let next := fun (c : Ctx) => c.advance (memWords o)
  if !memChk o m g.nregs true then faultLanes s g n c (spreadFaults c o.u ((memLanes g c o).map fun l => (l, 6))) next
  else
    let acq := memAcquires o m s g n c
    let home := o.nt || acq
    let s1 := seeLanes o m home (if acq then acquire s g o.scope.toNat else s) g n c
    let rs := readLanes o m home s1 g n c
    match rejectOf rs with
    | some r => rejectCall s g r 0
    | none =>
      let fs := spreadFaults c o.u (faultsOf rs)
      let good := rs.filterMap fun r => match r.2.2 with
        | .ok bs pa => some (r.1, r.2.1, bs, pa)
        | _ => none
      let dst := (List.range m.regs).map (o.d.toNat + ·)
      if good.isEmpty then faultLanes s1 g n c fs next
      else if !o.u && overShadow c dst then groupFault s g n c 49
      else
        let writes := good.flatMap fun r =>
          (dst.zip (loadImage m r.2.2.1)).map fun w => ((if o.u then RegRef.s w.1 else .v r.1 w.1), w.2)
        let spans := if m.scratch then [] else good.flatMap fun r => homeSpans s1 g c r.1 r.2.1 m.bytes home
        let l : Load := { id := 0, node := 0, ix := 0, writes := writes, spans := spans, iv := m.iv, rread := none, answered := none }
        let s2 := if home && !m.scratch then good.foldl (fun s r => l1Drop s g.core r.2.2.2) s1 else s1
        let c1 := if o.u then c else c.shadow dst
        match issueLoad s2 g n c1 (writes.map (·.1)) l with
        | (s3, g1, c2) => faultLanes s3 g1 n c2 fs next

/-- Every lane's load is ready (R160, R162, R168, R169). -/
def loadsReady (o : MemOp) (m : MemForm) (s : State) (g : Group) (n : Node) (c : Ctx) : Bool :=
  let acq := memAcquires o m s g n c
  let so := (memKinds o m s g n c).any (· == 0)
  !memChk o m g.nregs true ||
    (memLanes g c o).all fun l =>
      let a := memAddr g n o m.scratch l
      if m.scratch then scratchReady s g a m.bytes acq else loadReady s g a m.bytes so acq (o.nt || acq)

/-- A load (R346, R340). -/
def loadOp (o : MemOp) (m : MemForm) (s : State) : Host.Outcome State Fault Refusal :=
  waitOp false (loadUse o m) 0 (loadsReady o m) (loadEffect o m) s

/-- LD (R346). -/
def execLd (o : MemOp) (s : State) : Host.Outcome State Fault Refusal := loadOp o (formOf false o.sub.toNat) s
/-- LDU: once for the fragment (R346). -/
def execLdu (o : MemOp) (s : State) : Host.Outcome State Fault Refusal := loadOp o (formOf false o.sub.toNat) s
/-- LDS (R346). -/
def execLds (o : MemOp) (s : State) : Host.Outcome State Fault Refusal := loadOp o (formOf true o.sub.toNat) s
/-- IVLD, `.iv32` (R340). -/
def execIvld (o : MemOp) (s : State) : Host.Outcome State Fault Refusal := loadOp o (ivForm false o) s
/-- IVLD, `.iv16` (R340). -/
def execIvldIv16 (o : MemOp) (s : State) : Host.Outcome State Fault Refusal := loadOp o (ivForm true o) s

/-! ### Buffered stores -/

/-- A store's address check at issue: range or scratchpad, then alignment (R347, R411). -/
def storeCode (s : State) (g : Group) (m : MemForm) (a : Nat) : Nat :=
  if m.scratch then
    match scratchAt s g a 1 with
    | none => accessFault 4 1 a
    | some _ => if a % m.bytes ≠ 0 then 5 else 0
  else if 2 ^ 55 ≤ a then accessFault 3 1 a else if a % m.bytes ≠ 0 then 5 else 0

/-- The low bytes of D's image. -/
def storeBytes (g : Group) (n : Node) (o : MemOp) (m : MemForm) (lane : Nat) : List Byte :=
  takeAt ((List.range m.regs).flatMap fun k =>
    leBytes 4 (if o.u then readS g n (o.d.toNat + k) else g.rv lane (o.d.toNat + k)).toNat) 0 m.bytes

/-- A store: buffered at issue (R347, R340). -/
def storeOp (o : MemOp) (m : MemForm) (s : State) : Host.Outcome State Fault Refusal :=
  coreOp false (memUse o m) 0 (fun s g n c =>
    let lanes := memLanes g c o
    let next := fun (c : Ctx) => c.advance (memWords o)
    if !memChk o m g.nregs true then faultLanes s g n c (spreadFaults c o.u (lanes.map fun l => (l, 6))) next
    else
      let codes := lanes.map fun l => (l, storeCode s g m (memAddr g n o m.scratch l))
      let good := (codes.filter fun x => x.2 == 0).map (·.1)
      let fs := spreadFaults c o.u (codes.filter fun x => x.2 != 0)
      let full := fun l => c.hdr.nstore.toNat ≤ storeEntries c l
      if (if o.u then !good.isEmpty && (lanesOf c.active).any full else good.any full) then groupFault s g n c 49
      else
        let elems := good.map fun l =>
          let a := memAddr g n o m.scratch l
          Elem.mk0 l (if m.scratch then scratchName g a else a) (storeBytes g n o m l)
        let op := EffOp.store (if m.scratch then .scratch else .global) m.bytes (o.mark == 1) o.scope.toNat o.u
        faultLanes s g n (if good.isEmpty then c else c.buffer op elems) fs next) s

/-- ST (R347). -/
def execSt (o : MemOp) (s : State) : Host.Outcome State Fault Refusal := storeOp o (formOf false o.sub.toNat) s
/-- STU: one access of the fragment (R347). -/
def execStu (o : MemOp) (s : State) : Host.Outcome State Fault Refusal := storeOp o (formOf false o.sub.toNat) s
/-- STS (R347). -/
def execSts (o : MemOp) (s : State) : Host.Outcome State Fault Refusal := storeOp o (formOf true o.sub.toNat) s
/-- IVST, `.iv32` (R340). -/
def execIvst (o : MemOp) (s : State) : Host.Outcome State Fault Refusal := storeOp o (ivForm false o) s
/-- IVST, `.iv16` (R340). -/
def execIvstIv16 (o : MemOp) (s : State) : Host.Outcome State Fault Refusal := storeOp o (ivForm true o) s

/-! ### LDA (R348) -/

/-- One lane's source and destination at issue: a code, or the source's physical address. -/
def ldaCheck (s : State) (g : Group) (src dst n : Nat) : Except Nat Nat :=
  if 2 ^ 55 ≤ src then .error (accessFault 3 0 src)
  else if (scratchAt s g dst 1).isNone then .error (accessFault 4 1 dst)
  else if src % n ≠ 0 ∨ dst % n ≠ 0 then .error 5
  else
    match translate s g.core g.die g.part src .read with
    | .error e => .error (accessFault e 0 src)
    | .ok x => .ok x.pa

/-- A memory instruction waits while a walk of one of its lanes is held by a parked atomic (R142, R156). -/
def walksFree (o : MemOp) (s : State) (g : Group) (n : Node) (c : Ctx) : Bool :=
  !anyParked s || (memLanes g c o).all fun l => !walkHeld s g.core g.die g.part (memAddr g n o false l)
/-- Those walks meet the check codes of their entries (R26, R27). -/
def seeWalks (o : MemOp) (s : State) (g : Group) (n : Node) (c : Ctx) : State :=
  if s.flaws.isEmpty then s else (memLanes g c o).foldl (fun s l => seeWalk s g.core g.die g.part (memAddr g n o false l)) s

/-- LDA vd, va, vb: an engine post (R348); not in a method (R249). -/
def execLda (o : MemOp) (s : State) : Host.Outcome State Fault Refusal :=
  let n := widthBytes o.sub.toNat
  let d := o.d.toNat
  let m : MemForm := { scratch := false, bytes := n, regs := 1, signed := false, iv := 0 }
  waitOp false (memUse o m) 6 (fun s g nd c => !memChk o m g.nregs true || walksFree o s g nd c) (fun s0 g nd c =>
    let lanes := memLanes g c o
    let next := fun (c : Ctx) => c.advance (memWords o)
    if !memChk o m g.nregs true then faultLanes s0 g nd c (lanes.map fun l => (l, 6)) next
    else if c.hdr.npost.toNat ≤ postCount c then groupFault s0 g nd c 49
    else
      let s := seeWalks o s0 g nd c
      let rs := lanes.map fun l => (l, memAddr g nd o false l, (g.rv l d).toNat)
      let res := rs.map fun r => (r, ldaCheck s g r.2.1 r.2.2 n)
      let fs := res.filterMap fun r => match r.2 with
        | .error e => some (r.1.1, e)
        | .ok _ => none
      let elems := res.filterMap fun r => match r.2 with
        | .ok pa => some { lane := r.1.1, addr := r.1.2.1, data := [], b := scratchName g r.1.2.2, c := 0, pa := pa,
                           st := ElemSt.checked : Elem }
        | .error _ => none
      faultLanes s g nd (c.buffer (.lda n) elems) fs next) s

/-! ### Literals, prefetch, cache control (R350 to R354) -/

/-- Addresses of a literal's words. -/
def poolWords (c : Ctx) (o : LitOp) : List Nat :=
  (List.range (if o.sub = 5 then 2 else 1)).map fun k => relAddr c.pc o.offset + 4 * k

/-- LDLIT: pool words through the instruction cache (R350), its checks in R411's order; in a method a pool outside sealed pages is
reason 1. -/
def execLdlit (o : LitOp) (s : State) : Host.Outcome State Fault Refusal :=
  let k := if o.sub = 5 then 2 else 1
  let d := o.d.toNat
  let dst := (List.range k).map (d + ·)
  let ds := fun (b : Bool) => if o.u == b then dst else []
  waitOp false { Use.none with sr := ds true, vr := ds false, ws := ds true, wv := ds false } 0
    (fun s g _ c => (poolWords c o).all fun a => !wordHeld s g [] a)
    (fun s0 g n c =>
      let s := (poolWords c o).foldl (fun s a => seeWord s g [] a) s0
      let a := relAddr c.pc o.offset
      let bad := fun e => uniFault s g n c e (·.advance 2)
      if !dataOk o.u g.nregs k d then bad 6
      else if 2 ^ 55 ≤ a then bad (accessFault 3 3 a)
      else if a % (4 * k) ≠ 0 then bad 5
      else
        match fetchMore s g [] a k with
        | .error e => bad (if faultCode e = 9 then e else accessFault (faultCause e) 3 a)
        | .ok ws =>
          let mayRead := match translate s g.core g.die g.part a .exec with
            | .ok x => methodMayLoad s g a (4 * k) x.pa
            | .error _ => true
          if !mayRead then rejectCall s g 1 0
          else if !o.u && overShadow c dst then groupFault s g n c 49
          else
            let writes := if o.u then (dst.zip ws).map fun w => (RegRef.s w.1, w.2)
              else (lanesOf c.active).flatMap fun l => (dst.zip ws).map fun w => (RegRef.v l w.1, w.2)
            let l : Load := { id := 0, node := 0, ix := 0, writes := writes, spans := [], iv := 0, rread := none, answered := none }
            let c1 := if o.u then c else c.shadow dst
            match issueLoad s g n c1 (writes.map (·.1)) l with
            | (s1, g1, c2) => putCtx s1 g1 n (c2.advance 2)) s

/-- PREF changes timing only and never faults (R351). -/
def execPref (o : MemOp) (s : State) : Host.Outcome State Fault Refusal :=
  coreOp false (memUse o { scratch := false, bytes := 1, regs := 0, signed := false, iv := 0 }) 0
    (fun s g n c => putCtx s g n (c.advance (memWords o))) s

/-- The physical address that a walk alone gives, permissions apart. -/
def pageOf (s : State) (g : Group) (va : Nat) : Option Nat :=
  if 2 ^ 55 ≤ va then none
  else
    match walk s g.core g.die g.part va with
    | .ok (e, big) => some (ptePfn e * 65536 + va % (if big then 2 ^ 29 else 65536))
    | .error _ => none

/-- CCTL: drops L1 copies of each lane's line, or all of RC and UO lines; `.evict` is timing only; it never faults (R352). -/
def execCctl (o : MemOp) (s : State) : Host.Outcome State Fault Refusal :=
  let m : MemForm := { scratch := false, bytes := 1, regs := 0, signed := false, iv := 0 }
  waitOp false (if o.sub = 1 then Use.none else memUse o m) 0
    (fun s g n c => o.sub != 0 || !memChk o m g.nregs false || walksFree o s g n c) (fun s g n c =>
    let s1 :=
      if o.sub = 1 then l1DropAll s g.core
      else if o.sub = 0 && memChk o m g.nregs false then
        (memLanes g c o).foldl (fun s l =>
          match pageOf s g (memAddr g n o false l) with
          | some pa => l1Drop s g.core pa
          | none => s) (seeWalks o s g n c)
      else s
    putCtx s1 g n (c.advance 2)) s

/-- ICINV sa, sb: checked at issue, acts at commit (R354). -/
def execIcinv (o : LOp) (s : State) : Host.Outcome State Fault Refusal :=
  let a := o.a.toNat
  let b := o.b.toNat
  coreOp false { Use.none with sr := pairUse a ++ scalarUse b } 0 (fun s g n c =>
    let va := readPair g n a
    let len := (readScalar g n b).toNat
    if !pairOk a || !scalarOk b || 2 ^ 24 < len then uniFault s g n c 6 (·.advance 2)
    else if 2 ^ 55 ≤ va then uniFault s g n c (accessFault 3 4 va) (·.advance 2)
    else putCtx s g n ((c.buffer (.icinv va len) []).advance 2)) s

/-- A store or posted atomic of the group that is not accepted, translated and checked (R125, R353). -/
def uncheckedStores (s : State) (g : Group) : Bool :=
  s.pipe.any fun it => it.group == g.uid &&
    (match it.eff.op with
     | .store _ _ _ _ _ => true
     | .atomic _ _ _ _ _ _ _ _ _ => true
     | _ => false) && it.eff.elems.any fun x => !x.accepted

/-- DRAIN (R167, R353): it waits until the group's stores are accepted, and later effects wait until they are performed at workgroup
scope, which a FENCE of that scope sees to (DESIGN CHOICE [90]). -/
def execDrain (s : State) : Host.Outcome State Fault Refusal :=
  waitOp false Use.none 0 (fun s g _ _ => !uncheckedStores s g)
    (fun s g n c => tidy (addItem (putCtx s g n (c.advance 2)) (itemOf g c { ix := c.ix, op := .fence 1 1, elems := [] } 1))) s

end Sys2Proof.Machine
end

