-- ==== Sys2Proof/Machine/Atomic.lean ====
section
/-! DEFINITION. Deferred atomics: as they issue, and the new value each operation gives (R355 to R361). -/
namespace Sys2Proof.Machine

/-- How the operand B of a type is read: pairs for 64-bit types, FP32 for `.f32` (Table 14.5). -/
def atomKd (ty : Nat) : Kd := if ty = 4 then .flt fp32 else if wideTy ty then .int 3 else .raw
/-- Bytes of an element. -/
def atomBytes (ty : Nat) : Nat := if wideTy ty then 8 else 4

def atomSrcA (o : AtomOp) : Src := srcOf o.u o.ak o.a.toNat
def atomSrcB (o : AtomOp) : Src := srcOf o.u o.bk o.b.toNat
/-- C of word 2: a vector register (Table 11.6). -/
def atomSrcC (o : AtomOp) : Src :=
  match o.w2 with
  | some w => srcOf false false (w.toNat % 512)
  | none => .bad

/-! ### New values (Tables 14.6 and 14.7) -/

/-- The integer view of an element for min and max; `.fx64` is two's complement. -/
def atomInt (ty x : Nat) : Int := if ty = 5 then sext x 64 else intOf ty x

/-- The value that ATOM, ATOMS, RED and SRED write (Table 14.6). -/
def atomNew (sub ty old b c : Nat) : Nat :=
  match sub with
  | 0 => if ty = 4 then (fadd fp32 0 false old b).1 else (old + b) % 2 ^ (8 * atomBytes ty)
  | 1 => if ty = 4 then (fminmax fp32 false old b).1 else if atomInt ty old ≤ atomInt ty b then old else b
  | 2 => if ty = 4 then (fminmax fp32 true old b).1 else if atomInt ty old ≤ atomInt ty b then b else old
  | 3 => old &&& b
  | 4 => old ||| b
  | 5 => old ^^^ b
  | 6 => b
  | _ => if old = b then c else old

/-- The value that BOP writes to one 32-bit element (Table 14.7). -/
def bopNew (sub m b c : Nat) : Nat :=
  match sub with
  | 0 => (fma fp32 0 false m b c).1
  | 1 => (fmul fp32 0 false m b).1
  | 2 => trunc (clampInt (sext m 32 + sext b 32) (-(2 ^ 31)) (2 ^ 31 - 1)) 32
  | 3 => trunc (min (max (sext m 32) (sext b 32)) (sext c 32)) 32
  | 4 => (fminmax fp32 false (fminmax fp32 true m b).1 c).1
  | 5 => if b ≤ m then 0 else m + 1
  | _ => if m = 0 ∨ b < m then b else m - 1

/-- Old bytes to new bytes of one element: BOP works on each of its 32-bit elements. -/
def atomBytesNew (kind : AtomKind) (sub ty : Nat) (old : List Byte) (b c : Nat) : List Byte :=
  if kind = .bop then
    (List.range (old.length / 4)).flatMap fun k => leBytes 4 (bopNew sub (field old (4 * k) 4) b c)
  else leBytes old.length (atomNew sub ty (leNat old) b c)

/-! ### At issue -/

/-- An enabled Causeway port (Table 1.3). -/
def portEnabled (s : State) (port : Nat) : Bool := bit (field (s.die (port / 4)).config 18 1) (port % 4)

/-- What distinguishes the five opcodes. -/
structure AtomForm where
  kind : AtomKind
  returns : Bool
  useC : Bool
  /-- bytes of the access -/
  bytes : Nat
  deriving DecidableEq, Repr, Inhabited

/-- The operand check with code 6. -/
def atomChk (s : State) (o : AtomOp) (m : AtomForm) (nregs : Nat) : Bool :=
  let ty := o.ty.toNat
  (!m.returns || dataOk false nregs (if wideTy ty then 2 else 1) o.d.toNat) &&
    (m.kind != .sred || (o.ak && o.d.toNat < nregs &&
      (match o.w2 with
       | some w => portEnabled s (w.toNat % 16)
       | none => true))) &&
    srcOk nregs (addrKd (m.kind == .atoms)) [0] (atomSrcA o) && srcOk nregs (atomKd ty) [0] (atomSrcB o) &&
    (!m.useC || srcOk nregs (atomKd ty) [0] (atomSrcC o))

/-- An element's address (Table 14.2, R360). -/
def atomAddr (g : Group) (n : Node) (o : AtomOp) (m : AtomForm) (lane : Nat) : Nat :=
  let a := readSrc g n lane (addrKd (m.kind == .atoms)) (atomSrcA o) 0
  if m.kind = .sred then (a + (g.rv lane o.d.toNat).toNat * m.bytes) % 2 ^ 64 else a

/-- The address check at issue (R357, R358, R360, R411). -/
def atomCode (s : State) (g : Group) (m : AtomForm) (a base : Nat) : Nat :=
  if m.kind = .atoms then
    match scratchAt s g a 1 with
    | none => accessFault 4 2 a
    | some _ => if a % m.bytes ≠ 0 then 5 else 0
  else if 2 ^ 55 ≤ a then accessFault 3 2 a else if base % m.bytes ≠ 0 then 5 else 0

/-- Registers used. -/
def atomUse (o : AtomOp) (m : AtomForm) : Use :=
  let ty := o.ty.toNat
  let d := o.d.toNat
  { sr := (atomSrcA o).scalars (addrKd (m.kind == .atoms)) ++ (atomSrcB o).scalars (atomKd ty),
    vr := (atomSrcA o).vectors (addrKd (m.kind == .atoms)) [0] ++ (atomSrcB o).vectors (atomKd ty) [0] ++
      (if m.useC then (atomSrcC o).vectors (atomKd ty) [0] else []) ++
      (if m.returns then (if wideTy ty then [d, d + 1] else [d]) else if m.kind == .sred then [d] else []),
    pr := [o.ps.toNat], pdg := false, extra := 0,
    wv := if m.returns then (if wideTy ty then [d, d + 1] else [d]) else [], ps := o.ps.toNat, pm := o.pm.toNat }

/-- A deferred atomic: checked and buffered at issue (R357). -/
def atomOp (o : AtomOp) (m : AtomForm) (s : State) : Host.Outcome State Fault Refusal :=
  let ty := o.ty.toNat
  let words := lenWords o.w2
  coreOp false (atomUse o m) 0 (fun s g n c =>
    let lanes := selected g o.ps.toNat o.pm.toNat c.active
    let next := fun (c : Ctx) => c.advance words
    if !atomChk s o m g.nregs then faultLanes s g n c (lanes.map fun l => (l, 6)) next
    else
      let codes := lanes.map fun l =>
        (l, atomCode s g m (atomAddr g n o m l) (readSrc g n l (addrKd (m.kind == .atoms)) (atomSrcA o) 0))
      let good := (codes.filter fun x => x.2 == 0).map (·.1)
      let fs := codes.filter fun x => x.2 != 0
      let dst := if m.returns then (if wideTy ty then [o.d.toNat, o.d.toNat + 1] else [o.d.toNat]) else []
      if good.any fun l => c.hdr.natom.toNat ≤ atomEntries c l then groupFault s g n c 49
      else if !good.isEmpty && overShadow c dst then groupFault s g n c 49
      else
        let elems := good.map fun l =>
          { lane := l, addr := (if m.kind = .atoms then scratchName g (atomAddr g n o m l) else atomAddr g n o m l), data := [],
            b := readSrc g n l (atomKd ty) (atomSrcB o) 0,
            c := if m.useC then readSrc g n l (atomKd ty) (atomSrcC o) 0 else 0, pa := 0, st := ElemSt.fresh : Elem }
        let peer := if m.kind = .sred then o.w2.map fun w => w.toNat % 16 else none
        let op := EffOp.atomic m.kind o.sub.toNat ty o.x4 (o.mark == 1 || o.mark == 3) (o.mark == 2 || o.mark == 3)
          o.scope.toNat o.d.toNat peer
        let c1 := if good.isEmpty then c else (c.shadow dst).buffer op elems
        faultLanes s g n c1 fs next) s

/-- ATOM vd, va, vb (R357). -/
def execAtom (o : AtomOp) (s : State) : Host.Outcome State Fault Refusal :=
  atomOp o { kind := .atom, returns := true, useC := o.w2.isSome, bytes := atomBytes o.ty.toNat } s
/-- ATOMS: on a scratchpad offset (R358). -/
def execAtoms (o : AtomOp) (s : State) : Host.Outcome State Fault Refusal :=
  atomOp o { kind := .atoms, returns := true, useC := o.w2.isSome, bytes := atomBytes o.ty.toNat } s
/-- RED va, vb (R359). -/
def execRed (o : AtomOp) (s : State) : Host.Outcome State Fault Refusal :=
  atomOp o { kind := .red, returns := false, useC := false, bytes := atomBytes o.ty.toNat } s
/-- SRED vd, sa, vb (R360). -/
def execSred (o : AtomOp) (s : State) : Host.Outcome State Fault Refusal :=
  atomOp o { kind := .sred, returns := false, useC := false, bytes := atomBytes o.ty.toNat } s
/-- BOP va, vb (R361). -/
def execBop (o : AtomOp) (s : State) : Host.Outcome State Fault Refusal :=
  atomOp o { kind := .bop, returns := false, useC := o.w2.isSome, bytes := if o.x4 then 16 else 4 } s

end Sys2Proof.Machine
end

