-- ==== Sys2Proof/Machine/Pipe.lean ====
section
/-! DEFINITION. Committed effects on their way to where they are performed: the order they keep (R158 to R169), their checks (R125,
R143, R179, R181), performing them (R87, R92, R146, R348, R357 to R361), and the fault queues of atomics (R54, R156, R157, R200). -/
namespace Sys2Proof.Machine

/-! ### Items and elements -/

def Item.elem? (it : Item) (k : Nat) : Option Elem := it.eff.elems[k]?
def Item.setElem (it : Item) (k : Nat) (x : Elem) : Item := { it with eff := { it.eff with elems := it.eff.elems.set k x } }
def Item.closed (it : Item) : Bool := it.eff.elems.all fun x => !x.open
/-- The die from which an item's accesses go. -/
def Item.die (it : Item) : Nat := unitDie it.core
/-- The group as the pipeline knows it, which may have ended (R186). -/
def Item.asGroup (it : Item) : Group :=
  { (default : Group) with uid := it.group, part := it.part, serial := it.serial, wkg := it.wkg, core := it.core }

/-- The bytes of global memory that an element accesses: how many, if any. -/
def globalBytes (op : EffOp) (x : Elem) : Option Nat :=
  match op with
  | .store .global _ _ _ _ => some x.data.length
  | .atomic .atoms _ _ _ _ _ _ _ _ => none
  | .atomic _ _ ty x4 _ _ _ _ none => some (if x4 then 16 else atomBytes ty)
  | _ => none
/-- The bytes of scratchpad that an element writes: named offset and length, if any. -/
def scratchBytes (op : EffOp) (x : Elem) : Option (Nat × Nat) :=
  match op with
  | .store .scratch _ _ _ _ => some (x.addr, x.data.length)
  | .atomic .atoms _ ty _ _ _ _ _ _ => some (x.addr, atomBytes ty)
  | .lda w => some (x.b, w)
  | .ring _ _ false _ => some (x.addr, 64)
  | _ => none

def overlaps (a n b m : Nat) : Bool := decide (a < b + m) && decide (b < a + n)

/-- Two elements may name the same bytes of global memory: by physical address, or by the offset in a 64 KiB page where one is not
translated. -/
def meetGlobal (jt : Item) (y : Elem) (it : Item) (x : Elem) : Bool :=
  match globalBytes jt.eff.op y, globalBytes it.eff.op x with
  | some m, some n =>
    if (y.st == .fresh || y.st == .held) || (x.st == .fresh || x.st == .held) then
      jt.part == it.part && overlaps (y.addr % 65536) m (x.addr % 65536) n
    else overlaps y.pa m x.pa n
  | _, _ => false
/-- Two elements of a group name the same bytes of scratchpad, or the same target core of the cluster window (R169). -/
def meetScratch (jt : Item) (y : Elem) (it : Item) (x : Elem) : Bool :=
  match scratchBytes jt.eff.op y, scratchBytes it.eff.op x with
  | some (b, m), some (a, n) => overlaps b m a n || (bit a 22 && a / 2 ^ 20 == b / 2 ^ 20)
  | _, _ => false

/-- Release scope of a marked effect. -/
def relScope : EffOp → Option Nat
  | .store .global _ true sc _ => some sc
  | .store .scratch _ true sc _ => some (min sc 2)
  | .atomic .atoms _ _ _ _ true sc _ _ => some (min sc 2)
  | .atomic _ _ _ _ _ true sc _ _ => some sc
  | _ => none

/-! ### Gates -/

/-- The item's place among the group's effects lets it be performed (R162 to R166, R168); marks do not count on UO pages (R164). -/
def itemReady (s : State) (it : Item) : Bool :=
  let ps := priors s it.group it.id
  let so := it.isGlobal && (it.kind == 0 || it.kind == 3)
  let marked := it.kind != 2 && ((relScope it.eff.op).isSome || it.acquires)
  fencesPassed s ps &&
    (it.kind == 2 ||
      ((match relScope it.eff.op with
        | some sc => (ps.all fun p => p.kind == 2 || p.doneAt sc) && coreSeen s it.core it.group it.id sc
        | none => true) && !ps.any (·.acquires))) &&
    (!so || ps.all fun p => !p.isGlobal || p.kind == 1 || p.kind == 2 || p.closed) &&
    (!(so || marked) || !ps.any (·.parks))

/-- No earlier element of the group or the core that meets this one is open, some apart (R157, R161, R169, R357). -/
def elemFirstBut (s : State) (skip : List (Nat × Nat)) (it : Item) (k : Nat) (x : Elem) : Bool :=
  let before := s.pipe.takeWhile (·.id != it.id)
  let apart := fun (jt : Item) (p : Elem × Nat) => !p.1.open || skip.contains (jt.id, p.2)
  (before.all fun jt =>
    (jt.group != it.group && jt.core != it.core) ||
      jt.eff.elems.zipIdx.all fun y => apart jt y ||
        (!meetGlobal jt y.1 it x && (jt.group != it.group || !meetScratch jt y.1 it x))) &&
  (it.eff.elems.zipIdx.take k).all fun y => apart it y || (!meetGlobal it y.1 it x && !meetScratch it y.1 it x)
def elemFirst (s : State) (it : Item) (k : Nat) (x : Elem) : Bool := elemFirstBut s [] it k x

/-- An accepted element can be performed now. -/
def elemReady (s : State) (it : Item) (k : Nat) (x : Elem) : Bool := itemReady s it && elemFirst s it k x

/-- Every engine entry that the group posted before the item is complete (R87, R92). -/
def enginesDone (s : State) (it : Item) : Bool :=
  match s.part? it.part with
  | some p => p.engqs.all fun q => q.entries.all fun e =>
      !(e.group == it.group || e.members.any fun m => m.1 == it.group) || it.id < e.mark
  | none => true

/-- An LDA whose elements are all written, or another effect. -/
def Item.ldaDone (it : Item) : Bool :=
  match it.eff.op with
  | .lda _ => it.closed
  | _ => true

/-- A device-scope release of everything before it, engine posts among them (R87, R92, R172). -/
def releaseReady (s : State) (it : Item) : Bool :=
  let ps := priors s it.group it.id
  fencesPassed s ps && (ps.all fun p => p.doneAt 4 && p.ldaDone) && coreSeen s it.core it.group it.id 4 && enginesDone s it

/-! ### The end of a workgroup -/

/-- The launch is bound to a task queue (R90). -/
def Launch.bound (l : Launch) : Bool := bit (l.fld 47 1) 7

/-- A workgroup's share is still in use: posted entries not complete, or scratchpad writes not performed (R151, R186) [36]. -/
def wkgBusy (s : State) (part : Nat) (serial : Word) (k : Nat) : Bool :=
  (s.pipe.any fun it => it.part == part && it.serial == serial && it.wkg == k &&
    it.eff.elems.any fun x => x.open && (scratchBytes it.eff.op x).isSome) ||
  (match s.part? part with
   | some p => p.engqs.any fun q => q.entries.any fun e => e.serial == serial && e.wkg == k
   | none => false)

/-- A workgroup ends: its pages keep their bytes until another workgroup receives them (R79). -/
def leaveRemains (s : State) (w : Workgroup) : State :=
  { s with wkgs := s.wkgs.filter (fun x => !(x.part == w.part && x.serial == w.serial && x.wkg == w.wkg)),
           remains := s.remains ++ [{ part := w.part, serial := w.serial, wkg := w.wkg, core := w.core, data := w.data }] }

/-- A workgroup without groups ends, or is saved (R82, R95, R195), once its share is free. -/
def wkgMaybeEnd (s : State) (part : Nat) (serial : Word) (k : Nat) : State :=
  match s.wkg? part serial k with
  | none => s
  | some w =>
    if (s.groups.any fun g => g.part == part && g.serial == serial && g.wkg == k && g.landing.isNone) || wkgBusy s part serial k then s
    else
      let gone := leaveRemains s w
      let bound := match s.launch? part serial with
        | some l => l.bound
        | none => false
      if w.st = .running then (if bound then s else gone)
      else if w.saves.isEmpty then gone
      else s.setWkg { w with st := .saved, data := [], flaws := [], bars := [] }

/-! ### Resolving elements -/

/-- The counter that falls when an item closes (Table 6.5). -/
def dropCounter (g : Group) (op : EffOp) : Group :=
  match op with
  | .store _ _ _ _ _ => { g with st := g.st - 1 }
  | .lda _ => { g with ld := g.ld - 1 }
  | _ => g

/-- An item whose elements are all resolved leaves the pipeline, and its counter falls (R146); a FENCE that waited for this takes
effect. -/
def closeItem (s : State) (id : Nat) : State :=
  match s.item? id with
  | none => s
  | some it =>
    if it.closed then
      let s1 := { s with pipe := s.pipe.filter fun y => y.id != id }
      tidy (match s1.group? it.group with
        | some g => s1.setGroup (dropCounter g it.eff.op)
        | none => wkgMaybeEnd s1 it.part it.serial it.wkg)
    else tidy s

/-- Resolve one element. -/
def resolve (s : State) (it : Item) (k : Nat) (x : Elem) (st : ElemSt) : State :=
  closeItem (s.setItem (it.setElem k { x with st := st })) it.id

/-! ### Checking posted effects (R125, R143, R179, R181) -/

/-- What an effect needs of its page. -/
def needOf : EffOp → Need
  | .atomic _ _ _ _ _ _ _ _ _ => .update
  | _ => .write

/-- Check one posted element: its page kind, or a code (Table 6.3, R361); a home that cannot be reached is a data error (R13, R22). -/
def checkElem (s : State) (it : Item) (x : Elem) : Except Nat Xlat :=
  match translate s it.core (it.die) it.part x.addr (needOf it.eff.op) with
  | .error e => .error e
  | .ok t =>
    let bad : Bool := match it.eff.op with
      | .atomic .bop _ _ _ _ _ _ _ _ => t.tier != .bench
      | _ => false
    if bad then .error 4
    else if reaches s (it.die) t.pa then .ok t
    else .error (dataError s (it.die) t.pa 1)

/-- The strongest kind: SO, then RC, then UO (R165). -/
def strongest (ks : List Nat) : Nat := ks.foldl min 2

/-- A record of Table 8.3. -/
def sfrqRec (it : Item) : SfrqRec :=
  match it.refused with
  | [] => []
  | r :: _ =>
    let uni := r.1 = uniLane
    let lane := if uni then (lanesOf it.lanes).headD 0 else r.1
    leBytes 8 r.2.2 ++ leBytes 1 (if uni then 1 else it.refused.length) ++ leBytes 1 lane ++ leBytes 1 it.eff.ix ++
      leBytes 1 r.2.1 ++ leBytes 4 it.trace

/-- A record arrives: PEND, and LOST when eight are queued (R182). -/
def pushSfrq (g : Group) (r : SfrqRec) : Group :=
  if g.sfrq.length < 8 then { g with sfrq := g.sfrq ++ [r], pend := true }
  else { g with lost := min 255 (g.lost + 1), pend := true }

/-- Once none of an instruction's elements is unchecked or held, its record is written (R181). -/
def settleRecord (s : State) (id : Nat) : State :=
  match s.item? id with
  | none => s
  | some it =>
    if it.refused.isEmpty || it.eff.elems.any fun x => x.st == .fresh || x.st == .held then s
    else
      let s1 := s.setItem { it with refused := [] }
      match s1.group? it.group with
      | some g => s1.setGroup (pushSfrq g (sfrqRec it))
      | none => s1

/-- Elements and kinds after a check: one that passes stands as `good` says; one that fails is held in page-fault service, which serves
codes 1 to 4, else refused. -/
def checkedItem (s : State) (it : Item) (assisted : Bool) (good : ElemSt) (pick : Elem → Bool) : Item :=
  let rs := it.eff.elems.map fun x => (x, if pick x then some (checkElem s it x) else none)
  let serves := fun (e : Nat) => assisted && e ≤ 4
  let elems := rs.map fun r => match r.2 with
    | some (.ok t) => { r.1 with st := good, pa := t.pa }
    | some (.error e) => { r.1 with st := if serves e then .held else .refused }
    | none => r.1
  let kinds := rs.filterMap fun r => match r.2 with
    | some (.ok t) => some t.ord
    | _ => none
  let refs := rs.filterMap fun r => match r.2 with
    | some (.error e) => if serves e then none else some (r.1.lane, faultCode e, r.1.addr)
    | _ => none
  let k := strongest ((if it.kind = 3 then [] else [it.kind]) ++ kinds)
  { it with eff := { it.eff with elems := elems }, kind := if elems.any fun x => x.st == .fresh || x.st == .held then 3 else k,
            refused := it.refused ++ refs }

/-- The kind of an item's pages, translated or not (R165). -/
def Item.kindNow (s : State) (it : Item) : Nat :=
  if it.kind = 3 then
    strongest (it.eff.elems.filterMap fun x => match checkElem s it x with
      | .ok t => some t.ord
      | .error _ => none)
  else it.kind

/-- What an effect that a FENCE orders waits for before its core accepts it: the effects before the FENCE are performed at workgroup
scope. -/
def fenceAccepted (s : State) (p : Item) : Bool :=
  match p.eff.op with
  | .fence mode scope => mode == 2 || scope == 0 || (priors s p.group p.id).all fun q => q.doneAt 1 && !q.parks
  | _ => true

/-- The core may accept an item's elements, which performs those of RC and UO pages at workgroup scope (Table 7.1): what a FENCE or a
release mark puts before them is performed there (R163, R166), no acquiring atomic is outstanding (R163), no walk is held (R156), and
stores of other groups of the core over the same bytes are accepted first (R161). -/
def checkReady (s : State) (it : Item) : Bool :=
  let ps := priors s it.group it.id
  (ps.all (fenceAccepted s)) &&
  (it.kindNow s == 2 ||
    ((match relScope it.eff.op with
      | some sc => sc == 0 || ps.all fun p => p.kind == 2 || (p.doneAt 1 && !p.parks)
      | none => true) && !ps.any (·.acquires))) &&
  (it.eff.elems.all fun x => x.st != .fresh || !walkHeld s it.core (it.die) it.part x.addr) &&
  (s.pipe.takeWhile (·.id != it.id)).all fun jt =>
    jt.group == it.group || jt.core != it.core ||
      jt.eff.elems.all fun y => y.accepted || it.eff.elems.all fun x => !meetGlobal jt y it x

/-- What a request of CLASS 2 says of an item (Table 2.8): the lowest held element and its cause. -/
def heldRequest (s : State) (it : Item) : Option SvcReq :=
  match it.eff.elems.filter fun x => x.st == .held with
  | [] => none
  | x :: rest =>
    let code := match checkElem s it x with
      | .error e => faultCode e
      | .ok _ => 0
    let access := match it.eff.op with
      | .store _ _ _ _ _ => 1
      | _ => 2
    some { class_ := 2, access := access, cause := code, who := whoIs s it.group, addr := x.addr, count := (x :: rest).length,
           serial := it.serial }

/-- Elements translated before are accepted. -/
def acceptElems (it : Item) : Item :=
  { it with eff := { it.eff with elems := it.eff.elems.map fun x => if x.st = .translated then { x with st := ElemSt.checked } else x } }

/-- After a check: a request for what is held, a record for what is refused. -/
def checkDone (s : State) (it : Item) : State :=
  let s1 := s.setItem it
  let s2 := match heldRequest s1 it with
    | some r => (raiseService s1 it.part (it.id * 128) r).1
    | none => s1
  closeItem (settleRecord s2 it.id) it.id

/-- The partition of an item has host-assisted page-fault service. -/
def Item.served (s : State) (it : Item) : Bool :=
  match s.part? it.part with
  | some p => p.assisted 0
  | none => false

/-- The walks of an item's elements that some test picks meet the check codes of their entries (R26, R27). -/
def seeItem (s : State) (it : Item) (pick : Elem → Bool) : State :=
  if s.flaws.isEmpty then s
  else (it.eff.elems.filter pick).foldl (fun s x => seeWalk s it.core it.die it.part x.addr) s

/-- An item is checked whole and accepted. -/
def checkItem (s0 : State) (it : Item) : State :=
  let s := seeItem s0 it fun x => x.st == .fresh
  checkDone s (acceptElems (checkedItem s it (it.served s) .checked fun x => x.st == .fresh))

/-- POSTED_STORE_CHECK (R125). -/
def execPostedStoreCheck (id : Nat) (s : State) : Host.Outcome State Fault Refusal :=
  .next (match s.item? id with
    | none => s
    | some it =>
      if (it.eff.elems.any fun x => x.st == .fresh || x.st == .translated) && checkReady s it then checkItem s it else s)

/-- An element that can no longer be performed is refused, with a record (DESIGN CHOICE [89]). -/
def refuseElem (s : State) (it : Item) (k : Nat) (x : Elem) (code : Nat) : State :=
  let jt := { it.setElem k { x with st := .refused } with refused := it.refused ++ [(x.lane, code, x.addr)] }
  closeItem (settleRecord (s.setItem jt) it.id) it.id

/-! ### Performing stores -/

/-- Write one store element to global memory. -/
def writeGlobal (s : State) (it : Item) (x : Elem) : State := l1Write (pwrite s x.pa x.data) it.core x.pa x.data
/-- The same where its home serves; else it is a data error (R13, R22). -/
def performStore (s : State) (it : Item) (k : Nat) (x : Elem) : State :=
  if reaches s (it.die) x.pa then resolve (writeGlobal s it x) it k x .done else refuseElem s it k x 9
/-- Write bytes at a scratchpad offset of a group, where it reaches a share. -/
def writeScratch (s : State) (g : Group) (off : Nat) (d : List Byte) : State :=
  match scratchAt s g off d.length with
  | some w => s.setWkg (w.1.put w.2 d)
  | none => s

/-- Open the gates of the launches that wait for a predecessor's releases (R88). -/
def openGates (s : State) (l : Launch) : State :=
  { s with launches := s.launches.map fun k =>
      if k.part == l.part && k.fld 48 4 == l.serial.toNat && k.gateLive && k.fld 52 4 != 0 && k.fld 52 4 ≤ l.release then
        { k with gateOpen := true }
      else k }

/-- One RELEASE counts (R87). -/
def countRelease (s : State) (part : Nat) (serial : Word) : State :=
  match s.launch? part serial with
  | some l =>
    let l1 := { l with release := min (2 ^ 32 - 1) (l.release + 1) }
    openGates (s.setLaunch l1) l1
  | none => s

/-- A spawned task becomes ready (R91, R92). -/
def readySlot (s : State) (it : Item) (q entry : Nat) (x : Elem) : State :=
  match s.part? it.part with
  | none => s
  | some p =>
    match p.taskq? q with
    | none => s
    | some tq =>
      let c : Word := BitVec.ofNat 32 x.c
      let s1 := s.setPart (p.setTaskq { tq with reserved := tq.reserved.filter (· != c) })
      writeVa s1 it.core (it.die) it.part (taskSlotVa tq c) (takeAt x.data 0 24 ++ leBytes 8 (entry / 4 * 4 + 2))

/-- The slot of a spawned task waits behind a parked atomic (R156, R157). -/
def taskHeld (s : State) (it : Item) (q : Nat) (x : Elem) : Bool :=
  match (s.part? it.part).bind fun p => p.taskq? q with
  | some tq => vaHeld s it.core it.die it.part (taskSlotVa tq (BitVec.ofNat 32 x.c)) 32 .write
  | none => false

/-- A record of the digest log can be written: behind the group's FENCEs, and after every position before it (R166, R257). -/
def logReady (s : State) (it : Item) (x : Elem) : Bool :=
  itemReady s it && s.pipe.all fun jt => jt.part != it.part ||
    (match jt.eff.op with
     | .dlog _ => jt.eff.elems.all fun y => !y.open || x.c ≤ y.c
     | _ => true)
/-- Write a record, then the digest and the count after it (R255, R256). -/
def writeLog (s : State) (it : Item) (x : Elem) : State :=
  match s.part? it.part with
  | some p =>
    hwWrite (hwWrite s it.die x.addr (takeAt x.data 0 64)) it.die (p.savebase + 0xC000) (takeAt x.data 64 32 ++ leBytes 8 (x.c + 1))
  | none => s

/-! ### Counts of rings (R306, R307) -/

/-- An open store element of a group, entered before a mark, over n bytes at a place that it names. -/
def storesOver (g : Group) (x : Spot) (n mark : Nat) (it : Item) (y : Elem) : Bool :=
  let a := if x.bench then x.addr else scratchName g x.addr
  it.group == g.uid && decide (it.id < mark) && y.open && decide (y.addr < a + n) && decide (a < y.addr + y.data.length) &&
    (match it.eff.op with
     | .store .global _ _ _ _ => x.bench
     | .store .scratch _ _ _ _ => !x.bench
     | _ => false)

/-- The group's earlier stores over bytes that its commit is about to write stand before that write (R124, R158, R161) [82]. -/
def landOwn (s : State) (g : Group) (x : Spot) (n mark : Nat) : State :=
  let s1 := s.pipe.foldl (fun s it =>
    (it.eff.elems.filter (storesOver g x n mark it)).foldl (fun s y => spotWrite s g { x with addr := y.addr } y.data) s) s
  { s1 with pipe := s1.pipe.map fun it => { it with eff := { it.eff with elems := it.eff.elems.map (fun y =>
      if (storesOver g x n mark it y) = true then { y with data := [] } else y) } } }

/-- Raise or lower an attachment count; the flag stands while the count is 0. A header that cannot be read keeps its bytes [30]. -/
def ringCount (s0 : State) (g : Group) (cons bench : Bool) (addr : Nat) (up : Bool) (mark : Nat) : State :=
  let spot : Spot := { bench := bench, addr := addr }
  let s := landOwn (seeSpot s0 g spot 64) g spot 64 mark
  if spotBad s g spot 64 then s
  else
    let h : RingHdr := spotRead s g spot 64
    let off := if cons then 10 else 8
    let v := field h off 2
    let v' := if up then min 65535 (v + 1) else v - 1
    let flag := if cons then 2 else 1
    let others := h.flags - h.flags / flag % 2 * flag
    let f := if up then others else if v' = 0 then others + flag else h.flags
    spotWrite (spotWrite s g { spot with addr := addr + off } (leBytes 2 v')) g { spot with addr := addr + 12 } (leBytes 1 f)

/-- The count of an attachment, as an effect of its group: one element, the header. -/
def ringItem (g : Group) (attach cons bench : Bool) (addr : Nat) : Item :=
  { id := 0, group := g.uid, part := g.part, serial := g.serial, wkg := g.wkg, core := g.core, trace := 0, lanes := 0,
    eff := { ix := 0, op := .ring attach cons bench addr, elems := [{ Elem.mk0 uniLane addr [] with st := .checked }] },
    kind := 1, refused := [] }

/-- A count comes behind the group's FENCEs and earlier counts, and behind an atomic parked on the header's line (R156, R166) [90]. -/
def countReady (s : State) (it : Item) (x : Spot) : Bool :=
  let ps := priors s it.group it.id
  fencesPassed s ps && (ps.all fun p => match p.eff.op with
    | .ring _ _ _ _ => p.closed
    | _ => true) && !spotParked s it.asGroup x 64

/-- The count is made, once it may. -/
def makeCount (s : State) (id : Nat) : State :=
  match s.item? id with
  | none => s
  | some it =>
    match it.eff.op, it.eff.elems with
    | .ring attach cons bench addr, [x] =>
      if x.open && countReady s it { bench := bench, addr := addr } then
        resolve (ringCount s it.asGroup cons bench addr attach it.id) it 0 x .done
      else s
    | _, _ => s

/-- Enter a count among the group's effects: it is made at once where nothing stands before it. -/
def sendRing (s : State) (g : Group) (attach cons bench : Bool) (addr : Nat) : State :=
  makeCount (addItem s (ringItem g attach cons bench addr)) s.nextId

/-- The group's counts are all made. -/
def countsMade (s : State) (g : Group) : Bool := (ofGroup s g).all fun it => match it.eff.op with
  | .ring _ _ _ _ => it.closed
  | _ => true

/-- STORE_PERFORMED: a store, a RELEASE, a spawned slot, a log record or a ring's count (R87, R92, R146, R159, R255, R307). -/
def execStorePerformed (id elem : Nat) (s : State) : Host.Outcome State Fault Refusal :=
  .next (match s.item? id with
    | none => s
    | some it =>
      match it.elem? elem with
      | none => s
      | some x =>
        if x.st != .checked then s
        else
          match it.eff.op with
          | .store .global _ _ _ _ =>
            if elemReady s it elem x && !parkedBlocks s x.pa x.data.length true then performStore s it elem x else s
          | .store .scratch _ _ _ _ =>
            if elemReady s it elem x then resolve (writeScratch s it.asGroup x.addr x.data) it elem x .done else s
          | .release => if releaseReady s it then resolve (countRelease s it.part it.serial) it elem x .done else s
          | .ring _ _ _ _ => makeCount s id
          | .spawn q entry => if releaseReady s it && !taskHeld s it q x then resolve (readySlot s it q entry x) it elem x .done else s
          | .dlog _ => if logReady s it x then resolve (writeLog s it x) it elem x .done else s
          | _ => s)

/-! ### Returns of atomics (R157, R200, R357) -/

/-- An asynchronous write of a vector register: also to what a trace in progress would restore, and over a load in flight (R200). -/
def asyncV (g : Group) (lane reg : Nat) (w : Word) : Group :=
  let g1 := g.wv lane reg w
  { g1 with
    nodes := g1.nodes.map fun n => match n.ctx with
      | some c => { n with ctx := some { c with v0 := sset c.v0 (vkey lane reg) w } }
      | none => n,
    loads := g1.loads.map fun l => { l with writes := l.writes.map fun x => if x.1 == .v lane reg then (x.1, w) else x } }

/-- The save block of a group that is saved, or restored and not resumed (R199, R200), with its workgroup. -/
def savedAt (s : State) (uid : Nat) : Option (Workgroup × Nat) :=
  s.wkgs.findSome? fun w => (w.saves.find? fun x => x.uid == uid).map fun x => (w, x.addr)

/-- A return value in a VREG slot: in memory, and in the copy of its line that the core's L1 holds, from which a restore fragment may load
it (R200). -/
def writeVreg (s : State) (core part block lane reg : Nat) (w : Word) : State :=
  let va := block + 0x1800 + 384 * reg + 4 * lane
  let s1 := writeVa s core (dieOfCore core) part va (leBytes 4 w.toNat)
  match translate s1 core (dieOfCore core) part va .write with
  | .ok t => l1Write s1 core t.pa (leBytes 4 w.toNat)
  | .error _ => s1

/-- A return value reaches its register; from YIELD on until the restored group has resumed, its VREG slot too (R200): the slot of the block
that a waiting YIELD names, else of the block that the group was last saved in. -/
def returnV (s : State) (it : Item) (lane reg : Nat) (w : Word) : State :=
  let s1 := match s.group? it.group with
    | some g => s.setGroup (asyncV g lane reg w)
    | none => s
  match s1.group? it.group, savedAt s1 it.group with
  | some g, at_ =>
    if g.yield != .no then writeVreg s1 g.core it.part (g.savelo.toNat + g.savehi.toNat % 2 ^ 23 * 2 ^ 32) lane reg w
    else
      (match at_ with
       | some (_, a) => if g.restoring then writeVreg s1 g.core it.part a lane reg w else s1
       | none => s1)
  | none, some (k, a) => writeVreg s1 k.core it.part a lane reg w
  | none, none => s1

/-- The return of an atomic: one register, or a pair (Table 14.5). -/
def returnOld (s : State) (it : Item) (x : Elem) (old : Nat) : State :=
  match it.eff.op with
  | .atomic kind _ ty _ _ _ _ d _ =>
    if kind = .atom ∨ kind = .atoms then
      let s1 := returnV s it x.lane d (BitVec.ofNat 32 old)
      if wideTy ty then returnV s1 it x.lane (d + 1) (BitVec.ofNat 32 (old / 2 ^ 32)) else s1
    else s
  | _ => s

/-! ### Performing atomics (R154 to R157, R357 to R361) -/

/-- The read-modify-write at a global address. -/
def updateGlobal (s : State) (it : Item) (x : Elem) : State :=
  match it.eff.op with
  | .atomic kind sub ty x4 _ _ _ _ _ =>
    let old := pread s x.pa (if x4 then 16 else atomBytes ty)
    let new := atomBytesNew kind sub ty old x.b x.c
    returnOld (l1Write (pwrite s x.pa new) it.core x.pa new) it x (leNat old)
  | _ => s
/-- The read-modify-write at a scratchpad offset (R358). -/
def updateScratch (s : State) (it : Item) (x : Elem) : State :=
  match it.eff.op with
  | .atomic kind sub ty _ _ _ _ _ _ =>
    match scratchAt s it.asGroup x.addr (atomBytes ty) with
    | some w =>
      let old := sread w.1.data w.2 (atomBytes ty)
      returnOld (s.setWkg (w.1.put w.2 (atomBytesNew kind sub ty old x.b x.c))) it x (leNat old)
    | none => s
  | _ => s

/-- An acquire atomic drops the L1 copies of its core as it is performed (R163). -/
def atomAcquire (s : State) (it : Item) : State :=
  match it.eff.op with
  | .atomic _ _ _ _ true _ sc _ _ => if it.kind != 2 && wideScope sc then l1DropAll s it.core else s
  | _ => s

/-- The cause that parks an atomic, if any: the bad word of a held line, an error of a second-tier device, a retry of a bank unit
(R156). -/
def parkCause (s : State) (pa n : Nat) (mf : Option MemFault) : Option Nat :=
  if badSpan s (homeDie pa) pa n then some 3
  else
    match mf, tierOf pa with
    | some .secondTier, some (.cxl, _) => some 1
    | some .bankRetry, some (.bench, _) => some 2
    | _, _ => none

/-- Park an element in its home's fault queue; while the queue is full the request is held at the home. -/
def park (s : State) (it : Item) (k : Nat) (x : Elem) (cause : Nat) : State :=
  let d := s.die (homeDie x.pa)
  if 256 ≤ d.parked.length then s
  else
    let byHost := match s.part? it.part with
      | some q => q.assisted 1
      | none => false
    let s1 := s.setDie (homeDie x.pa)
      { d with parked := d.parked ++ [{ id := it.id, elem := k, cause := cause, stage := 0, assisted := byHost }] }
    s1.setItem (it.setElem k { x with st := .parked })

/-- Perform an atomic of global memory at its home, which reads it: it may find an error (R27), and park. -/
def performAtomic (s0 : State) (it : Item) (k : Nat) (x : Elem) (n : Nat) (mf : Option MemFault) : State :=
  if parkedBlocks s0 x.pa n false then s0
  else if !reaches s0 (it.die) x.pa then refuseElem s0 it k x 9
  else
    let s := seeSpan s0 (it.die) x.pa n (some it.part) (it.core % 48)
    match parkCause s x.pa n mf with
    | some cause => park s it k x cause
    | none => resolve (atomAcquire (updateGlobal s it x) it) it k x .done

/-- Perform an ATOMS at its bank, which reads it. -/
def performAtoms (s0 : State) (it : Item) (k : Nat) (x : Elem) (n : Nat) : State :=
  let s := seeOffset s0 it.asGroup x.addr n
  match (scratchAt s it.asGroup x.addr n).bind fun w => w.1.badWord w.2 n with
  | some e => refuseElem s it k x (faultCode e)
  | none => resolve (atomAcquire (updateScratch s it x) it) it k x .done

/-- DEFERRED_ATOMIC_PERFORM: ATOM, ATOMS, RED and BOP (R357 to R361). -/
def execDeferredAtomicPerform (id elem : Nat) (mf : Option MemFault) (s : State) : Host.Outcome State Fault Refusal :=
  .next (match s.item? id with
    | none => s
    | some it =>
      match it.elem? elem with
      | none => s
      | some x =>
        if x.st != .checked || !elemReady s it elem x then s
        else
          match it.eff.op with
          | .atomic .sred _ _ _ _ _ _ _ _ => s
          | .atomic .atoms _ ty _ _ _ _ _ _ => performAtoms s it elem x (atomBytes ty)
          | .atomic _ _ ty x4 _ _ _ _ _ => performAtomic s it elem x (if x4 then 16 else atomBytes ty) mf
          | _ => s)

/-! ### The fault queue (R54, R156) -/

/-- Replace an entry of a die's fault queue. -/
def setParked (s : State) (die : Nat) (p : Parked) : State :=
  let d := s.die die
  s.setDie die { d with parked := d.parked.map fun y => if y.id == p.id && y.elem == p.elem then p else y }
def dropParked (s : State) (die : Nat) (p : Parked) : State :=
  let d := s.die die
  s.setDie die { d with parked := d.parked.filter fun y => !(y.id == p.id && y.elem == p.elem) }

/-- ATOMIC_REPAIR of entry `at_` of a die's fault queue: in hardware mode the management core re-reads the line, in host-assisted mode
a CLASS 3 request is raised (R54). -/
def execAtomicRepair (die at_ : Nat) (s : State) : Host.Outcome State Fault Refusal :=
  .next (match (s.die die).parked[at_]? with
    | none => s
    | some p =>
      match s.item? p.id with
      | none => s
      | some it =>
        if p.stage != 0 then s
        else if p.assisted then
          let addr := ((it.elem? p.elem).map fun x => x.pa / 64 * 64).getD 0
          (raiseService (setParked s die { p with stage := 1 }) it.part (it.id * 128 + p.elem)
            { class_ := 3, access := 2, cause := p.cause, who := whoIs s it.group, addr := addr, count := 1, serial := it.serial }).1
        else setParked s die { p with stage := 2 })

/-- ATOMIC_REPLAY of entry `at_` of a die's fault queue: once repaired, or its bad word made good, it takes effect exactly once
(R28, R156). In host-assisted mode one parked on a bad word waits for both, its SERVICE and a good word (DESIGN CHOICE [92]); an atomic
whose home has gone is refused (R13, R22). -/
def execAtomicReplay (die at_ : Nat) (s : State) : Host.Outcome State Fault Refusal :=
  .next (match (s.die die).parked[at_]? with
    | none => s
    | some p =>
      match s.item? p.id with
      | none => s
      | some it =>
        match it.elem? p.elem, it.eff.op with
        | some x, .atomic _ _ ty x4 _ _ _ _ _ =>
          if !reaches s (it.die) x.pa then refuseElem (dropParked s die p) it p.elem x 9
          else if badSpan s die x.pa (if x4 then 16 else atomBytes ty) || (p.stage != 2 && (p.cause != 3 || p.assisted)) then s
          else resolve (atomAcquire (updateGlobal (dropParked s die p) it x) it) it p.elem x .done
        | _, _ => s)

/-! ### SRED (R168, R360) -/

/-- The combined operand of two pairs of equal address, operation and type. -/
def combine (sub ty a b : Nat) : Nat := atomNew sub ty a b 0

/-- Apply the pair that holds an element, all its elements at once. -/
def applyPair (s : State) (m : MergePair) : State :=
  let s1 := { s with merge := s.merge.filter (· != m) }
  let old := leNat (pread s1 m.addr (atomBytes m.ty))
  let new := leBytes (atomBytes m.ty) (atomNew m.sub m.ty old m.value 0)
  let ok := reaches s1 m.die m.addr
  let s2 := if ok then pwrite s1 m.addr new else s1
  m.from_.foldl (fun s y =>
    match s.item? y.1 with
    | some it =>
      (match it.elem? y.2 with
       | some x => if ok then resolve (l1Write s it.core m.addr new) it y.2 x .done else refuseElem s it y.2 x 9
       | none => s)
    | none => s) s2

/-- A peer element leaves by its port; whether the peer applies or refuses it is the peer's to say (a free value), and a refusal is
recorded here too. -/
def sendPeer (s : State) (it : Item) (k : Nat) (x : Elem) : State :=
  match s.fresh with
  | (v, s1) =>
    let s2 := if v.getLsbD 0 then
        writeErr s1 { die := it.die, kind := 3, hop := 2, part := some it.part, core := it.core % 48, addr := x.addr,
                      synd := 0 }
      else s1
    resolve s2 it k x .done

/-- SRED_ELEMENT_APPLY: the element enters the merge window of its die's switch, or it or its pair is applied at the home (R360). It may
join a pair behind earlier elements that stand in that same pair. -/
def execSredElementApply (id elem : Nat) (turn : SredTurn) (s : State) : Host.Outcome State Fault Refusal :=
  .next (match s.item? id with
    | none => s
    | some it =>
      match it.elem? elem with
      | none => s
      | some x =>
        if x.st != .checked then s
        else
          match it.eff.op with
          | .atomic .sred sub ty _ _ _ _ _ none =>
            let die := it.die
            let n := atomBytes ty
            (match s.merge.find? fun m => m.from_.contains (id, elem), turn with
             | some _, .joins => s
             | some m, .applies mf =>
               if parkedBlocks s m.addr n false then s
               else
                 let s1 := seeSpan s die m.addr n (some it.part) (it.core % 48)
                 if reaches s1 die m.addr && (parkCause s1 m.addr n mf).isSome then { s1 with merge := s1.merge.filter (· != m) }
                 else applyPair s1 m
             | none, .applies mf => if itemReady s it && elemFirst s it elem x then performAtomic s it elem x n mf else s
             | none, .joins =>
               if !itemReady s it then s
               else
                 match s.merge.find? fun m => m.die == die && m.addr == x.pa && m.sub == sub && m.ty == ty with
                 | some m =>
                   if !elemFirstBut s m.from_ it elem x then s
                   else
                     let m1 := { m with value := combine sub ty m.value x.b, from_ := m.from_ ++ [(id, elem)] }
                     { s with merge := s.merge.map fun y => if y == m then m1 else y }
                 | none =>
                   if elemFirst s it elem x && decide ((s.merge.filter fun m => m.die == die).length < 512) then
                     { s with merge := s.merge ++ [{ die := die, addr := x.pa, sub := sub, ty := ty, value := x.b, from_ := [(id, elem)] }] }
                   else s)
          | .atomic .sred _ _ _ _ _ _ _ (some _) => if itemReady s it then sendPeer s it elem x else s
          | _ => s)

/-- A peer's element as it waits in a fault queue: an item of no group, from its die. -/
def peerItem (part die : Nat) (addr pa op ty value : Nat) : Item :=
  { id := 0, group := 0, part := part, serial := 0, wkg := 0, core := 192 + die, trace := 0, lanes := 0,
    eff := { ix := 0, op := .atomic .sred op ty false false false 0 0 none,
             elems := [{ Elem.mk0 0 addr [] with b := value, pa := pa, st := .checked }] }, kind := 1, refused := [] }

/-- Park a peer's element at its home (R156): its item bears a number that is no group's. -/
def parkPeer (s : State) (it : Item) (x : Elem) (cause : Nat) : State :=
  if 256 ≤ (s.die (homeDie x.pa)).parked.length then s
  else park (addItem s { it with group := s.nextId }) { it with id := s.nextId, group := s.nextId } 0 x cause

/-- SRED_PEER_ELEMENT: an element of a peer device, translated in the partition of the same number with write permission, applied, or
dropped with a record of KIND 3 and HOP 2 (R360); on a bad word it is parked, as any atomic is (R156). -/
def execSredPeerElement (part die : Nat) (addr : DWord) (op ty : BitVec 3) (value : DWord) (s : State) :
    Host.Outcome State Fault Refusal :=
  .next (if !(s.die die).running || (s.die die).tripped || walkHeld s (192 + die) die part addr.toNat then s
    else
      let n := atomBytes ty.toNat
      let s0 := seeWalk s (192 + die) die part addr.toNat
      let refuse := writeErr s0 { die := die, kind := 3, hop := 2, part := if (s.part? part).isSome then some part else none,
                                  core := 0xFF, addr := addr.toNat, synd := 0 }
      if addr.toNat % n ≠ 0 || 2 < op.toNat || 5 < ty.toNat then refuse
      else
        match xlate s0 die part addr.toNat .write with
        | .error _ => refuse
        | .ok x =>
          if !reaches s0 die x.pa then refuse
          else if parkedBlocks s0 x.pa n false then s0
          else
            let s1 := seeSpan s0 die x.pa n (some part) 0xFF
            let v := value.toNat % 2 ^ (8 * n)
            match parkCause s1 x.pa n none with
            | some cause =>
              let it := peerItem part die addr.toNat x.pa op.toNat ty.toNat v
              parkPeer s1 it (it.eff.elems.headD default) cause
            | none =>
              let old := leNat (pread s1 x.pa n)
              pwrite s1 x.pa (leBytes n (atomNew op.toNat ty.toNat old v 0)))

/-! ### LDA (R146, R348, R349) -/

/-- An LDA's reads come after what its group committed before it and what the group observed (R146, R163, R170). -/
def ldaReady (s : State) (it : Item) (k : Nat) (x : Elem) (w : Nat) : Bool :=
  let ps := priors s it.group it.id
  fencesPassed s ps && (ps.all fun p => p.kind == 2 || p.doneAt 4) && coreSeen s it.core it.group it.id 4 && elemFirst s it k x &&
    !parkedBlocks s x.pa w false

/-- LDA_ELEMENT_WRITE: the element is read and written to scratchpad, or left unwritten on a data error. -/
def execLdaElementWrite (id elem : Nat) (e : LineError) (s : State) : Host.Outcome State Fault Refusal :=
  .next (match s.item? id with
    | none => s
    | some it =>
      match it.elem? elem, it.eff.op with
      | some x, .lda w =>
        if x.st != .checked || !ldaReady s it elem x w then s
        else
          let die := it.die
          let s1 := seeSpan (setFlaw s (x.pa / 64 * 64) e) die x.pa w (some it.part) (it.core % 48)
          let s2 := if badSpan s1 die x.pa w then
              match s1.group? it.group with
              | some g => s1.setGroup { g with ldaerr := BitVec.ofNat 32 (min 65535 (g.ldaerr.toNat + 1)) }
              | none => s1
            else writeScratch s1 it.asGroup x.b (pread s1 x.pa w)
          resolve s2 it elem x .done
      | _, _ => s)

end Sys2Proof.Machine
end

