-- ==== Sys2Proof/Machine/EnginePost.lean ====
section
/-! DEFINITION. Engine posts, gangs and completion words, as they issue (R148 to R151, R226, R227, R304, R371 to R374). -/
namespace Sys2Proof.Machine

/-- One post: its queue's kind, OP byte, where its entry stands, its body (bytes 63:16), its registers. -/
structure PostForm where
  kind : QueueKind
  op : Nat
  bench : Bool
  counted : Bool
  deriving DecidableEq, Repr, Inhabited

/-- A post once its operands are checked: entry check, limit, capture (R149, R371). -/
def postEffect (m : PostForm) (d a : Nat) (body : List Byte) (s0 : State) (g : Group) (n : Node) (c : Ctx) : State :=
  let next := fun (c : Ctx) => c.advance 2
  if c.hdr.npost.toNat ≤ postCount c then groupFault s0 g n c 49
  else
    let spot := ringSpot g n m.bench a
    let s := seeSpotWalk s0 g spot
    match spotCheck s g spot 64 64 (if m.bench then .update else .read) with
    | 0 => putCtx s g n (next ((c.own g d).buffer (.post m.kind spot.addr m.op body d m.counted) []))
    | e => uniFault s g n c e next

/-- A post whose entry stands on a bench page waits while the walk of its check is held by a parked atomic (R142, R156). -/
def postReady (m : PostForm) (a : Nat) (s : State) (g : Group) (n : Node) (_ : Ctx) : Bool :=
  !ringRegOk m.bench a || !spotWalkHeld s g (ringSpot g n m.bench a)

/-- LAYOUT, COPY, GATHER, SCATTER and COLL (R371). -/
def postOp (m : PostForm) (o : LOp) (s : State) : Host.Outcome State Fault Refusal :=
  let d := o.d.toNat
  let a := o.a.toNat
  let b := o.b.toNat
  waitOp false { Use.none with sr := d :: ringUse m.bench a ++ (List.range 12).map (b + ·), ws := [d] } 6 (postReady m a) (fun s g n c =>
    if 60 ≤ d || 52 < b || !ringRegOk m.bench a then uniFault s g n c 6 (·.advance 2)
    else
      let body := putAt ((List.range 12).flatMap fun i => leBytes 4 (readS g n (b + i)).toNat) 0 [0]
      postEffect m d a body s g n c) s

/-- LAYOUT to the cluster's LQ (Table 15.2). -/
def execLayout (o : LOp) (s : State) : Host.Outcome State Fault Refusal :=
  postOp { kind := .lq, op := 0x01, bench := false, counted := true } o s
/-- COPY to the core's CQ (Table 15.2). -/
def execCopy (o : LOp) (s : State) : Host.Outcome State Fault Refusal :=
  postOp { kind := .cq, op := 0x01, bench := false, counted := true } o s
/-- GATHER to the core's CQ (Table 15.2). -/
def execGather (o : LOp) (s : State) : Host.Outcome State Fault Refusal :=
  postOp { kind := .cq, op := 0x02, bench := false, counted := true } o s
/-- SCATTER to the core's CQ (Table 15.2). -/
def execScatter (o : LOp) (s : State) : Host.Outcome State Fault Refusal :=
  postOp { kind := .cq, op := 0x03, bench := false, counted := true } o s
/-- COLL to the die's KQ: its entry stands on a bench page, and no counter counts it (Table 15.2). -/
def execColl (o : LOp) (s : State) : Host.Outcome State Fault Refusal :=
  postOp { kind := .kq, op := 0x01, bench := true, counted := false } o s

/-- The kind of queue that SUB names (R301). -/
def queueKindOf (sub : Nat) : QueueKind :=
  match sub with
  | 0 => .mq
  | 1 => .cq
  | 2 => .lq
  | _ => .kq

/-- QFENCE.queue sd, sa, names: byte 17 of its entry names the queues (Table 10.2, R304). -/
def execQfence (o : LOp) (s : State) : Host.Outcome State Fault Refusal :=
  let d := o.d.toNat
  let a := o.a.toNat
  let m : PostForm := { kind := queueKindOf o.sub.toNat, op := 0x0F, bench := o.sub == 3, counted := false }
  waitOp false { Use.none with sr := d :: ringUse m.bench a, ws := [d] } 6 (postReady m a) (fun s g n c =>
    if 60 ≤ d || !ringRegOk m.bench a then uniFault s g n c 6 (·.advance 2)
    else postEffect m d a (putAt (List.replicate 48 0) 1 (leBytes 1 o.mod.toNat)) s g n c) s

/-- SEQRD.queue sd: the completion word, as a load, and an acquire, which follows the group's FENCEs and parked atomics (R168, R374). -/
def execSeqrd (o : LOp) (s : State) : Host.Outcome State Fault Refusal :=
  let d := o.d.toNat
  let bad := d % 2 != 0 || decide (58 < d)
  waitOp false { Use.none with sr := [d, d + 1], ws := [d, d + 1] } 0 (fun s g _ _ => bad || acquireReady s g) (fun s g n c =>
    if bad then uniFault s g n c 6 (·.advance 2)
    else
      let q := engqFor s g o.sub.toNat
      let w := (q.map fun q => (q.word, q.err)).getD (0, false)
      let writes := [(RegRef.s d, w.1), (RegRef.s (d + 1), if w.2 then 1 else 0)]
      let l : Load := { id := 0, node := 0, ix := 0, writes := writes, spans := [], iv := 0, rread := none, answered := none }
      match issueLoad (acquire s g 4) g n c [.s d, .s (d + 1)] l with
      | (s1, g1, c1) => putCtx s1 g1 n (c1.advance 2)) s

/-! ### Gangs (R227, R372) -/

/-- GCNT and GBASE of a gang register (Table 10.3). -/
def gangCount (v : Word) : Nat := bits v.toNat 10 8
def gangBase (v : Word) : Nat := bits v.toNat 5 0

/-- GROUPS of the group's launch. -/
def groupsOf (s : State) (g : Group) : Nat :=
  match s.launch? g.part g.serial with
  | some l => l.fld 31 1
  | none => 0

/-- A value keeps Table 10.3 for a group. -/
def gangOk (s : State) (g : Group) (v : Word) : Bool :=
  let k := gangCount v
  let b := gangBase v
  bits v.toNat 31 11 == 0 && bits v.toNat 7 6 == 0 && k != 1 && k != 7 &&
    (if k = 0 then b == 0 else b ≤ g.gid && g.gid < b + k && b + k ≤ groupsOf s g)

/-- GANG sa, or GANG with a literal (R372); in a method code 48. -/
def execGang (o : LOp) (s : State) : Host.Outcome State Fault Refusal :=
  let a := o.a.toNat
  coreOp false { Use.none with sr := if o.w2.isSome then [] else scalarUse a } 4 (fun s g n c =>
    let next := fun (c : Ctx) => c.advance (lenWords o.w2)
    let v := match o.w2 with
      | some w => w
      | none => readScalar g n a
    if (o.w2.isNone && !scalarOk a) || !gangOk s g v then uniFault s g n c 6 next
    else putCtx s g n (next (c.buffer (.gang v) []))) s

/-! ### MMA (R373) -/

/-- MMA vd:block, va, sb, sq: the operands are captured; it arrives at the latch at the terminator (R228). -/
def execMma (o : LOp) (s : State) : Host.Outcome State Fault Refusal :=
  let d := o.d.toNat
  let a := o.a.toNat
  let b := o.b.toNat
  let sq := (o.w2.getD 0).toNat
  coreOp false { Use.none with sr := sq :: (List.range 6).map (b + ·), vr := [a], ws := [sq] } 6 (fun s g n c =>
    let next := fun (c : Ctx) => c.advance 3
    if !o.bk || 58 < b || 60 ≤ sq || g.nregs ≤ a || !dstOk false g.nregs false (o.offs false) d || g.gang = 0 then
      uniFault s g n c 6 next
    else if c.hdr.npost.toNat ≤ postCount c then groupFault s g n c 49
    else
      let rec_ := (List.range 6).map fun i => readS g n (b + i)
      let entry := (rec_.getD 0 0).toNat
      let e := match spotCheck s g { bench := false, addr := entry } 64 64 .read with
        | 0 => if bits (rec_.getD 5 0).toNat 31 24 ≠ 0 then 6 else 0
        | e => e
      if e ≠ 0 then uniFault s g n c e next
      else
        let elems := (lanesOf c.active).map fun l => Elem.mk0 l 0 (leBytes 4 (g.rv l a).toNat)
        putCtx s g n (next ((c.own g sq).buffer (.mma rec_ d (o.bw.toNat + 4 * o.bh.toNat) o.bs.toNat sq) elems))) s

end Sys2Proof.Machine
end

