-- ==== Sys2Proof/Machine/Replay.lean ====
section
/-! DEFINITION. Calls of replayed objects as they issue, tree steps, path digests and the digest log (R174, R253, R254, R375 to
R381). -/
namespace Sys2Proof.Machine

/-! ### Horizons (R174, R375) -/

/-- A group's horizon for an object; 0 when it holds none. -/
def horizonOf (g : Group) (obj : Nat) : Word := ((g.horizons.find? fun h => h.1 == obj).map (·.2)).getD 0

/-- The position that a die has applied or rejected last (R377). -/
def appliedOn (s : State) (part die obj : Nat) : Word :=
  match s.part? part with
  | some p =>
    (match p.objs.find? fun o => o.obj == obj with
     | some o => o.applied.getD die 0
     | none => 0)
  | none => 0

/-- The group's least recently used horizon may be evicted: every die that has not tripped has passed it (R375). -/
def mayEvict (s : State) (g : Group) : Bool :=
  match g.horizons with
  | [] => true
  | h :: _ => (List.range 4).all fun d => (s.die d).tripped || seqReached (appliedOn s g.part d h.1) h.2

/-- The group can hold a horizon for an object now. -/
def horizonReady (s : State) (g : Group) (obj : Nat) : Bool :=
  g.horizons.any (fun h => h.1 == obj) || g.horizons.length < 8 || mayEvict s g

/-- Raise a horizon to a position, as the most recently used; a ninth object evicts the least recently used (R375). -/
def raiseHorizon (g : Group) (obj : Nat) (n : Word) : Group :=
  let old := horizonOf g obj
  let rest := g.horizons.filter fun h => h.1 != obj
  let kept := if rest.length = 8 then rest.tail else rest
  { g with horizons := kept ++ [(obj, if seqReached n old then n else old)] }

/-! ### Calls (R375 to R378) -/

/-- The call record is well formed: s[a] bits 31:14 zero, a at most 52. -/
def callRecordOk (g : Group) (n : Node) (a : Nat) : Bool := a ≤ 52 && bits (readS g n a).toNat 31 14 == 0
def callObj (g : Group) (n : Node) (a : Nat) : Nat := bits (readS g n a).toNat 7 0
def callMethod (g : Group) (n : Node) (a : Nat) : Nat := bits (readS g n a).toNat 13 8
def callArgs (g : Group) (n : Node) (a : Nat) : List Word := (List.range 10).map fun i => readS g n (a + 2 + i)

/-- RCALL sd, sa, target (R375). -/
def execRcall (o : CtlOp) (s : State) : Host.Outcome State Fault Refusal :=
  let d := o.d.toNat
  let a := o.a.toNat
  coreOp true { Use.none with sr := d :: (List.range 12).map (a + ·), ws := [d] } 6 (fun s g n c =>
    if 60 ≤ d || !callRecordOk g n a then groupFault s g n c 6
    else
      let t := relAddr c.pc o.offset
      terminate s g n c (.rcall (callObj g n a) (callMethod g n a) (readS g n (a + 1)) (callArgs g n a) d t) [t]) s

/-- RREAD sd, sa: a load that waits for its method to run (R376); in a method code 48. -/
def execRread (o : LOp) (s : State) : Host.Outcome State Fault Refusal :=
  let d := o.d.toNat
  let a := o.a.toNat
  coreOp false { Use.none with sr := [d, d + 1, d + 2] ++ (List.range 12).map (a + ·), ws := [d, d + 1, d + 2] } 4 (fun s g n c =>
    if d % 2 ≠ 0 || 59 < d + 2 || !callRecordOk g n a then uniFault s g n c 6 (·.advance 2)
    else
      let writes := [(RegRef.s d, (0 : Word)), (RegRef.s (d + 1), 0), (RegRef.s (d + 2), 0)]
      let l : Load := { id := 0, node := 0, ix := 0, writes := writes, spans := [], iv := 0,
                        rread := some (callObj g n a, callMethod g n a, callArgs g n a, d), answered := none }
      match issueLoad s g n c (writes.map (·.1)) l with
      | (s1, g1, c1) => putCtx s1 g1 n (c1.advance 2)) s

/-- RSYNC sa, sb: waits until the die has applied the position; an acquire at device scope that raises the horizon (R377). -/
def execRsync (o : LOp) (s : State) : Host.Outcome State Fault Refusal :=
  let a := o.a.toNat
  let b := o.b.toNat
  let okOps := scalarOk a && scalarOk b
  let obj := fun g n => bits (readScalar g n a).toNat 7 0
  waitOp false { Use.none with sr := scalarUse a ++ scalarUse b } 4
    (fun s g n _ => !okOps ||
      (seqReached (appliedOn s g.part g.die (obj g n)) (readScalar g n b) && horizonReady s g (obj g n) && acquireReady s g))
    (fun s g n c =>
      if !okOps then uniFault s g n c 6 (·.advance 2)
      else putCtx (acquire s g 4) (raiseHorizon g (obj g n) (readScalar g n b)) n (c.advance 2)) s

/-- RRET sa: the call's result at commit; only in a method (R378). -/
def execRret (o : LOp) (s : State) : Host.Outcome State Fault Refusal :=
  let a := o.a.toNat
  coreOp false { Use.none with sr := pairUse a } 0 (fun s g n c =>
    if c.hdr.kind != 1 then groupFault s g n c 48
    else if !pairOk a then uniFault s g n c 6 (·.advance 2)
    else putCtx s g n ((c.buffer (.rret (BitVec.ofNat 64 (readPair g n a))) []).advance 2)) s

/-! ### Tree steps (R253, R254, R379) -/

/-- The direction code (R254). -/
def treeDir (x thresh flags : Nat) : Nat :=
  let v := fdec fp32 x
  let t := fdec fp32 thresh
  if v.isNan then (if bit flags 1 then 3 else 2)
  else if (if bit flags 2 then fleV v t else fltV v t) then 0 else 1

/-- What one lane's step gives. -/
inductive Stepped where
  | got (x : Got)
  | leaf (value : Word) (pa : Nat)
  | inner (next : Nat) (dir : Nat) (pa feat : Nat)

/-- One lane's step from a node with a feature base (R379); the node is read at device scope, so at its home (R253). -/
def treeStep (s : State) (g : Group) (c : Ctx) (lane node base : Nat) : Stepped :=
  match loadLane s g c lane node 16 true with
  | .ok b pa =>
    let flags := field b 6 1
    if field b 7 1 ≠ 0 ∨ bits flags 7 3 ≠ 0 then .got (.fault 6)
    else if bit flags 0 then .leaf (BitVec.ofNat 32 (field b 0 4)) pa
    else
      (match loadLane s g c lane ((base + 4 * field b 4 2) % 2 ^ 64) 4 false with
       | .ok f fpa =>
         let dir := treeDir (leNat f) (field b 0 4) flags
         let off := if dir % 2 = 0 then sext (field b 8 4) 32 else sext (field b 12 4) 32
         .inner (trunc (node + 16 * off) 64) dir pa fpa
       | x => .got x)
  | x => .got x

/-- The address of the feature that a lane's node names, if it is no leaf. -/
def treeFeature (s : State) (g : Group) (c : Ctx) (lane node base : Nat) : Option Nat :=
  match loadLane s g c lane node 16 true with
  | .ok b _ => if bit (field b 6 1) 0 then none else some ((base + 4 * field b 4 2) % 2 ^ 64)
  | _ => none

/-- A lane's reads touch an SO page. -/
def treeSo (s : State) (g : Group) (c : Ctx) (lane node base : Nat) : Bool :=
  loadKind s g node == some 0 || (treeFeature s g c lane node base).any fun a => loadKind s g a == some 0

/-- Both reads of a lane are ready. -/
def treeReady (s : State) (g : Group) (c : Ctx) (so : Bool) (lane node base : Nat) : Bool :=
  loadReady s g node 16 so false true && (treeFeature s g c lane node base).all fun a => loadReady s g a 4 so false false

/-- Both reads of a lane meet the check codes of their lines (R26, R27). -/
def treeSee (s : State) (g : Group) (c : Ctx) (lane node base : Nat) : State :=
  let s1 := seeLoad s g node 16 true
  match treeFeature s1 g c lane node base with
  | some a => seeLoad s1 g a 4 false
  | none => s1

/-- The bytes that a step consumes at their homes (R27). -/
def treeSpans (s : State) (g : Group) (c : Ctx) (lane node base : Nat) : List (Nat × Nat × Nat) :=
  match treeStep s g c lane node base with
  | .leaf _ _ => homeSpans s g c lane node 16 true
  | .inner _ _ _ _ => homeSpans s g c lane node 16 true ++
      (treeFeature s g c lane node base).toList.flatMap fun a => homeSpans s g c lane a 4 false
  | .got _ => []

/-- TSTEP vd, va, pr (R379). -/
def execTstep (o : LOp) (s : State) : Host.Outcome State Fault Refusal :=
  let d := o.d.toNat
  let pr := o.mod.toNat % 16
  let node := fun (g : Group) l => pairOf (g.rv l d) (g.rv l (d + 1))
  let base := fun g n l => readSrc g n l (.int 3) o.srcA 0
  let okOps := fun (g : Group) => d % 2 == 0 && d + 3 ≤ g.nregs && srcOk g.nregs (.int 3) [0] o.srcA
  let u : Use := { sr := o.srcA.scalars (.int 3), vr := [d, d + 1, d + 2] ++ o.srcA.vectors (.int 3) [0],
                   pr := [pr, o.ps.toNat], pdg := true, extra := 0, wv := [d + 2], ps := o.ps.toNat, pm := o.pm.toNat }
  waitOp false u 0
    (fun s g n c =>
      let lanes := selected g o.ps.toNat o.pm.toNat c.active
      let so := lanes.any fun l => treeSo s g c l (node g l) (base g n l)
      !okOps g || lanes.all fun l => treeReady s g c so l (node g l) (base g n l))
    (fun s0 g n c =>
      let lanes := selected g o.ps.toNat o.pm.toNat c.active
      let next := fun (c : Ctx) => c.advance 2
      if !okOps g then faultLanes s0 g n c (lanes.map fun l => (l, 6)) next
      else
        let s := lanes.foldl (fun s l => treeSee s g c l (node g l) (base g n l)) s0
        let rs := lanes.map fun l => (l, treeStep s g c l (node g l) (base g n l))
        let bad := rs.filterMap fun r => match r.2 with
          | .got x => some (r.1, 0, x)
          | _ => none
        match rejectOf bad with
        | some r => rejectCall s g r 0
        | none =>
          let writes := rs.flatMap fun r => match r.2 with
            | .leaf v _ => [(RegRef.v r.1 (d + 2), v), (.p r.1 pr, 1)]
            | .inner a dir _ _ =>
              [(.v r.1 d, BitVec.ofNat 32 a), (.v r.1 (d + 1), BitVec.ofNat 32 (a / 2 ^ 32)), (.p r.1 pr, 0),
               (.pdg r.1, BitVec.ofNat 32 c.pc ||| BitVec.ofNat 32 dir)]
            | .got _ => []
          let spans := lanes.flatMap fun l => treeSpans s g c l (node g l) (base g n l)
          let s' := rs.foldl (fun s r => match r.2 with
            | .leaf _ pa => l1Drop s g.core pa
            | .inner _ _ pa _ => l1Drop s g.core pa
            | .got _ => s) s
          let dst := (if rs.any fun r => match r.2 with
              | .inner _ _ _ _ => true
              | _ => false then [d, d + 1] else []) ++
            (if rs.any fun r => match r.2 with
              | .leaf _ _ => true
              | _ => false then [d + 2] else [])
          if writes.isEmpty then faultLanes s g n c (faultsOf bad) next
          else if overShadow c dst then groupFault s g n c 49
          else
            let l : Load := { id := 0, node := 0, ix := 0, writes := writes, spans := spans, iv := 0, rread := none, answered := none }
            match issueLoad s' g n (c.shadow dst) [] l with
            | (s1, g1, c1) => faultLanes s1 g1 n c1 (faultsOf bad) next) s

/-! ### The path digest (R380) -/

/-- PDGSET va (R380). -/
def pdgsetSpec (o : LOp) (nr : Nat) : LaneSpec :=
  { words := 2, uni := false, ps := o.ps.toNat, pm := o.pm.toNat,
    use := { sr := o.srcA.scalars (.int 3), vr := o.srcA.vectors (.int 3) [0], pr := [o.ps.toNat], pdg := true, extra := 0 },
    dst := [], chk := if srcOk nr (.int 3) [0] o.srcA then 0 else 6, quad := false, noMethod := false,
    body := fun g n _ lane =>
      { code := 0, flags := 0, w := [], pdg := some (BitVec.ofNat 64 (readSrc g n lane (.int 3) o.srcA 0)) } }
/-- PDGSET (R380). -/
def execPdgset (o : LOp) (s : State) : Host.Outcome State Fault Refusal := laneOp (pdgsetSpec o (curNregs s)) s

/-- PDGRD vd (R380). -/
def pdgrdSpec (o : LOp) (nr : Nat) : LaneSpec :=
  let d := o.d.toNat
  { words := 2, uni := false, ps := o.ps.toNat, pm := o.pm.toNat,
    use := { Use.none with vr := [d, d + 1], pr := [o.ps.toNat], pdg := true }, dst := [d, d + 1],
    chk := if dstOk false nr true [0] d then 0 else 6, quad := false, noMethod := false,
    body := fun g _ _ lane => .ofW (dstWrites false lane d 0 true (g.rpdg lane).toNat) }
/-- PDGRD (R380). -/
def execPdgrd (o : LOp) (s : State) : Host.Outcome State Fault Refusal := laneOp (pdgrdSpec o (curNregs s)) s

/-- The named seal register of the group's partition is SEALED (R257). -/
def sealSet (s : State) (g : Group) (k : Nat) : Bool :=
  match s.part? g.part with
  | some p => ((p.seals[k]?).map fun r => r.st == .sealed).getD false
  | none => false

/-- DLOG va, vb, seal: checked and captured at issue (R381). -/
def execDlog (o : LOp) (s : State) : Host.Outcome State Fault Refusal :=
  let k := o.mod.toNat % 16
  let u : Use := { sr := o.srcA.scalars (.int 3) ++ o.srcB.scalars (.int 3),
                   vr := o.srcA.vectors (.int 3) [0] ++ o.srcB.vectors (.int 3) [0], pr := [o.ps.toNat], pdg := true, extra := 0,
                   ps := o.ps.toNat, pm := o.pm.toNat }
  coreOp false u 6 (fun s g n c =>
    let lanes := selected g o.ps.toNat o.pm.toNat c.active
    let next := fun (c : Ctx) => c.advance 2
    if !srcOk g.nregs (.int 3) [0] o.srcA || !srcOk g.nregs (.int 3) [0] o.srcB then
      faultLanes s g n c (lanes.map fun l => (l, 6)) next
    else if c.hdr.npost.toNat ≤ postCount c then groupFault s g n c 49
    else if !sealSet s g k then faultLanes s g n c (lanes.map fun l => (l, accessFault 4 4 0)) next
    else
      let elems := lanes.map fun l =>
        { lane := l, addr := 0,
          data := leBytes 8 (readSrc g n l (.int 3) o.srcA 0) ++ leBytes 8 (readSrc g n l (.int 3) o.srcB 0),
          b := (g.rpdg l).toNat, c := 0, pa := 0, st := ElemSt.fresh : Elem }
      putCtx s g n (next (c.buffer (.dlog k) elems))) s

end Sys2Proof.Machine
end

