-- ==== Sys2Proof/Machine/SysReg.lean ====
section
/-! DEFINITION. Special registers, and the instructions that carry the fragment tree (R183, R210, R211, R349, R382 to R386). -/
namespace Sys2Proof.Machine

/-! ### Reading (R382, R383) -/

/-- The SFRQ register (Table 8.4). -/
def sfrqReg (g : Group) : Word :=
  BitVec.ofNat 32 (g.lost % 256 * 2 ^ 8 + (if g.pend then 128 else 0) + g.sfrq.length)
/-- Word k of the head record; 0 when none is queued. -/
def sfrqWord (g : Group) (k : Nat) : Word :=
  match g.sfrq with
  | [] => 0
  | r :: _ => BitVec.ofNat 32 (field r (4 * k) 4)

/-- CNT by SUB (R383). -/
def cntReg (g : Group) (sub : Nat) : Word :=
  match sub with
  | 0 =>
    let m := fun (w : Word) => min w.toNat 255
    BitVec.ofNat 32 (m g.ld + m g.st * 2 ^ 8 + m g.cp * 2 ^ 16 + m g.tl * 2 ^ 24)
  | 1 => g.ld
  | 2 => g.st
  | 3 => g.cp
  | _ => g.tl

/-- Working sub-arrays of a core (R108). -/
def workingArrays (s : State) (core : Nat) : Nat := ((List.range 4).filter fun k => !s.fenced.contains (4 * core + k)).length

/-- A register that reads alike in every lane (Table 15.5); LANEID and CYCLE apart. -/
def sysReg (s : State) (g : Group) (r sub : Nat) : Word :=
  let n := fun (x : Nat) => (BitVec.ofNat 32 x : Word)
  match r with
  | 0x01 => n g.gid
  | 0x02 => n g.wkg
  | 0x03 => n (cluOfCore g.core % 12)
  | 0x04 => n (g.core % 48)
  | 0x05 => n g.die
  | 0x06 => n g.part
  | 0x07 => g.serial
  | 0x08 => g.gang
  | 0x09 => g.fmode
  | 0x0A => g.fstat
  | 0x0B => cntReg g sub
  | 0x0C => sfrqReg g
  | 0x0D => sfrqWord g 0
  | 0x0E => sfrqWord g 1
  | 0x0F => sfrqWord g 2
  | 0x10 => sfrqWord g 3
  | 0x11 => 0x000F
  | 0x12 => 0x00010001
  | 0x13 => n (workingArrays s g.core + g.nregs / 16 * 2 ^ 8 + groupsOf s g * 2 ^ 16)
  | 0x14 => n (field (s.die g.die).config 18 1 % 16)
  | 0x16 => g.cycleh
  | 0x17 => g.preempt
  | 0x18 => g.savelo
  | 0x19 => g.savehi
  | _ => g.ldaerr

/-- Special registers that a method may not read (R370). -/
def notInMethod (r : Nat) : Bool := [0x15, 0x04, 0x03, 0x05, 0x06].contains r
/-- The ownership number of a special register that is owned like a scalar (R130, R211, R384). -/
def sysOwned (r : Nat) : List Nat :=
  if r = 0x09 then [regFmode] else if r = 0x18 then [regSavelo] else if r = 0x19 then [regSavehi] else []

/-- A SYSRD's operands are legal: the register exists, LANEID is a lane's, D is a scalar s0 to s59 or an allocated vector. -/
def sysrdOk (o : LOp) (nregs : Nat) : Bool :=
  o.a.toNat ≤ 0x1A && !(o.u && o.a == 0) && (if o.u then o.d.toNat < 60 else o.d.toNat < nregs)

/-- A SYSRD of some value per lane (R383). -/
def sysrdSpec (o : LOp) (value : Group → Nat → Word) (nr : Nat) : LaneSpec :=
  let d := o.d.toNat
  { words := 2, uni := o.u, ps := o.ps.toNat, pm := o.pm.toNat,
    use := { sr := sysOwned o.a.toNat ++ (if o.u then [d] else []), vr := if o.u then [] else [d],
             pr := if o.u then [] else [o.ps.toNat], pdg := false, extra := 0, ws := if o.u then [d] else [] },
    dst := if o.u then [] else [d], chk := if sysrdOk o nr then 0 else 6, quad := false,
    noMethod := notInMethod o.a.toNat,
    body := fun g _ _ lane => .ofW [((if o.u then RegRef.s d else .v lane d), value g lane)] }

/-- The value of a SYSRD other than CYCLE in a lane (R382, R383). -/
def sysrdVal (s : State) (o : LOp) (g : Group) (lane : Nat) : Word :=
  if o.a = 0 then BitVec.ofNat 32 lane else sysReg s g o.a.toNat o.sub.toNat

/-- SYSRD dest, name (R383). -/
def execSysrd (o : LOp) (s : State) : Host.Outcome State Fault Refusal := laneOp (sysrdSpec o (sysrdVal s o) (curNregs s)) s

/-- The instruction selects some lane, so that it reads. -/
def selectsAny (o : LOp) (g : Group) (c : Ctx) : Bool := o.u || !(selected g o.ps.toNat o.pm.toNat c.active).isEmpty

/-- A core's clock count (R3, R382). -/
def coreClock (s : State) (core : Nat) : Nat := s.cycles.getD core 0

/-- A read of CYCLE latches the high half of its core's clock count into CYCLEH (R382). -/
def latchCycle (o : LOp) (s : State) : State :=
  match curFrame s with
  | none => s
  | some (g, n) =>
    match precheck s g n false (sysrdSpec o (fun _ _ => 0) g.nregs).used with
    | .stop _ => s
    | .go _ _ _ c =>
      if g.landing.isNone && sysrdOk o g.nregs && selectsAny o g c then
        s.setGroup { g with cycleh := BitVec.ofNat 32 (coreClock s g.core / 2 ^ 32) }
      else s

/-- A read of CYCLE as a lane instruction. -/
def cycleSpec (o : LOp) (s : State) : LaneSpec :=
  sysrdSpec o (fun g _ => BitVec.ofNat 32 (coreClock s g.core)) (curNregs s)

/-- SYSRD of CYCLE (R382). -/
def execSysrdCycle (o : LOp) (s : State) : Host.Outcome State Fault Refusal :=
  laneOp (cycleSpec o s) (latchCycle o s)

/-! ### Writing (R183, R210, R211, R384) -/

/-- The value of a SYSWR, a literal or a scalar source. -/
def syswrVal (g : Group) (n : Node) (o : LOp) : Word :=
  match o.w2 with
  | some w => w
  | none => readScalar g n o.b.toNat

/-- A SYSWR: source legal, no zero field set, then its effect (R384); a method may not execute one (R370). -/
def syswrOp (o : LOp) (owned : List Nat) (zero : Word) (f : Word → Group → Node → Ctx → Group × Node × Ctx) (s : State) :
    Host.Outcome State Fault Refusal :=
  let srcs := if o.w2.isSome then [] else scalarUse o.b.toNat
  coreOp false { Use.none with sr := owned ++ srcs, ws := owned } 6 (fun s g n c =>
    let next := fun (c : Ctx) => c.advance (lenWords o.w2)
    let v := syswrVal g n o
    if (o.w2.isNone && !scalarOk o.b.toNat) || v &&& zero ≠ 0 then uniFault s g n c 6 next
    else
      match f v g n c with
      | (g1, n1, c1) => putCtx s g1 n1 (next c1)) s

/-- A write that takes effect at commit. -/
def atCommit (r : CommitReg) (v : Word) (g : Group) (n : Node) (c : Ctx) : Group × Node × Ctx := (g, n, c.buffer (.sysw r v) [])

/-- SYSWR FMODE: at issue, shadowed and owned (R211). Any register that is read-only, or that does not exist, is code 6 (R382, R384). -/
def execSyswrFmode (o : LOp) (s : State) : Host.Outcome State Fault Refusal :=
  if o.a = 0x09 then syswrOp o [regFmode] 0xFFFFE0FC (fun v g n c => writeS (g, n, c) regFmode v) s
  else coreOp false Use.none 6 (fun s g n c => uniFault s g n c 6 (·.advance (lenWords o.w2))) s
/-- SYSWR FSTAT: at commit (R211). -/
def execSyswrFstat (o : LOp) (s : State) : Host.Outcome State Fault Refusal := syswrOp o [] 0xFFFFFFE0 (atCommit .fstat) s
/-- SYSWR SFRQ: bit 0 pops the head record, bit 1 clears LOST, at commit (R183). -/
def execSyswrSfrqPop (o : LOp) (s : State) : Host.Outcome State Fault Refusal := syswrOp o [] 0xFFFF0070 (atCommit .sfrq) s
/-- SYSWR SFRQ whose own words show that it only clears LOST (R183). -/
def execSyswrSfrqClearLost (o : LOp) (s : State) : Host.Outcome State Fault Refusal := syswrOp o [] 0xFFFF0070 (atCommit .sfrq) s
/-- SYSWR PREEMPT: a request with a launch's serial, at commit (R194). -/
def execSyswrPreempt (o : LOp) (s : State) : Host.Outcome State Fault Refusal := syswrOp o [] 0 (atCommit .preempt) s
/-- SYSWR SAVELO: at issue (R198). -/
def execSyswrSavelo (o : LOp) (s : State) : Host.Outcome State Fault Refusal :=
  syswrOp o [regSavelo] 0x00000FFF (fun v g n c => writeS (g, n, c) regSavelo v) s
/-- SYSWR SAVEHI: at issue (R198). -/
def execSyswrSavehi (o : LOp) (s : State) : Host.Outcome State Fault Refusal :=
  syswrOp o [regSavehi] 0xFF800000 (fun v g n c => writeS (g, n, c) regSavehi v) s
/-- SYSWR LDAERR: at commit (R349). -/
def execSyswrLdaerr (o : LOp) (s : State) : Host.Outcome State Fault Refusal := syswrOp o [] 0xFFFF0000 (atCommit .ldaerr) s

/-! ### The fragment tree (R385, R386) -/

/-- The save block's address (R198). -/
def saveBlock (g : Group) : Nat := g.savelo.toNat + g.savehi.toNat % 2 ^ 23 * 2 ^ 32

/-- SAVESPLIT: only in a trace of kind 2 of a group in SAVING; it writes at commit (R385). -/
def execSavesplit (s : State) : Host.Outcome State Fault Refusal :=
  coreOp false { Use.none with sr := [regSavelo, regSavehi] } 4 (fun s g n c =>
    if c.hdr.kind = 2 && inSaving s g then putCtx s g n ((c.buffer .savesplit []).advance 2) else groupFault s g n c 48) s

/-- The 16-byte reads of LOADSPLIT: the SPLIT and S63 regions of the save block. -/
def splitWords (g : Group) : List Nat := (List.range 144).map fun k => saveBlock g + 0x200 + 16 * k

/-- LOADSPLIT: reads the SPLIT and S63 regions at issue, as a load that its terminator waits for, and holds them as the pending tree
(R386). -/
def execLoadsplit (s : State) : Host.Outcome State Fault Refusal :=
  waitOp false { Use.none with sr := [regSavelo, regSavehi] } 4
    (fun s g n c => !(c.hdr.kind = 2 && n.restored) || (splitWords g).all fun a =>
      loadReady s g a 16 ((splitWords g).any fun b => loadKind s g b == some 0) false false)
    (fun s0 g n c =>
      if c.hdr.kind = 2 && n.restored then
        let s := (splitWords g).foldl (fun s a => seeLoad s g a 16 false) s0
        match joinGot ((splitWords g).map fun a => loadLane s g c uniLane a 16 false) with
        | .ok b _ =>
          let spans := (splitWords g).flatMap fun a => homeSpans s g c uniLane a 16 false
          let l : Load := { id := 0, node := 0, ix := 0, writes := [], spans := spans, iv := 0, rread := none, answered := none }
          (match issueLoad s { g with pendingTree := some (takeAt b 0 1536, takeAt b 1536 768) } n (c.buffer .loadsplit []) [] l with
           | (s1, g1, c1) => putCtx s1 g1 n (c1.advance 2))
        | .fault e => uniFault s g n c e (·.advance 2)
        | .reject r => rejectCall s g r 0
      else groupFault s0 g n c 48) s

end Sys2Proof.Machine
end

