-- ==== Sys2Proof/Machine/Tree.lean ====
section
/-! DEFINITION. The fragment tree in the split table and in memory (R96 to R99, R198, R202, R385, R386), and how lanes that leave a
trace join it (R97, R124). -/
namespace Sys2Proof.Machine

/-! ### Entries of the split table (R96, R99) -/

def tabledCount (ns : List Node) : Nat := (ns.filter (·.tabled)).length
/-- Shared entries in use on a group's core: what the group as it now stands, and the core's other groups, hold beyond their four. -/
def sharedUsed (s : State) (g : Group) : Nat :=
  s.groups.foldl (fun k h => if h.core = g.core ∧ h.landing = none ∧ h.uid ≠ g.uid then k + (tabledCount h.nodes - 4) else k)
    (tabledCount g.nodes - 4)
/-- The group can take one more entry. -/
def hasEntry (s : State) (g : Group) : Bool :=
  g.landing.isSome || decide (tabledCount g.nodes < 4) || decide (sharedUsed s g < 192)

/-- The group's youngest entry that no fragment runs in: the leaf of the highest rank, and where every leaf in the table runs, a join
node, which has no age (DESIGN CHOICE [88]). -/
def youngestAtRest (g : Group) : Option Node :=
  let rest := g.nodes.filter fun m => m.tabled && m.ctx.isNone
  match (rest.filter Node.leaf).foldl (fun (b : Option Node) m => match b with
      | some k => if k.rank < m.rank then some m else b
      | none => some m) none with
  | some m => some m
  | none => rest.getLast?

/-- FRAGMENT_SPILL_MOVE: a ready node takes an entry, the group's youngest other node at rest going to its spill slot (R99). -/
def execFragmentSpillMove (g n : Nat) (s : State) : Host.Outcome State Fault Refusal :=
  .next (match s.group? g with
    | none => s
    | some gr =>
      match gr.node? n with
      | none => s
      | some nd =>
        if nd.tabled || !nd.leaf || nd.st != .ready then s
        else if hasEntry s gr then s.setGroup (gr.setNode { nd with tabled := true })
        else
          match youngestAtRest gr with
          | some m => s.setGroup ((gr.setNode { m with tabled := false }).setNode { nd with tabled := true })
          | none => s)

/-! ### Lanes that leave (R97, R124) -/

/-- A group of failed lanes that forms one fragment. -/
structure Leaving where
  dest : Dest
  s63 : Word
  mask : LaneMask
  deriving DecidableEq, Repr, Inhabited

/-- Alternative, undecided, handler, park (R124). -/
def Dest.order : Dest → Nat
  | .alternative _ => 0 | .undecided _ => 1 | .handler => 2 | .park _ => 3 | .service _ _ _ => 4 | .ends => 5
/-- Lanes of one fragment: same destination and s63; what waits for page-fault service goes by s63. -/
def sameLeaving (a b : Leaving) : Bool :=
  a.s63 == b.s63 && (a.dest == b.dest || (a.dest.order == 4 && b.dest.order == 4))
/-- Order of R124: ascending INDEX, then kind of destination; what is equal in both goes by its lowest lane (DEDUCED [24]). -/
def leavingBefore (a b : Leaving) : Bool :=
  let k := fun (x : Leaving) => x.s63.toNat / 2 ^ 24 * 8 + x.dest.order
  k a < k b

def insertLeaving (x : Leaving) : List Leaving → List Leaving
  | [] => [x]
  | y :: ys => if leavingBefore x y then x :: y :: ys else y :: insertLeaving x ys

/-- The fragments that failed lanes form; lanes that end form none. -/
def leavings (fs : List Fail) : List Leaving :=
  let ls := (lanesOf (maskOf (fs.map (·.lane)))).filterMap fun l => fs.find? fun f => f.lane == l
  let gs := (ls.filter fun f => f.dest != .ends).foldl (fun (gs : List Leaving) f =>
    let x : Leaving := { dest := f.dest, s63 := f.s63, mask := laneBit f.lane }
    if gs.any (sameLeaving x) then gs.map fun y => if sameLeaving x y then { y with mask := y.mask ||| x.mask } else y
    else gs ++ [x]) []
  gs.foldl (fun acc x => insertLeaving x acc) []

/-- A new leaf: the next rank, the lowest free index, a table entry if there is one. -/
def addLeaf (s : State) (g : Group) (mk : Nat → Nat → Node) : Group :=
  let r := withRank g.nodes
  let x := mk (freeIx r.1) r.2
  { g with nodes := r.1 ++ [{ x with tabled := hasEntry s g }] }

/-- Create the join node of a trace with `.rejoin L` when the fragment's rejoin is not L yet (R97): the group, with the rejoin and
parent that the fragments take. -/
def openRejoin (s : State) (g : Group) (n : Node) (l : Nat) : Group × Nat × Option Nat :=
  if l = 0 ∨ n.rejoin = l then (g, n.rejoin, n.parent)
  else
    let k := freeIx g.nodes
    let j : Node := { (default : Node) with ix := k, mask := 0, trace := l, rejoin := n.rejoin, parent := n.parent, rank := 0,
                                            st := .joinNode, prevKind := 4, code := 64, saver := n.saver, tabled := hasEntry s g }
    ({ g with nodes := g.nodes ++ [j] }, l, some k)

/-- What a fragment of failed lanes starts as; page-fault service gives it a ticket later. -/
def leavingNode (s : State) (g : Group) (n : Node) (c : Ctx) (x : Leaving) (rejoin : Nat) (parent : Option Nat) (ix rank : Nat) :
    Node :=
  let base : Node := { n with ix := ix, mask := x.mask, rejoin := rejoin, parent := parent, rank := rank, st := .ready, s63 := x.s63,
                              next := 0, sync := none, flow := none, prevKind := c.hdr.kind.toNat, toHandler := false,
                              frozen := false, greedy := false, ctx := none }
  match x.dest with
  | .alternative a => { base with trace := a }
  | .undecided a => { base with trace := a }
  | .park a => { base with trace := a }
  | .handler => { base with trace := handlerOf s g, toHandler := true }
  | .service _ _ _ => { base with trace := c.addr, s63 := c.s630, prevKind := n.prevKind, toHandler := n.toHandler,
                                  st := .service 0 x.s63 c.hdr.kind.toNat }
  | .ends => base

/-- Add the fragments of failed lanes, raising a CLASS 1 request for each that waits for service (R124, R179). -/
def addLeavings (s : State) (gid : Nat) (n : Node) (c : Ctx) (rejoin : Nat) (parent : Option Nat) : List Leaving → State
  | [] => s
  | x :: rest =>
    match s.group? gid with
    | none => s
    | some g =>
      let s1 := match x.dest with
        | .service cause access addr =>
          (match raiseService s g.part g.uid
              { class_ := 1, access := access, cause := cause, who := whoOf g, addr := addr, count := (lanesOf x.mask).length,
                serial := g.serial } with
           | (s1, t) =>
             let mk := fun ix rank =>
               { leavingNode s g n c x rejoin parent ix rank with st := .service t x.s63 c.hdr.kind.toNat }
             s1.setGroup (addLeaf s1 g mk))
        | _ => s.setGroup (addLeaf s g (leavingNode s g n c x rejoin parent))
      addLeavings s1 gid n c rejoin parent rest

/-- Join nodes left with one child collapse, in a group (R97). -/
def collapseGroup (s : State) (gid : Nat) : State :=
  match s.group? gid with
  | some g => s.setGroup { g with nodes := collapseAll g.nodes }
  | none => s

/-! ### Fusion (R98) -/

/-- Every child of a join node waits at its JOIN. -/
def mayFuse (g : Group) (j : Node) : Bool :=
  let cs := childrenOf g.nodes j.ix
  j.st == .joinNode && decide (2 ≤ cs.length) && cs.all fun n => n.st == .atJoin && n.trace == j.trace && !n.frozen

/-- REJOIN_FUSION of join node n (R98). -/
def execRejoinFusion (g n : Nat) (s : State) : Host.Outcome State Fault Refusal :=
  .next (match s.group? g with
    | none => s
    | some gr =>
      match gr.node? n with
      | none => s
      | some j =>
        if !mayFuse gr j then s
        else
          let cs := childrenOf gr.nodes j.ix
          match cs with
          | [] => s
          | c0 :: rest =>
            let low := rest.foldl (fun (b : Node) m => if m.rank < b.rank then m else b) c0
            let fused : Node := { low with mask := cs.foldl (fun m x => m ||| x.mask) 0, trace := low.next, rejoin := j.rejoin,
                                           parent := j.parent, st := .ready, s63 := s63Of 10 0 0 0, next := 0,
                                           toHandler := false, ctx := none }
            let kept := gr.nodes.filter fun m => m.ix != j.ix && !cs.any fun x => x.ix == m.ix
            s.setGroup { gr with nodes := collapseAll (kept ++ [fused]) })

/-! ### The tree's image (R99, Table 8.9, R385) -/

/-- A word offset from the base trace, signed, 24 bits. -/
def offsetOf (g : Group) (a : Nat) : Nat := trunc (((a : Int) - g.base) / 4) 24
def ofOffset (g : Group) (x : Nat) : Nat := ((g.base : Int) + 4 * sext x 24).toNat

/-- State byte of a node. -/
def stateByte (n : Node) : Nat :=
  let k := match n.st with
    | .joinNode => 3
    | .atJoin => 2
    | .syncing => 1
    | _ => 0
  k + if n.greedy then 128 else 0

/-- The nodes that an image holds: all but the handler's own fragments. -/
def imageNodes (g : Group) : List Node := g.nodes.filter fun n => !n.saver

/-- The 1,536 bytes of SPLIT. -/
def splitImage (g : Group) : List Byte :=
  let ns := imageNodes g
  let leafOf := fun l => ns.find? fun n => n.leaf && n.mask.getLsbD l
  let lanes := (List.range 96).map fun l => match leafOf l with
    | some n => (BitVec.ofNat 8 n.ix : Byte)
    | none => 0xFF
  let slot := fun k => match ns.find? fun n => n.ix == k with
    | some n =>
      leBytes 1 (stateByte n) ++ leBytes 1 (if n.leaf then n.rank else 0) ++ leBytes 1 (n.parent.getD 0xFF) ++
        leBytes 3 (offsetOf g n.trace)
    | none => List.replicate 6 0
  takeAt (lanes ++ (List.range 192).flatMap slot) 0 1536
/-- The 768 bytes of S63. -/
def s63Image (g : Group) : List Byte :=
  (List.range 192).flatMap fun k => match (imageNodes g).find? fun n => n.ix == k with
    | some n => leBytes 4 n.s63.toNat
    | none => [0, 0, 0, 0]

/-! ### Loading an image (R202, R386) -/

/-- What the terminator of a committed trace says, found again from its words. -/
def scanFrom (s : State) (g : Group) : Nat → Nat → Option Flow → Option (Instr × Nat × Option Flow)
  | 0, _, _ => none
  | k + 1, pc, fl =>
    match fetchWords s g [] pc with
    | .error _ => none
    | .ok ws =>
      let i := instrOf ws
      if k = 0 then some (i, pc, fl)
      else
        scanFrom s g k (pc + 4 * ws.length) (match i with
          | .callt o => some (.callt (relAddr pc o.offset))
          | .rett => some .rett
          | _ => fl)
/-- Terminator, its address, the flow modifier, and the header, of the trace at an address. -/
def scanTrace (s : State) (g : Group) (a : Nat) : Option ((Instr × Nat × Option Flow) × TraceHdr) :=
  match fetchWords s g [] a with
  | .error _ => none
  | .ok ws =>
    match instrOf ws with
    | .trace h => (scanFrom s g h.nlen.toNat (a + 8) none).map fun x => (x, h)
    | _ => none

/-- A leaf that waits at a JOIN or a synchronisation takes its successor, what it synchronises on, and the kind of its trace, from that
trace's words; its fields s[...] are read now (DEDUCED [26]). -/
def rewait (s : State) (g : Group) (n0 : Node) (k : Nat) : Option Node :=
  match scanTrace s g n0.trace with
  | none => none
  | some ((i, pc, fl), h) =>
    let n : Node := { n0 with prevKind := h.kind.toNat }
    let ix := h.nlen.toNat
    let sync := fun (o : CtlOp) (x : Sync) =>
      some { n with st := .syncing, sync := some x, next := relAddr pc o.offset, termIx := ix, flow := fl }
    match i, k with
    | .join o, 2 => some { n with st := .atJoin, next := relAddr pc o.offset }
    | .bar o, 1 => sync o (.bar false o.a.toNat 0)
    | .cbar o, 1 => sync o (.bar true o.a.toNat 0)
    | .pushq o, 1 =>
      let b := bit o.sub.toNat 2
      sync o (.push b (ringSpot g n b o.d.toNat).addr o.a.toNat o.pred.toNat s.nextId)
    | .popq o, 1 =>
      let b := bit o.sub.toNat 2
      sync o (.pop b (ringSpot g n b o.d.toNat).addr o.a.toNat o.pred.toNat)
    | .rcall o, 1 =>
      let obj := callObj g n o.a.toNat
      sync o (.rcall obj o.d.toNat (some ((g.horizons.find? fun h => h.1 == obj).map (·.2) |>.getD 0)))
    | _, _ => none

/-- Fields of slot k of an image. -/
def slotState (b : List Byte) (k : Nat) : Nat := field b (96 + 6 * k) 1
def slotRank (b : List Byte) (k : Nat) : Nat := field b (97 + 6 * k) 1
def slotParent (b : List Byte) (k : Nat) : Nat := field b (98 + 6 * k) 1
def slotTrace (b : List Byte) (k : Nat) : Nat := field b (99 + 6 * k) 3
def laneNode (b : List Byte) (l : Nat) : Nat := field b l 1
/-- Lanes whose byte names a slot. -/
def slotLanes (b : List Byte) (k : Nat) : LaneMask := maskOf ((List.range 96).filter fun l => laneNode b l == k)

/-- The slots that an image uses: named by a lane, or a join node, or not all zero. -/
def usedSlots (b : List Byte) : List Nat :=
  (List.range 192).filter fun k => field b (96 + 6 * k) 6 != 0 || slotLanes b k != 0

/-- From slot k upward, join nodes end at a node without parent, within a number of steps. -/
def chainOk (b : List Byte) : Nat → Nat → Bool
  | 0, _ => false
  | f + 1, k =>
    let p := slotParent b k
    p == 0xFF || (decide (p < 192) && slotState b p == 3 && chainOk b f p)

/-- The image keeps R97: leaves hold lanes and distinct ranks, join nodes hold two children or more, parents are join nodes, a leaf at
JOIN stands at its parent's rejoin. -/
def imageOk (b : List Byte) : Bool :=
  let us := usedSlots b
  let leaves := us.filter fun k => slotLanes b k != 0
  let joins := us.filter fun k => slotLanes b k == 0
  ((List.range 96).all fun l => laneNode b l == 0xFF || decide (laneNode b l < 192)) &&
    (leaves.all fun k => slotState b k % 128 < 3) && (joins.all fun k => slotState b k == 3) &&
    (us.all fun k => chainOk b 193 k) && ((leaves.map (slotRank b)).eraseDups.length == leaves.length) &&
    (joins.all fun j => decide (2 ≤ (us.filter fun k => slotParent b k == j).length)) &&
    (leaves.all fun k => slotState b k % 128 != 2 ||
      (slotParent b k != 0xFF && slotTrace b (slotParent b k) == slotTrace b k))

/-- The nodes of an image, or none where it fails. The image has no field for the kind of the trace that a leaf left last: an entry fault of
a restored leaf is taken as none of a trace of kind 2 or 3, so that it goes to the handler (R414; DESIGN CHOICE [99]). -/
def loadNodes (s : State) (g : Group) (img s63s : List Byte) : Option (List Node) :=
  if !imageOk img then none
  else
    let rejoinOf := fun k => if slotParent img k = 0xFF then 0 else ofOffset g (slotTrace img (slotParent img k))
    (usedSlots img).foldl (fun (acc : Option (List Node)) k =>
      match acc with
      | none => none
      | some ns =>
        let st := slotState img k
        let s63 : Word := BitVec.ofNat 32 (field s63s (4 * k) 4)
        let tr := ofOffset g (slotTrace img k)
        let code := if s63.toNat % 16 = 5 then s63.toNat / 2 ^ 16 % 256 else 64
        let base : Node :=
          { ix := k, mask := slotLanes img k, trace := tr, rejoin := rejoinOf k,
            parent := if slotParent img k = 0xFF then none else some (slotParent img k),
            rank := if st = 3 then 0 else slotRank img k, st := if st = 3 then .joinNode else .ready,
            s63 := s63, next := 0, termIx := 0, sync := none, flow := none, prevKind := 4,
            toHandler := s63.toNat % 16 = 5 ∧ tr = handlerOf s g, restored := false, saver := false, frozen := false,
            greedy := bit st 7, tabled := decide (ns.length < 4), code := code, ctx := none }
        (match (if st % 128 = 1 ∨ st % 128 = 2 then rewait s g base (st % 128) else some base) with
         | some n => some (ns ++ [n])
         | none => none)) (some [])

end Sys2Proof.Machine
end

