-- ==== Sys2Proof/Machine/Enter.lean ====
section
/-! DEFINITION. What a commit enters: stores, atomics and posts into the pipeline and the queues (R124, R146, R149, R150, R158), digest
log records (R255 to R257), ring attachments (R307), special registers (R183, R194, R211), and the end of a group (R185, R186). -/
namespace Sys2Proof.Machine

/-- Change a group. -/
def onGroup (s : State) (uid : Nat) (f : Group → Group) : State :=
  match s.group? uid with
  | some g => s.setGroup (f g)
  | none => s

/-! ### Engine queues (R149, R150, R371) -/

/-- A group as an entry's place needs it: the workgroup whose share holds the entry. -/
def placeGroup (s : State) (part : Nat) (serial : Word) (wkg core : Nat) : Group :=
  let here := match s.wkg? part serial wkg with
    | some w => w.core
    | none => core
  { (default : Group) with part := part, serial := serial, wkg := wkg, core := here }

/-- Where a queue's entries stand. -/
def entrySpot (r : QueueRef) (addr : Nat) : Spot := { bench := r.kind == .kq, addr := addr }

/-- Write NEXT of the entry posted before, complete or not (R150) [37]. -/
def linkTail (s : State) (q : EngQ) (core addr : Nat) : State :=
  match q.tail with
  | some (a, w, serial) =>
    spotWrite s (placeGroup s q.ref.part serial w core) (entrySpot q.ref a) (leBytes 8 addr)
  | none => s

/-- The last entry that a group posted to each of its queues but one: what a QFENCE in that one may name (R171). -/
def qfenceWaits (s : State) (g : Group) (own : QueueKind) : List (QueueRef × Word) :=
  (List.range 4).filterMap fun k =>
    let ref := queueRefOf g k
    if ref.kind == own then none
    else
      match engqFor s g k with
      | some q =>
        ((q.entries.filter fun e => e.group == g.uid || e.members.any fun m => m.1 == g.uid).getLast?).map fun e => (ref, e.seq)
      | none => none

/-- Post an entry: it is linked, its header and body are written, and it takes the queue's next sequence. The link into NEXT of the entry
posted before comes first, so that an entry that reuses that entry's own address ends with NEXT all ones (DESIGN CHOICE [99]). -/
def postEntry (s : State) (g : Group) (ref : QueueRef) (addr op : Nat) (body : List Byte) (counter : Nat)
    (members : List (Nat × LaneMask)) : State × Word :=
  match s.part? g.part with
  | none => (s, 0)
  | some p =>
    match p.engq? ref with
    | none => (s, 0)
    | some q =>
      let seq := q.nextSeq
      let hdr := List.replicate 8 (0xFF : Byte) ++ leBytes 4 seq.toNat ++ leBytes 1 op ++ [0xFF] ++ leBytes 2 g.gid
      let s1 := landOwn (linkTail s q g.core addr) g (entrySpot ref addr) 64 s.nextId
      let s2 := spotWrite s1 g (entrySpot ref addr) (hdr ++ takeAt body 0 48)
      let e : EngEntry := { addr := addr, seq := seq, group := g.uid, wkg := g.wkg, serial := g.serial, core := g.core, op := op,
                            waits := qfenceWaits s g ref.kind, members := members, counter := counter, broken := false, mark := s.nextId, taken := [], done := 0 }
      (match s2.part? g.part with
       | some p2 => (s2.setPart (p2.setEngq { q with entries := q.entries ++ [e], nextSeq := nextSeq seq,
                                                     tail := some (addr, g.wkg, g.serial) }), seq)
       | none => (s2, seq))

/-- Enter one engine post, its sequence to s[d]. -/
def enterPost (s : State) (g : Group) (kind : QueueKind) (addr op : Nat) (body : List Byte) (d : Nat) (counted : Bool) : State :=
  let sub := match kind with
    | .mq => 0 | .cq => 1 | .lq => 2 | .kq => 3
  match postEntry s g (queueRefOf g sub) addr op body (if counted then 1 else 0) [] with
  | (s1, seq) => onGroup s1 g.uid fun g => { g with s := sset g.s d seq, cp := if counted then g.cp + 1 else g.cp }

/-! ### The digest log (R255 to R257) -/

/-- Records that a trace would append. -/
def dlogCount (c : Ctx) : Nat :=
  c.effs.foldl (fun k e => match e.op with
    | .dlog _ => k + (e.elems.filter fun x => c.active.getLsbD x.lane).length
    | _ => k) 0
/-- The host's LOGACK, as a die reads it. -/
def logAck (s : State) (die : Nat) (p : Partition) : Option Nat := (hwRead s die (p.savebase + 0xC040) 8).map leNat
/-- The log has room for some records; there is none while LOGACK cannot be read [98]. -/
def logRoom (s : State) (die part records : Nat) : Bool :=
  match s.part? part with
  | some p => records == 0 || (match logAck s die p with
    | some a => decide (p.digestN + records ≤ a + p.logsize)
    | none => false)
  | none => true
/-- The log has room for a commit's records. -/
def logFits (s : State) (g : Group) (c : Ctx) : Bool := logRoom s g.die g.part (dlogCount c)
/-- The read of LOGACK meets its line's check code (R26, R27). -/
def seeAck (s : State) (g : Group) (records : Nat) : State :=
  match s.part? g.part with
  | some p => if records = 0 then s else seeSpan s g.die (p.savebase + 0xC040) 8 (some g.part) g.coreNo
  | none => s

/-- Assign one record its place and digest (Table 10.14); it is written behind the group's FENCEs, in order of position (R166, R255). -/
def appendLog (s : State) (g : Group) (c : Ctx) (e : Eff) (sealNum : Nat) (x : Elem) : State :=
  match s.part? g.part with
  | none => s
  | some p =>
    let n := p.digestN
    let r := List.replicate 12 (0 : Byte) ++ leBytes 4 g.serial.toNat ++ [0, 0] ++ leBytes 1 sealNum ++ leBytes 1 x.lane ++
      leBytes 4 (whoOf g) ++ takeAt x.data 8 8 ++ takeAt x.data 0 8 ++ leBytes 8 x.b ++ leBytes 8 n
    let h := sha256 (p.digestH ++ r)
    let y := { x with addr := p.logbase + 64 * (n % p.logsize), data := r ++ takeAt h 0 8 ++ h, c := n, st := ElemSt.checked }
    addItem (s.setPart { p with digestH := h, digestN := n + 1 }) (itemOf g c { e with elems := [y] } 1)

/-! ### Rings (R306, R307) -/

/-- Attach or detach a group at commit: the attachment is the group's at once, and its count takes its place among the group's effects. In a
method, where the rules name neither, the count is a write like any other: inside the state block, made at once, journalled, and refused in
a read-only run (R249, R251; DESIGN CHOICE [100]). -/
def enterRing (s : State) (g : Group) (attach cons bench : Bool) (addr : Nat) : State :=
  let key := (cons, bench, addr)
  if g.rings.contains key == attach then s
  else if g.landing.isSome && !methodMayStore s g addr 64 then rejectCall s g 2 0
  else
    let h := { g with rings := if attach then g.rings ++ [key] else g.rings.filter (· != key) }
    if g.landing.isSome then ringCount (s.setGroup h) h cons bench addr attach s.nextId
    else sendRing (s.setGroup h) h attach cons bench addr

/-- Detach a group that ends from every ring. -/
def detachAll (s : State) (g : Group) : State := g.rings.foldl (fun s k => sendRing s g false k.1 k.2.1 k.2.2) s

/-! ### Pre-emption requests (R194) -/

/-- The header that stands at an address, as a fetch sees it. -/
def headerAt (s : State) (g : Group) (a : Nat) : Option TraceHdr :=
  if a % 4 ≠ 0 then none
  else
    match fetchWords s g [] a with
    | .ok ws => (match instrOf ws with
      | .trace h => some h
      | _ => none)
    | .error _ => none

/-- The pre-emption handler that a launch's HANDLER names: its PARK field, a trace of KIND 2 [27]. -/
def preemptHandler (s : State) (g : Group) (l : Launch) : Option Nat :=
  let h := l.fld 8 8
  match headerAt s g h with
  | some x =>
    if x.kind != 3 || x.park == 0 then none
    else
      let a := ((h : Int) + 4 * x.park.toInt).toNat
      match headerAt s g a with
      | some y => if y.kind = 2 then some a else none
      | none => none
  | none => none

/-- The reads of those headers wait behind a parked atomic (R156). -/
def handlerHeld (s : State) (g : Group) (serial : Word) : Bool :=
  match s.launch? g.part serial with
  | some l =>
    let h := l.fld 8 8
    anyParked s && (wordsHeld s g [] h ||
      (match headerAt s g h with
       | some x => wordsHeld s g [] ((h : Int) + 4 * x.park.toInt).toNat
       | none => false))
  | none => false

/-- A request for a launch (R194): PREEMPT reads 0 when it was accepted. -/
def requestPreempt (s : State) (g : Group) (serial : Word) : State :=
  match s.launch? g.part serial with
  | some l =>
    (match l.preempting, preemptHandler s g l with
     | some _, _ => s.setGroup { g with preempt := 0 }
     | none, some a =>
       if l.st = .placed then (s.setLaunch { l with preempting := some a }).setGroup { g with preempt := 0 }
       else s.setGroup { g with preempt := 1 }
     | none, none => s.setGroup { g with preempt := 1 })
  | none => s.setGroup { g with preempt := 1 }

/-! ### Special registers at commit (R183, R211, R349, R384) -/

def enterSysw (s : State) (g : Group) (r : CommitReg) (v : Word) : State :=
  match r with
  | .fstat => s.setGroup { g with fstat := v }
  | .sfrq => s.setGroup { g with sfrq := if v.getLsbD 0 then g.sfrq.tail else g.sfrq, lost := if v.getLsbD 1 then 0 else g.lost }
  | .ldaerr => s.setGroup { g with ldaerr := v }
  | .preempt => requestPreempt s g v

/-! ### The gangway latch breaks (R228, R230) -/

/-- INDEX of a trace's first MMA. -/
def firstMma (c : Ctx) : Option Nat :=
  c.effs.findSome? fun e => match e.op with
    | .mma _ _ _ _ _ => some e.ix
    | _ => none

/-- A fragment's fault at the latch, against an MMA of its trace. -/
def latchFault (s : State) (g : Group) (n : Node) (c : Ctx) (ix code : Nat) : State :=
  let back := c.ix
  faultLanes s g n { c with arrival := none, ix := ix } ((lanesOf c.active).map fun l => (l, code)) (fun c => { c with ix := back })

/-- Fragments that wait at the latch, of the groups of a workgroup that some test picks. -/
def waitersOf (s : State) (g : Group) (pick : Group → Bool) : List (Group × Node × Ctx) :=
  s.groups.flatMap fun h =>
    if h.part == g.part && h.serial == g.serial && h.wkg == g.wkg && h.landing.isNone && pick h then
      h.nodes.filterMap fun n => match n.ctx with
        | some c => if c.arrival.isSome then some (h, n, c) else none
        | none => none
    else []

/-- The gang that a register names includes a GROUPID. -/
def gangHas (v : Word) (gid : Nat) : Bool := gangCount v != 0 && decide (gangBase v ≤ gid) && decide (gid < gangBase v + gangCount v)

/-- Break the latch for the waiters picked: each takes code 53. -/
def breakLatch (s : State) (g : Group) (pick : Group → Bool) : State :=
  (waitersOf s g pick).foldl (fun s w =>
    match s.group? w.1.uid with
    | some h => (match h.node? w.2.1.ix with
      | some n => (match n.ctx with
        | some c => latchFault s h n c ((firstMma c).getD c.ix) 53
        | none => s)
      | none => s)
    | none => s) s

/-- GANG takes its value at commit; a change breaks the latch of the gang (R372). A first GANG, from 0, is a change too: waiters whose gangs
name the group break (DESIGN CHOICE [99]). -/
def enterGang (s : State) (g : Group) (v : Word) : State :=
  if g.gang = v then s
  else breakLatch (s.setGroup { g with gang := v }) g fun h => h.uid == g.uid || gangHas h.gang g.gid

/-! ### The end of a group (R82, R185, R186, R199) -/

/-- Address of a group's context record (R199). -/
def contextAt (p : Partition) (l : Launch) (wkg gid : Nat) : Nat := p.savebase + 0x10000 + 16 * ((l.slot * 192 + wkg) * 48 + gid)
/-- Write a context record. -/
def writeContext (s : State) (g : Group) (addr st : Nat) : State :=
  match s.part? g.part, s.launch? g.part g.serial with
  | some p, some l => hwWrite s g.die (contextAt p l g.wkg g.gid) (leBytes 8 addr ++ leBytes 1 st ++ List.replicate 7 0)
  | _, _ => s

/-- A landing group stops with nothing left of its fragments; any other group ends, and leaves what Table 8.5 says. -/
def endGroup (s : State) (uid : Nat) : State :=
  match s.group? uid with
  | none => s
  | some g =>
    if g.landing.isSome then s.setGroup { g with nodes := [], loads := [] }
    else
      let s1 := detachAll s g
      let s2 := breakLatch s1 g fun h => h.uid != uid && gangHas h.gang g.gid
      let s3 := { s2 with groups := s2.groups.filter (fun x => x.uid != uid),
                          wkgs := s2.wkgs.map (fun (w : Workgroup) => { w with saves := w.saves.filter (fun x => x.uid != uid) }) }
      let s4 := match s3.wkg? g.part g.serial g.wkg with
        | some w =>
          if w.st = .saving then
            writeContext (s3.setWkg { w with ended := w.ended ++ [g.gid] }) g (saveBlock g) 2
          else s3
        | none => s3
      wkgMaybeEnd s4 g.part g.serial g.wkg

/-- Its trace is open and has not committed. -/
def Node.inTrace (n : Node) : Bool :=
  match n.ctx with
  | some c => c.entered.isNone
  | none => false

/-- KILL: every other fragment is rolled back and removed, and the group ends (R185); what a trace has committed stands. -/
def killGroup (s : State) (uid nix : Nat) : State :=
  match s.group? uid with
  | none => s
  | some g => endGroup ((g.nodes.filter fun n => n.ix != nix && n.inTrace).foldl (fun s n => rollBack s uid n.ix) s) uid

/-- A group without a leaf ends; where the fragment that left was its pre-emption handler's (`saver`), one without a leaf of the handler
ends too (R195). -/
def maybeEnd (s : State) (uid : Nat) (saver : Bool) : State :=
  match s.group? uid with
  | some g => if g.nodes.any fun n => n.leaf && (!saver || n.saver) then s else endGroup s uid
  | none => s

/-! ### Stores of a landing group (R249, R250) -/

/-- A method's element takes effect at once, with what it overwrites journalled; outside the state block the call is rejected, and a home
that cannot be reached is a data error (R13, R22). -/
def methodElem (s0 : State) (g : Group) (op : EffOp) (x : Elem) : State :=
  let s := seeWalk s0 g.core g.die g.part x.addr
  let n := match globalBytes op x with
    | some k => k
    | none => x.data.length
  let peer := match op with
    | .atomic _ _ _ _ _ _ _ _ (some _) => true
    | _ => false
  if peer || !methodMayStore s g x.addr n then rejectCall s g 2 0
  else
    match translate s g.core g.die g.part x.addr (needOf op) with
    | .error e => rejectCall s g 4 (faultCode e)
    | .ok t =>
      if !reaches s g.die t.pa then rejectCall s g 4 9
      else
        match op with
        | .atomic kind sub ty _ _ _ _ d _ =>
          let s1 := seeSpan s g.die t.pa n (some g.part) g.coreNo
          if badSpan s1 g.die t.pa n then rejectCall s1 g 4 9
          else if kind = .bop ∧ t.tier ≠ .bench then rejectCall s1 g 4 4
          else
            let old := pread s1 t.pa n
            let s2 := pwrite (journalled s1 g t.pa n) t.pa (atomBytesNew kind sub ty old x.b x.c)
            if kind = .atom then
              let v := leNat old
              let s3 := onGroup s2 g.uid fun g => asyncV g x.lane d (BitVec.ofNat 32 v)
              if wideTy ty then onGroup s3 g.uid fun g => asyncV g x.lane (d + 1) (BitVec.ofNat 32 (v / 2 ^ 32)) else s3
            else s2
        | _ => pwrite (journalled s g t.pa n) t.pa x.data

/-! ### Entering one effect (R124) -/

/-- The lanes' parts that commit. -/
def committing (c : Ctx) (e : Eff) : List Elem := e.elems.filter fun x => x.lane == uniLane || c.active.getLsbD x.lane

/-- Kind of the pages of elements that are checked already. -/
def kindsOf (s : State) (g : Group) (op : EffOp) (xs : List Elem) : Nat :=
  strongest (xs.map fun x => match translate s g.core g.die g.part x.addr (needOf op) with
    | .ok t => t.ord
    | .error _ => 0)

/-- SAVESPLIT's stores (R385): 16-byte elements over the SPLIT and S63 regions, translated now; none where one fails. -/
def savesplitElems (s : State) (g : Group) : Option (List Elem) :=
  let b := splitImage g ++ s63Image g
  (List.range 144).foldl (fun (acc : Option (List Elem)) k =>
    match acc with
    | none => none
    | some xs =>
      let va := saveBlock g + 0x200 + 16 * k
      match translate s g.core g.die g.part va .write with
      | .ok t => some (xs ++ [{ Elem.mk0 uniLane va (takeAt b (16 * k) 16) with pa := t.pa, st := .translated }])
      | .error _ => none) (some [])

/-- The walks of those stores meet the check codes of their entries. -/
def seeSavesplit (s : State) (g : Group) : State :=
  (pageSpans (saveBlock g + 0x200) 2304).foldl (fun s p => seeWalk s g.core g.die g.part p.1) s

/-- Enter one instruction's effect; an MMA does what `mma` says (R229). -/
def enterEff (mma : State → Group → Eff → State) (c : Ctx) (n : Node) (s : State) (g : Group) (e : Eff) : State :=
  let xs := committing c e
  let chk := xs.map fun x => { x with st := ElemSt.checked }
  match e.op with
  | .store sp _ _ _ _ =>
    if xs.isEmpty then s
    else if g.landing.isSome then xs.foldl (fun s x => methodElem s g e.op x) s
    else
      let it := if sp = .scratch then itemOf g c { e with elems := chk } 1
        else itemOf g c { e with elems := xs } (if c.hdr.mode then kindsOf s g e.op xs else 3)
      onGroup (addItem s it) g.uid fun g => { g with st := g.st + 1 }
  | .atomic kind _ _ _ _ _ _ _ peer =>
    if xs.isEmpty then s
    else if g.landing.isSome then xs.foldl (fun s x => methodElem s g e.op x) s
    else if kind = .atoms ∨ peer.isSome then addItem s (itemOf g c { e with elems := chk } 1)
    else addItem s (itemOf g c { e with elems := xs } (if c.hdr.mode then kindsOf s g e.op xs else 3))
  | .post kind entry op body d counted => enterPost s g kind entry op body d counted
  | .mma _ _ _ _ _ => mma s g e
  | .lda _ =>
    if xs.isEmpty then s
    else onGroup (addItem s (itemOf g c { e with elems := xs } 1)) g.uid fun g => { g with ld := g.ld + 1 }
  | .dlog k => xs.foldl (fun s x => appendLog s g c e k x) s
  | .spawn _ _ => s
  | .release => s
  | .fence mode scope =>
    tidy (addItem s (itemOf g c { e with op := .fence mode scope } 1))
  | .icinv _ _ => tidy (addItem s (itemOf g c { e with op := .fence 1 4, elems := [] } 1))
  | .sysw r v => enterSysw s g r v
  | .gang v => enterGang s g v
  | .ring attach cons bench addr => enterRing s g attach cons bench addr
  | .savesplit =>
    let s := seeSavesplit s g
    (match savesplitElems s g with
     | some es =>
       let it := itemOf g c { e with op := .store .global 16 false 0 true, elems := es } (kindsOf s g (.store .global 16 false 0 true) es)
       onGroup (addItem s it) g.uid fun g => { g with st := g.st + 1 }
     | none => addFatal s g 1 n.code)
  | .loadsplit => s.setGroup { g with loadsplit := true }
  | .rret v => { s with calls := s.calls.map fun k => if k.g == g.uid then { k with result := v } else k }

/-- RELEASEs and spawned tasks stand behind the whole commit (R87, R92). -/
def enterLate (c : Ctx) (s : State) (g : Group) (e : Eff) : State :=
  let chk := (committing c e).map fun x => { x with st := ElemSt.checked }
  match e.op with
  | .release => addItem s (itemOf g c { e with elems := [{ Elem.mk0 uniLane 0 [] with st := .checked }] } 1)
  | .spawn _ _ => if chk.isEmpty then s else addItem s (itemOf g c { e with elems := chk } 1)
  | _ => s

/-- Apply `f` to each effect of a trace, in program order, on the group as it then stands. -/
def eachEff (f : State → Group → Eff → State) (c : Ctx) (uid : Nat) (s : State) : State :=
  c.effs.foldl (fun s e => match s.group? uid with
    | some g => f s g e
    | none => s) s

end Sys2Proof.Machine
end

