-- ==== Sys2Proof/Machine/Terminate.lean ====
section
/-! DEFINITION. How workgroups are ended from outside their groups: termination records (R189), fatal termination of a cluster (R187,
R188), failed restores (R202), and the stopping of queues after it (R54, R59). -/
namespace Sys2Proof.Machine

/-! ### The termination log (R189) -/

/-- Why a workgroup is ended: REASON, CODE and, for its own record, the GROUPID of the faulting group. -/
structure EndCause where
  reason : Nat
  code : Nat
  faultg : Nat
  deriving DecidableEq, Repr, Inhabited

/-- One record (Table 8.6). -/
def termBytes (w : Workgroup) (c : EndCause) (n : Nat) : List Byte :=
  leBytes 4 n ++ leBytes 1 (dieOfCore w.core) ++ leBytes 1 (cluOfCore w.core % 12) ++ leBytes 1 c.code ++ leBytes 1 c.reason ++
    leBytes 2 c.faultg ++ leBytes 2 w.wkg ++ leBytes 4 w.serial.toNat ++ List.replicate 16 0

/-- TERMCNT as a die reads it; one that cannot be read is a free value [98]. -/
def readTermcnt (s0 : State) (die : Nat) (p : Partition) : Nat × State :=
  let s := seeSpan s0 die (p.savebase + 0x3FF8) 8 (some p.part) 0xFF
  match hwRead s die (p.savebase + 0x3FF8) 8 with
  | some b => (leNat b, s)
  | none => (s.fresh.1.toNat, s.fresh.2)

/-- Write a record and raise TERMCNT, then signal the window's event vector. -/
def termRecord (s : State) (w : Workgroup) (c : EndCause) : State :=
  match s.part? w.part with
  | none => s
  | some p =>
    let die := dieOfCore w.core
    let r := readTermcnt s die p
    let s1 := hwWrite r.2 die (p.savebase + 0x4000 + 32 * (r.1 % 512)) (termBytes w c r.1)
    signal (hwWrite s1 die (p.savebase + 0x3FF8) (leBytes 8 (r.1 + 1))) (vectorOf w.part + 1)

/-! ### Ending a workgroup -/

/-- A group belongs to a workgroup. -/
def inWkg (w : Workgroup) (g : Group) : Bool :=
  g.part == w.part && g.serial == w.serial && g.wkg == w.wkg && g.landing.isNone

/-- Roll back every trace of a group that has not committed. -/
def rollBackAll (s : State) (uid : Nat) : State :=
  match s.group? uid with
  | none => s
  | some g => (g.nodes.filter Node.inTrace).foldl (fun s n => rollBack s uid n.ix) s

/-- The rings of a group that is saved (R199), as the workgroup's stand-in reaches them. -/
def detachSaved (s : State) (w : Workgroup) (x : Saved) : State :=
  x.rings.foldl (fun s k => sendRing s { placeGroup s w.part w.serial w.wkg w.core with uid := x.uid } false k.1 k.2.1 k.2.2) s

/-- A resident group of a workgroup that is ended: it detaches, and a workgroup in SAVING leaves its context record, state 2 (R199). -/
def endResident (w : Workgroup) (s : State) (uid : Nat) : State :=
  match s.group? uid with
  | some g => (if w.st = .saving then writeContext (detachAll s g) g (saveBlock g) 2 else detachAll s g)
  | none => s
/-- The same of a group that is saved already. -/
def endSaved (w : Workgroup) (s : State) (x : Saved) : State :=
  let g := { placeGroup s w.part w.serial w.wkg w.core with gid := x.gid }
  if w.st = .saving then writeContext (detachSaved s w x) g x.addr 2 else detachSaved s w x

/-- End a workgroup with its groups, resident and saved, as Table 8.5 says; its scratchpad and registers go (R79), and its record is
written (R188). -/
def endWkg (s : State) (w : Workgroup) (c : EndCause) : State :=
  let ids := (s.groups.filter (inWkg w)).map (·.uid)
  let s1 := ids.foldl rollBackAll s
  let s2 := ids.foldl (endResident w) s1
  let s3 := (w.saves.filter fun x => !ids.contains x.uid).foldl (endSaved w) s2
  let s4 := { s3 with groups := s3.groups.filter (fun g => !inWkg w g) }
  let s5 := match s4.wkg? w.part w.serial w.wkg with
    | some y =>
      if y.st = .saved then
        { s4 with wkgs := s4.wkgs.filter fun x => !(x.part == w.part && x.serial == w.serial && x.wkg == w.wkg) }
      else leaveRemains s4 y
    | none => s4
  termRecord s5 w c

/-- DONESIG bit 32 is to be set for a launch (R74). -/
def markFatal (s : State) (part : Nat) (serial : Word) : State :=
  match s.launch? part serial with
  | some l => s.setLaunch { l with fatal := true }
  | none => s

/-! ### A failed restore (R202) -/

/-- Every saved workgroup of a launch ends with REASON 7. -/
def failRestore (s : State) (part : Nat) (serial : Word) : State :=
  (s.wkgs.filter fun w => w.part == part && w.serial == serial && (w.st == .saved || s.groups.any fun g => inWkg w g && g.restoring)).foldl
    (fun s w => endWkg s w { reason := 7, code := 0, faultg := 0xFFFF }) s

/-! ### Fatal termination of a cluster (R187, R188) -/

/-- A workgroup stands on a cluster: a saved one holds no core. -/
def onCluster (clu : Nat) (w : Workgroup) : Bool := cluOfCore w.core == clu && w.st != .saved

/-- What the cluster's groups committed and posted is done. -/
def clusterQuiet (s : State) (clu : Nat) : Bool :=
  (s.pipe.all fun it => cluOfCore it.core != clu || 192 ≤ it.core) &&
    s.parts.all fun p => p.engqs.all fun q => q.entries.all fun e => cluOfCore e.core != clu

/-- Queues of a partition stop, and a visit that serves one ends (Table 2.7, bit 4; Table 3.3, R61). -/
def stopQueues (s : State) (part : Nat) : State :=
  match s.part? part with
  | none => s
  | some p =>
    (p.queues.filter fun x => x.st == .active || x.st == .fetchfault).foldl
      (fun s x => endVisit (parkQueue s part x 10 x.tag 0) part x.q) s

/-- The cause that a workgroup's record bears (Table 8.6). -/
def causeFor (f : Fatal) (w : Workgroup) : EndCause :=
  { reason := f.reason, code := f.code,
    faultg := if f.part == w.part && f.serial == w.serial && f.wkg == w.wkg then f.gid else 0xFFFF }

/-- CLUSTER_TERMINATION: traces are rolled back at once; when everything committed is performed, the workgroups end (R188). The queues of
a partition stop where its error recovery was host-assisted as the cluster was marked (R54). -/
def execClusterTermination (clu : Nat) (s : State) : Host.Outcome State Fault Refusal :=
  .next (match s.fatals.find? fun f => f.clu == clu with
    | none => s
    | some f =>
      let ws := s.wkgs.filter (onCluster clu)
      let s1 := (s.groups.filter fun g => g.landing.isNone && cluOfCore g.core == clu).foldl (fun s g => rollBackAll s g.uid) s
      if !clusterQuiet s1 clu then s1
      else
        let s2 := ws.foldl (fun s w => markFatal (endWkg s w (causeFor f w)) w.part w.serial) s1
        let s3 := { s2 with fatals := s2.fatals.filter fun x => x.clu != clu }
        (s3.parts.filter fun p => bit p.clumask clu && f.stops.contains p.part).foldl (fun s p => stopQueues s p.part) s3)

end Sys2Proof.Machine
end

