-- ==== Sys2Proof/Machine/Commit.lean ====
section
/-! DEFINITION. What a fragment does at its terminator (R100, R116, R124 to R126, R182, R185, R289, R292, R295, R354), the gangway
latch (R220, R228 to R230, R373), and what a synchronisation ends with (R124, R182). -/
namespace Sys2Proof.Machine

/-- A fragment with its open trace. -/
def traceOf (s : State) (uid nix : Nat) : Option (Group × Node × Ctx) :=
  match s.group? uid with
  | none => none
  | some g =>
    match g.node? nix with
    | none => none
    | some n => n.ctx.map fun c => (g, n, c)

/-- Change a fragment's open trace. -/
def onTrace (s : State) (uid nix : Nat) (f : State → Group → Node → Ctx → State) : State :=
  match traceOf s uid nix with
  | some (g, n, c) => f s g n c
  | none => s

/-! ### Before the commit -/

/-- The INDEX of the trace's terminator. -/
def Ctx.termIx (c : Ctx) : Nat := c.hdr.nlen.toNat

/-- A fault of some lanes at an instruction of the trace other than the next. -/
def faultsAt (s : State) (g : Group) (n : Node) (c : Ctx) (ix : Nat) (fs : List (Nat × Nat)) : State :=
  faultLanes s g n { c with ix := ix } fs fun k => { k with ix := c.ix }

/-- An effect whose elements a checked commit translates. -/
def needsCheck : EffOp → Bool
  | .store .global _ _ _ _ => true
  | .atomic kind _ _ _ _ _ _ _ peer => kind != .atoms && peer.isNone
  | _ => false
def accessOf : EffOp → Nat
  | .store _ _ _ _ _ => 1
  | _ => 2

/-- Translate one effect's elements of active lanes (R125): lanes that fail leave with their code. -/
def checkEff (s0 : State) (g : Group) (n : Node) (c : Ctx) (k : Nat) : State :=
  match c.effs[k]? with
  | none => s0
  | some e =>
    if !needsCheck e.op then s0
    else
      let s := (e.elems.filter fun x => x.st == .fresh && (x.lane == uniLane || c.active.getLsbD x.lane)).foldl
        (fun s x => seeWalk s g.core g.die g.part x.addr) s0
      let it := itemOf g c e 3
      let rs := e.elems.map fun x =>
        (x, if x.st == .fresh && (x.lane == uniLane || c.active.getLsbD x.lane) then some (checkElem s it x) else none)
      let elems := rs.map fun r => match r.2 with
        | some (.ok t) => { r.1 with st := ElemSt.translated, pa := t.pa }
        | _ => r.1
      let fs := rs.flatMap fun r => match r.2 with
        | some (.error code) =>
          let f := accessFault code (accessOf e.op) r.1.addr
          if r.1.lane = uniLane then (lanesOf c.active).map fun l => (l, f) else [(r.1.lane, f)]
        | _ => []
      faultsAt s g n { c with effs := c.effs.set k { e with elems := elems } } e.ix fs

/-- The commit waits: a walk that it makes reads a line that a parked atomic holds, or an access that it makes at once does (R142, R156). -/
def commitHeld (s : State) (g : Group) (c : Ctx) : Bool :=
  let fresh := fun (e : Eff) => (committing c e).filter (·.st == .fresh)
  let walk := fun (va : Nat) => walkHeld s g.core g.die g.part va
  anyParked s && c.effs.any fun e =>
    match e.op with
    | .sysw .preempt v => handlerHeld s g v
    | .savesplit => (pageSpans (saveBlock g + 0x200) 2304).any fun p => walk p.1
    | op =>
      needsCheck op && (fresh e).any fun x =>
        if g.landing.isSome then vaHeld s g.core g.die g.part x.addr ((globalBytes op x).getD 0) (needOf op)
        else c.hdr.mode && walk x.addr

/-- The wait of a checked commit: every buffered store and atomic is translated, in program order. -/
def checkTrace (s : State) (uid nix : Nat) : State :=
  match traceOf s uid nix with
  | none => s
  | some (_, _, c) =>
    if c.hdr.mode then
      (List.range c.effs.length).foldl (fun s k => onTrace s uid nix fun s g n c => checkEff s g n c k) s
    else s

/-- A lane is sent outside the code window. -/
def outside (g : Group) (f : Fail) : Bool :=
  match f.dest with
  | .alternative a => !inWindow g a
  | .undecided a => !inWindow g a
  | _ => false

/-- A terminator that names a trace outside the window raises code 50, in the lanes still active and in those sent there (R100;
DEDUCED [28]). RETT, KILL and YIELD replace the pair of an ENDX, which then names no trace (R292, R294, R295). -/
def checkWindow (s : State) (uid nix : Nat) : State :=
  onTrace s uid nix fun s g n c =>
    let used := match c.flow with
      | none => true
      | some (.callt _) => true
      | _ => false
    let endxOut := match c.term with
      | some (.finx a) => used && !inWindow g (pairOf (readS g n a) (readS g n (a + 1)))
      | _ => false
    if !(c.fails.any (outside g)) && (!endxOut || c.active == 0) then s
    else
      let lanes := lanesOf (c.active ||| maskOf ((c.fails.filter (outside g)).map (·.lane)))
      faultsAt s g n { c with active := maskOf lanes, fails := c.fails.filter fun f => !outside g f } c.termIx
        (lanes.map fun l => (l, 50))

/-- A method's lane that leaves to its PARK trace rejects the call (R249, reason 3). -/
def checkPark (s : State) (uid nix : Nat) : State :=
  onTrace s uid nix fun s g _ c => if c.fails.any (parksMethod g c) then rejectCall s g 3 0 else s

/-- The trace as it stands when it would commit. -/
def beforeCommit (s : State) (uid nix : Nat) : State := checkPark (checkWindow (checkTrace s uid nix) uid nix) uid nix

/-! ### The commit (R124) -/

/-- The lanes that leave: registers and predicates return to their shadows, their slots become void, and their fragments join the tree
(R92, R97, R124). The rest of the fragment is `mask`. -/
def leaveLanes (s : State) (uid nix : Nat) (mask : LaneMask) : State :=
  onTrace s uid nix fun s g n c =>
    let gone := n.mask &&& ~~~mask
    let s1 := voidSlots s g c gone
    let ls := leavings c.fails
    let g1 := (restoreLanes g c (gone ||| c.helpers)).noteSeqs (c.fails.filterMap fun f => f.seq.map fun q => (f.lane, q))
    match (if ls.isEmpty then (g1, n.rejoin, n.parent) else openRejoin s1 g1 n c.rejoinAddr) with
    | (g2, rejoin, parent) =>
      let n1 := { n with mask := mask, rejoin := rejoin, parent := parent }
      addLeavings (s1.setGroup (g2.setNode n1)) uid n1 c rejoin parent ls

/-- A trace whose lanes all left: its fragment leaves the tree, and the group ends with its last fragment. -/
def commitNone (s : State) (uid nix : Nat) (saver : Bool) : State :=
  let s1 := onTrace s uid nix fun s g _ c =>
    let g1 := restoreOwned g c
    s.setGroup { g1 with grant := if c.ticket then { g1.grant with st := 1 } else g1.grant }
  let s2 := leaveLanes s1 uid nix 0
  let s3 := onGroup s2 uid fun g => { g with nodes := collapseAll (g.nodes.filter (·.ix != nix)), loads := g.loads.filter (·.node != nix) }
  maybeEnd s3 uid saver

/-- The terminator once the trace's scalar writes stand: the pair of an ENDX is read (R289). -/
def Ctx.readTerm (c : Ctx) (g : Group) (n : Node) : Option Term :=
  match c.term with
  | some (.finx a) => some (.fin (pairOf (readS g n a) (readS g n (a + 1))))
  | t => t

/-- Scalars stand, flags are kept, the grant is confirmed, and the other lanes leave; the trace is entered. -/
def commitLanes (s : State) (uid nix : Nat) : State :=
  let s1 := onTrace s uid nix fun s g n c =>
    putCtx s { g with fstat := g.fstat ||| BitVec.ofNat 32 (commitFlags c),
                      grant := if c.ticket then { g.grant with st := 0 } else g.grant } n
      { c with owned := [], ticket := false, term := c.readTerm g n }
  match traceOf s1 uid nix with
  | none => s1
  | some (_, _, c) =>
    onTrace (leaveLanes s1 uid nix c.active) uid nix fun s g n c =>
      putCtx s g n { c with entered := some s.nextId, arrival := none, fails := [] }

/-- Commit one fragment, an MMA doing what `mma` says. -/
def enterTrace (mma : State → Group → Eff → State) (s : State) (uid nix : Nat) : State :=
  match traceOf s uid nix with
  | some (_, n, c) => eachEff (enterEff mma c n) c uid s
  | none => s
def enterTraceLate (s : State) (uid nix : Nat) : State :=
  match traceOf s uid nix with
  | some (_, _, c) => eachEff (enterLate c) c uid s
  | none => s

/-! ### Going on -/

/-- A fragment as it stands once its terminator is complete. -/
def Node.free (n : Node) (kind : Nat) : Node :=
  { n with st := .ready, s63 := s63Of 2 0 0 0, next := 0, termIx := 0, sync := none, flow := none, prevKind := kind,
           toHandler := false, ctx := none }

/-- A store-fault record is delivered at the terminator of a plain trace (R182). -/
def delivers (g : Group) (kind : Nat) : Bool := g.pend && kind == 0 && g.landing.isNone
/-- The lanes go to the handler with the store-fault code. -/
def deliver (s : State) (g : Group) (n : Node) (kind ix : Nat) : State :=
  ({ g with pend := false } |> fun g => s.setGroup (g.setNode
    { n.free kind with trace := handlerOf s g, s63 := s63Of 5 3 32 ix, toHandler := true }))

/-- Push a trace on a lane's return stack. -/
def pushReturn (g : Group) (a lane : Nat) : Group :=
  let d := (sget g.rdepth lane).toNat
  { g with rstack := sset g.rstack (8 * lane + d) (BitVec.ofNat 24 (offsetOf g a)), rdepth := sset g.rdepth lane (BitVec.ofNat 8 (d + 1)) }
/-- The trace on top of a lane's return stack. -/
def topReturn (g : Group) (lane : Nat) : Nat :=
  ofOffset g (sget g.rstack (8 * lane + ((sget g.rdepth lane).toNat - 1))).toNat
def popReturn (g : Group) (lane : Nat) : Group :=
  let d := (sget g.rdepth lane).toNat
  { g with rstack := sset g.rstack (8 * lane + (d - 1)) 0, rdepth := sset g.rdepth lane (BitVec.ofNat 8 (d - 1)) }

/-- Lanes by the trace they return to, in ascending order of the lowest lane (R126). -/
def returnGroups (g : Group) (mask : LaneMask) : List (Nat × LaneMask) :=
  (lanesOf mask).foldl (fun acc l =>
    let a := topReturn g l
    if acc.any fun x => x.1 == a then acc.map fun x => if x.1 = a then (a, x.2 ||| laneBit l) else x
    else acc ++ [(a, laneBit l)]) []

/-- RETT: one fragment for each popped trace; the first keeps the rank. -/
def returnLanes (s : State) (g : Group) (n : Node) (kind : Nat) : State :=
  match returnGroups g n.mask with
  | [] => s
  | (a, m) :: rest =>
    let g1 := (lanesOf n.mask).foldl popReturn g
    let g2 := g1.setNode { n.free kind with trace := a, mask := m }
    s.setGroup (rest.foldl (fun g x => addLeaf s g fun ix rank => { n.free kind with ix := ix, rank := rank, trace := x.1, mask := x.2 }) g2)

/-- The terminator is complete: delivery, call, return or successor (R126, R182, R289, R292). -/
def goOn (s : State) (g : Group) (n : Node) (kind ix target : Nat) (flow : Option Flow) : State :=
  if delivers g kind then deliver s g n kind ix
  else
    match flow with
    | some (.callt a) =>
      s.setGroup (((lanesOf n.mask).foldl (fun g l => pushReturn g target l) g).setNode { n.free kind with trace := a })
    | some .rett => returnLanes s g n kind
    | _ => s.setGroup (g.setNode { n.free kind with trace := target })

/-- A synchronisation is complete (R124, R182, R292). -/
def completeSync (s : State) (uid nix : Nat) : State :=
  match s.group? uid with
  | none => s
  | some g =>
    match g.node? nix with
    | none => s
    | some n => goOn s g n n.prevKind n.termIx n.next n.flow

/-! ### Arriving at barriers (R172, R305) -/

/-- A group arrives in a barrier; a further arrival only moves its mark. -/
def Barrier.arrive (b : Barrier) (uid mark : Nat) : Barrier :=
  { b with arrived := (b.arrived.filter fun x => x.1 != uid) ++ [(uid, mark)] }

/-- The barriers of a group's workgroup, or of its cluster in its launch. -/
def barsOf (s : State) (g : Group) (cluster : Bool) : List Barrier :=
  if cluster then
    match s.launch? g.part g.serial with
    | some l => (l.cbars.filter fun x => x.1 == cluOfCore g.core).map (·.2)
    | none => []
  else
    match s.wkg? g.part g.serial g.wkg with
    | some w => w.bars
    | none => []
/-- Replace one of them. -/
def putBar (s : State) (g : Group) (cluster : Bool) (b : Barrier) : State :=
  if cluster then
    match s.launch? g.part g.serial with
    | some l => s.setLaunch { l with cbars := (l.cbars.filter fun x => !(x.1 == cluOfCore g.core && x.2.num == b.num)) ++ [(cluOfCore g.core, b)] }
    | none => s
  else
    match s.wkg? g.part g.serial g.wkg with
    | some w => s.setWkg { w with bars := (w.bars.filter fun x => x.num != b.num) ++ [b] }
    | none => s
/-- A barrier by its number; its first generation is 0. -/
def barOf (s : State) (g : Group) (cluster : Bool) (num : Nat) : Barrier :=
  ((barsOf s g cluster).find? fun b => b.num == num).getD { num := num, gen := 0, arrived := [] }

/-- A fragment arrives: it waits in the current generation. -/
def arriveBar (s : State) (uid nix : Nat) (cluster : Bool) (num : Nat) : State :=
  match s.group? uid with
  | none => s
  | some g =>
    let b := barOf s g cluster num
    let s1 := putBar s g cluster (b.arrive uid s.nextId)
    match g.node? nix with
    | some n => s1.setGroup (g.setNode { n with sync := some (.bar cluster num b.gen) })
    | none => s1

/-! ### RESUME (R202 step 5, R295) -/

/-- A fragment with its synchronisation pending performs it: it arrives again at its barrier; the others wait as they stand. -/
def performSync (s : State) (uid : Nat) (n : Node) : State :=
  match n.sync with
  | some (.bar cluster num _) => arriveBar s uid n.ix cluster num
  | _ => s

/-- The loaded tree becomes the group's tree, or the restore fails. -/
def resumeGroup (s : State) (uid : Nat) : State :=
  match s.group? uid with
  | none => s
  | some g =>
    let loaded := match g.pendingTree with
      | some (img, s63s) => loadNodes s g img s63s
      | none => none
    match loaded with
    | none => failRestore s g.part g.serial
    | some ns =>
      let s1 := (rollBackAll s uid)
      let s2 := onGroup s1 uid fun g =>
        { g with nodes := collapseAll ns, loads := [], pendingTree := none, loadsplit := false, restoring := false }
      let s3 := { s2 with wkgs := s2.wkgs.map (fun (w : Workgroup) => { w with saves := w.saves.filter (fun x => x.uid != uid) }) }
      maybeEnd (ns.foldl (fun s n => performSync s uid n) s3) uid false

/-! ### After the commit (R124, R185, R289, R295, R354) -/

/-- Lines of the instruction cache that the trace's ICINVs name. -/
def icinvHits (c : Ctx) (line : Nat) : Bool :=
  c.effs.any fun e => match e.op with
    | .icinv a len => len == 0 || (decide (a < line + 64) && decide (line < a + len))
    | _ => false
def hasIcinv (c : Ctx) : Bool := c.effs.any fun e => match e.op with
  | .icinv _ _ => true
  | _ => false

/-- Everything the group committed below a mark is performed at device scope, UO effects too, and so is what its core has observed
(R166, R354). -/
def performedTo (s : State) (g : Group) (mark : Nat) : Bool :=
  ((s.pipe.filter fun it => it.group == g.uid && it.id < mark).all (·.doneAt 4)) && coreSeen s g.core g.uid mark 4

/-- The fragment is its group's last. -/
def lastLeaf (g : Group) (n : Node) : Bool := g.nodes.all fun m => m.ix == n.ix || !m.leaf

/-- The committing lanes end (R289). -/
def exitLanes (s : State) (uid nix : Nat) (saver : Bool) : State :=
  maybeEnd (onGroup s uid fun g => { g with nodes := collapseAll (g.nodes.filter (·.ix != nix)) }) uid saver

/-- The last fragment's EXIT waits until every store of the group has been checked (R182), and until its spawned tasks stand ready, which
their terminators write (R92, R403). -/
def exitWaits (s : State) (g : Group) (n : Node) : Bool :=
  lastLeaf g n && g.landing.isNone &&
    (uncheckedStores s g || (ofGroup s g).any fun it => match it.eff.op with
      | .spawn _ _ => !it.closed
      | _ => false)

/-- A fragment stands at its synchronisation. -/
def Node.waits (n : Node) (c : Ctx) (x : Sync) (target : Nat) : Node :=
  { n with st := .syncing, trace := c.addr, next := target, termIx := c.termIx, sync := some x, flow := c.flow,
           prevKind := c.hdr.kind.toNat, toHandler := false, ctx := none }

/-- WHO of a call (R375): partition, die, core, group slot. -/
def sendCall (s : State) (g : Group) (n : Node) (obj method : Nat) (tag : Word) (args : List Word) : State :=
  match s.part? g.part with
  | none => s
  | some p => s.setPart { p with homeWaits := p.homeWaits ++
      [{ part := g.part, obj := obj, g := g.uid, n := n.ix, core := g.core, mark := s.nextId, method := method, tag := tag,
         who := whoOf g, args := args }] }

/-- What the committing lanes do at their terminator. -/
def finishTerm (s : State) (g : Group) (n : Node) (c : Ctx) : State :=
  let kind := c.hdr.kind.toNat
  let uid := g.uid
  let wait := fun (x : Sync) (target : Nat) => s.setGroup (g.setNode (n.waits c x target))
  match c.term with
  | some (.fin t) => goOn s g n kind c.termIx t c.flow
  | some (.finx a) => goOn s g n kind c.termIx (pairOf (readS g n a) (readS g n (a + 1))) c.flow
  | some (.join t) =>
    if !delivers g kind && n.rejoin != 0 && n.rejoin == c.addr then
      s.setGroup (g.setNode { n.free kind with st := .atJoin, trace := c.addr, next := t })
    else goOn s g n kind c.termIx t none
  | some .exit =>
    if c.resume then resumeGroup s uid
    else if exitWaits s g n then s
    else if delivers g kind then deliver s g n kind c.termIx
    else exitLanes s uid n.ix n.saver
  | some (.bar cluster num t) => arriveBar (wait (.bar cluster num 0) t) uid n.ix cluster num
  | some (.push bench ring va pd t) => wait (.push bench ring va pd s.nextId) t
  | some (.pop bench ring va pd t) => wait (.pop bench ring va pd) t
  | some (.rcall obj method tag args sd t) => sendCall (wait (.rcall obj sd none) t) g n obj method tag args
  | _ => s

/-- The fragment's next step after its effects are entered: it may still wait (R182, R354). -/
def afterCommit (s : State) (uid nix : Nat) : State :=
  onTrace s uid nix fun s g n c =>
    match c.entered with
    | none => s
    | some mark =>
      if hasIcinv c && !performedTo s g mark then s
      else
        let s1 := if hasIcinv c then
            { s with icache := s.icache.filter fun x => !(x.2.1 == g.part && icinvHits c x.2.2.1) }
          else s
        match c.flow with
        | some .kill => killGroup s1 uid nix
        | some .yield =>
          onGroup (rollBackAll s1 uid) uid fun g => { g with yield := .waiting, nodes := g.nodes.filter fun m => !m.saver }
        | _ => finishTerm s1 g n c

/-! ### TRACE_COMMIT -/

/-- The trace holds an MMA. -/
def hasMma (c : Ctx) : Bool := (firstMma c).isSome

/-- Arrive at the gangway latch (R228, R230): waiting members whose register differs take code 53; a group that has left its gang
meanwhile takes it itself (DEDUCED [29]). Where the group's gang names a waiting group whose own, different gang does not name it, nothing
breaks (DESIGN CHOICE [99]). -/
def arriveLatch (s : State) (g : Group) (n : Node) (c : Ctx) : State :=
  if g.gang = 0 then latchFault s g n c ((firstMma c).getD c.ix) 53
  else
    let s1 := putCtx { s with nextId := s.nextId + 1 } g n { c with arrival := some s.nextId }
    breakLatch s1 g fun h => h.uid != g.uid && gangHas h.gang g.gid && h.gang != g.gang

/-- A trace that ends in ENDX reads its pair at the commit: it waits for an older fragment that owns it, and a younger one is rolled back
(R130). -/
def claimEndx (s : State) (uid nix : Nat) : Option State :=
  match traceOf s uid nix with
  | some (g, n, c) =>
    (match c.term with
     | some (.finx a) =>
       let os := owners g n [a, a + 1]
       if os.any fun m => m.rank < n.rank then none else some (os.foldl (fun s m => rollBack s uid m.ix) s)
     | _ => some s)
  | none => some s

/-- TRACE_COMMIT (R124): the fragment commits, or goes on with what follows its commit. -/
def execTraceCommit (g n : Nat) (s : State) : Host.Outcome State Fault Refusal :=
  .next (match traceOf s g n with
    | none => s
    | some (gr, nd, c) =>
      if c.term.isNone || !canIssue s gr nd then s
      else if c.entered.isSome then afterCommit s g n
      else if c.arrival.isSome || gr.loads.any (·.node == n) || commitHeld s gr c then s
      else
        match claimEndx s g n with
        | none => s
        | some s0 =>
          let s1 := seeAck (beforeCommit s0 g n) gr (dlogCount c)
          match traceOf s1 g n with
          | none => s1
          | some (gr1, nd1, c1) =>
            if !canIssue s1 gr1 nd1 || !logFits s1 gr1 c1 then s1
            else if c1.active = 0 then commitNone s1 g n nd1.saver
            else if hasMma c1 then arriveLatch s1 gr1 nd1 c1
            else afterCommit (commitLanes (enterTraceLate (enterTrace (fun s _ _ => s) s1 g n) g n) g n) g n)

/-! ### GANGWAY_LATCH_OPEN (R229) -/

/-- One arrival of a member: its fragment, when it arrived, and the MMA. -/
structure Arrival where
  uid : Nat
  nix : Nat
  at_ : Nat
  lanes : LaneMask
  eff : Eff
  deriving DecidableEq, Repr, Inhabited

/-- The MMAs of a trace. -/
def mmasOf (c : Ctx) : List Eff := c.effs.filter fun e => match e.op with
  | .mma _ _ _ _ _ => true
  | _ => false

def insertArrived (x : Nat × Nat × Nat × Ctx) : List (Nat × Nat × Nat × Ctx) → List (Nat × Nat × Nat × Ctx)
  | [] => [x]
  | y :: ys => if x.1 < y.1 then x :: y :: ys else y :: insertArrived x ys

/-- The waiting fragments of a member, oldest arrival first: when, group, node, trace. -/
def arrivedOf (s : State) (g : Group) (gid : Nat) : List (Nat × Nat × Nat × Ctx) :=
  (waitersOf s g fun h => h.gid == gid && h.gang == g.gang).foldl
    (fun acc w => insertArrived (w.2.2.arrival.getD 0, w.1.uid, w.2.1.ix, w.2.2) acc) []

/-- Its arrivals in program order (R228). -/
def arrivalsOf (ws : List (Nat × Nat × Nat × Ctx)) : List Arrival :=
  ws.flatMap fun w => (mmasOf w.2.2.2).map fun e =>
    { uid := w.2.1, nix := w.2.2.1, at_ := w.1, lanes := w.2.2.2.active, eff := e }

/-- How many arrivals a member has when its first fragment, its first two, … have arrived. -/
def prefixCounts (ws : List (Nat × Nat × Nat × Ctx)) : List Nat :=
  (ws.foldl (fun (a : List Nat × Nat) w => let k := a.2 + (mmasOf w.2.2.2).length; (a.1 ++ [k], k)) ([], 0)).1

/-- The number of joint operations that open together: the least at which every member's fragments are whole (R228, R229). -/
def opening (counts : List (List Nat)) : Option Nat :=
  match counts with
  | [] => none
  | c :: cs => c.find? fun k => cs.all fun d => d.contains k

/-- The joint operations that have an arrival from every member, in order (R228, R229). -/
def jointOps (ms : List (List (Nat × Nat × Nat × Ctx))) : List (List Arrival) :=
  let arr := ms.map arrivalsOf
  (List.range ((arr.map List.length).min?.getD 0)).map fun i => arr.filterMap fun a => a[i]?

/-- What the vote compares of an MMA (R229): format words of the active lanes, and its other operands. -/
def mmaWords (a : Arrival) : List Nat := (a.eff.elems.filter fun x => a.lanes.getLsbD x.lane).map fun x => field x.data 0 4
def mmaRec (a : Arrival) : List Word × Nat × Nat × Nat :=
  match a.eff.op with
  | .mma r d sh st _ => (r, d, sh, st)
  | _ => ([], 0, 0, 0)

/-- The code of a joint operation: 52 where members or lanes differ, 6 for a word that is not allowed, else 0 (R220, R229). -/
def voteCode (js : List Arrival) : Nat :=
  let ws := js.flatMap mmaWords
  match ws with
  | [] => 52
  | w :: _ =>
    if ws.any (· != w) || js.any (fun j => mmaRec j != mmaRec (js.headD default)) then 52
    else if fmtWordOk w then 0
    else 6

/-- The joint entry's body (Table 10.4), bytes 63:16. -/
def mmaBody (g : Group) (js : List Arrival) : List Byte :=
  let j := js.headD default
  let w := (mmaWords j).headD 0
  match mmaRec j with
  | (r, d, sh, st) =>
    let rw := fun k => (r.getD k 0).toNat
    List.replicate 19 (0 : Byte) ++ leBytes 1 st ++ leBytes 1 sh ++ leBytes 2 d ++ leBytes 1 (gangCount g.gang) ++
      leBytes 1 (gangBase g.gang) ++ leBytes 1 (rw 5 / 2 ^ 16) ++ leBytes 2 (rw 5) ++ leBytes 4 (rw 4) ++ leBytes 4 (rw 3) ++
      leBytes 4 (rw 2) ++ leBytes 4 (rw 1) ++ leBytes 4 w

/-- Post the joint entry, at the commit of the last member to arrive: one sequence, and TL in every member (R229). -/
def postJoint (js : List Arrival) (s : State) (g : Group) : State :=
  let entry := ((mmaRec (js.headD default)).1.getD 0 0).toNat
  match postEntry s g (queueRefOf g 0) entry 0x01 (mmaBody g js) 2 (js.map fun j => (j.uid, j.lanes)) with
  | (s1, seq) => js.foldl (fun s j => onGroup s j.uid fun g => match j.eff.op with
      | .mma _ _ _ _ sq => { g with tl := g.tl + 1, s := sset g.s sq seq }
      | _ => g) s1

/-- An arriving member takes the vote's code, and nothing commits (R229). -/
def voteFault (code : Nat) (s : State) (j : Arrival) : State :=
  onTrace s j.uid j.nix fun s g n c => latchFault s g n c j.eff.ix code

/-- The joint operation that an MMA of a fragment belongs to, when this fragment arrived last for it. -/
def jointFor (ops : List (List Arrival)) (uid nix : Nat) (e : Eff) : Option (List Arrival) :=
  ops.find? fun js => js.any (fun j => j.uid == uid && j.nix == nix && j.eff == e) &&
    js.all fun j => j.at_ ≤ ((js.find? fun j => j.uid == uid && j.nix == nix).map (·.at_)).getD 0

/-- GANGWAY_LATCH_OPEN for the gang of a group: each joint operation is voted as it has an arrival from every member, then every member's
fragments leave the latch and commit in one step, one after another in order of arrival (R124, R211, R229). -/
def execGangwayLatchOpen (g : Nat) (s : State) : Host.Outcome State Fault Refusal :=
  .next (match s.group? g with
    | none => s
    | some gr =>
      let ms := (List.range (gangCount gr.gang)).map fun i => arrivedOf s gr (gangBase gr.gang + i)
      let joints := jointOps ms
      match joints.find? (fun js => voteCode js != 0), opening (ms.map prefixCounts) with
      | none, none => s
      | some js, none => js.foldl (voteFault (voteCode js)) s
      | _, some k =>
        let ops := joints.take k
        match ops.find? fun js => voteCode js != 0 with
        | some js => js.foldl (voteFault (voteCode js)) s
        | none =>
          let arr := ms.map fun ws => (arrivalsOf ws).take k
          let frs := (ms.flatMap fun ws => ws.filter fun w => arr.any fun a => a.any fun j => j.uid == w.2.1 && j.nix == w.2.2.1).foldl
            (fun acc w => insertArrived w acc) []
          let records := frs.foldl (fun k w => k + dlogCount w.2.2.2) 0
          let stuck := frs.any fun w => match traceOf s w.2.1 w.2.2.1 with
            | some (h, n, c) => !canIssue s h n || commitHeld s h c
            | none => true
          if stuck || !logRoom s gr.die gr.part records then s
          else
            match frs.foldl (fun (t : Option State) w => t.bind fun s => claimEndx s w.2.1 w.2.2.1) (some s) with
            | none => s
            | some s0 =>
              let s1 := frs.foldl (fun s w => onTrace s w.2.1 w.2.2.1 fun s g n c => putCtx s g n { c with arrival := none }) s0
              let s2 := frs.foldl (fun s w =>
                let t := enterTrace (fun s g e => match jointFor ops w.2.1 w.2.2.1 e with
                  | some js => postJoint js s g
                  | none => s) s w.2.1 w.2.2.1
                commitLanes (enterTraceLate t w.2.1 w.2.2.1) w.2.1 w.2.2.1) s1
              frs.foldl (fun s w => afterCommit s w.2.1 w.2.2.1) s2)

end Sys2Proof.Machine
end

