-- ==== Sys2Proof/Machine/Arrive.lean ====
section
/-! DEFINITION. What arrives at a fragment from outside it: its loads' data (R27, R124, R340, R346, R379), the completion of its barrier
(R172, R305), its slots of a ring (R306, R308). -/
namespace Sys2Proof.Machine

/-! ### Data of loads -/

/-- The data errors of a load: each lane that consumes a bad word, with the SEQ of its record (R27, R28, R30). -/
def badLanes (s : State) (g : Group) (l : Load) : List (Nat × Nat) :=
  (l.spans.filter fun x => badSpan s g.die x.2.1 x.2.2).map fun x => (x.1, dataError s g.die x.2.1 x.2.2)

/-- Lanes of an interval load that hold an ill-formed or empty interval (R217, R340). -/
def badIntervals (l : Load) : List (Nat × Nat) :=
  if l.iv = 0 then []
  else
    let h := l.iv == 16
    let lanes := (l.writes.filterMap fun w => match w.1 with
      | .v lane _ => some lane
      | _ => none).eraseDups
    (lanes.map fun lane =>
      let ws := l.writes.filterMap fun w => match w.1 with
        | .v k _ => if k = lane then some w.2 else none
        | _ => none
      (lane, ivCheck (ivFmt h) [ivOf h ((ws.getD 0 0).toNat + 2 ^ 32 * (ws.getD 1 0).toNat)])).filter fun x => x.2 != 0

/-- The lane that a load's write belongs to. -/
def RegRef.lane : RegRef → Nat
  | .v l _ => l
  | .p l _ => l
  | .pdg l => l
  | .s _ => uniLane

/-- One write of a load: a register, or a fold into a lane's path digest (R123, R379). -/
def loadWrite (st : Group × Node × Ctx) (w : RegRef × Word) : Group × Node × Ctx :=
  match w.1 with
  | .pdg l => (st.1.wpdg l (fold64 (st.1.rpdg l) w.2), st.2.1, st.2.2)
  | _ => writeRef st w

/-- The registers of a load are written, or its lanes take their fault at the load, which leaves their registers as they were. -/
def returnLoad (s : State) (g : Group) (n : Node) (c : Ctx) (l : Load) : State :=
  let bad := badLanes s g l
  let hits := bad ++ (badIntervals l).filter fun x => !bad.any fun y => y.1 == x.1
  let g0 := { g with loads := g.loads.filter (·.id != l.id) }
  let good := l.writes.filter fun w => !hits.any fun x => x.1 == w.1.lane
  match good.foldl loadWrite (g0, n, { c with ix := l.ix }) with
  | (g1, n1, c1) =>
    let uni := hits.find? fun x => x.1 == uniLane
    let fs := match uni with
      | some x => (lanesOf c1.active).map fun k => (k, x.2)
      | none => hits
    faultLanes s g1 n1 c1 fs fun k => { k with ix := c.ix }

/-- LOAD_DATA_RETURN of load `id` of a group (R120, R346), its first line coming to show the error `e`: every line it read meets its check
code (R26, R27). An RREAD returns when its method has run (R376). -/
def execLoadDataReturn (g id : Nat) (e : LineError) (s : State) : Host.Outcome State Fault Refusal :=
  .next (match s.group? g with
    | none => s
    | some gr =>
      match gr.loads.find? fun l => l.id == id && l.rread.isNone with
      | none => s
      | some l =>
        match traceOf s g l.node with
        | none => s
        | some (_, n, c) =>
          let s0 := match l.spans with
            | [] => s
            | sp :: _ => setFlaw s (sp.2.1 / 64 * 64) e
          let s1 := l.spans.foldl (fun s sp => seeSpan s gr.die sp.2.1 sp.2.2 (some gr.part) gr.coreNo) s0
          match s1.group? g with
          | some g1 => returnLoad s1 g1 n c l
          | none => s1)

/-! ### Barriers -/

/-- The groups that a barrier waits for: those of the workgroup, or of the cluster's workgroups, that have not ended (R305). -/
def expectedOf (s : State) (b : BarrierRef) : List Group :=
  s.groups.filter fun g => g.part == b.part && g.serial == b.serial && g.landing.isNone &&
    (if b.cluster then cluOfCore g.core == b.place else g.wkg == b.place)

/-- Every group of the expected set has arrived, and its arrival's release is performed (R172). -/
def barDone (s : State) (b : BarrierRef) (x : Barrier) (gs : List Group) : Bool :=
  gs.all fun g => match x.arrived.find? fun a => a.1 == g.uid with
    | some a => releasedTo s g.uid g.core a.2 (if b.cluster then 2 else 1)
    | none => false

/-- Fragments that wait at a barrier. -/
def waitersAt (b : BarrierRef) (gs : List Group) : List (Nat × Nat) :=
  gs.flatMap fun g => (g.nodes.filter fun n => n.st == .syncing && !n.frozen && match n.sync with
    | some (.bar cluster num _) => cluster == b.cluster && num == b.num
    | _ => false).map fun n => (g.uid, n.ix)

/-- BARRIER_COMPLETE (R305): every waiting fragment continues, an acquire, and the generation advances. -/
def execBarrierComplete (b : BarrierRef) (s : State) : Host.Outcome State Fault Refusal :=
  .next (match expectedOf s b with
    | [] => s
    | g :: rest =>
      let gs := g :: rest
      let x := barOf s g b.cluster b.num
      if !barDone s b x gs then s
      else
        let s1 := putBar s g b.cluster { x with gen := x.gen + 1, arrived := [] }
        let s2 := gs.foldl (fun s h => acquire s h (if b.cluster then 2 else 1)) s1
        (waitersAt b gs).foldl (fun s w => completeSync s w.1 w.2) s2)

/-! ### Rings -/

/-- A fragment that waits to push or pop, with its ring. -/
def ringWaiter (s : State) (uid nix : Nat) : Option (Group × Node) :=
  match s.group? uid with
  | none => none
  | some g =>
    match g.node? nix with
    | some n => if n.st == .syncing && !n.frozen then some (g, n) else none
    | none => none

/-- Scope of a ring's release and acquire (R308). -/
def ringScope (bench : Bool) : Nat := if bench then 4 else 2

/-- Write the status predicate of every committing lane, and go on. -/
def ringStatus (s : State) (g : Group) (n : Node) (pd : Nat) (x : Pred) : State :=
  completeSync (s.setGroup ((lanesOf n.mask).foldl (fun g l => g.wp l pd x) g)) g.uid n.ix

/-- The slot of a push: word i is v[a] of lane i where the lane commits, else 0. -/
def pushSlot (g : Group) (n : Node) (va words : Nat) : List Byte :=
  (List.range words).flatMap fun i => leBytes 4 (if n.mask.getLsbD i then g.rv i va else 0).toNat

/-- RING_PUSH (R308). A header that has come to break Table 12.4, or that cannot be read (DEDUCED [30]), gives F. -/
def execRingPush (g n : Nat) (s : State) : Host.Outcome State Fault Refusal :=
  .next (match ringWaiter s g n with
    | some (gr, nd) =>
      (match nd.sync with
       | some (.push bench ring va pd mark) =>
         let x : Spot := { bench := bench, addr := ring }
         if !releasedTo s g gr.core mark (ringScope bench) || spotParked s gr x 64 then s
         else
           let s0 := seeSpot s gr x 64
           let h : RingHdr := spotRead s0 gr x 64
           let slot : Spot := { x with addr := ring + RingHdr.slotAt h (RingHdr.tailc h) }
           if spotBad s0 gr x 64 || !RingHdr.ok h || bit (RingHdr.flags h) 1 then ringStatus s0 gr nd pd 0
           else if 2 ^ RingHdr.logslots h ≤ (RingHdr.tailc h - RingHdr.headc h).toNat then s0
           else if bench && vaHeld s0 gr.core gr.die gr.part slot.addr (4 * RingHdr.words h) .write then s0
           else
             let s1 := spotWrite s0 gr slot (pushSlot gr nd va (RingHdr.words h))
             ringStatus (spotWrite s1 gr { x with addr := ring + 4 } (leBytes 4 (RingHdr.tailc h + 1).toNat)) gr nd pd 1
       | _ => s)
    | none => s)

/-- The words of a slot reach v[a], lane by lane. -/
def popSlot (g : Group) (n : Node) (va : Nat) (b : List Byte) (words : Nat) : Group :=
  ((lanesOf n.mask).filter (· < words)).foldl (fun g i => g.wv i va (BitVec.ofNat 32 (field b (4 * i) 4))) g

/-- RING_POP (R308): an acquire, behind the group's FENCEs and parked atomics (R166, R168), and behind the counts of its attachments. -/
def execRingPop (g n : Nat) (s : State) : Host.Outcome State Fault Refusal :=
  .next (match ringWaiter s g n with
    | some (gr, nd) =>
      (match nd.sync with
       | some (.pop bench ring va pd) =>
         let x : Spot := { bench := bench, addr := ring }
         if !acquireReady s gr || !countsMade s gr || spotParked s gr x 64 then s
         else
           let s0 := seeSpot s gr x 64
           let h : RingHdr := spotRead s0 gr x 64
           let slot : Spot := { x with addr := ring + RingHdr.slotAt h (RingHdr.headc h) }
           let size := 4 * RingHdr.words h
           if spotBad s0 gr x 64 || !RingHdr.ok h then ringStatus s0 gr nd pd 0
           else if RingHdr.tailc h = RingHdr.headc h then
             (if bit (RingHdr.flags h) 0 then ringStatus (acquire s0 gr (ringScope bench)) gr nd pd 0 else s0)
           else if spotParked s0 gr slot size then s0
           else
             let s1 := seeSpot s0 gr slot size
             if spotBad s1 gr slot size then ringStatus s1 gr nd pd 0
             else
               let s2 := spotWrite (acquire s1 gr (ringScope bench)) gr x (leBytes 4 (RingHdr.headc h + 1).toNat)
               ringStatus s2 (popSlot gr nd va (spotRead s1 gr slot size) (RingHdr.words h)) nd pd 1
       | _ => s)
    | none => s)

end Sys2Proof.Machine
end

