-- ==== Sys2Proof/Machine/Ecdsa.lean ====
section
/-! DEFINITION. ECDSA P-256 over a SHA-256 digest, which R23 and R48 name. PRESUMED [101]: the curve and the verification are those of
FIPS 186, which the manual names and does not print. A signature is r then s, 32 bytes each (Table 1.3). -/
namespace Sys2Proof.Machine

/-! ### The curve y² = x³ - 3x + b over the integers modulo a prime -/

/-- The prime of the field. -/
def p256 : Nat := 2 ^ 256 - 2 ^ 224 + 2 ^ 192 + 2 ^ 96 - 1
/-- The order of the base point, a prime. -/
def p256Order : Nat := 0xFFFFFFFF00000000FFFFFFFFFFFFFFFFBCE6FAADA7179E84F3B9CAC2FC632551
def p256B : Nat := 0x5AC635D8AA3A93E7B3EBBD55769886BC651D06B0CC53B0F63BCE3C3E27D2604B
def p256Gx : Nat := 0x6B17D1F2E12C4247F8BCE6E563A440F277037D812DEB33A0F4A13945D898C296
def p256Gy : Nat := 0x4FE342E2FE1A7F9B8EE7EB4A7C0F9E162BCE33576B315ECECBB6406837BF51F5

/-- A power modulo m, with an exponent of at most some number of bits. -/
def powMod (m : Nat) : Nat → Nat → Nat → Nat
  | 0, _, _ => 1
  | k + 1, b, e => (if e % 2 = 1 then b else 1) * powMod m k (b * b % m) (e / 2) % m

/-- Arithmetic of the field. -/
def fieldMul (a b : Nat) : Nat := a * b % p256
def fieldSub (a b : Nat) : Nat := (a + p256 - b) % p256

/-- A point (X : Y : Z) that stands for X / Z², Y / Z³; Z = 0 is the point at infinity. -/
structure Point where
  x : Nat
  y : Nat
  z : Nat
  deriving DecidableEq, Repr, Inhabited

def Point.infinity : Point := { x := 1, y := 1, z := 0 }

/-- Twice a point. -/
def Point.double (p : Point) : Point :=
  let zz := fieldMul p.z p.z
  let yy := fieldMul p.y p.y
  let s := fieldMul 4 (fieldMul p.x yy)
  let m := fieldMul 3 (fieldMul (fieldSub p.x zz) ((p.x + zz) % p256))
  let x := fieldSub (fieldMul m m) (2 * s % p256)
  { x := x, y := fieldSub (fieldMul m (fieldSub s x)) (fieldMul 8 (fieldMul yy yy)), z := fieldMul 2 (fieldMul p.y p.z) }

/-- The sum of two points. -/
def Point.add (p q : Point) : Point :=
  if p.z = 0 then q
  else if q.z = 0 then p
  else
    let pz := fieldMul p.z p.z
    let qz := fieldMul q.z q.z
    let u := fieldMul p.x qz
    let s := fieldMul p.y (fieldMul q.z qz)
    let h := fieldSub (fieldMul q.x pz) u
    let r := fieldSub (fieldMul q.y (fieldMul p.z pz)) s
    if h = 0 then (if r = 0 then p.double else .infinity)
    else
      let hh := fieldMul h h
      let hhh := fieldMul h hh
      let v := fieldMul u hh
      let x := fieldSub (fieldSub (fieldMul r r) hhh) (2 * v % p256)
      { x := x, y := fieldSub (fieldMul r (fieldSub v x)) (fieldMul s hhh), z := fieldMul h (fieldMul p.z q.z) }

/-- a·P + b·Q for the numbers that the low bits of a and b make, from the highest of k bits down. -/
def Point.combine (p q : Point) (a b : Nat) : Nat → Point → Point
  | 0, acc => acc
  | k + 1, acc =>
    let d := acc.double
    let e := if a.testBit k then d.add p else d
    Point.combine p q a b k (if b.testBit k then e.add q else e)

/-! ### Verification -/

/-- The number that some bytes stand for, the most significant first. -/
def beNat (b : List Byte) : Nat := leNat b.reverse

/-- The public key of 64 bytes, X then Y (DESIGN CHOICE [8]): none that is not a point of the curve. -/
def publicKey (key : List Byte) : Option Point :=
  let x := beNat (takeAt key 0 32)
  let y := beNat (takeAt key 32 32)
  if key.length = 64 ∧ x < p256 ∧ y < p256 ∧ fieldMul y y = (fieldMul x (fieldSub (fieldMul x x) 3) + p256B) % p256 then
    some { x := x, y := y, z := 1 }
  else none

/-- The signature (r, s) of a digest e verifies under a key. -/
def signedBy (q : Point) (e r s : Nat) : Bool :=
  let w := powMod p256Order 256 s (p256Order - 2)
  let t := Point.combine { x := p256Gx, y := p256Gy, z := 1 } q (e * w % p256Order) (r * w % p256Order) 256 .infinity
  let zz := fieldMul t.z t.z
  decide (0 < r ∧ r < p256Order ∧ 0 < s ∧ s < p256Order) && t.z != 0 &&
    (fieldMul r zz == t.x || (decide (r + p256Order < p256) && fieldMul (r + p256Order) zz == t.x))

/-- A signature over a message verifies under a key (R23, R48). -/
def verifies (key message signature : List Byte) : Bool :=
  match publicKey key with
  | some q =>
    signature.length == 64 &&
      signedBy q (beNat (sha256 message)) (beNat (takeAt signature 0 32)) (beNat (takeAt signature 32 32))
  | none => false

end Sys2Proof.Machine
end

