-- ==== Sys2Proof/Machine/Ferry.lean ====
section
/-! DEFINITION. The Ferry (R33 to R42, R413): taking descriptors, completions, ring failures, and the commands of Table 2.3 but
SERVICE and PDESTROY. -/
namespace Sys2Proof.Machine

/-! ### Rings -/

/-- A ring access failed (R35): RUN cleared, HALTED set, a record of KIND 3 and HOP 13 from die 0. A command being applied goes on, and its
completion will be missing. -/
def ringFail (s : State) (w addr : Nat) : State :=
  let x := s.win w
  let s1 := s.setWin w { x with run := false, halted := true, mute := x.waiting.isSome }
  writeErrTo s1 { die := 0, kind := 3, hop := 13, part := if w = mgmt then none else some w, core := 0xFF, addr := addr, synd := 0 }
    (w != mgmt)

/-- Full and empty of the completion ring (R34). -/
def cplFull (x : Window) : Bool := x.cplsize.toNat ≤ (x.cpltail - x.cplhead).toNat

/-- Complete a command: its entry, the completion vector if IRQ is set, HALTED if RUN was cleared meanwhile (R35, R41). One that was
being applied when a ring access failed has no entry: CPLTAIL keeps its value while HALTED is 1. -/
def complete (s : State) (w : Nat) (d : FerryDesc) (status detail : Nat) : State :=
  let x := { s.win w with waiting := none, spans := [], mute := false }
  let a := x.cplbase.toNat + 16 * (x.cpltail.toNat % x.cplsize.toNat)
  if (s.win w).mute then s.setWin w { x with halted := x.halted || !x.run }
  else if hostOk s a 16 then
    let s1 := hwrite s a (leBytes 1 d.op.toNat ++ leBytes 1 status ++ [0, 0] ++ leBytes 4 d.tag.toNat ++ leBytes 8 detail)
    let s2 := s1.setWin w { x with cpltail := x.cpltail + 1, halted := x.halted || !x.run }
    if d.flags.getLsbD 0 then signal s2 (vectorOf w) else s2
  else ringFail (s.setWin w x) w a

/-- Complete a command where no rule gives DETAIL: a free value [80]. -/
def completeOpen (s : State) (w : Nat) (d : FerryDesc) (status : Nat) : State :=
  match s.fresh with
  | (v, s1) => complete s1 w d status v.toNat

/-- A command that has taken effect in part waits and holds its window (R39, R52, R76). -/
def waitCmd (s : State) (w : Nat) (d : FerryDesc) (progress : Nat) : State :=
  s.setWin w { s.win w with waiting := some (d, progress) }

/-- Progress of the command that waits in a window. -/
def progressOf (s : State) (w : Nat) : Option Nat := (s.win w).waiting.map (·.2)

/-! ### Status checks (R413) -/

/-- Bytes of ARG that a command uses: every other byte must be zero. -/
def argZero (d : FerryDesc) (used : Nat → Bool) : Bool :=
  ((List.range 32).filter fun k => !used k).all fun k => d.arg.getD k 0 == 0

/-- BADOP for a descriptor's own fields (Table 2.2). -/
def descBad (d : FerryDesc) : Bool := d.flags.toNat / 2 != 0 || d.zero1 != 0 || d.zero2 != 0

/-- The windows of a command: all, partition windows, or the management window. -/
inductive Where where
  | all | parts | mgmtOnly
  deriving DecidableEq, Repr, Inhabited

/-- The command stands in a window that takes it, and that window's partition lives (R37). -/
def windowOk (s : State) (w : Nat) : Where → Bool
  | .all => w == mgmt || (s.part? w).isSome
  | .parts => w != mgmt && (s.part? w).isSome
  | .mgmtOnly => w == mgmt

/-- The window's partition is being torn down: a command taken now completes TORNDOWN (R46, R413). -/
def dying (s : State) (w : Nat) : Bool :=
  w != mgmt && (match (s.win mgmt).waiting with
    | some (d, _) => d.op == 0x0D && field d.arg 0 1 == w
    | none => false)

/-- Take a command through TORNDOWN, BADOP and WINDOW; `go` goes on with RANGE and the rest. -/
def ferryCmd (w : Nat) (d : FerryDesc) (place : Where) (used : Nat → Bool) (extraBad : Bool) (go : State → State) (s : State) :
    Host.Outcome State Fault Refusal :=
  .next (if dying s w then completeOpen s w d 8
    else if descBad d || !argZero d used || extraBad then completeOpen s w d 1
    else if !windowOk s w place then completeOpen s w d 2
    else go s)

def argN (d : FerryDesc) (k n : Nat) : Nat := field d.arg k n

/-! ### Ranges (R38) -/

/-- The lowest unpopulated address of a physical span. -/
def firstUnpop (s : State) (pa n : Nat) : Option Nat := ((List.range n).find? fun k => !populated s (pa + k)).map (pa + ·)

/-- The Ferry's check of one page: R38's permission. A page that a seal register covers is left to SEALED [15]. -/
def ferryPage (s : State) (part va : Nat) (write : Bool) : Option Nat :=
  if 2 ^ 55 ≤ va then none
  else
    match walk s 192 0 part va with
    | .error _ => none
    | .ok (e, big) =>
      let pa := if big then ptePfn e * 65536 + va % 2 ^ 29 else ptePfn e * 65536 + va % 65536
      let key := match s.part? part with
        | some p => p.pkey
        | none => 0
      let perm := if write then bit e 2 && (!bit e 7 || sealedPa s pa) else bit e 1
      if bits e 63 48 != key || !perm || emulationPage pa then none else some pa

/-- The physical spans of a command's device range, or the lowest failing address. -/
def ferrySpans (s : State) (w : Nat) (write : Bool) : List (Nat × Nat) → Except Nat (List (Nat × Nat))
  | [] => .ok []
  | (a, n) :: rest =>
    match (if w = mgmt then some a else ferryPage s w a write) with
    | none => .error a
    | some pa =>
      match firstUnpop s pa n with
      | some bad => .error (a + (bad - pa))
      | none =>
        match ferrySpans s w write rest with
        | .error e => .error e
        | .ok ps => .ok ((pa, n) :: ps)

/-- The walks of a window's command meet the check codes of their entries (R26, R27, R142); an entry that cannot be read fails its page's
check [98]. -/
def seePages (s : State) (w va n : Nat) : State :=
  if w = mgmt || s.flaws.isEmpty then s else (pageSpans va n).foldl (fun s p => seeWalk s 192 0 w p.1) s

/-- The unit that a WRITE or READ moves from byte k of its range on: what its spans hold of one aligned 8-byte unit (R40). -/
def unitAt : List (Nat × Nat) → Nat → Option (Nat × Nat)
  | [], _ => none
  | (pa, n) :: rest, k => if k < n then some (pa + k, min (8 - (pa + k) % 8) (n - k)) else unitAt rest (k - n)

/-- The partition that a window's command acts for. -/
def windowPart (w : Nat) : Option Nat := if w = mgmt then none else some w

/-- The bytes of a WRITE's unit go to their home; one that is not reached takes nothing [20]. -/
def writeUnit (s : State) (h pa n : Nat) : State := if reaches s 0 pa then pwriteLong s pa (hread s h n) else s

/-- The bytes of a READ's unit, read at their home, go to the host; those of a word in error, or that is not reached, stay unwritten
[20]. -/
def readUnit (s : State) (w h pa n : Nat) : State :=
  let s1 := seeSpan s 0 pa n (windowPart w) 0xFF
  if badSpan s1 0 pa n then s1 else hwrite s1 h (pread s1 pa n)

/-- What the spans of a command hold, from byte k of its range on, of one line. -/
def lineAt : List (Nat × Nat) → Nat → Option (Nat × Nat)
  | [], _ => none
  | (pa, n) :: rest, k => if k < n then some (pa + k, min (64 - (pa + k) % 64) (n - k)) else lineAt rest (k - n)

/-- What a WRITE or READ moves from byte k on: one unit; but where a parked atomic holds it, the whole rest of its line if that is a write
that makes a held word good (R157). -/
def moveAt (s : State) (spans : List (Nat × Nat)) (write : Bool) (k : Nat) : Option (Nat × Nat) :=
  match unitAt spans k, lineAt spans k with
  | some u, some l => if write && parkedBlocks s u.1 u.2 true && !parkedBlocks s l.1 l.2 true then some l else some u
  | u, _ => u

/-- One unit of a WRITE or READ moves (R39, R40): it waits behind a parked atomic (R156, R157), and a failing host line ends the
command; the last unit completes it. -/
def moveUnit (s : State) (w : Nat) (d : FerryDesc) (write : Bool) (k : Nat) : State :=
  match moveAt s (s.win w).spans write k with
  | none => completeOpen s w d 0
  | some (pa, n) =>
    let h := d.haddr.toNat + k
    if parkedBlocks s pa n write then s
    else if !hostOk s h n then completeOpen s w d 7
    else
      let s1 := if write then writeUnit s h pa n else readUnit s w h pa n
      if d.len.toNat ≤ k + n then completeOpen s1 w d 0 else waitCmd s1 w d (k + n)

/-- A WRITE or READ is admitted: its range is checked, and its units follow. -/
def beginMove (s : State) (w : Nat) (d : FerryDesc) (ps : List (Nat × Nat)) : State := s.setWin w { s.win w with waiting := some (d, 0), spans := ps }

/-! ### Commands -/

/-- WRITE (R38, R39): the whole range is checked, then bytes go from host to device, unit by unit. -/
def execFerryWrite (w : Nat) (d : FerryDesc) (s : State) : Host.Outcome State Fault Refusal :=
  match progressOf s w with
  | some k => .next (moveUnit s w d true k)
  | none =>
    ferryCmd w d .all (fun _ => false) false (fun s =>
      let n := d.len.toNat
      if n = 0 ∨ 2 ^ 24 < n then completeOpen s w d 5
      else
        let s := seePages s w d.daddr.toNat n
        match ferrySpans s w true (pageSpans d.daddr.toNat n) with
        | .error a => complete s w d 3 a
        | .ok ps => if ps.any fun p => sealedPa s p.1 then completeOpen s w d 4 else beginMove s w d ps) s

/-- READ (R38, R39): the whole range is checked, then bytes go from device to host, unit by unit. -/
def execFerryRead (w : Nat) (d : FerryDesc) (s : State) : Host.Outcome State Fault Refusal :=
  match progressOf s w with
  | some k => .next (moveUnit s w d false k)
  | none =>
    ferryCmd w d .all (fun _ => false) false (fun s =>
      let n := d.len.toNat
      if n = 0 ∨ 2 ^ 24 < n then completeOpen s w d 5
      else
        let s := seePages s w d.daddr.toNat n
        match ferrySpans s w false (pageSpans d.daddr.toNat n) with
        | .error a => complete s w d 3 a
        | .ok ps => beginMove s w d ps) s

/-- HEAD and RINGSIZE against which TAIL is checked: the fetcher's, or the descriptor's in memory for a queue never armed
(DEDUCED [18]); none where that descriptor cannot be read [98]. -/
def tailBase (s : State) (p : Partition) (x : Queue) : Option (Word × Nat) :=
  if x.st == .off then (hwRead s 0 (queueAt p x.q) 64).map fun m => (BitVec.ofNat 32 (field m 32 4), field m 16 4)
  else some (x.head, x.ringSize)
/-- That read meets the check code of the descriptor's line. -/
def seeTail (s : State) (p : Partition) (x : Queue) : State :=
  if x.st == .off then seeSpan s 0 (queueAt p x.q) 64 (some p.part) 0xFF else s

/-- TAIL publishes packets (R58), and the fetcher writes the field (Table 3.1). -/
def execFerryTail (w : Nat) (d : FerryDesc) (s : State) : Host.Outcome State Fault Refusal :=
  ferryCmd w d .parts (fun k => k < 2 || (4 ≤ k && k < 8)) false (fun s =>
    match s.part? w with
    | none => completeOpen s w d 2
    | some p =>
      match p.queue? (argN d 0 2) with
      | none => completeOpen s w d 5
      | some x =>
        let v := BitVec.ofNat 32 (argN d 4 4)
        let s := seeTail s p x
        match tailBase s p x with
        | none => completeOpen s w d 5
        | some hb =>
          if hb.2 < (v - hb.1).toNat then completeOpen s w d 5
          else completeOpen (writeDesc (putQueue s w { x with tail := v }) w x 36 4 v.toNat) w d 0) s

/-- A pilot suspended at a fetch fault goes on where it stood: PILOT, PILOTLEN and HEAD are as they were (R60). -/
def resumes (old new : Queue) : Bool :=
  old.st == .fetchfault && old.busy && old.fld 8 8 == new.fld 8 8 && old.fld 20 2 == new.fld 20 2 && old.head == new.head

/-- REARM (R60); its reads wait behind a parked atomic (R156). -/
def execFerryRearm (w : Nat) (d : FerryDesc) (s : State) : Host.Outcome State Fault Refusal :=
  ferryCmd w d .parts (fun k => k < 2) false (fun s =>
    match s.part? w with
    | none => completeOpen s w d 2
    | some p =>
      match p.queue? (argN d 0 2) with
      | none => completeOpen s w d 5
      | some x0 =>
        let x := { x0 with rearmw := (x0.rearmw + 1) % 2 ^ 32 }
        let s0 := putQueue s w x
        if x.st == .active then complete (putQueue s0 w { x with deferred := true }) w d 0 1
        else if reloadHeld s p x then waitCmd s w d 0
        else
          let s1 := seeReload s0 p x
          match reload s1 p x with
          | .error c => complete s1 w d 9 c
          | .ok y =>
            let z := { y with st := .active, retries := 0, deferred := false }
            let z' := if resumes x y then z else { z with busy := false, suspended := false }
            complete (putQueue s1 w z') w d 0 0) s

/-- Submit a launch record for the Ferry: its serial in DETAIL, or it waits for a launch slot with the record kept (R71, R76). -/
def ferrySubmit (s0 : State) (w : Nat) (d : FerryDesc) (r : List Byte) : State :=
  match s0.part? w with
  | none => completeOpen s0 w d 2
  | some p =>
    let s := seeLaunch s0 p r
    match launchCode s p r with
    | 0 =>
      match freeLaunchSlot s w with
      | none => waitCmd s w { d with arg := r } 0
      | some slot =>
        match acceptLaunch s p slot r with
        | (s1, serial) => complete s1 w d 0 serial.toNat
    | c => complete s w d 9 c

/-- LAUNCH (R37, R71). -/
def execFerryLaunch (w : Nat) (d : FerryDesc) (s : State) : Host.Outcome State Fault Refusal :=
  if (progressOf s w).isSome then .next (ferrySubmit s w d d.arg)
  else
    ferryCmd w d .parts (fun _ => false) false (fun s =>
      if hostOk s d.haddr.toNat 64 then ferrySubmit s w d (hread s d.haddr.toNat 64) else completeOpen s w d 7) s

/-! ### INVAL (R38, R142, R144) -/

/-- A copy of a page-table entry maps or leads to a page of the range; LEN 0 is the whole partition. -/
def tlbInRange (part va len : Nat) (e : TlbEntry) : Bool :=
  e.part == part && (len == 0 ||
    (let sh := levelShift e.level
     let lo := va / 65536 * 65536
     e.tag * 2 ^ sh < lo + len * 65536 && lo < (e.tag + 1) * 2 ^ sh))

/-- Drop the copies of a range. -/
def dropTlb (s : State) (part va len : Nat) : State := { s with tlb := s.tlb.filter fun e => !tlbInRange part va len e }

/-- The effect writes global memory. -/
def Eff.writesGlobal (e : Eff) : Bool :=
  match e.op with
  | .store .global _ _ _ _ => true
  | .atomic kind _ _ _ _ _ _ _ _ => kind != .atoms
  | _ => false
/-- The effect reads global memory as an asynchronous load (R348). -/
def Eff.readsAsync (e : Eff) : Bool :=
  match e.op with
  | .lda _ => true
  | _ => false

/-- An element of an effect on global memory, translated and not performed, that some test of addresses picks; an LDA's are translated as
they issue (R348). -/
def Eff.translatedAt (e : Eff) (hit : Elem → Bool) : Bool :=
  (e.writesGlobal || e.readsAsync) &&
    e.elems.any fun x => (x.st == .translated || x.st == .checked || x.st == .parked) && hit x

/-- An access of a partition translated before has not used its translation, in some ranges of virtual addresses (R144): it stands in
the pipeline, or in a trace that has not ended (R125, R348), or its window moves its bytes. -/
def translatedPending (s : State) (part : Nat) (ranges : List (Nat × Nat)) : Bool :=
  let at_ := fun (a n : Nat) => ranges.any fun r => decide (a < r.1 + r.2) && decide (r.1 < a + n)
  let hit := fun (x : Elem) => at_ x.addr 16
  (s.pipe.any fun it => it.part == part && it.eff.translatedAt hit) ||
    (s.groups.any fun g => g.part == part && g.nodes.any fun n => match n.ctx with
      | some c => c.effs.any (·.translatedAt hit)
      | none => false) ||
    (match (s.win part).waiting with
     | some (d, _) => (d.op == 1 || d.op == 2) && at_ d.daddr.toNat d.len.toNat
     | none => false)

/-- The virtual addresses of an INVAL: its pages, and all that the copies it drops map or lead to; LEN 0 is the whole partition. -/
def invalRanges (s : State) (part va len : Nat) : List (Nat × Nat) :=
  if len = 0 then [(0, 2 ^ 64)]
  else (va / 65536 * 65536, len * 65536) ::
    (s.tlb.filter (tlbInRange part va len)).map fun e => (e.tag * 2 ^ levelShift e.level, 2 ^ levelShift e.level)

/-- The partitions that an INVAL names. -/
def invalParts (w : Nat) (d : FerryDesc) : List Nat :=
  if w ≠ mgmt then [w] else if argN d 0 1 = 0xFF then List.range 12 else [argN d 0 1]

/-- INVAL: it completes once every translation made through a dropped entry has been used (R144). -/
def execInval (w : Nat) (d : FerryDesc) (s : State) : Host.Outcome State Fault Refusal :=
  match progressOf s w with
  | some _ =>
    .next (if (invalParts w d).any fun p => translatedPending s p (s.win w).spans then s else completeOpen s w d 0)
  | none =>
    ferryCmd w d .all (fun k => k == 0 && w == mgmt) false (fun s =>
      let len := d.len.toNat
      let a := argN d 0 1
      if w = mgmt ∧ (11 < a ∧ ¬(a = 0xFF ∧ len = 0)) then completeOpen s w d 5
      else
        let ps := invalParts w d
        let ranges := ps.flatMap fun p => invalRanges s p d.daddr.toNat len
        let s1 := ps.foldl (fun s p => dropTlb s p d.daddr.toNat len) s
        if ps.any fun p => translatedPending s1 p ranges then s1.setWin w { s1.win w with waiting := some (d, 0), spans := ranges }
        else completeOpen s1 w d 0) s

/-! ### SEAL (R51 to R53) -/

/-- Pages of a range as physical pages, or the lowest that does not translate. -/
def sealPages (s : State) (part va : Nat) : Nat → Except Nat (List Nat)
  | 0 => .ok []
  | n + 1 =>
    match walk s 192 0 part va with
    | .error _ => .error va
    | .ok (e, big) =>
      let key := match s.part? part with
        | some p => p.pkey
        | none => 0
      if bits e 63 48 != key || 2 ^ 55 ≤ va then .error va
      else
        let pa := if big then ptePfn e * 65536 + va % 2 ^ 29 else ptePfn e * 65536
        match sealPages s part (va + 65536) n with
        | .error x => .error x
        | .ok ps => .ok (pa :: ps)

/-- Contiguous and ascending. -/
def contiguous : List Nat → Bool
  | a :: b :: rest => b == a + 65536 && contiguous (b :: rest)
  | _ => true

/-- A store or atomic already translated is still to be performed in a physical range (R52 step 3), a parked one among them. -/
def checkedInRange (s : State) (pa n : Nat) : Bool :=
  let hit := fun (x : Elem) => decide (x.pa < pa + n) && decide (pa < x.pa + 16)
  let pending := fun (e : Eff) => e.writesGlobal && e.translatedAt hit
  (s.pipe.any fun it => pending it.eff) ||
    s.groups.any fun g => g.nodes.any fun n => match n.ctx with
      | some c => c.effs.any pending
      | none => false

/-- An admitted WRITE overlaps a physical range (R52 step 2). -/
def writeInRange (s : State) (pa n : Nat) : Bool :=
  s.windows.any fun x => match x.waiting with
    | some (d, _) => d.op == 1 && x.spans.any fun p => decide (p.1 < pa + n) && decide (pa < p.1 + p.2)
    | none => false

/-- L1 copies of a physical range go: what a core reads of it after the digest is what the digest covers (R175). -/
def dropL1Range (s : State) (pa n : Nat) : State :=
  { s with l1 := s.l1.filter fun x => !(decide (pa ≤ x.2.1) && decide (x.2.1 < pa + n)) }

/-- An entry as the Ferry reads it in memory: none where it cannot be read. -/
def readPte (s : State) (a : Nat) : Option Nat := (hwRead s 0 a 8).map leNat

/-- Physical address and value of the leaf entry of a virtual address, and whether it maps 512 MiB; none where an entry cannot be read. -/
def leafAt (s : State) (p : Partition) (va : Nat) : Option (Nat × Nat × Bool) :=
  let a1 := pteAddr 1 va p.root
  (readPte s a1).bind fun e1 =>
    let a2 := pteAddr 2 va (ptePfn e1 * 65536)
    (readPte s a2).bind fun e2 =>
      let a3 := pteAddr 3 va (ptePfn e2 * 65536)
      if bit e2 5 then some (a2, e2, true) else (readPte s a3).map fun e3 => (a3, e3, false)

/-- Set the sealed bit in the leaves of a range; a 512 MiB leaf only when it lies in the range whole (R52 step 5). One that cannot be read
keeps its bytes [98]: the seal register enforces the seal without it. -/
def setSealedBits (s : State) (p : Partition) (base pages va : Nat) : State :=
  (List.range pages).foldl (fun s k =>
    match leafAt (seeWalk s 192 0 p.part (va + 65536 * k)) p (va + 65536 * k) with
    | none => s
    | some (a, e, big) =>
      let pb := ptePfn e * 65536
      if big && !(base ≤ pb && pb + 2 ^ 29 ≤ base + pages * 65536) then s else hwWrite s 0 a (leBytes 8 (e ||| 0x80))) s

/-- A seal register replaced. -/
def setSeal (s : State) (part k : Nat) (r : SealReg) : State :=
  match s.part? part with
  | some p => s.setPart { p with seals := p.seals.set k r }
  | none => s

/-- Every assigned position of the partition's objects is applied or rejected on every die that has not tripped (R52 step 4). -/
def allApplied (s : State) (p : Partition) : Bool :=
  p.objs.all fun o => (List.range 4).all fun d =>
    (s.die d).tripped || o.entries.isEmpty || o.applied.getD d 0 == o.next - 1

/-- Free bytes in place of a digest. -/
def freeDigest (s : State) : List Byte × State :=
  (List.range 4).foldl (fun x _ => (x.1 ++ leBytes 8 x.2.fresh.1.toNat, x.2.fresh.2)) ([], s)

/-- The digest of a range as the Ferry reads it, whose lines meet their check codes (R26 to R28). Over a range with a word that cannot be
read it is a free value (DESIGN CHOICE [98]). -/
def sealDigest (s0 : State) (part base n : Nat) : List Byte × State :=
  let s := seeSpan s0 0 base n (some part) 0xFF
  if badSpan s 0 base n then freeDigest s else (sha256 (pread s base n), s)

/-- SEAL's progress: the seal index, and 16 once the digest is taken. -/
def sealStep (s : State) (w : Nat) (d : FerryDesc) (k : Nat) (digested : Bool) : State :=
  match s.part? w with
  | none => completeOpen s w d 8
  | some p =>
    let r := p.seals.getD k default
    if digested then
      (if allApplied s p then
        let s1 := setSeal s w k { r with st := .sealed }
        complete (setSealedBits s1 p r.base r.pages d.daddr.toNat) w d 0 k
       else waitCmd s w d (16 + k))
    else if writeInRange s r.base (r.pages * 65536) || checkedInRange s r.base (r.pages * 65536) then waitCmd s w d k
    else
      let x := sealDigest s w r.base (r.pages * 65536)
      let s1 := setSeal x.2 w k { r with digest := x.1 }
      waitCmd (dropL1Range s1 r.base (r.pages * 65536)) w d (16 + k)

/-- SEAL (R52). -/
def execSealRange (w : Nat) (d : FerryDesc) (s : State) : Host.Outcome State Fault Refusal :=
  match progressOf s w with
  | some k => .next (sealStep s w d (k % 16) (16 ≤ k))
  | none =>
    ferryCmd w d .parts (fun _ => false) false (fun s =>
      match s.part? w with
      | none => completeOpen s w d 2
      | some p =>
        let n := d.len.toNat
        if d.daddr.toNat % 65536 ≠ 0 ∨ n = 0 ∨ 65536 < n then completeOpen s w d 5
        else
          let s := (List.range n).foldl (fun s k => seeWalk s 192 0 w (d.daddr.toNat + 65536 * k)) s
          match sealPages s w d.daddr.toNat n with
          | .error a => complete s w d 3 a
          | .ok ps =>
            let base := ps.getD 0 0
            let clash := s.parts.any fun q => q.seals.any fun r =>
              r.st != .empty && r.base < base + n * 65536 && base < r.base + r.pages * 65536
            if !contiguous ps || clash then completeOpen s w d 5
            else
              match (List.range 16).find? fun k => (p.seals.getD k default).st == .empty with
              | none => completeOpen s w d 6
              | some k =>
                let s1 := setSeal s w k { base := base, pages := n, st := .sealing, digest := [] }
                waitCmd { s1 with tlb := s1.tlb.filter fun e =>
                    !(e.level == 3 || bit e.value 5) || ptePfn e.value * 65536 + (if e.level = 3 then 65536 else 2 ^ 29) ≤ base ||
                      base + n * 65536 ≤ ptePfn e.value * 65536 } w d k) s

/-! ### Management commands -/

/-- BUDGET (R47). -/
def execBudget (w : Nat) (d : FerryDesc) (s : State) : Host.Outcome State Fault Refusal :=
  ferryCmd w d .mgmtOnly (fun k => k == 0 || 4 ≤ k) (argN d 28 4 / 64 != 0) (fun s =>
    match s.part? (argN d 0 1) with
    | none => complete s w d 5 (argN d 0 1)
    | some p =>
      completeOpen (s.setPart { p with budgets := (List.range 6).map (fun k => BitVec.ofNat 32 (argN d (4 + 4 * k) 4)),
                                       borrow := argN d 28 4 }) w d 0) s

/-- MODESET (R54). -/
def execModeset (w : Nat) (d : FerryDesc) (s : State) : Host.Outcome State Fault Refusal :=
  ferryCmd w d .mgmtOnly (fun k => k < 2) (argN d 1 1 / 64 != 0) (fun s =>
    match s.part? (argN d 0 1) with
    | none => complete s w d 5 (argN d 0 1)
    | some p => completeOpen (s.setPart { p with modes := argN d 1 1 }) w d 0) s

/-- THRESH sets a threshold on every die and clears its counters (R26). -/
def execThresh (w : Nat) (d : FerryDesc) (s : State) : Host.Outcome State Fault Refusal :=
  ferryCmd w d .mgmtOnly (fun k => k == 0 || (4 ≤ k && k < 8)) false (fun s =>
    let h := argN d 0 1
    if 13 < h then completeOpen s w d 5
    else
      completeOpen { s with dies := s.dies.map fun x =>
          { x with thresholds := x.thresholds.set h (BitVec.ofNat 32 (argN d 4 4)), counters := x.counters.set h 0 } } w d 0) s

/-- The checks of a partition record, by the error codes of Table 2.6. -/
def partRecordCode (r : List Byte) : Nat :=
  let f := field r
  let checks : List (Nat × Bool) :=
    [ (1, f 48 8 != 0 || f 56 8 != 0 || f 10 2 != 0 || f 1 6 != 0), (2, f 40 8 % 65536 != 0),
      (3, f 32 6 == 0 || f 38 2 != 0), (4, f 24 8 % 65536 != 0), (5, f 16 8 % 65536 != 0),
      (6, !isPow2In (f 12 4) 1024 (2 ^ 24)), (7, f 8 2 == 0), (8, f 7 1 / 64 != 0), (9, 11 < f 0 1) ]
  match checks.find? (·.2) with
  | some c => c.1
  | none => 0

/-- A queue slot before any REARM (R59): IDLE, counts 0 [4]. -/
def queueNew (q : Nat) : Queue :=
  { q := q, st := .off, reason := 0, head := 0, tail := 0, lastser := 0, rearmw := 0, desc := List.replicate 64 0, pilot := [],
    retries := 0, deferred := false, busy := false, packet := [], x := List.replicate 8 0, lb := List.replicate 64 0, pc := 0,
    loops := [], steps := 0, suspended := false, byHost := false }

/-- The engine queues of a partition (Table 6.6): one MQ and CQ for each of its cores, one LQ for each cluster, one KQ for each die. -/
def engqNew (r : QueueRef) : EngQ := { ref := r, entries := [], nextSeq := 1, word := 0, err := false, tail := none }
def engqsOf (part clumask : Nat) : List EngQ :=
  let clus := (List.range 48).filter (bit clumask)
  let cores := clus.flatMap fun k => (List.range 4).map fun c => 4 * k + c
  (cores.map fun c => engqNew ⟨.mq, c, part⟩) ++ (cores.map fun c => engqNew ⟨.cq, c, part⟩) ++
    (clus.map fun k => engqNew ⟨.lq, k, part⟩) ++ ((List.range 4).map fun d => engqNew ⟨.kq, d, part⟩)

/-- A partition as PCREATE makes it (R45 to R47, R73, R105, R150, R256). -/
def partNew (r : List Byte) : Partition :=
  let f := field r
  { part := f 0 1, root := f 40 8, clumask := f 32 6, savebase := f 24 8, logbase := f 16 8, logsize := f 12 4, pkey := f 8 2,
    modes := f 7 1, nextSerial := 1, assigned := 0, nextTicket := BitVec.ofNat 32 (f 0 1 + 1), requests := [],
    queues := (List.range 64).map queueNew, taskqs := [],
    seals := List.replicate 16 { base := 0, pages := 0, st := .empty, digest := [] },
    budgets := List.replicate 6 0xFFFFFFFF, borrow := 0, digestH := List.replicate 32 0, digestN := 0, objs := [],
    homeWaits := [], engqs := engqsOf (f 0 1) (f 32 6), colls := [] }

/-- PCREATE (R45). DETAIL is open where no failing check fills it (Table 2.4) [80]. -/
def execPcreate (w : Nat) (d : FerryDesc) (s : State) : Host.Outcome State Fault Refusal :=
  ferryCmd w d .mgmtOnly (fun _ => false) false (fun s =>
    if !hostOk s d.haddr.toNat 64 then completeOpen s w d 7
    else
      let r := hread s d.haddr.toNat 64
      match partRecordCode r with
      | 0 =>
        let p := partNew r
        if s.parts.any fun q => q.part == p.part || q.clumask &&& p.clumask != 0 then completeOpen s w d 6
        else completeOpen { s with parts := s.parts ++ [p] } w d 0
      | c => complete s w d 9 c) s

/-- Any OP that Table 2.3 does not list (R36, R413). -/
def execFerryBadop (w : Nat) (d : FerryDesc) (s : State) : Host.Outcome State Fault Refusal :=
  .next (completeOpen s w d (if dying s w then 8 else 1))

/-! ### Taking a descriptor -/

/-- The fields of a descriptor's 64 bytes (Table 2.2). -/
def descOf (b : List Byte) : FerryDesc :=
  { op := BitVec.ofNat 8 (field b 0 1), flags := BitVec.ofNat 8 (field b 1 1), zero1 := BitVec.ofNat 16 (field b 2 2),
    tag := BitVec.ofNat 32 (field b 4 4), daddr := BitVec.ofNat 64 (field b 8 8), haddr := BitVec.ofNat 64 (field b 16 8),
    len := BitVec.ofNat 32 (field b 24 4), zero2 := BitVec.ofNat 32 (field b 28 4), arg := takeAt b 32 32 }

/-- The command of a descriptor by its OP (Table 2.3). -/
def ferryInstr (w : Nat) (d : FerryDesc) : Instr :=
  match d.op.toNat with
  | 0x01 => .ferryWrite w d
  | 0x02 => .ferryRead w d
  | 0x03 => .ferryTail w d
  | 0x04 => .ferryRearm w d
  | 0x05 => .ferryLaunch w d
  | 0x06 => .sealRange w d
  | 0x07 => .inval w d
  | 0x08 => .service w d
  | 0x09 => .budget w d
  | 0x0A => .modeset w d
  | 0x0B => .thresh w d
  | 0x0C => .pcreate w d
  | 0x0D => .pdestroy w d
  | _ => .ferryBadop w d

/-- A WRITE, READ or SEAL about to be taken waits: a walk of its range reads a line that a parked atomic holds (R142, R156). -/
def cmdHeld (s : State) (w : Nat) (d : FerryDesc) : Bool :=
  let walk := fun (va : Nat) => walkHeld s 192 0 w va
  anyParked s && w != mgmt &&
    (((d.op == 1 || d.op == 2) && decide (d.len.toNat ≤ 2 ^ 24) && (pageSpans d.daddr.toNat d.len.toNat).any fun p => walk p.1) ||
      (d.op == 6 && decide (d.len.toNat ≤ 65536) && (List.range d.len.toNat).any fun k => walk (d.daddr.toNat + 65536 * k)))

/-- What the Ferry does next in a window: nothing, a ring failure, or a command (R34, R35, R39, R41). -/
def ferryFetch (s : State) (w : Nat) : Fetched :=
  let x := s.win w
  match x.waiting with
  | some (d, _) => .instr s (ferryInstr w d)
  | none =>
    if !(s.die 0).running || !x.run || x.halted || x.cmdhead == x.cmdtail || cplFull x then .idle
    else
      let a := x.cmdbase.toNat + 64 * (x.cmdhead.toNat % x.cmdsize.toNat)
      let d := descOf (hread s a 64)
      if !hostOk s a 64 then .fault (ringFail s w a)
      else if cmdHeld s w d then .idle
      else .instr (s.setWin w { x with cmdhead := x.cmdhead + 1 }) (ferryInstr w d)

end Sys2Proof.Machine
end

