-- ==== Sys2Proof/Machine/HostRegs.lean ====
section
/-! DEFINITION. Host writes to the window registers (R34, R35), to BAR0 and BAR2 as a whole (R32), and the writing of events
(R43). -/
namespace Sys2Proof.Machine

/-- A window with BADRING set. -/
def badRing (s : State) (w : Nat) : State := s.setWin w { s.win w with badring := true }

/-- CMDTAIL (R34). -/
def execCmdtailWrite (w : Nat) (v : DWord) (s : State) : Host.Outcome State Fault Refusal :=
  .next (let x := s.win w
    let t : Word := v.setWidth 32
    if x.cmdsize.toNat < (t - x.cmdhead).toNat then badRing s w else s.setWin w { x with cmdtail := t })

/-- CPLHEAD (R34). -/
def execCplheadWrite (w : Nat) (v : DWord) (s : State) : Host.Outcome State Fault Refusal :=
  .next (let x := s.win w
    let h : Word := v.setWidth 32
    if x.cplsize.toNat < (x.cpltail - h).toNat then badRing s w else s.setWin w { x with cplhead := h })

/-- EVHEAD (R34). -/
def execEvheadWrite (w : Nat) (v : DWord) (s : State) : Host.Outcome State Fault Refusal :=
  .next (let x := s.win w
    let h : Word := v.setWidth 32
    if x.evsize.toNat < (x.evtail - h).toNat then badRing s w else s.setWin w { x with evhead := h })

/-- The value is allowed: a base aligned to 4 KiB, a size that is a power of two from 16 to 65,536 (R34). -/
def ringValueOk (r : RingReg) (v : DWord) : Bool :=
  match r with
  | .cmdBase => v.toNat % 4096 == 0
  | .cplBase => v.toNat % 4096 == 0
  | .evBase => v.toNat % 4096 == 0
  | .cmdSize => isPow2In v.toNat 16 65536
  | .cplSize => isPow2In v.toNat 16 65536
  | .evSize => isPow2In v.toNat 16 65536

/-- An accepted write of a base or size, which sets the ring's head and tail to 0. -/
def setRing (x : Window) (r : RingReg) (v : DWord) : Window :=
  match r with
  | .cmdBase => { x with cmdbase := v, cmdhead := 0, cmdtail := 0 }
  | .cmdSize => { x with cmdsize := v, cmdhead := 0, cmdtail := 0 }
  | .cplBase => { x with cplbase := v, cplhead := 0, cpltail := 0 }
  | .cplSize => { x with cplsize := v, cplhead := 0, cpltail := 0 }
  | .evBase => { x with evbase := v, evhead := 0, evtail := 0 }
  | .evSize => { x with evsize := v, evhead := 0, evtail := 0 }

/-- A ring's base or size (R34). -/
def execRingBaseSizeWrite (w : Nat) (r : RingReg) (v : DWord) (s : State) : Host.Outcome State Fault Refusal :=
  .next (let x := s.win w
    if x.run then s else if ringValueOk r v then s.setWin w (setRing x r v) else badRing s w)

/-- RUN goes from 0 to 1: HALTED, BADRING and EVLOST are cleared (R34, R35). -/
def execWstateRunSet (w : Nat) (s : State) : Host.Outcome State Fault Refusal :=
  .next (let x := s.win w
    if x.run then s else s.setWin w { x with run := true, halted := false, badring := false, evlost := 0 })

/-- RUN is cleared: HALTED once the command being applied has its completion (R35). -/
def execWstateRunClear (w : Nat) (s : State) : Host.Outcome State Fault Refusal :=
  .next (let x := s.win w
    if x.run then s.setWin w { x with run := false, halted := x.waiting.isNone } else s)

/-- One 8-byte register of a window, by its offset (Table 2.1). -/
def windowWrite (w off : Nat) (v : DWord) (s : State) : Host.Outcome State Fault Refusal :=
  match off with
  | 0x000 => execRingBaseSizeWrite w .cmdBase v s
  | 0x008 => execRingBaseSizeWrite w .cmdSize v s
  | 0x010 => execCmdtailWrite w v s
  | 0x020 => execRingBaseSizeWrite w .cplBase v s
  | 0x028 => execRingBaseSizeWrite w .cplSize v s
  | 0x038 => execCplheadWrite w v s
  | 0x040 => execRingBaseSizeWrite w .evBase v s
  | 0x048 => execRingBaseSizeWrite w .evSize v s
  | 0x058 => execEvheadWrite w v s
  | 0x060 => if v.getLsbD 0 then execWstateRunSet w s else execWstateRunClear w s
  | _ => .next s

/-- Eight bytes of the MSI-X table; a vector whose mask is lifted while it is pending is signalled (PRESUMED [16]). -/
def msixWrite (s : State) (off : Nat) (v : DWord) : State :=
  let s1 := { s with msix := putAt s.msix off (leBytes 8 v.toNat) }
  let k := off / 16
  if s1.pba.getLsbD k && !(s1.msix.getD (16 * k + 12) 0).getLsbD 0 then
    { s1 with pba := s1.pba &&& ~~~((1 : DWord) <<< k), signalled := s1.signalled ++ [k] }
  else s1

/-- A host write of 8 bytes to BAR0 or BAR2 (R32); one that is not aligned to 8 bytes is ignored [4]. -/
def execRegisterWrite (bar off : Nat) (v : DWord) (s : State) : Host.Outcome State Fault Refusal :=
  if off % 8 ≠ 0 then .next s
  else if bar = 0 ∧ off < 65536 then
    (let w := off / 4096
     if w < 12 then windowWrite w (off % 4096) v s
     else if w = 15 then windowWrite mgmt (off % 4096) v s
     else .next s)
  else if bar = 2 ∧ off < 1024 then .next (msixWrite s off v)
  else .next s

/-! ### What the host reads (R32, R34) -/

/-- WSTATE as it reads. -/
def Window.wstate (x : Window) : DWord :=
  BitVec.ofNat 64 (x.run.toNat + 2 * x.halted.toNat + 4 * x.badring.toNat + 65536 * x.evlost)

/-- One 8-byte register of a window, by its offset (Table 2.1); every other offset reads as zero. -/
def windowRead (x : Window) (off : Nat) : DWord :=
  match off with
  | 0x000 => x.cmdbase
  | 0x008 => x.cmdsize
  | 0x010 => x.cmdtail.setWidth 64
  | 0x018 => x.cmdhead.setWidth 64
  | 0x020 => x.cplbase
  | 0x028 => x.cplsize
  | 0x030 => x.cpltail.setWidth 64
  | 0x038 => x.cplhead.setWidth 64
  | 0x040 => x.evbase
  | 0x048 => x.evsize
  | 0x050 => x.evtail.setWidth 64
  | 0x058 => x.evhead.setWidth 64
  | 0x060 => x.wstate
  | _ => 0

/-- Eight bytes of BAR0 or BAR2 as the host reads them (R32); a read that is not aligned to 8 bytes gives zero [4]. -/
def registerRead (s : State) (bar off : Nat) : DWord :=
  if off % 8 ≠ 0 then 0
  else if bar = 0 ∧ off < 65536 then
    (let w := off / 4096
     if w < 12 then windowRead (s.win w) (off % 4096) else if w = 15 then windowRead (s.win mgmt) (off % 4096) else 0)
  else if bar = 2 ∧ off < 1024 then BitVec.ofNat 64 (leNat (takeAt s.msix off 8))
  else if bar = 2 ∧ off = 0x2000 then s.pba
  else 0

/-- The Ferry writes the oldest buffered event to the event ring and signals the event vector (R43). -/
def execEventRingWrite (w : Nat) (s : State) : Host.Outcome State Fault Refusal :=
  .next (let x := s.win w
    match x.events with
    | [] => s
    | e :: rest =>
      if !(s.die 0).running || !x.run || x.halted || x.evsize.toNat ≤ (x.evtail - x.evhead).toNat then s
      else
        let a := x.evbase.toNat + 64 * (x.evtail.toNat % x.evsize.toNat)
        if hostOk s a 64 then
          signal ((hwrite s a e).setWin w { x with events := rest, evtail := x.evtail + 1 }) (vectorOf w + 1)
        else ringFail s w a)

end Sys2Proof.Machine
end

