-- ==== Sys2Proof/Machine/Boot.lean ====
section
/-! DEFINITION. Reset and boot (R16, R20, R23, R24, R48, R49), the arbiter's period (R21, R22), scrubbing (R29), the
matrix self-test (R108), and the links (R11, R13, R19, R31). -/
namespace Sys2Proof.Machine

/-! ### Reset -/

/-- The package held in reset: everything lost but what boot flash and memory cells keep: the stored minima (R24, R48), host memory, and
the bytes of device memory with their check codes [5]. -/
def heldInReset (s : State) : State :=
  { State.reset with
    dies := s.dies.map fun d => { State.dieReset with minSeq := d.minSeq, minFw := d.minFw },
    hostmem := s.hostmem, hostfail := s.hostfail, mem := s.mem, flaws := s.flaws.map fun f => { f with waits := none }, signalled := s.signalled,
    agenda := s.agenda, tick := s.tick, cur := s.cur }

/-- The supply monitor resets the package: no error record, every partition lost (R20). -/
def execSupplyMonitorReset (s : State) : Host.Outcome State Fault Refusal := .next (heldInReset s)

/-- The checks of a configuration record (Table 1.3) for a die with a stored minimum. -/
def recordOk (r : List Byte) (die : Nat) (minSeq : Word) : Bool :=
  let f := field r
  f 32 32 == 0 && f 23 1 == 0 && 1 ≤ f 22 1 && f 22 1 ≤ 24 && 600 ≤ f 20 2 && f 20 2 ≤ 2400 && f 19 1 ≤ 3 && f 18 1 < 16 &&
    f 17 1 == 7 && f 16 1 ≤ 12 && f 13 3 == 0 && f 12 1 == die && minSeq.toNat ≤ f 8 4 && f 4 4 == 1 && f 0 4 == 0x43464752

/-- The first copy that passes its checks and its signature over bytes 63:0 (R23). -/
def acceptRecord (fl : DieFlash) (cfgKey : List Byte) (die : Nat) (minSeq : Word) : Option (List Byte) :=
  [fl.primary, fl.secondary].find? fun r =>
    recordOk r die minSeq && verifies cfgKey (takeAt r 0 64) (takeAt r 64 64)

/-- A measurement slot extended with an item (R49). -/
def extend (slot item : List Byte) : List Byte := sha256 (slot ++ sha256 item)

/-- What a die's boot ROM ends with: stopped before its record, a record accepted and then stopped, or done (R48). -/
inductive Boot where
  | stopped
  | record (r : List Byte)
  | done (r : List Byte) (measure : List (List Byte)) (fw : Word)
  deriving DecidableEq, Repr, Inhabited

/-- The boot reached its end. -/
def Boot.completed : Boot → Bool
  | .done _ _ _ => true
  | _ => false

/-- The record that a boot accepted. -/
def Boot.rec? : Boot → Option (List Byte)
  | .stopped => none
  | .record r => some r
  | .done r _ _ => some r

/-- The boot ROM's steps on one die (R48). The certificate chain that slot 1 measures is taken to be the root key, the firmware
certificate and the configuration certificate, joined in that order (DESIGN CHOICE [87]). -/
def bootDie (fl : DieFlash) (die : Nat) (minSeq minFw : Word) : Boot :=
  if sha256 fl.rootKey != Config.rootDigest die then .stopped
  else
    match Config.certKey fl.rootKey fl.firmwareCert, Config.certKey fl.rootKey fl.configCert with
    | some fwKey, some cfgKey =>
      (match acceptRecord fl cfgKey die minSeq with
       | none => .stopped
       | some r =>
         if verifies fwKey fl.firmware fl.firmwareSig && minFw.toNat ≤ fl.firmwareVersion.toNat then
           let z : List Byte := List.replicate 32 0
           .done r [extend z fl.rom, extend z (fl.rootKey ++ fl.firmwareCert ++ fl.configCert), extend z r, extend z fl.firmware]
             fl.firmwareVersion
         else .record r)
    | _, _ => .stopped

/-- Slot 0's chain (R50): from the root's certificate to the device's, behind the length and the root's digest that SPDM puts before
them (PRESUMED [21]). -/
def certChain : List Byte :=
  let c := sha256 (Config.certificate 0 0) ++ Config.certificate 0 0 ++ Config.certificate 0 1
  leBytes 2 (4 + c.length) ++ [0, 0] ++ c

/-- A die after its boot: it runs when its own boot is done and the package may start; the minima rise on acceptance (R24, R48). -/
def dieBooted (d : Die) (b : Boot) (start : Bool) (die : Nat) : Die :=
  match b with
  | .stopped => d
  | .record r => { d with minSeq := BitVec.ofNat 32 (field r 8 4) }
  | .done r m fw =>
    { d with running := start, config := takeAt r 0 64, minSeq := BitVec.ofNat 32 (field r 8 4), minFw := fw, measure := m,
             cert := if die = 0 then certChain else [] }

/-- A die's CXL port after enumeration: populated up to 2 TiB, off, or unpopulated with an error record (R16); its KIND 5 is a DESIGN
CHOICE [84]. -/
def enumerate (s : State) (die : Nat) (reported : Option Nat) : State :=
  let d := s.die die
  if !d.running || field d.config 19 1 == 0 then s
  else
    match reported with
    | some n => s.setDie die { d with cxlSize := min n cxlPort }
    | none => writeErr s { die := die, kind := 5, hop := 9, part := none, core := 0xFF, addr := 0, synd := 0 }

/-- The package resets and its dies boot; no die starts unless every die accepted a record and the records agree in DEVID and PLIM
(R23, R48). The package reports every die that its boot stopped. -/
def execPackageReset (flash : BootFlash) (s : State) : Host.Outcome State Fault Refusal :=
  .next (let s0 := heldInReset s
    let boots := (List.range 4).map fun k => bootDie (flash.dies.getD k default) k (s.die k).minSeq (s.die k).minFw
    let recs := boots.filterMap Boot.rec?
    let agree := recs.length == 4 && recs.all fun r =>
      field r 24 8 == field (recs.getD 0 []) 24 8 && field r 20 2 == field (recs.getD 0 []) 20 2
    let s1 := { s0 with
      dies := (List.range 4).map fun k => dieBooted (s0.die k) (boots.getD k .stopped) agree k,
      bootReport := (List.range 4).filter fun k => !(boots.getD k .stopped).completed }
    (List.range 4).foldl (fun s k => enumerate s k (flash.cxl.getD k none)) s1)

/-! ### The arbiter's period -/

/-- The throttle level after a period: power in milliwatts against the die's share, a quarter of PLIM (R21). -/
def nextLevel (level power plim : Nat) : Nat :=
  if plim * 1000 < 4 * power then min 7 (level + 1)
  else if 400 * power < 95 * (plim * 1000) then level - 1
  else level

/-- A die trips (R22): it stops, its clusters are marked, a record of KIND 4 and HOP 8 is written. -/
def tripDie (s : State) (die : Nat) : State :=
  let s1 := s.setDie die { s.die die with tripped := true, tripSeq := (s.die die).recSeq }
  let s2 := markClusters s1 (((2 ^ 12 - 1) <<< (12 * die))) 3
  writeErr s2 { die := die, kind := 4, hop := 8, part := none, core := 0xFF, addr := 0, synd := 0 }

/-- The end of a period on a die: throttle level, junction temperature in degrees Celsius (R21, R22, R104). -/
def execArbiterPeriodEnd (die power temp : Nat) (s : State) : Host.Outcome State Fault Refusal :=
  .next (let d := s.die die
    if !d.running || d.tripped then s
    else
      let l := nextLevel d.throttle power (field d.config 20 2)
      let l' := if 95 ≤ temp then max 4 l else l
      let s1 := s.setDie die { d with throttle := l', periods := d.periods + 1 }
      if 110 ≤ temp then tripDie s1 die else s1)

/-- Lines that scrubbing walks on a die: its HBM range, its bench range, and the second-tier lines of its port, whose copies its die
cache holds (R17, R29). -/
def scrubLineAt (die k : Nat) : Nat :=
  if k < hbmDie / 64 then die * hbmDie + 64 * k
  else if k < (hbmDie + benchDie) / 64 then benchBase + die * benchDie + 64 * (k - hbmDie / 64)
  else cxlBase + die * cxlPort + 64 * (k - (hbmDie + benchDie) / 64)

/-- The scrubber visits its next line (R29); while an atomic is parked on it, the visit waits behind the atomic (R157). -/
def execScrubLine (die : Nat) (e : LineError) (s : State) : Host.Outcome State Fault Refusal :=
  .next (let d := s.die die
    let line := scrubLineAt die d.scrub
    if !d.running || d.tripped || lineParked s line then s
    else
      let s1 := s.setDie die { d with scrub := (d.scrub + 1) % ((hbmDie + benchDie + d.cxlSize) / 64) }
      seeLine s1 line e none 0xFF)

/-- The partition that owns a cluster. -/
def ownerOf (s : State) (clu : Nat) : Option Nat := (s.parts.find? fun p => bit p.clumask clu).map (·.part)

/-- A self-test product of a sub-array that differs from the known result fences it (R108). -/
def execSubarraySelfTest (core sub : Nat) (product : List Byte) (s : State) : Host.Outcome State Fault Refusal :=
  .next (if product == Config.selfTestProduct || s.fenced.contains (4 * core + sub) || 4 ≤ sub || Config.cores ≤ core ||
        !(s.die (dieOfCore core)).running then s
    else
      writeErr { s with fenced := s.fenced ++ [4 * core + sub] }
        { die := dieOfCore core, kind := 2, hop := 11, part := ownerOf s (cluOfCore core), core := core % 48, addr := 0, synd := 0 })

/-! ### Links -/

/-- The oldest flit of a direction arrives at its receiver: delivered once and in order when it checks, else retried from the sender's
replay buffer (R19) [86]. -/
def PortDir.arrive (x : PortDir) (flit : List Byte) (good : Bool) : PortDir :=
  match x.sent with
  | [] => x
  | f :: rest =>
    if !good then { x with retries := x.retries + 1 }
    else if flit != f then x
    else { sent := rest, recvd := x.recvd ++ [f], retries := 0 }

/-- The port is enabled and its die serves; a port that the record does not enable is powered down (R19). -/
def portUp (s : State) (port : Nat) : Bool :=
  (s.die (port / 4)).running && !(s.die (port / 4)).tripped && bit (field (s.die (port / 4)).config 18 1) (port % 4)
/-- Change a port that is up. -/
def onPort (s : State) (port : Nat) (f : Port → Port) : State :=
  if portUp s port then { s with ports := s.ports.set port (f (s.ports.getD port default)) } else s

/-- A 256-byte flit enters a replay buffer: the port's, or its peer's. -/
def portSend (s : State) (port : Nat) (data : List Byte) : State :=
  if data.length = 256 then onPort s port fun x => { x with outbound := { x.outbound with sent := x.outbound.sent ++ [data] } } else s
def portPeerSend (s : State) (port : Nat) (data : List Byte) : State :=
  if data.length = 256 then onPort s port fun x => { x with inbound := { x.inbound with sent := x.inbound.sent ++ [data] } } else s
/-- The peer checks the oldest flit that the port sends. -/
def portPeerCheck (s : State) (port : Nat) (good : Bool) : State :=
  onPort s port fun x => { x with outbound := x.outbound.arrive (x.outbound.sent.headD []) good }

/-- The direction of a boundary that leaves a die. -/
def linkFrom (s : State) (a b : Nat) : LinkDir :=
  let x := s.boundaries.getD (boundaryOf a b) default
  if a < b then x.fwd else x.bwd
def setLink (s : State) (a b : Nat) (l : LinkDir) : State :=
  let k := boundaryOf a b
  let x := s.boundaries.getD k default
  { s with boundaries := s.boundaries.set k (if a < b then { x with fwd := l } else { x with bwd := l }) }

/-- Put a flit that stands on a die into the replay buffer of the next boundary of its route (R12); no route leads on where the dies
are separated, and the flit is lost [86]. -/
def forwardFlit (s : State) (at_ : Nat) (f : Flit) : State :=
  match route s at_ f.dst with
  | some (d :: _) =>
    let l := linkFrom s at_ d
    setLink s at_ d { l with sent := l.sent ++ [f] }
  | _ => s

/-- The two dies of a boundary, the lower first. -/
def endsOf (b : Nat) : Nat × Nat := [(0, 1), (2, 3), (0, 2), (1, 3)].getD b (0, 0)

/-- Every flit of a pair that is still under way lies on the pair's route. -/
def pairOnRoute (s : State) (src dst : Nat) (path : List Nat) : Bool :=
  (List.range 4).all fun b =>
    let e := endsOf b
    let hops := (src :: path).zip path
    let free := fun (l : LinkDir) => l.sent.all fun f => f.src != src || f.dst != dst
    (hops.contains e || free (linkFrom s e.1 e.2)) && (hops.contains (e.2, e.1) || free (linkFrom s e.2 e.1))

/-- A die sends a flit to another (R11, R12): it enters the first boundary of the pair's route, once no older flit of the pair takes
another path (R13) [86]. -/
def sendFlit (s : State) (src dst : Nat) (data : List Byte) : State :=
  match route s src dst with
  | some (d :: ds) =>
    if src < 4 && dst < 4 && data.length == 64 && pairOnRoute s src dst (d :: ds) then
      forwardFlit s src { src := src, dst := dst, data := data }
    else s
  | _ => s

/-- Failed checks of one flit after which its boundary retrains: the first, and 16 failed retries (R13). -/
def retrainAt : Nat := 17

/-- A 64-byte flit arrives at a die boundary, in one of its directions (R11). It is the oldest of the sender's replay buffer [86]: when
its CRC checks it is delivered, once and in order, and goes on towards its die; a failed check makes a retry. After 16 failed retries it
waits for a retrain (R13). -/
def execBoundaryFlitReceive (b : Nat) (rev : Bool) (flit : List Byte) (crc : Word) (s : State) : Host.Outcome State Fault Refusal :=
  .next (let e := endsOf b
    let src := if rev then e.2 else e.1
    let at_ := if rev then e.1 else e.2
    let l := linkFrom s src at_
    match l.sent with
    | [] => s
    | f :: rest =>
      if 4 ≤ b || !boundaryUp s b || retrainAt ≤ l.retries || flit.length != 64 then s
      else if Config.crc32 flit != crc then setLink s src at_ { l with retries := l.retries + 1 }
      else if flit != f.data then s
      else
        let s1 := setLink s src at_ { sent := rest, recvd := l.recvd ++ [f], retries := 0 }
        if f.dst = at_ then s1 else forwardFlit s1 at_ f)

/-- The dies are separated: some pair has no path (R13). -/
def separated (s : State) : Bool := (List.range 4).any fun a => (List.range 4).any fun b => !joined s a b

/-- A partition's clusters lie in both sets of separated dies. -/
def spansSets (s : State) (p : Partition) : Bool :=
  let dies := (List.range 4).filter fun d => bits p.clumask (12 * d + 11) (12 * d) != 0
  dies.any fun a => dies.any fun b => !joined s a b

/-- The flits not acknowledged on a boundary that went down are sent again on their new path, ahead of every later flit of their pair
(R13). -/
def resend (s : State) (b : Nat) : State :=
  let e := endsOf b
  let again := fun (s : State) (src at_ : Nat) =>
    let l := linkFrom s src at_
    l.sent.foldl (fun s f => forwardFlit s src f) (setLink s src at_ { l with sent := [], retries := 0 })
  again (again s e.1 e.2) e.2 e.1

/-- A boundary retrains after 16 failed retries of one flit, or is declared down: a record, and where that separates the dies, a record from
each die and the end of every partition that lies in both sets (R13). The lower die of the boundary writes the first record (DESIGN
CHOICE [84]). A third boundary that goes down is taken as a second is: every die finds a separation again, writes its record again, and
partitions that lie in separated dies are marked again (DESIGN CHOICE [99]). -/
def execBoundaryRetrain (b : Nat) (ok : Bool) (s : State) : Host.Outcome State Fault Refusal :=
  .next (let x := s.boundaries.getD b default
    if !x.up || (x.fwd.retries < retrainAt && x.bwd.retries < retrainAt) then s
    else
      let z : Boundary := { up := ok, fwd := { x.fwd with retries := 0 }, bwd := { x.bwd with retries := 0 } }
      let s1 := { s with boundaries := s.boundaries.set b z }
      if ok then s1
      else
        let s2 := writeErr (resend s1 b) { die := (endsOf b).1, kind := 3, hop := 7, part := none, core := 0xFF, addr := 0, synd := 0 }
        if separated s2 then
          let s3 := (List.range 4).foldl (fun s d =>
            if (s.die d).running then
              writeErr (s.setDie d { s.die d with splitSeq := (s.die d).recSeq }) { die := d, kind := 3, hop := 7, part := none, core := 0xFF, addr := 0, synd := 0 }
            else s) s2
          (s3.parts.filter (spansSets s3)).foldl (fun s p => markPart s p.part 4) s3
        else s2)

/-- A 256-byte flit arrives at an enabled Causeway port, in the order in which its peer sent them (R19). -/
def execCausewayFlitReceive (port : Nat) (flit : List Byte) (crc : Word) (s : State) : Host.Outcome State Fault Refusal :=
  .next (if flit.length != 256 then s
    else onPort s port fun x => { x with inbound := x.inbound.arrive flit (Config.crc32 flit == crc) })

/-- The upstream link trains: x4 to x16, 64 or 128 GT/s (R31). -/
def execUpstreamLinkTraining (width rate : Nat) (s : State) : Host.Outcome State Fault Refusal :=
  .next (if (width = 4 ∨ width = 8 ∨ width = 16) ∧ (rate = 64 ∨ rate = 128) then { s with upWidth := width, upRate := rate }
    else s)

end Sys2Proof.Machine
end

