-- ==== Sys2Proof/Machine/Engine.lean ====
section
/-! DEFINITION. What every engine shares: its queue, the entry it takes, the checks in order, data with a status for each byte,
completion (R148 to R153, R170, R171, R226, R412), and the commands of CQ and QFENCE (R242). -/
namespace Sys2Proof.Machine

/-! ### An engine at work -/

/-- An engine taking an entry: its queue's partition, the TLB it uses, its die, and the share its scratchpad offsets name. -/
structure Eng where
  part : Nat
  core : Nat
  die : Nat
  g : Group
  deriving DecidableEq, Repr, Inhabited

/-- Die of a queue's engine. -/
def queueDie (r : QueueRef) : Nat :=
  match r.kind with
  | .mq => dieOfCore r.unit
  | .cq => dieOfCore r.unit
  | .lq => r.unit / 12
  | .kq => r.unit
/-- The unit whose TLB the engine uses: the core's, or the die's last level. -/
def queueUnit (r : QueueRef) : Nat :=
  match r.kind with
  | .mq => r.unit
  | .cq => r.unit
  | .lq => 192 + r.unit / 12
  | .kq => 192 + r.unit
/-- The engine for an entry. -/
def engFor (s : State) (r : QueueRef) (e : EngEntry) : Eng :=
  { part := r.part, core := queueUnit r, die := (queueDie r), g := placeGroup s r.part e.serial e.wkg e.core }

/-- The partition whose queue a core's, cluster's or die's engine serves. -/
def queueOwner (s : State) (kind : QueueKind) (unit : Nat) : Option QueueRef :=
  s.parts.findSome? fun p => (p.engq? { kind := kind, unit := unit, part := p.part }).map (·.ref)

/-- A queue of a partition. -/
def engq? (s : State) (r : QueueRef) : Option EngQ :=
  match s.part? r.part with
  | some p => p.engq? r
  | none => none

/-! ### Data, byte by byte (R143, R153) -/

/-- STATUS of a code: translation, protection, or the data error of a walk [98]. -/
def statusOf (code : Nat) : Nat := if faultCode code = 9 then 3 else if code = 4 then 2 else 1
/-- The lowest nonzero of the codes that apply (R153). -/
def worst (sts : List Nat) : Nat := sts.foldl (fun a b => if a = 0 then b else if b = 0 then a else min a b) 0

/-- A region of an engine's operand: its space and its first address. -/
structure Region where
  scr : Bool
  base : Nat
  deriving DecidableEq, Repr, Inhabited

/-- Where byte i of a region of scratchpad stands: the share and the offset, none beyond it (R135). -/
def scratchByte (s : State) (x : Eng) (base i : Nat) : Option (Workgroup × Nat) :=
  match scratchAt s x.g base 0 with
  | some w => if w.2 + i < w.1.share then some (w.1, w.2 + i) else none
  | none => none

/-- Physical address of byte i of a global region. -/
def globalByte (s : State) (x : Eng) (base i : Nat) (need : Need) : Except Nat Nat :=
  match translate s x.core x.die x.part ((base + i) % 2 ^ 64) need with
  | .ok t => .ok t.pa
  | .error c => .error (statusOf c)

/-- One byte read and its status: 0, or 1, 2, 3 of Table 6.7. A line in error is so as a whole (R28), and a bank word of scratchpad
(R27). -/
def readByte (s : State) (x : Eng) (r : Region) (i : Nat) : Byte × Nat :=
  if r.scr then
    match scratchByte s x r.base i with
    | some w => if (w.1.badWord w.2 1).isSome then (0, 3) else (sget w.1.data w.2, 0)
    | none => (0, 2)
  else
    match globalByte s x r.base i .read with
    | .error st => (0, st)
    | .ok pa => if badSpan s x.die (pa / 64 * 64) 64 then (0, 3) else (sget s.mem pa, 0)

/-- n bytes of a region. -/
def readRegion (s : State) (x : Eng) (r : Region) (n : Nat) : List (Byte × Nat) := (List.range n).map (readByte s x r)
def dataOf (bs : List (Byte × Nat)) : List Byte := bs.map (·.1)
def statusesOf (bs : List (Byte × Nat)) : Nat := worst (bs.map (·.2))

/-- One byte to be written: its place, its value, and the status of the bytes it comes from. -/
structure ByteWrite where
  r : Region
  i : Nat
  b : Byte
  st : Nat
  deriving DecidableEq, Repr, Inhabited

/-- Writes of a run of bytes of a region, from byte k on. -/
def runWrites (r : Region) (k : Nat) (bs : List (Byte × Nat)) : List ByteWrite :=
  bs.mapIdx fun i x => { r := r, i := k + i, b := x.1, st := x.2 }

/-- The 64-byte destination line of a write, in its space. -/
def ByteWrite.line (w : ByteWrite) : Bool × Nat := (w.r.scr, (w.r.base + w.i) / 64)

/-- The writes that are not affected (R27, R153): no byte of them comes from a failed page, and no byte of their destination line from
a line in error. -/
def unaffected (ws : List ByteWrite) : List ByteWrite :=
  let lines := ((ws.filter fun w => w.st == 3).map ByteWrite.line).eraseDups
  ws.filter fun w => w.st == 0 && !lines.contains w.line

/-- Where a byte is written: a byte of a share of the partition (serial, workgroup, offset), or of device memory. -/
inductive Place where
  | share (serial : Word) (wkg off : Nat)
  | mem (pa : Nat)
  deriving DecidableEq, Repr, Inhabited

/-- The place of a write, or its status: a home that does not serve or cannot be reached is STATUS 3 (R13, R22). -/
def placeOf (s : State) (x : Eng) (w : ByteWrite) : Except Nat Place :=
  if w.r.scr then
    match scratchByte s x w.r.base w.i with
    | some p => .ok (.share p.1.serial p.1.wkg p.2)
    | none => .error 2
  else
    match globalByte s x w.r.base w.i .write with
    | .error st => .error st
    | .ok pa => if reaches s x.die pa then .ok (.mem pa) else .error 3

/-- The place k bytes further on. -/
def Place.next (p : Place) (k : Nat) : Place :=
  match p with
  | .share serial wkg o => .share serial wkg (o + k)
  | .mem pa => .mem (pa + k)

/-- The words of a place's 64-byte line that the check codes show bad, and their size: 8-byte words of a held line, 4-byte bank words of
a share (R27, R28). -/
def badPlaces (s : State) (x : Eng) (p : Place) : List Place × Nat :=
  match p with
  | .mem pa =>
    let m := badWords s (pa / 64 * 64)
    (if m = 0 then [] else ((List.range 8).filter fun k => m.getLsbD k).map fun k => .mem (pa / 64 * 64 + 8 * k), 8)
  | .share serial wkg o =>
    match s.wkg? x.part serial wkg with
    | some w => ((w.flaws.filter fun f => f.bad && f.off / 64 == o / 64).map fun f => .share serial wkg f.off, 4)
    | none => ([], 4)

/-- The word at a place is covered wholly by the places written. -/
def covered (ps : List Place) (n : Nat) (p : Place) : Bool := (List.range n).all fun k => ps.contains (p.next k)

/-- The byte lies in the word that begins at a place. -/
def Place.inWord (p w : Place) (n : Nat) : Bool := (List.range n).any fun k => w.next k == p

/-- The byte is not affected by its destination line (R28, R153): no word of the line stays bad, or its own word is made good
(DEDUCED [94]). -/
def spared (s : State) (x : Eng) (ps : List Place) (p : Place) : Bool :=
  match badPlaces s x p with
  | ([], _) => true
  | (bad, n) => (bad.all (covered ps n)) || bad.any fun w => p.inWord w n && covered ps n w

/-- Write one byte. -/
def Place.put (x : Eng) (s : State) (p : Place) (b : Byte) : State :=
  match p with
  | .mem pa => { s with mem := sset s.mem pa b }
  | .share serial wkg o =>
    match s.wkg? x.part serial wkg with
    | some w => s.setWkg { w with data := sset w.data o b }
    | none => s

/-- Words that the writes cover wholly become good (R27, R28). -/
def healPlaces (x : Eng) (s : State) (ps : List Place) : State :=
  ps.foldl (fun s p =>
    match p with
    | .mem pa => if pa % 8 == 0 && badWords s (pa / 64 * 64) != 0 && covered ps 8 p then healWords s pa 8 else s
    | .share serial wkg o =>
      match s.wkg? x.part serial wkg with
      | some w =>
        if (w.flaws.any fun f => f.off == o) && covered ps 4 p then s.setWkg { w with flaws := w.flaws.filter fun f => f.off != o } else s
      | none => s) s

/-- The writes of a command that are not affected by their sources, with their places. -/
def placed (s : State) (x : Eng) (ws : List ByteWrite) : List (ByteWrite × Except Nat Place) :=
  (unaffected ws).map fun w => (w, placeOf s x w)

/-- The places among them. -/
def placesOf (ps : List (ByteWrite × Except Nat Place)) : List Place :=
  ps.filterMap fun w => match w.2 with
    | .ok p => some p
    | .error _ => none

/-- Make the writes of a command, in order; the status that they give. -/
def writeAll (s : State) (x : Eng) (ws : List ByteWrite) : State × Nat :=
  let ps := placed s x ws
  let all := placesOf ps
  let r := ps.foldl (fun (a : State × Nat) w =>
    match w.2 with
    | .error st => (a.1, worst [a.2, st])
    | .ok p => if spared s x all p then (p.put x a.1 w.1.b, a.2) else (a.1, worst [a.2, 3])) (s, 0)
  (healPlaces x r.1 (all.filter (spared s x all)), r.2)

/-! ### What a command does -/

/-- A command worked out: STATUS before its writes, REASON, the regions it reads, its writes. -/
structure Plan where
  st : Nat
  reason : Nat
  reads : List (Region × Nat)
  writes : List ByteWrite
  deriving DecidableEq, Repr, Inhabited

/-- STATUS 5: the body or a record is rejected with the lowest REASON that applies (R412). -/
def reject (reasons : List Nat) : Option Plan :=
  match worst reasons with
  | 0 => none
  | r => some { st := 5, reason := r, reads := [], writes := [] }
/-- A record could not be read. -/
def unread (st : Nat) : Option Plan := if st = 0 then none else some { st := st, reason := 0, reads := [], writes := [] }

/-- The virtual addresses at which a region meets its lines. -/
def regionLines (r : Region) (n : Nat) : List Nat :=
  (linesOf r.base n).map fun a => max a r.base % 2 ^ 64

/-- Reading a region waits: a walk, or a line, is held by a parked atomic (R142, R156). -/
def regionHeld (s : State) (x : Eng) (r : Region × Nat) : Bool :=
  !r.1.scr && anyParked s && (regionLines r.1 r.2).any fun va =>
    walkHeld s x.core x.die x.part va ||
      (match translate s x.core x.die x.part va .read with
       | .ok t => lineParked s (t.pa / 64 * 64)
       | .error _ => false)

/-- Lines that the reads need are held by a parked atomic, or lines that the writes touch are and no write repairs them (R156). -/
def planBlocked (s : State) (x : Eng) (p : Plan) : Bool :=
  anyParked s &&
    (p.reads.any (regionHeld s x) ||
     (unaffected p.writes).any (fun w => !w.r.scr && walkHeld s x.core x.die x.part ((w.r.base + w.i) % 2 ^ 64)) ||
     (let ps := placesOf (placed s x p.writes)
      ps.any fun q => match q with
        | .mem pa => lineParked s (pa / 64 * 64) && !((badPlaces s x q).1.any (covered ps 8))
        | .share _ _ _ => false))

/-- A place is read: it meets the check codes of its line, or of its bank word (R26, R27). -/
def seePlace (s : State) (x : Eng) (p : Place) : State :=
  match p with
  | .mem pa => seeSpan s x.die (pa / 64 * 64) 64 (some x.part) x.g.coreNo
  | .share serial wkg o =>
    match s.wkg? x.part serial wkg with
    | some w => seeScratch s w (o / 64 * 64) 64
    | none => s

/-- A region is read: its lines and bank words meet their check codes (R26, R27). -/
def seeRegion (s : State) (x : Eng) (r : Region × Nat) : State :=
  if r.1.scr then
    match scratchAt s x.g r.1.base 0 with
    | some w => seeScratch s w.1 w.2 r.2
    | none => s
  else if s.flaws.isEmpty then s
  else (regionLines r.1 r.2).foldl (fun s va =>
    let s1 := seeWalk s x.core x.die x.part va
    match translate s1 x.core x.die x.part va .read with
    | .ok t => seePlace s1 x (.mem t.pa)
    | .error _ => s1) s

/-- The walks of a command's writes meet the check codes of their entries. -/
def seeWriteWalks (s : State) (x : Eng) (ws : List ByteWrite) : State :=
  if s.flaws.isEmpty then s
  else ((ws.filter fun w => !w.r.scr).map fun w => (w.r.base + w.i) % 2 ^ 64).foldl (fun s va => seeWalk s x.core x.die x.part va) s

/-- What a command reads, and the destination lines that it cannot make good, meet their check codes. -/
def seePlan (s0 : State) (x : Eng) (p : Plan) : State :=
  let s := seeWriteWalks s0 x p.writes
  let s1 := p.reads.foldl (fun s r => seeRegion s x r) s
  let ps := placesOf (placed s1 x p.writes)
  (ps.filter fun q => !spared s1 x ps q).foldl (fun s q => seePlace s x q) s1

/-! ### Taking and completing an entry -/

/-- Where an entry stands. -/
def entryRegion (r : QueueRef) (e : EngEntry) : Region := { scr := r.kind != .kq, base := e.addr }

/-- Write bytes of an entry, as a store does (R28); nothing where its place is gone or cannot be reached. -/
def entryWrite (s : State) (x : Eng) (r : QueueRef) (e : EngEntry) (off : Nat) (d : List Byte) : State :=
  let ps := placed s x (runWrites (entryRegion r e) off (d.map fun b => (b, 0)))
  healPlaces x (ps.foldl (fun s w => match w.2 with
    | .ok p => p.put x s w.1.b
    | .error _ => s) s) (placesOf ps)

/-- A counter of the group falls (R146). -/
def dropCount (e : EngEntry) (g : Group) : Group :=
  if e.counter = 1 then { g with cp := g.cp - 1 } else if e.counter = 2 then { g with tl := g.tl - 1 } else g
/-- The groups whose counters an entry holds. -/
def EngEntry.counted (e : EngEntry) : List Nat := if e.members.isEmpty then [e.group] else e.members.map (·.1)

/-- Complete the first entry of a queue: REASON and STATUS, then the completion word and the counters (R151, R226, R234). -/
def finishEntry (s : State) (r : QueueRef) (e : EngEntry) (st reason : Nat) : State :=
  let x := engFor s r e
  let s1 := if st = 5 then entryWrite s x r e 16 (leBytes 1 reason) else s
  let s2 := entryWrite s1 x r e 13 (leBytes 1 st)
  match s2.part? r.part, engq? s2 r with
  | some p, some q =>
    let s3 := s2.setPart (p.setEngq { q with entries := q.entries.tail, word := e.seq, err := st != 0 })
    wkgMaybeEnd (e.counted.foldl (fun s k => onGroup s k (dropCount e)) s3) r.part e.serial e.wkg
  | _, _ => s2

/-- The chain is broken: every entry posted so far ends with STATUS 4 (R152). -/
def breakChain (s : State) (r : QueueRef) : State :=
  match s.part? r.part, engq? s r with
  | some p, some q => s.setPart (p.setEngq { q with entries := q.entries.map fun e => { e with broken := true } })
  | _, _ => s

/-- The effects that precede the post are performed (R170), for every group that posted it. -/
def entryReleased (s : State) (e : EngEntry) : Bool := e.counted.all fun g => releasedTo s g e.core e.mark 4

/-- Commands of a queue (Table 10.2). -/
def knownOp (k : QueueKind) (op : Nat) : Bool :=
  op == 0x0F || (match k with
    | .cq => 1 ≤ op && op ≤ 3
    | _ => op == 1)

/-- The first entry of a queue changes. -/
def setFirst (s : State) (r : QueueRef) (e : EngEntry) : State :=
  match s.part? r.part, engq? s r with
  | some p, some q => s.setPart (p.setEngq { q with entries := e :: q.entries.tail })
  | _, _ => s

/-- The engine takes the entry: it reads it once (R150), and finds a broken chain (R152). An entry that cannot be read completes with the
status of that read (DEDUCED [94]). -/
def readFirst (s : State) (r : QueueRef) (e : EngEntry) : State :=
  let x := engFor s r e
  let s1 := seeRegion s x (entryRegion r e, 64)
  let bs := readRegion s1 x (entryRegion r e) 64
  let b := dataOf bs
  if statusesOf bs ≠ 0 then finishEntry s1 r e (statusesOf bs) 0
  else if field b 8 4 ≠ e.seq.toNat then finishEntry (breakChain s1 r) r { e with broken := true } 4 0
  else setFirst s1 r { e with taken := b }

/-- Work on the first entry of a queue for a command: a broken chain, the entry taken, an unknown OP, else what `run` does with the bytes
taken. A tripped die's engines go on: what is homed there is in error (R22, R188). -/
def takeEntry (s : State) (r : QueueRef) (op : Nat) (run : State → Eng → EngEntry → List Byte → State) : State :=
  match (engq? s r).bind fun q => q.entries.head? with
  | none => s
  | some e =>
    if !(s.die (queueDie r)).running || regionHeld s (engFor s r e) (entryRegion r e, 64) then s
    else if e.broken then finishEntry s r e 4 0
    else if !entryReleased s e then s
    else if e.taken.isEmpty then readFirst s r e
    else
      let got := field e.taken 12 1
      if got = op then run s (engFor s r e) e e.taken
      else if knownOp r.kind got then s
      else finishEntry s r e 5 1

/-- Do what a plan says and complete. -/
def runPlan (s : State) (x : Eng) (r : QueueRef) (e : EngEntry) (p : Plan) : State :=
  if planBlocked s x p then s
  else
    match writeAll (seePlan s x p) x p.writes with
    | (s1, st) => finishEntry s1 r e (worst [p.st, st]) p.reason

/-! ### QFENCE (R171, Table 10.2) -/

/-- An entry of a queue is complete. -/
def entryDone (s : State) (w : QueueRef × Word) : Bool :=
  match engq? s w.1 with
  | some q => q.entries.all fun e => e.seq != w.2
  | none => true

/-- The kind of queue that a bit of a QFENCE's names stands for (Table 10.2). -/
def queueBit : QueueKind → Nat
  | .mq => 0 | .cq => 1 | .lq => 2 | .kq => 3

/-- What a QFENCE waits for: the group's last entries in the queues that its byte 17 names (R171). -/
def fenceWaits (e : EngEntry) (b : List Byte) : List (QueueRef × Word) := e.waits.filter fun w => bit (field b 17 1) (queueBit w.1.kind)

/-- QFENCE_ENTRY: it holds its queue until what it names is complete. -/
def execQfenceEntry (r : QueueRef) (s : State) : Host.Outcome State Fault Refusal :=
  .next (takeEntry s r 0x0F fun s _ e b =>
    if bits (field b 17 1) 7 4 ≠ 0 ∨ leNat (takeAt b 18 46) ≠ 0 then finishEntry s r e 5 1
    else if (fenceWaits e b).all (entryDone s) then finishEntry s r e 0 0
    else s)

/-! ### COPY, GATHER, SCATTER (R242, Table 10.8) -/

/-- A field of an entry that must be zero. -/
def zeroField (b : List Byte) (k n : Nat) : Bool := leNat (takeAt b k n) == 0
/-- REASON r where a condition fails. -/
def wants (ok : Bool) (r : Nat) : Nat := if ok then 0 else r
/-- Bytes of an element by its size code. -/
def eszOf (code : Nat) : Nat := 2 ^ code

/-- COPY, as if through a buffer. -/
def copyPlan (s : State) (x : Eng) (b : List Byte) : Plan :=
  let sp := field b 17 1
  let len := field b 44 4
  let src : Region := { scr := bit sp 0, base := field b 56 8 }
  let dst : Region := { scr := bit sp 1, base := field b 48 8 }
  match reject [wants (zeroField b 18 26 && sp ≤ 3) 1, wants (1 ≤ len && len ≤ 2 ^ 24) 2] with
  | some p => p
  | none =>
    let bs := readRegion s x src len
    { st := statusesOf bs, reason := 0, reads := [(src, len)], writes := runWrites dst 0 bs }

/-- The dense elements of GATHER and SCATTER with the index of each, and their status. -/
structure Sparse8 where
  base : Region
  dense : Region
  idxa : Region
  count : Nat
  esz : Nat
  deriving DecidableEq, Repr, Inhabited

def sparseOf (b : List Byte) : Sparse8 :=
  let sp := field b 17 1
  { base := { scr := bit sp 0, base := field b 56 8 }, dense := { scr := bit sp 1, base := field b 48 8 },
    idxa := { scr := bit sp 2, base := field b 40 8 }, count := field b 36 4, esz := eszOf (field b 35 1) }
def sparseReject (b : List Byte) : Option Plan :=
  let m := sparseOf b
  reject [wants (zeroField b 18 17 && field b 17 1 ≤ 7) 1, wants (1 ≤ m.count && m.count ≤ 2 ^ 20) 2, wants (field b 35 1 ≤ 4) 3,
    wants (m.idxa.base % 4 == 0 && m.base.base % m.esz == 0 && m.dense.base % m.esz == 0) 5]

/-- The indices, with the status of each. -/
def indices (s : State) (x : Eng) (m : Sparse8) : List (Nat × Nat) :=
  (List.range m.count).map fun i =>
    let bs := (List.range 4).map fun k => readByte s x m.idxa (4 * i + k)
    (leNat (dataOf bs), statusesOf bs)

/-- GATHER: dense element i from BASE + IDX_i × ESZ. -/
def gatherPlan (s : State) (x : Eng) (b : List Byte) : Plan :=
  match sparseReject b with
  | some p => p
  | none =>
    let m := sparseOf b
    let els := (indices s x m).map fun ix =>
      if ix.2 ≠ 0 then (List.replicate m.esz ((0 : Byte), ix.2), [])
      else
        let r : Region := { m.base with base := m.base.base + ix.1 * m.esz }
        (readRegion s x r m.esz, [(r, m.esz)])
    { st := worst (els.map fun e => statusesOf e.1), reason := 0,
      reads := (m.idxa, 4 * m.count) :: els.flatMap (·.2), writes := runWrites m.dense 0 (els.flatMap (·.1)) }

/-- SCATTER: BASE + IDX_i × ESZ from dense element i; the highest i wins. -/
def scatterPlan (s : State) (x : Eng) (b : List Byte) : Plan :=
  match sparseReject b with
  | some p => p
  | none =>
    let m := sparseOf b
    let els := (indices s x m).mapIdx fun i ix =>
      if ix.2 ≠ 0 then (ix.2, [])
      else
        let bs := (List.range m.esz).map fun k => readByte s x m.dense (i * m.esz + k)
        (statusesOf bs, runWrites { m.base with base := m.base.base + ix.1 * m.esz } 0 bs)
    { st := worst (els.map (·.1)), reason := 0, reads := [(m.idxa, 4 * m.count), (m.dense, m.count * m.esz)],
      writes := els.flatMap (·.2) }

/-- The first line of COPY's source comes to show an error before it is read (R25). -/
def flawSource (s : State) (x : Eng) (b : List Byte) (le : LineError) : State :=
  if bit (field b 17 1) 0 then s
  else
    match globalByte s x (field b 56 8) 0 .read with
    | .error _ => s
    | .ok pa => setFlaw s (pa / 64 * 64) le

/-- COPY_ENTRY of a core's CQ. -/
def execCopyEntry (core : Nat) (le : LineError) (s : State) : Host.Outcome State Fault Refusal :=
  .next (match queueOwner s .cq core with
    | none => s
    | some r => takeEntry s r 0x01 fun s x e b =>
      let s1 := flawSource s x b le
      runPlan s1 x r e (copyPlan s1 x b))

/-- GATHER_ENTRY of a core's CQ. -/
def execGatherEntry (core : Nat) (s : State) : Host.Outcome State Fault Refusal :=
  .next (match queueOwner s .cq core with
    | none => s
    | some r => takeEntry s r 0x02 fun s x e b => runPlan s x r e (gatherPlan s x b))

/-- SCATTER_ENTRY of a core's CQ. -/
def execScatterEntry (core : Nat) (s : State) : Host.Outcome State Fault Refusal :=
  .next (match queueOwner s .cq core with
    | none => s
    | some r => takeEntry s r 0x03 fun s x e b => runPlan s x r e (scatterPlan s x b))

end Sys2Proof.Machine
end

