-- ==== Sys2Proof/Machine/Collective.lean ====
section
/-! DEFINITION. The collective engine (R243, R244). What the peers posted and sent comes with the event. -/
namespace Sys2Proof.Machine

/-- The fields of a COLL entry's body (R243). -/
structure CollCmd where
  src : Region
  dst : Region
  grec : Nat
  len : Nat
  ctype : Nat
  etype : Nat
  root : Nat
  deriving DecidableEq, Repr, Inhabited

def collOf (b : List Byte) : CollCmd :=
  { src := { scr := false, base := field b 56 8 }, dst := { scr := false, base := field b 48 8 }, grec := field b 40 8,
    len := field b 36 4, ctype := field b 35 1, etype := field b 34 1, root := field b 33 1 }

/-- The checks of the body alone; a CTYPE or ETYPE of no meaning is a code not allowed (DEDUCED [39]). -/
def collBody (b : List Byte) : Option Plan :=
  let m := collOf b
  reject [wants (zeroField b 17 16) 1, wants (64 ≤ m.len && m.len ≤ 2 ^ 24 && m.len % 64 == 0) 2,
    wants (1 ≤ m.ctype && m.ctype ≤ 4 && m.etype ≤ 4) 3, wants (m.grec % 64 == 0) 5]

/-- The collective group record (R243). -/
abbrev GroupRec := List Byte
def GroupRec.nrank (g : GroupRec) : Nat := field g 0 1
def GroupRec.rank (g : GroupRec) : Nat := field g 1 1
def GroupRec.nextp (g : GroupRec) : Nat := field g 2 1
def GroupRec.prevp (g : GroupRec) : Nat := field g 3 1
def GroupRec.gid (g : GroupRec) : Word := BitVec.ofNat 32 (field g 4 4)

/-- The checks of the record, and of what it says of the body. -/
def collRecord (m : CollCmd) (g : GroupRec) : Option Plan :=
  let n := GroupRec.nrank g
  reject [
    wants ((m.ctype != 4 || n == 0 || m.len % (64 * n) == 0) && (m.ctype != 2 || n == 0 || decide (m.root < n))) 2,
    wants (zeroField g 8 56 && 2 ≤ n && n ≤ 16 && GroupRec.rank g < n && GroupRec.nextp g ≤ 15 && GroupRec.prevp g ≤ 15) 6]

/-- The record as the engine reads it: bytes, or the STATUS of a read that fails; it stands in bench memory. -/
def readGroupRec (s : State) (x : Eng) (m : CollCmd) : List (Byte × Nat) :=
  let bs := readRegion s x { scr := false, base := m.grec } 64
  match translate s x.core x.die x.part m.grec .read with
  | .ok t => if t.tier = .bench then bs else bs.map fun b => (b.1, 2)
  | .error _ => bs

/-! ### Combining (R244) -/

/-- Bytes of an element. -/
def collBytes (etype : Nat) : Nat := if etype = 2 then 8 else 4
/-- Two elements combined, the lower rank first. -/
def collOp (etype a b : Nat) : Nat :=
  match etype with
  | 0 => (a + b) % 2 ^ 32
  | 1 => (fadd fp32 0 false a b).1
  | 2 => (a + b) % 2 ^ 64
  | 3 => (fminmax fp32 true a b).1
  | _ => if sext a 32 ≤ sext b 32 then b else a

/-- One element of the reduction, in ascending rank order. -/
def reduceElem (etype : Nat) (rows : List (List (Byte × Nat))) (k : Nat) : List (Byte × Nat) :=
  let w := collBytes etype
  let parts := rows.map fun r => (List.range w).map fun i => r.getD (w * k + i) (0, 0)
  let vs := parts.map fun p => leNat (dataOf p)
  let v := vs.tail.foldl (collOp etype) (vs.headD 0)
  let st := worst (parts.map statusesOf)
  (leBytes w v).map fun b => (b, st)

/-- Elements of the reduction. -/
def reduce (etype : Nat) (rows : List (List (Byte × Nat))) (k n : Nat) : List (Byte × Nat) :=
  (List.range n).flatMap fun i => reduceElem etype rows (k + i)

/-- A peer's contribution as bytes. -/
def peerBytes (m : CollCmd) (p : PeerContribution) : List (Byte × Nat) := (takeAt p.data 0 m.len).map fun b => (b, 0)

/-- A peer's command and record match this rank's. -/
def peerMatches (m : CollCmd) (g : GroupRec) (p : PeerContribution) : Bool :=
  p.ctype.toNat == m.ctype && p.etype.toNat == m.etype && p.root.toNat == m.root && p.len.toNat == m.len &&
    p.nrank.toNat == GroupRec.nrank g

/-- What DST receives, once every contribution has arrived. -/
def collResult (m : CollCmd) (g : GroupRec) (rows : List (List (Byte × Nat))) : List (Byte × Nat) :=
  let w := collBytes m.etype
  match m.ctype with
  | 1 => reduce m.etype rows 0 (m.len / w)
  | 2 => rows.getD m.root []
  | 3 => rows.flatMap id
  | _ => let part := m.len / GroupRec.nrank g / w; reduce m.etype rows (part * GroupRec.rank g) part

/-- The contribution of each rank; none while one has not arrived. -/
def contributions (s : State) (x : Eng) (m : CollCmd) (g : GroupRec) (peers : List PeerContribution) : Option (List (List (Byte × Nat))) :=
  (List.range (GroupRec.nrank g)).mapM fun r =>
    if r = GroupRec.rank g then some (if m.ctype = 2 && r != m.root then [] else readRegion s x m.src m.len)
    else (peers.find? fun p => p.rank == r).map (peerBytes m)

/-- The links to the neighbours are up. -/
def collLinked (s : State) (g : GroupRec) : Bool := portEnabled s (GroupRec.nextp g) && portEnabled s (GroupRec.prevp g)

/-- One more COLL names a GID (R243). -/
def countColl (s : State) (part : Nat) (gid : Word) : State :=
  match s.part? part with
  | some p =>
    s.setPart { p with colls := if p.colls.any fun c => c.1 == gid then p.colls.map fun c => if c.1 == gid then (gid, c.2 + 1) else c
                                else p.colls ++ [(gid, 1)] }
  | none => s

/-- The collective group record, as a region. -/
def CollCmd.record (m : CollCmd) : Region × Nat := ({ scr := false, base := m.grec }, 64)

/-- Steps 1 and 2 of R412: rejected or unread, or the command and its record. -/
def collChecked (s : State) (x : Eng) (b : List Byte) : Plan ⊕ (CollCmd × GroupRec) :=
  match collBody b with
  | some p => .inl p
  | none =>
    let m := collOf b
    let g := readGroupRec s x m
    match unread (statusesOf g) with
    | some p => .inl { p with reads := [m.record] }
    | none =>
      match collRecord m (dataOf g) with
      | some p => .inl { p with reads := [m.record] }
      | none => .inr (m, dataOf g)

/-- A COLL that names its group completes: it counts among those that name the GID (R243). -/
def collEnd (s : State) (x : Eng) (r : QueueRef) (e : EngEntry) (g : GroupRec) (p : Plan) : State :=
  if planBlocked s x p then s else runPlan (countColl s r.part (GroupRec.gid g)) x r e p

/-- COLL_ENTRY of a die's KQ: it waits until every contribution has arrived. -/
def execCollEntry (part die : Nat) (peers : List PeerContribution) (s : State) : Host.Outcome State Fault Refusal :=
  .next (let r : QueueRef := { kind := .kq, unit := die, part := part }
    takeEntry s r 0x01 fun s x e b =>
      match collChecked s x b with
      | .inl p => runPlan s x r e p
      | .inr (m, g) =>
        let others := peers.filter fun p => p.rank != GroupRec.rank g && p.rank < GroupRec.nrank g
        if !collLinked s g then s
        else if others.any fun p => !peerMatches m g p then
          collEnd s x r e g { st := 5, reason := 6, reads := [m.record], writes := [] }
        else
          match contributions s x m g others with
          | none => s
          | some rows =>
            let out := collResult m g rows
            collEnd s x r e g
              { st := statusesOf out, reason := 0, reads := m.record :: (if m.ctype = 2 && GroupRec.rank g != m.root then [] else [(m.src, m.len)]), writes := runWrites m.dst 0 out })

/-- COLL_PEER_TIMEOUT: no progress from a neighbour for 2^24 clocks (R244). -/
def execCollPeerTimeout (part die : Nat) (s : State) : Host.Outcome State Fault Refusal :=
  .next (let r : QueueRef := { kind := .kq, unit := die, part := part }
    takeEntry s r 0x01 fun s x e b =>
      match collChecked s x b with
      | .inl p => runPlan s x r e p
      | .inr (m, g) => collEnd s x r e g { st := 5, reason := 7, reads := [m.record], writes := [] })

end Sys2Proof.Machine
end

