-- ==== Sys2Proof/Machine/Emulate.lean ====
section
/-! DEFINITION. Instructions that are architected, later, and their emulation (R190 to R193, R283, R284). -/
namespace Sys2Proof.Machine

/-- What an emulated instruction computes; none for any other instruction. -/
def emulated : Instr → Option (Comp × LOp)
  | .ivdivIv16 o => some (ivBin true ivDiv, o)
  | .ivsqrtIv16 o => some (ivUn true ivSqrt, o)
  | _ => none

/-! ### As it issues (R284) -/

/-- The instruction's words 0 to 2, absent words zero. -/
def insnWords (i : Instr) : List Word := (List.range 3).map fun k => (encode i).getD k 0

/-- The fragment is parked for the lanes whose operands are intervals; the others take their faults first (R191, R217). -/
def parkEmul (i : Instr) (k : Comp) (o : LOp) (s : State) (g : Group) (n : Node) (c : Ctx) : State :=
  let d := k.spec o (lenWords o.w2) g.nregs
  let sel := selected g d.ps d.pm (c.active ||| c.helpers)
  if d.chk ≠ 0 || (!sel.isEmpty && overShadow c d.dst) then laneEffect s g n c d
  else
    let outs := sel.map fun l => (l, k.lane o g n c l)
    let bad := outs.filter fun x => x.2.code != 0
    let good := outs.filter fun x => x.2.code == 0
    let c1 := if sel.isEmpty then c else c.shadow d.dst
    let r := bad.foldl (applyOut g.fmode) ((g, n, c1), [])
    let m : Emul := { insn := insnWords i, instr := i, lanes := maskOf (good.map (·.1)), next := 0, done := 0, v := g.v, s := g.s,
                      fmode := g.fmode }
    let next := fun (c : Ctx) =>
      if good.isEmpty then c.advance d.words
      else { c with emul := some m }
    faultLanes s r.1.1 r.1.2.1 r.1.2.2 r.2 next

/-- Issue an instruction that is emulated. -/
def emulOp (i : Instr) (s : State) : Host.Outcome State Fault Refusal :=
  match emulated i with
  | some (k, o) => coreOp false (k.spec o (lenWords o.w2) 0).used 0 (parkEmul i k o) s
  | none => .next s

/-- IVDIV, `.iv16`: emulated on this part (R283, R334). -/
def execIvdivIv16 (o : LOp) (s : State) : Host.Outcome State Fault Refusal := emulOp (.ivdivIv16 o) s
/-- IVSQRT, `.iv16`: emulated on this part (R283, R334). -/
def execIvsqrtIv16 (o : LOp) (s : State) : Host.Outcome State Fault Refusal := emulOp (.ivsqrtIv16 o) s

/-! ### Frames (R190, Table 8.7) -/

/-- Physical address of a frame slot. -/
def frameAt (die slot : Nat) : Nat := benchBase + die * benchDie + 0x7FF0000 + 4096 * slot
/-- The lowest free slot of a die's 16. -/
def freeSlot (d : Die) : Option Nat := (List.range 16).find? fun k => d.frames.all fun f => f.slot != k

/-- The group with its registers as the instruction issued: every source is read before any result is written (R314). -/
def Emul.before (m : Emul) (g : Group) : Group := { g with v := m.v, s := m.s, fmode := m.fmode }

/-- Source values of every lane, low halves. -/
def frameSrc (kd : Option Kd) (src : Src) (g : Group) (n : Node) (off : Nat) : List Byte :=
  (List.range 96).flatMap fun l => leBytes 4 (match kd with
    | some k => readSrc g n l k src off
    | none => 0)

/-- A frame as the Camolo writes it; the destination values and flags are zero. -/
def frameBytes (m : Emul) (k : Comp) (o : LOp) (g' : Group) (n : Node) (who elem off : Nat) : List Byte :=
  let g := m.before g'
  let none_ := List.replicate 384 (0 : Byte)
  m.insn.flatMap (fun w => leBytes 4 w.toNat) ++ leBytes 12 m.lanes.toNat ++ leBytes 4 0 ++ leBytes 4 who ++ leBytes 4 elem ++
    leBytes 4 g.fmode.toNat ++ List.replicate 24 0 ++ frameSrc k.a o.srcA g n off ++ none_ ++ frameSrc k.b (k.srcB o) g n off ++ none_ ++
    none_ ++ none_ ++ List.replicate 1728 0

/-- DLO, DHI and FLAGS as the management core computes them. -/
def frameResult (m : Emul) (k : Comp) (o : LOp) (g : Group) (n : Node) (off : Nat) : List Byte :=
  let out := fun l => if m.lanes.getLsbD l then k.elt o (m.before g) n l off else { code := 0, flags := 0, img := 0 }
  let ls := List.range 96
  ls.flatMap (fun l => leBytes 4 (out l).img) ++ ls.flatMap (fun l => leBytes 4 ((out l).img / 2 ^ 32)) ++
    ls.map fun l => BitVec.ofNat 8 (out l).flags

/-- The fragment's instruction under emulation, with its offsets. -/
structure Emulating where
  g : Group
  n : Node
  c : Ctx
  m : Emul
  k : Comp
  o : LOp

def emulating (s : State) (gid nix : Nat) : Option Emulating :=
  match s.group? gid with
  | none => none
  | some g =>
    match g.node? nix with
    | none => none
    | some n =>
      match n.ctx with
      | none => none
      | some c =>
        match c.emul with
        | none => none
        | some m => (emulated m.instr).map fun x => { g := g, n := n, c := c, m := m, k := x.1, o := x.2 }

/-- Write the results of a frame into it: it is ready. -/
def answerFrame (s : State) (die : Nat) (f : Frame) (d : List Byte) : State :=
  let s1 := pwriteLong s (frameAt die f.slot + 2368) d
  let x := s1.die die
  s1.setDie die { x with frames := x.frames.map fun y => if y == f then { f with ready := true, ticket := none } else y }

/-- The management core computes a frame (R191, R192). -/
def computeFrame (s : State) (die : Nat) (f : Frame) : State :=
  match emulating s f.g f.n with
  | some e => answerFrame s die f (frameResult e.m e.k e.o e.g e.n ((e.o.offs e.k.paired).getD f.elem 0))
  | none => s

/-- The group's emulation is host-assisted (Table 2.7, bit 2). -/
def formatAssisted (s : State) (part : Nat) : Bool :=
  match s.part? part with
  | some p => p.assisted 2
  | none => false

/-- A slot comes into use. -/
def addFrame (s : State) (die : Nat) (f : Frame) : State :=
  let x := s.die die
  s.setDie die { x with frames := x.frames ++ [f] }

/-- EMULATION_FRAME: the next element's frame goes to a free slot of the die, where there is one, and is computed, or a request of
CLASS 4 carries it (R44, R191). -/
def execEmulationFrame (g n : Nat) (s : State) : Host.Outcome State Fault Refusal :=
  .next (match emulating s g n with
    | none => s
    | some e =>
      let die := e.g.die
      match freeSlot (s.die die), (e.o.offs e.k.paired)[e.m.next]? with
      | some slot, some off =>
        if !canIssue s e.g e.n then s
        else
          let s1 := pwriteLong s (frameAt die slot) (frameBytes e.m e.k e.o e.g e.n (whoOf e.g) e.m.next off)
          let s2 := putCtx s1 e.g e.n { e.c with emul := some { e.m with next := e.m.next + 1 } }
          let f : Frame := { slot := slot, g := g, n := n, elem := e.m.next, ready := false, ticket := none }
          if formatAssisted s e.g.part then
            let q : SvcReq := { class_ := 4, access := 4, cause := 0, who := whoOf e.g, addr := frameAt die slot,
                                count := (lanesOf e.m.lanes).length, serial := e.g.serial }
            match raiseService s2 e.g.part g q with
            | (s3, t) => addFrame s3 die { f with ticket := some t }
          else computeFrame (addFrame s2 die f) die f
      | _, _ => s)

/-! ### Results (R191, R193) -/

/-- What a frame gives one lane of an element: FLAGS bits 7:5 nonzero are code 54. -/
def frameLane (s : State) (e : Emulating) (at_ off lane : Nat) : LaneOut :=
  let flags := leNat (pread s (at_ + 3136 + lane) 1)
  let lo := leNat (pread s (at_ + 2368 + 4 * lane) 4)
  let hi := leNat (pread s (at_ + 2752 + 4 * lane) 4)
  let pair := match e.k.dst with
    | .reg p => p
    | .pred => false
  { code := if flags / 32 ≠ 0 then 54 else 0, flags := flags % 32,
    w := dstWrites false lane e.o.d.toNat off pair (lo + hi * 2 ^ 32), pdg := none }

/-- The fragment's frame of its next element in order, on its die. -/
def nextFrame (s : State) (e : Emulating) : Option Frame :=
  (s.die e.g.die).frames.find? fun f => f.g == e.g.uid && f.n == e.n.ix && f.elem == e.m.done

/-- Free a slot. -/
def freeFrame (s : State) (die : Nat) (f : Frame) : State :=
  let x := s.die die
  s.setDie die { x with frames := x.frames.filter fun y => y != f }

/-- No lane is left, or the trace has ended: what is still framed is abandoned. -/
def endEmul (s : State) (gid nix : Nat) : State :=
  match emulating s gid nix with
  | some e => if e.c.active = 0 then dropFrames (putCtx s e.g e.n { e.c with emul := none }) gid nix else s
  | none => s

/-- EMULATION_RESULT_WRITE: the results of the next element reach the lanes still active and the helper lanes; flags are kept or trap;
after the last element the fragment goes on. -/
def execEmulationResultWrite (g n : Nat) (s : State) : Host.Outcome State Fault Refusal :=
  .next (match emulating s g n with
    | none => s
    | some e =>
      match nextFrame s e, (e.o.offs e.k.paired)[e.m.done]? with
      | some f, some off =>
        if !f.ready || !canIssue s e.g e.n then s
        else
          let at_ := frameAt e.g.die f.slot
          let s1 := freeFrame s e.g.die f
          let outs := (lanesOf (e.m.lanes &&& (e.c.active ||| e.c.helpers))).map fun l => (l, frameLane s e at_ off l)
          let r := outs.foldl (applyOut e.m.fmode) ((e.g, e.n, e.c), [])
          let last := (e.o.offs e.k.paired).length ≤ e.m.done + 1
          let next := fun (c : Ctx) =>
            if last then { c with emul := none }.advance (lenWords e.o.w2) else { c with emul := some { e.m with done := e.m.done + 1 } }
          endEmul (faultLanes s1 r.1.1 r.1.2.1 r.1.2.2 r.2 next) g n
      | _, _ => s)

/-- SERVICE answer 1 to an emulation request: a group fault of code 54, and the frames are abandoned (R193). -/
def refuseFrame (s : State) (f : Frame) : State :=
  match emulating s f.g f.n with
  | some e => groupFault (dropFrames s f.g f.n) e.g e.n { e.c with emul := none } 54
  | none => s

end Sys2Proof.Machine
end

