-- ==== Sys2Proof/Machine/Landing.lean ====
section
/-! DEFINITION. Replayed objects at their home and on each die: object records, manifests, the Landing engines' runs and their
outcomes (R174, R245 to R252, R375 to R378). -/
namespace Sys2Proof.Machine

/-! ### Object records (R245, Table 10.9) -/

def Obj.methods (o : Obj) : Nat := field o.record 56 8
def Obj.manbase (o : Obj) : Nat := field o.record 48 8
def Obj.stateAt (o : Obj) (d : Nat) : Nat := field o.record (16 + 8 * d) 8
def Obj.mansize (o : Obj) : Nat := field o.record 12 4
def Obj.ssize (o : Obj) : Nat := field o.record 8 4
def Obj.home (o : Obj) : Nat := field o.record 7 1
def Obj.nmeth (o : Obj) : Nat := field o.record 6 1

/-- A page of the partition's tables, whatever it permits: its physical address. -/
def pageAt (s : State) (d part va : Nat) : Option Nat :=
  if 2 ^ 55 ≤ va then none
  else
    match walk s (192 + d) d part va with
    | .ok (e, big) => some (if big then ptePfn e * 65536 + va % 2 ^ 29 else ptePfn e * 65536 + va % 65536)
    | .error _ => none

/-- A span of virtual addresses lies on bench pages of a die, as another die's walk finds them. -/
def benchSpan (s : State) (by_ part d va n : Nat) : Bool :=
  (pageSpans va n).all fun x => match pageAt s by_ part x.1 with
    | some pa => isBench pa && homeDie pa == d
    | none => false

/-- A Landing engine's read of virtual addresses waits: its walk or its line is held by a parked atomic (R142, R156). -/
def heldVa (s : State) (d part va n : Nat) : Bool :=
  vaHeld s (192 + d) d part va n .read

/-- Such a read meets the check codes of its lines (R26, R27). -/
def seeVa (s : State) (d part va n : Nat) : State :=
  seeVaOf s (192 + d) d part va n .read

/-- The manifest's fields keep Table 10.9. -/
def manifestOk (s : State) (part : Nat) (o : Obj) : Bool :=
  o.record.length == 64 && o.home ≤ 3 && isPow2In o.mansize 16 65536 && o.manbase % 64 == 0 &&
    benchSpan s o.home part o.home o.manbase (64 * o.mansize)

/-- The record keeps Table 10.9, on the home's reading of the tables; an object that is not LIVE has no record yet (R245). A page that the
tables cannot give, for a walk that cannot be read too, fails the check [98]. -/
def objectOk (s : State) (part : Nat) (o : Obj) : Bool :=
  manifestOk s part o && o.methods % 8 == 0 && o.ssize % 64 == 0 && 64 ≤ o.ssize && o.ssize ≤ 65536 && 1 ≤ o.nmeth && o.nmeth ≤ 64 &&
    leNat (takeAt o.record 1 5) == 0 &&
    (List.range 4).all fun d => o.stateAt d % 64 == 0 && benchSpan s o.home part d (o.stateAt d) o.ssize

/-- The pages of an object's record that its checks look up. -/
def Obj.pages (o : Obj) : List (Nat × Nat) :=
  pageSpans o.manbase (64 * min o.mansize 65536) ++ (List.range 4).flatMap fun d => pageSpans (o.stateAt d) (min o.ssize 65536)
/-- A walk of those checks reads a line that a parked atomic holds (R142, R156). -/
def objectHeld (s : State) (part : Nat) (o : Obj) : Bool :=
  anyParked s && o.pages.any fun p => walkHeld s (192 + o.home) o.home part p.1
/-- Those walks meet the check codes of their entries (R26, R27). -/
def seeObject (s : State) (part : Nat) (o : Obj) : State :=
  if s.flaws.isEmpty then s else o.pages.foldl (fun s p => seeWalk s (192 + o.home) o.home part p.1) s

/-- Where an object's record stands in the object table (R245). -/
def Partition.recordAt (p : Partition) (obj : Nat) : Nat := p.savebase + 0x8000 + 64 * obj

/-- The record as it stands in the object table, when LIVE is 1. -/
def liveRecord (s : State) (p : Partition) (obj : Nat) : List Byte :=
  let at_ := p.recordAt obj
  let r := pread s at_ 64
  if badSpan s (homeDie at_) at_ 64 || field r 0 1 ≠ 1 then [] else r

/-- An object of a partition. -/
def Partition.obj? (p : Partition) (obj : Nat) : Option Obj := p.objs.find? fun o => o.obj == obj
def Partition.setObj (p : Partition) (o : Obj) : Partition :=
  { p with objs := p.objs.map fun x => if x.obj == o.obj then o else x }
def obj? (s : State) (part obj : Nat) : Option Obj :=
  match s.part? part with
  | some p => p.obj? obj
  | none => none
def setObj (s : State) (part : Nat) (o : Obj) : State :=
  match s.part? part with
  | some p => s.setPart (p.setObj o)
  | none => s

/-- The object is known, and its record is read once, at the first call after LIVE becomes 1. -/
def meetObj (s0 : State) (part obj : Nat) : State :=
  match s0.part? part with
  | none => s0
  | some p0 =>
    if (p0.obj? obj).any fun o => !o.record.isEmpty then s0
    else
      let s := seeSpan s0 (homeDie (p0.recordAt obj)) (p0.recordAt obj) 64 (some part) 0xFF
      match s.part? part with
      | none => s
      | some p =>
        match p.obj? obj with
        | none =>
          s.setPart { p with objs := p.objs ++
            [{ obj := obj, record := liveRecord s p obj, next := 1, entries := [], applied := [0, 0, 0, 0],
               unwritten := [] }] }
        | some o => s.setPart (p.setObj { o with record := liveRecord s p obj })

/-- The record has not been read yet, and its line is held by a parked atomic (R156). -/
def recordHeld (s : State) (part obj : Nat) : Bool :=
  match s.part? part with
  | some p => !(p.obj? obj).any (fun o => !o.record.isEmpty) && parkedBlocks s (p.recordAt obj) 64 false
  | none => false

/-! ### The manifest (R247, R252) -/

/-- Virtual address of a position's entry. -/
def Obj.entryVa (o : Obj) (pos : Word) : Nat := o.manbase + 64 * (pos.toNat % o.mansize)

/-- Bytes of an entry, as the home holds them. -/
def readEntry (s : State) (part : Nat) (o : Obj) (pos : Word) : List Byte :=
  match xlate s o.home part (o.entryVa pos) .read with
  | .ok t => pread s t.pa 64
  | .error _ => List.replicate 64 0
/-- An entry cannot be read. -/
def entryBad (s : State) (part : Nat) (o : Obj) (pos : Word) : Bool :=
  match xlate s o.home part (o.entryVa pos) .read with
  | .ok t => badSpan s o.home t.pa 64
  | .error _ => true
/-- The line of an entry is held by a parked atomic (R156). -/
def entryHeld (s : State) (part : Nat) (o : Obj) (pos : Word) : Bool := manifestOk s part o && heldVa s o.home part (o.entryVa pos) 64
/-- Write bytes of an entry, from a die: nothing where the position has none, or its home cannot be reached (R13, R22). -/
def writeEntry (s : State) (die part : Nat) (o : Obj) (pos : Word) (off : Nat) (d : List Byte) : State :=
  if manifestOk s part o && !o.unwritten.contains pos then
    match xlate s o.home part (o.entryVa pos) .write with
    | .ok t => if reaches s die t.pa then pwrite s (t.pa + off) d else s
    | .error _ => s
  else s

/-- A position is applied or rejected on every die that has not tripped. -/
def passedAll (s : State) (o : Obj) (pos : Word) : Bool :=
  (List.range 4).all fun d => (s.die d).tripped || seqReached (o.applied.getD d 0) pos

/-- Trim the entries that every die has passed (R252). -/
def trim (s : State) (part obj : Nat) : State :=
  match obj? s part obj with
  | some o =>
    let kept := o.entries.filter fun pos => !passedAll s o pos
    setObj s part { o with entries := kept, unwritten := o.unwritten.filter kept.contains }
  | none => s

/-- The manifest has room: an object without a manifest holds nothing. -/
def hasRoom (s : State) (part : Nat) (o : Obj) : Bool := !manifestOk s part o || decide (o.entries.length < o.mansize)

/-- The home can be reached from a core, and serves. -/
def homeServes (s : State) (o : Obj) (core : Nat) : Bool :=
  3 < o.home || (!(s.die o.home).tripped && (s.die o.home).running && joined s (dieOfCore core) o.home)

/-- An entry as RCALL writes it (Table 10.10). -/
def manifestEntry (h : HomeWait) (pos : Word) : List Byte :=
  leBytes 8 0 ++ leBytes 2 h.obj ++ [0] ++ leBytes 1 h.method ++ leBytes 4 pos.toNat ++ leBytes 4 h.tag.toNat ++ leBytes 4 h.who ++
    takeAt (h.args.flatMap fun w => leBytes 4 w.toNat) 0 40

/-- A scalar written from outside the fragment: also what a trace in progress that owns it would restore. -/
def asyncS (g : Group) (r : Nat) (w : Word) : Group :=
  { g with s := sset g.s r w, nodes := g.nodes.map fun n => match n.ctx with
      | some c => { n with ctx := some { c with owned := c.owned.map fun o => if o.1 == r then (r, w) else o } }
      | none => n }

/-- The caller of a request, while its fragment still waits. -/
def waitingCaller (s : State) (gid nix obj : Nat) : Option (Group × Node × Nat × Option Word) :=
  match s.group? gid with
  | none => none
  | some g =>
    match g.node? nix with
    | none => none
    | some n =>
      match n.st, n.sync with
      | .syncing, some (.rcall o sd pos) => if o == obj then some (g, n, sd, pos) else none
      | _, _ => none

/-- A fragment writes a scalar behind its terminator: it waits for an older fragment that owns it, and a younger one is rolled back
(R130). -/
def claimScalar (s : State) (g : Group) (n : Node) (r : Nat) : Option State :=
  let os := owners g n [r]
  if os.any fun m => m.rank < n.rank then none else some (os.foldl (fun s m => rollBack s g.uid m.ix) s)

/-- The caller receives its position: s[d], and the fragment goes on; one that is frozen, or that waits for s[d]'s owner, keeps it for later
(R130, R375). -/
def takePosition (s : State) (g : Group) (n : Node) (obj sd : Nat) (pos : Word) : State :=
  match (if n.frozen then none else claimScalar s g n sd) with
  | none => s.setGroup (g.setNode { n with sync := some (.rcall obj sd (some pos)) })
  | some s1 => completeSync (onGroup s1 g.uid fun g => asyncS g sd pos) g.uid n.ix

/-- The home assigns the next position to a request; an object without a manifest gives one without an entry (R245, R375). -/
def appendCall (s : State) (h : HomeWait) (o : Obj) : State :=
  let s1 := writeEntry s o.home h.part o o.next 0 (manifestEntry h o.next)
  let s2 := setObj s1 h.part { o with next := o.next + 1, entries := o.entries ++ [o.next],
                                      unwritten := if manifestOk s h.part o then o.unwritten else o.unwritten ++ [o.next] }
  let s3 := match s2.part? h.part with
    | some p => s2.setPart { p with homeWaits := p.homeWaits.filter fun x => x != h }
    | none => s2
  let s4 := onGroup s3 h.g fun g => raiseHorizon g h.obj o.next
  match waitingCaller s4 h.g h.n h.obj with
  | some (g, n, sd, none) => takePosition s4 g n h.obj sd o.next
  | _ => s4

/-- The request of a fragment. -/
def requestOf (s : State) (gid nix : Nat) : Option HomeWait := s.parts.findSome? fun p => p.homeWaits.find? fun h => h.g == gid && h.n == nix

/-- A SEAL of the partition has its digest and is not complete: no position is assigned (R52 step 4). -/
def sealHold (s : State) (part : Nat) : Bool :=
  match (s.win part).waiting with
  | some (d, k) => d.op == 0x06 && decide (16 ≤ k)
  | none => false

/-- MANIFEST_APPEND (R247, R375): the request takes its position at the home; a restored caller that holds one already goes on with
it. -/
def execManifestAppend (g n : Nat) (s : State) : Host.Outcome State Fault Refusal :=
  .next (match requestOf s g n with
    | some h =>
      if recordHeld s h.part h.obj then s
      else
      let s1 := trim (meetObj s h.part h.obj) h.part h.obj
      (match obj? s1 h.part h.obj with
       | none => s
       | some o =>
         if objectHeld s1 h.part o then s1
         else
         let s1 := seeObject s1 h.part o
         let ready := match s1.group? g with
           | some gr => horizonReady s1 gr h.obj
           | none => true
         if releasedTo s1 g h.core h.mark 4 && ready && !sealHold s1 h.part && !entryHeld s1 h.part o o.next && hasRoom s1 h.part o &&
             homeServes s1 o h.core then appendCall s1 h o else s1)
    | none =>
      match s.group? g with
      | none => s
      | some gr =>
        match gr.node? n with
        | none => s
        | some nd =>
          match nd.st, nd.sync with
          | .syncing, some (.rcall _ sd (some pos)) =>
            if nd.frozen || gr.restoring then s
            else
              (match claimScalar s gr nd sd with
               | none => s
               | some s1 => completeSync (onGroup s1 g fun g => asyncS g sd pos) g n)
          | _, _ => s)

/-! ### Running a method (R248 to R251) -/

/-- The method table entry (R246), or none where it cannot be read. -/
def methodEntry (s : State) (part d : Nat) (o : Obj) (m : Nat) : Option Nat :=
  match xlate s d part (o.methods + 8 * m) .read with
  | .ok t => if badSpan s d t.pa 8 then none else some (leNat (pread s t.pa 8))
  | .error _ => none

/-- The method table entry is read where the object and the method are valid: it waits behind a parked atomic, and meets the check code of
its line. -/
def methodHeld (s : State) (part d : Nat) (o : Obj) (m : Nat) : Bool :=
  objectOk s part o && decide (m < o.nmeth) && heldVa s d part (o.methods + 8 * m) 8
def seeMethod (s : State) (part d : Nat) (o : Obj) (m : Nat) : State :=
  if objectOk s part o && decide (m < o.nmeth) then seeVa s d part (o.methods + 8 * m) 8 else s

/-- Where a method starts, or none: reason 7 (Table 10.11, R246, R376), which an entry with nonzero bits 63:55 gives too (DESIGN CHOICE
[99]). -/
def methodStart (s : State) (part d : Nat) (o : Obj) (m : Nat) (readOnly : Bool) : Option Nat :=
  if !objectOk s part o || o.nmeth ≤ m then none
  else
    match methodEntry s part d o m with
    | some e => if bit e 0 && bits e 63 55 == 0 && (!readOnly || bit e 1) then some (e / 4 * 4) else none
    | none => none

/-- The landing group of a die and partition, while it runs a call. -/
def landingGroup (s : State) (part d : Nat) : Option Group :=
  s.groups.find? fun g => g.part == part && (match g.landing with
    | some l => l.die == d
    | none => false)

/-- All 96 lanes. -/
def allLanes : LaneMask := BitVec.allOnes 96

/-- The fragment that starts a method, with ENTRY 9. -/
def methodNode (a : Nat) : Node :=
  { ix := 0, mask := allLanes, trace := a, rejoin := 0, parent := none, rank := 0, st := .ready, s63 := s63Of 9 0 0 0, next := 0,
    termIx := 0, sync := none, flow := none, prevKind := 4, toHandler := false, restored := false, saver := false, frozen := false,
    greedy := false, tabled := true, code := 64, ctx := none }

/-- A landing group as a call starts (R248). -/
def landingStart (uid part d : Nat) (o : Obj) (m : Nat) (pos : Word) (args : List Word) (readOnly : Bool) (a : Nat) : Group :=
  let st := o.stateAt d
  let ss : List Word := (List.range 10).map (fun i => args.getD i 0) ++ [pos, BitVec.ofNat 32 o.obj, BitVec.ofNat 32 st,
    BitVec.ofNat 32 (st / 2 ^ 32), BitVec.ofNat 32 m]
  { uid := uid, part := part, serial := 0, wkg := 0, gid := 0, core := 192 + d, slot := 0,
    landing := some { die := d, obj := o.obj, pos := pos, readOnly := readOnly }, nregs := 320, base := a, stamp := 0, v := [],
    p := [], pdg := [], flaws := [], dataSeqs := [], rstack := [], rdepth := [], s := swrite [] 0 ss, nodes := [methodNode a], ld := 0, st := 0, cp := 0, tl := 0,
    fmode := 0, fstat := 0, gang := 0, ldaerr := 0, savelo := 0, savehi := 0, cycleh := 0, preempt := 1, sfrq := [], pend := false,
    lost := 0, grant := { st := 0, n := 0, c := 0, x := 0, y := 0, z := 0 }, rings := [], horizons := [], loads := [],
    pendingTree := none, loadsplit := false, yield := .no, restoring := false }

/-- Start a call on a die. -/
def startCall (s : State) (part d : Nat) (o : Obj) (m : Nat) (pos : Word) (args : List Word) (caller : Option (Nat × Nat)) (a : Nat) :
    State :=
  { s with groups := s.groups ++ [landingStart s.nextId part d o m pos args caller.isSome a],
           calls := s.calls ++ [{ g := s.nextId, caller := caller, count := 0, result := 0, reason := 0, code := 0 }],
           nextId := s.nextId + 1 }

/-- Bytes that a call overwrote return, newest first (R250). -/
def undoCall (s : State) (gid : Nat) : State :=
  let s1 := (s.journal.filter fun j => j.1 == gid).foldl (fun s j => { s with mem := sset s.mem j.2.1 j.2.2 }) s
  { s1 with journal := s1.journal.filter fun j => j.1 != gid }

/-- The landing group stops: its frames, its group, its call and its journal go. -/
def dropCall (s : State) (g : Group) : State :=
  let s1 := g.nodes.foldl (fun s n => dropFrames s g.uid n.ix) s
  { s1 with groups := s1.groups.filter (fun x => x.uid != g.uid), calls := s1.calls.filter (fun c => c.g != g.uid),
            journal := s1.journal.filter (fun j => j.1 != g.uid) }

/-- The call in progress has ended: rejected, or its last fragment has reached EXIT. -/
def callEnded (g : Group) (c : Call) : Bool := c.reason != 0 || g.nodes.isEmpty

/-- One outcome: OUTC of the die, RESULT by the home, then what every die has passed is trimmed (R247, R250, R252). -/
def recordOutcome (s : State) (part d obj : Nat) (pos : Word) (reason code : Nat) (result : DWord) : State :=
  match obj? s part obj with
  | none => s
  | some o =>
    let old := field (readEntry s part o pos) 10 1
    let outc := old - bits old (2 * d + 1) (2 * d) * 4 ^ d + (if reason = 0 then 1 else 2) * 4 ^ d
    let s1 := writeEntry s d part o pos 10 (leBytes 1 outc)
    let s2 := if d = o.home then
        writeEntry s1 d part o pos 0 (leBytes 8 (if reason = 0 then result.toNat else reason + code * 2 ^ 8)) else s1
    trim (setObj s2 part { o with applied := o.applied.set d pos }) part obj

/-- Finish the call of a landing group. -/
def finishCall (s : State) (g : Group) (l : LandingAt) (c : Call) : State :=
  let s1 := if c.reason = 0 then s else undoCall s g.uid
  recordOutcome (dropCall s1 g) g.part l.die l.obj l.pos c.reason c.code c.result

/-- An RREAD waits for an object on a die and could run (R251). -/
def readWaits (s : State) (part d : Nat) (o : Obj) : Bool :=
  s.groups.any fun g => g.part == part && g.landing.isNone && dieOfCore g.core == d && horizonReady s g o.obj && g.loads.any fun l =>
    match l.rread with
    | some r => l.answered.isNone && r.1 == o.obj && seqReached (o.applied.getD d 0) (horizonOf g o.obj)
    | none => false

/-- Apply the next position of an object on a die: start its method, or reject it with reason 7; one that has no entry is
rejected whatever the record says now (R245). -/
def applyNext (s : State) (part d : Nat) (o : Obj) : State :=
  let pos := o.applied.getD d 0 + 1
  if !o.entries.contains pos || readWaits s part d o || !homeServes s o (48 * d) || objectHeld s part o then s
  else if o.unwritten.contains pos then recordOutcome s part d o.obj pos 7 0 0
  else
    let s1 := seeVa s o.home part (o.entryVa pos) 64
    let b := readEntry s1 part o pos
    let m := field b 11 1
    if entryHeld s part o pos || methodHeld s part d o m then s
    else if manifestOk s1 part o && entryBad s1 part o pos then recordOutcome s1 part d o.obj pos 4 9 0
    else
      let s2 := seeMethod s1 part d o m
      match methodStart s2 part d o m false with
      | none => recordOutcome s2 part d o.obj pos 7 0 0
      | some a => startCall s2 part d o m pos ((List.range 10).map fun i => BitVec.ofNat 32 (field b (24 + 4 * i) 4)) none a

/-- The RREAD of a call is gone: rolled back, or its group has ended (R376). -/
def callerGone (s : State) (c : Call) : Bool :=
  match c.caller with
  | none => false
  | some k =>
    match s.group? k.1 with
    | some g => !(g.loads.any fun l => l.id == k.2)
    | none => true

/-- LANDING_APPLY of an object on a die (R248 to R252): the call in progress ends, or the next position starts. -/
def execLandingApply (part d obj : Nat) (s : State) : Host.Outcome State Fault Refusal :=
  .next (if !(s.die d).running || (s.die d).tripped then s
    else
      match landingGroup s part d with
      | some g =>
        (match s.calls.find? fun c => c.g == g.uid, g.landing with
         | some c, some l =>
           if callerGone s c then dropCall (undoCall s g.uid) g
           else if l.obj != obj || c.caller.isSome || !callEnded g c then s
           else if (obj? s part obj).any fun o => entryHeld s part o l.pos then s
           else finishCall s g l c
         | _, _ => s)
      | none =>
        match obj? s part obj with
        | some o => applyNext s part d o
        | none => s)

/-! ### RREAD (R251, R376) -/

/-- What an RREAD writes. -/
def readResult (d reason code : Nat) (result : DWord) : List (RegRef × Word) :=
  let r := if reason = 0 then result else 0
  [(.s d, r.extractLsb' 0 32), (.s (d + 1), r.extractLsb' 32 32),
   (.s (d + 2), if reason = 0 then 0 else BitVec.ofNat 32 (2 ^ 31 + code * 2 ^ 8 + reason))]

/-- The load has its result; it returns once its horizon stands at what the die had applied (R375, R376). -/
def answerRead (s : State) (gid id obj sd : Nat) (reason code : Nat) (result : DWord) : State :=
  onGroup s gid fun g =>
    { g with loads := g.loads.map fun l =>
      if l.id == id then { l with writes := readResult sd reason code result, answered := some (appliedOn s g.part g.die obj) } else l }

/-- The horizon of an answered RREAD rises, once its object may have an entry (R375). -/
def noteRead (s : State) (g : Group) (l : Load) (obj : Nat) (pos : Word) : State :=
  if horizonReady s g obj then
    s.setGroup (raiseHorizon { g with loads := g.loads.map fun x => if x.id == l.id then { x with rread := none } else x } obj pos)
  else s

/-- Start the method of an RREAD, or answer it with reason 7; POS of a read is a free value [40]. -/
def startRead (s : State) (g : Group) (id : Nat) (r : Nat × Nat × List Word × Nat) (o : Obj) : State :=
  match methodStart s g.part g.die o r.2.1 true with
  | none => answerRead s g.uid id o.obj r.2.2.2 7 0 0
  | some a =>
    match s.fresh with
    | (v, s1) => startCall s1 g.part g.die o r.2.1 (v.setWidth 32) r.2.2.1 (some (g.uid, id)) a

/-- RREAD_METHOD_RUN of a load of a group: its method starts once the die has applied the group's horizon, and its result
returns. -/
def execRreadMethodRun (g id : Nat) (s : State) : Host.Outcome State Fault Refusal :=
  .next (match s.calls.find? fun c => c.caller == some (g, id) with
    | some c =>
      (match s.group? c.g with
       | none => s
       | some lg =>
         if callerGone s c then dropCall (undoCall s lg.uid) lg
         else if !callEnded lg c then s
         else
           match s.group? g, lg.landing with
           | some gr, some l =>
             (match (gr.loads.find? fun x => x.id == id).bind (·.rread) with
              | some r =>
                answerRead (dropCall (if c.reason = 0 then s else undoCall s lg.uid) lg) g id l.obj r.2.2.2 c.reason c.code c.result
              | none => dropCall s lg)
           | _, _ => dropCall s lg)
    | none =>
      match s.group? g with
      | none => s
      | some gr =>
        match (gr.loads.find? fun x => x.id == id).bind fun l => l.rread.map fun r => (l, r, l.answered) with
        | none => s
        | some (l, r, some pos) => noteRead s gr l r.1 pos
        | some (_, r, none) =>
          if recordHeld s gr.part r.1 then s
          else
          let s1 := meetObj s gr.part r.1
          match obj? s1 gr.part r.1, s1.group? g with
          | some o, some g1 =>
            if !(s1.die g1.die).running || (s1.die g1.die).tripped || (landingGroup s1 g1.part g1.die).isSome ||
                !seqReached (o.applied.getD g1.die 0) (horizonOf g1 r.1) || !horizonReady s1 g1 r.1 then s1
            else if objectHeld s1 g1.part o || methodHeld s1 g1.part g1.die o r.2.1 then s1
            else startRead (seeMethod s1 g1.part g1.die o r.2.1) g1 id r o
          | _, _ => s1)

end Sys2Proof.Machine
end

