-- ==== Sys2Proof/Machine/Lanes.lean ====
section
/-! DEFINITION. Lane exchange (R110, R111, R362 to R368). -/
namespace Sys2Proof.Machine

/-- What a source lane supplies for a vector register (Table 14.10). -/
def laneSrc (g : Group) (n : Node) (c : Ctx) (lane reg : Nat) : Word :=
  if n.mask.getLsbD lane then g.rv lane reg
  else if c.helpers.getLsbD lane then sget c.v0 (vkey lane reg)
  else
    match g.nodes.find? fun m => m.leaf && m.mask.getLsbD lane with
    | some m =>
      (match m.ctx with
       | some k => sget k.v0 (vkey lane reg)
       | none => g.rv lane reg)
    | none =>
      match g.nodes.findSome? fun m => m.ctx.bind fun k => if k.helpers.getLsbD lane then some k.v0 else none with
      | some v0 => sget v0 (vkey lane reg)
      | none => g.rv lane reg

/-- The value of A in a source lane as it reads A's kind: a register, broadcast or not, is the source lane's (R363). -/
def exchangeVal (g : Group) (n : Node) (c : Ctx) (kd : Kd) (src : Src) (lane : Nat) : Nat :=
  let vr := fun r => if kd.pair then pairOf (laneSrc g n c lane r) (laneSrc g n c lane (r + 1)) else (laneSrc g n c lane r).toNat
  match src with
  | .v r => vr r
  | .bcast r => vr r
  | x => readSrc g n lane kd x 0

/-- How A is read. -/
def wideKd (wide : Bool) : Kd := if wide then .int 3 else .raw
/-- Registers of a destination at D. -/
def wideDst (wide : Bool) (d : Nat) : List Nat := if wide then [d, d + 1] else [d]

/-- A lane-exchange instruction on vector lanes: how it reads A and B, the lanes whose A a lane reads, and each one's value. -/
def exchangeSpec (o : LOp) (quad : Bool) (kd : Kd) (kb : Option Kd) (from_ : Group → Node → Ctx → Nat → List Nat)
    (value : Group → Node → Ctx → Nat → Nat) (nr : Nat) : LaneSpec :=
  let d := o.d.toNat
  let dst := wideDst kd.pair d
  let av := o.srcA.vectors kd [0]
  { words := 2, uni := false, ps := o.ps.toNat, pm := o.pm.toNat,
    use := { sr := o.srcA.scalars kd ++ (match kb with
               | some k => o.srcB.scalars k
               | none => []),
             vr := dst ++ av ++ (match kb with
               | some k => o.srcB.vectors k [0]
               | none => []),
             pr := [o.ps.toNat], pdg := false, extra := BitVec.allOnes 96 },
    dst := dst,
    chk := if dstOk false nr kd.pair [0] d && srcOk nr kd [0] o.srcA && (match kb with
        | some k => srcOk nr k [0] o.srcB
        | none => true)
      then 0 else 6,
    quad := quad, noMethod := false, noHelpers := !quad, exch := some (av, from_),
    body := fun g n c lane => .ofW (dstWrites false lane d 0 kd.pair (value g n c lane)) }

/-- `.b64` (Table 14.8). -/
def LOp.b64 (o : LOp) : Bool := bit o.mod.toNat 2

/-- Source lane of SHFL (R364). -/
def shflLane (w mode lane : Nat) (b : Nat) : Nat :=
  let base := w * (lane / w)
  let k := lane - base
  let i : Int := if mode = 0 then b else if mode = 1 then (k : Int) - b else if mode = 2 then k + b else ((k ^^^ b : Nat) : Int)
  base + (i % (w : Int)).toNat
/-- Widths of SHFL. -/
def shflWidth (sub : Nat) : Nat := if sub = 4 then 96 else 4 * 2 ^ sub

/-- SHFL vd, va, vb (R364); with `.b64` B too names an even pair, of which it is the low word (R362; DEDUCED [62]). -/
def shflSpec (o : LOp) (nr : Nat) : LaneSpec :=
  let kd := wideKd (LOp.b64 o)
  let at_ := fun (g : Group) (n : Node) (lane : Nat) =>
    shflLane (shflWidth o.sub.toNat) (o.mod.toNat % 4) lane (readSrc g n lane .raw o.srcB 0)
  exchangeSpec o false kd (some kd) (fun g n _ lane => [at_ g n lane]) (fun g n c lane => exchangeVal g n c kd o.srcA (at_ g n lane)) nr
/-- SHFL (R364). -/
def execShfl (o : LOp) (s : State) : Host.Outcome State Fault Refusal := laneOp (shflSpec o (curNregs s)) s

/-- QSWAP vd, va: lane j XOR m of the quad (R365). -/
def qswapSpec (o : LOp) (nr : Nat) : LaneSpec :=
  let kd := wideKd (LOp.b64 o)
  let at_ := fun (lane : Nat) => lane / 4 * 4 + ((lane % 4) ^^^ (o.sub.toNat + 1))
  exchangeSpec o true kd none (fun _ _ _ lane => [at_ lane]) (fun g n c lane => exchangeVal g n c kd o.srcA (at_ lane)) nr
/-- QSWAP (R365). -/
def execQswap (o : LOp) (s : State) : Host.Outcome State Fault Refusal := laneOp (qswapSpec o (curNregs s)) s

/-- QBCAST vd, va, j (R365). -/
def qbcastSpec (o : LOp) (nr : Nat) : LaneSpec :=
  let kd := wideKd (LOp.b64 o)
  let at_ := fun (lane : Nat) => lane / 4 * 4 + o.sub.toNat
  exchangeSpec o true kd none (fun _ _ _ lane => [at_ lane]) (fun g n c lane => exchangeVal g n c kd o.srcA (at_ lane)) nr
/-- QBCAST (R365). -/
def execQbcast (o : LOp) (s : State) : Host.Outcome State Fault Refusal := laneOp (qbcastSpec o (curNregs s)) s

/-- A key of MATCH as it compares: by bit pattern, or `.f32` with one zero and one NaN (R366). -/
def matchKey (sub img : Nat) : Nat :=
  if sub = 2 then
    let x := fdec fp32 img
    if x.isNan then fp32.nanImg else if x.isZero then 0 else img
  else img

/-- How MATCH reads A: `.f32` as a floating-point number (R261). -/
def matchKd (sub : Nat) : Kd := if sub = 2 then .flt fp32 else wideKd (sub == 1)

/-- The lanes that a lane exchange of a fragment combines (R362). -/
def takingPart (o : LOp) (g : Group) (c : Ctx) : List Nat := selected g o.ps.toNat o.pm.toNat c.active

/-- MATCH vd, va, pl (R366). -/
def matchSpec (o : LOp) (nr : Nat) : LaneSpec :=
  let d := o.d.toNat
  let kd := matchKd o.sub.toNat
  let pl := o.mod.toNat % 16
  let av := o.srcA.vectors kd [0]
  { words := 2, uni := false, ps := o.ps.toNat, pm := o.pm.toNat,
    use := { sr := o.srcA.scalars kd, vr := [d, d + 1, d + 2] ++ av,
             pr := [o.ps.toNat, pl], pdg := false, extra := BitVec.allOnes 96 },
    dst := [d, d + 1, d + 2], chk := if d + 2 < nr && srcOk nr kd [0] o.srcA then 0 else 6,
    quad := false, noMethod := false, noHelpers := true, exch := some (av, fun g _ c _ => takingPart o g c), pdst := [pl],
    body := fun g n c lane =>
      let key := fun l => matchKey o.sub.toNat (exchangeVal g n c kd o.srcA l)
      let same := (takingPart o g c).filter fun l => key l == key lane
      let m := maskOf same
      .ofW [(.v lane d, maskWord m 0), (.v lane (d + 1), maskWord m 1), (.v lane (d + 2), maskWord m 2),
            (.p lane pl, if same.head? = some lane then 1 else 0)] }
/-- MATCH (R366). -/
def execMatchLanes (o : LOp) (s : State) : Host.Outcome State Fault Refusal := laneOp (matchSpec o (curNregs s)) s

/-- The identities of Table 14.9. -/
def reduxIdent (sub ty : Nat) : Nat :=
  if ty = 4 then (if sub = 0 then 0 else if sub = 1 then fp32.infImg else fp32.infImg + fp32.signBit)
  else
    let w := tyWidth ty
    match sub with
    | 1 => trunc (tyMax ty) w
    | 2 => trunc (tyMin ty) w
    | 3 => 2 ^ w - 1
    | _ => 0

/-- One step of a combination (Table 14.9). -/
def reduxStep (sub ty a b : Nat) : Nat :=
  if ty = 4 then
    (match sub with
     | 0 => (fadd fp32 0 false a b).1
     | 1 => (fminmax fp32 false a b).1
     | _ => (fminmax fp32 true a b).1)
  else
    match sub with
    | 0 => (a + b) % 2 ^ tyWidth ty
    | 1 => if intOf ty a ≤ intOf ty b then a else b
    | 2 => if intOf ty a ≤ intOf ty b then b else a
    | 3 => a &&& b
    | 4 => a ||| b
    | _ => a ^^^ b

/-- Combine values in order, from the first; the identity of an empty set (R367). -/
def reduxAll (sub ty : Nat) : List Nat → Nat
  | [] => reduxIdent sub ty
  | x :: xs => xs.foldl (reduxStep sub ty) x

/-- The vector source of RDLANE and REDUX, whatever U is: the U = 0, AK = 0 row (R362); REDUX on vectors also takes AK. -/
def vecSrc (o : LOp) : Src := srcOf false (!o.u && o.ak) o.a.toNat

/-- How REDUX and SCAN read A: a pair, one register, or an FP32 number (R261, R367). -/
def reduxKd (ty : Nat) : Kd := if ty = 4 then .flt fp32 else wideKd (ty == 2 || ty == 3)

/-- REDUX with U = 0 or U = 1 (R367). -/
def reduxSpec (o : LOp) (nr : Nat) : LaneSpec :=
  let ty := o.mod.toNat / 8
  let kd := reduxKd ty
  let d := o.d.toNat
  let src := vecSrc o
  let total := fun (g : Group) (n : Node) (c : Ctx) (ls : List Nat) =>
    reduxAll o.sub.toNat ty (ls.map (exchangeVal g n c kd src))
  if o.u then
    { words := 2, uni := true, ps := 15, pm := 0,
      use := { Use.none with sr := wideDst kd.pair d, vr := src.vectors kd [0], ws := wideDst kd.pair d, extra := BitVec.allOnes 96 },
      dst := [], chk := if dstOk true nr kd.pair [0] d && srcOk nr kd [0] src then 0 else 6, quad := false,
      noMethod := false, exch := some (src.vectors kd [0], fun _ _ c _ => lanesOf c.active),
      body := fun g n c _ => .ofW (dstWrites true 0 d 0 kd.pair (total g n c (lanesOf c.active))) }
  else
    exchangeSpec o false kd none (fun g _ c _ => takingPart o g c) (fun g n c _ => total g n c (takingPart o g c)) nr
/-- REDUX (R367). -/
def execRedux (o : LOp) (s : State) : Host.Outcome State Fault Refusal := laneOp (reduxSpec o (curNregs s)) s

/-- SCAN, inclusive or `.excl` (R367). -/
def scanSpec (o : LOp) (nr : Nat) : LaneSpec :=
  let ty := o.mod.toNat / 8
  let kd := reduxKd ty
  let excl := bit o.mod.toNat 0
  let below := fun (g : Group) (c : Ctx) (lane : Nat) => (takingPart o g c).filter fun l => if excl then l < lane else l ≤ lane
  exchangeSpec o false kd none (fun g _ c lane => below g c lane) (fun g n c lane =>
    reduxAll o.sub.toNat ty ((below g c lane).map (exchangeVal g n c kd o.srcA))) nr
/-- SCAN (R367). -/
def execScan (o : LOp) (s : State) : Host.Outcome State Fault Refusal := laneOp (scanSpec o (curNregs s)) s

/-- B of RDLANE and WRLANE is legal: a scalar, of an even number with `.b64` (R362; DEDUCED [62]), or a constant. -/
def laneIndexOk (wide : Bool) (b : Nat) : Bool := scalarOk b && (!wide || 64 ≤ b || b % 2 == 0)

/-- RDLANE sd, va, b (R368). -/
def rdlaneSpec (o : LOp) (nr : Nat) : LaneSpec :=
  let d := o.d.toNat
  let kd := wideKd (LOp.b64 o)
  let src := vecSrc o
  let idx := fun (g : Group) (n : Node) => (readScalar g n o.b.toNat).toNat
  { words := 2, uni := true, ps := 15, pm := 0,
    use := { sr := wideDst kd.pair d ++ scalarUse o.b.toNat, vr := src.vectors kd [0], pr := [], pdg := false,
             extra := BitVec.allOnes 96, ws := wideDst kd.pair d },
    dst := [],
    chk := if dstOk true nr kd.pair [0] d && srcOk nr kd [0] src && laneIndexOk kd.pair o.b.toNat then 0 else 6,
    quad := false, noMethod := false, exch := some (src.vectors kd [0], fun g n _ _ => [idx g n]),
    body := fun g n c _ =>
      if 95 < idx g n then .fault 6 [] else .ofW (dstWrites true 0 d 0 kd.pair (exchangeVal g n c kd src (idx g n))) }
/-- RDLANE (R368). -/
def execRdlane (o : LOp) (s : State) : Host.Outcome State Fault Refusal := laneOp (rdlaneSpec o (curNregs s)) s

/-- WRLANE vd, sa, b (R368). -/
def execWrlane (o : LOp) (s : State) : Host.Outcome State Fault Refusal :=
  let d := o.d.toNat
  let wide := LOp.b64 o
  let okOps := o.ak && o.bk && decide (o.a.toNat < 64) && laneIndexOk wide o.b.toNat && (!wide || o.a.toNat % 2 == 0)
  coreOp false { sr := (if o.a.toNat < 64 then wideDst wide o.a.toNat else []) ++ scalarUse o.b.toNat, vr := wideDst wide d,
                 pr := [], pdg := false, extra := 0, wv := wideDst wide d } 0 (fun s g n c =>
    let b := (readScalar g n o.b.toNat).toNat
    if !okOps || 95 < b then uniFault s g n c 6 (·.advance 2)
    else if !c.active.getLsbD b then putCtx s g n (c.advance 2)
    else if !dstOk false g.nregs wide [0] d then uniFault s g n c 6 (·.advance 2)
    else if overShadow c (wideDst wide d) then groupFault s g n c 49
    else
      let x := if wide then pairOf (readS g n o.a.toNat) (readS g n (o.a.toNat + 1)) else (readS g n o.a.toNat).toNat
      let g1 := (dstWrites false b d 0 wide x).foldl (fun g' w => (writeRef (g', n, c) w).1) g
      putCtx s g1 n ((c.shadow (wideDst wide d)).advance 2)) s

end Sys2Proof.Machine
end

