-- ==== Sys2Proof/Machine/Sched.lean ====
section
/-! DEFINITION. The scheduler (R74 to R82, R88 to R95): the room of a core, placement, groups at entry, the gatherer of a task queue, the
end of a grid. -/
namespace Sys2Proof.Machine

/-! ### Room (R79, R80) -/

/-- The cores of a grid, ascending (R78). -/
def coresOf (l : Launch) : List Nat :=
  ((List.range 48).filter (bit (l.fld 24 6))).flatMap fun k =>
    ((List.range 4).filter (bit (l.fld 30 1))).map fun c => 4 * k + c

def Launch.groups (l : Launch) : Nat := l.fld 31 1
def Launch.vregs (l : Launch) : Nat := l.fld 32 1
/-- Scratchpad and spill pages of a workgroup. -/
def Launch.pages (l : Launch) : Nat := l.fld 33 1 + ceilDiv (l.groups * 1536) 4096

/-- Groups that hold slots on a core. -/
def onCore (s : State) (core : Nat) : List Group := s.groups.filter fun g => g.core == core && g.landing.isNone
/-- Workgroups that hold pages and a record on a core. -/
def wkgsOn (s : State) (core : Nat) : List Workgroup := s.wkgs.filter fun w => w.core == core && w.st != .saved

/-- Free slots of a pipeline, ascending. -/
def freeSlots (s : State) (core pipe : Nat) : List Nat :=
  (List.range 48).filter fun k => k % 4 == pipe && !(onCore s core).any fun g => g.slot == k
/-- Free register units of 16 registers. -/
def freeUnits (s : State) (core : Nat) : Nat := 256 - (onCore s core).foldl (fun k g => k + g.nregs / 16) 0
def usedPages (s : State) (core : Nat) : Nat :=
  (wkgsOn s core).foldl (fun k w => k + match s.launch? w.part w.serial with
    | some l => l.pages
    | none => 0) 0

/-- The core issues: its die runs and its cluster is not ending. -/
def coreUp (s : State) (core : Nat) : Bool :=
  (s.die (dieOfCore core)).running && !(s.die (dieOfCore core)).tripped && !s.fatals.any fun f => f.clu == cluOfCore core

/-- The core has room for some groups of a launch. -/
def roomForGroups (s : State) (l : Launch) (core : Nat) (gids : List Nat) : Bool :=
  ((List.range 4).all fun p => decide ((gids.filter (· % 4 == p)).length ≤ (freeSlots s core p).length)) &&
    decide (gids.length * l.vregs ≤ freeUnits s core)
/-- The core has a workgroup's pages and record. -/
def roomForPages (s : State) (l : Launch) (core : Nat) : Bool :=
  decide (usedPages s core + l.pages ≤ 256) && decide ((wkgsOn s core).length < 8)
/-- Room for a workgroup (R80, R81). -/
def roomFor (s : State) (l : Launch) (core : Nat) : Bool :=
  coreUp s core && roomForPages s l core && (l.bound || roomForGroups s l core (List.range l.groups))

/-! ### A group at entry (R82, R94) -/

/-- A group's only fragment. -/
def entryNode (mask : LaneMask) (trace : Nat) (s63 : Word) : Node :=
  { ix := 0, mask := mask, trace := trace, rejoin := 0, parent := none, rank := 0, st := .ready, s63 := s63, next := 0, termIx := 0,
    sync := none, flow := none, prevKind := 4, toHandler := false, restored := false, saver := false, frozen := false,
    greedy := false, tabled := true, code := 64, ctx := none }

/-- A group in the state of R82. -/
def groupAtEntry (l : Launch) (wkg gid core slot uid stamp base : Nat) (n : Node) : Group :=
  { uid := uid, part := l.part, serial := l.serial, wkg := wkg, gid := gid, core := core, slot := slot, landing := none,
    nregs := 16 * l.vregs, base := base, stamp := stamp, v := [], p := [], pdg := [], rstack := [], rdepth := [], s := [],
    nodes := [n], ld := 0, st := 0, cp := 0, tl := 0, fmode := 0, fstat := 0, gang := 0, ldaerr := 0, savelo := 0, savehi := 0,
    cycleh := 0, preempt := 1, sfrq := [], pend := false, lost := 0, grant := { st := 0, n := 0, c := 0, x := 0, y := 0, z := 0 },
    flaws := [], dataSeqs := [], rings := [], horizons := [], loads := [], pendingTree := none, loadsplit := false, yield := .no, restoring := false }

/-- Put a group on a core: the lowest free slot of its pipeline, a fresh residence stamp. -/
def startGroup (s : State) (mk : Nat → Nat → Nat → Group) (core gid : Nat) : State :=
  match freeSlots s core (gid % 4) with
  | [] => s
  | slot :: _ =>
    { s with groups := s.groups ++ [mk slot s.nextId s.stampNext], nextId := s.nextId + 1, stampNext := s.stampNext + 1 }

/-! ### LAUNCH_PLACEMENT (R77 to R82) -/

/-- A core receives a workgroup: pages that ended workgroups left there are cleared (R79) [91], and its L1 keeps no copy older than what
the launch, a device-scope release, was ordered behind (R70). -/
def clearCore (s : State) (core : Nat) : State :=
  l1DropAll { s with remains := s.remains.filter fun r => r.core != core } core

/-- Place one workgroup: its groups start from ENTRY, but those of a bound grid. -/
def placeWkg (l : Launch) (s : State) (w : Nat × Nat) : State :=
  let k : Workgroup := { part := l.part, serial := l.serial, wkg := w.1, core := w.2, share := 4096 * l.fld 33 1, data := [], flaws := [],
                         bars := [], st := .running, ended := [], saves := [] }
  let s0 := clearCore s w.2
  let s1 := { s0 with wkgs := s0.wkgs ++ [k] }
  if l.bound then s1
  else
    (List.range l.groups).foldl (fun s gid =>
      startGroup s (fun slot uid stamp =>
        groupAtEntry l w.1 gid w.2 slot uid stamp (l.fld 0 8) (entryNode (maskOf (List.range 96)) (l.fld 0 8) (s63Of 0 0 0 0))) w.2 gid) s1

/-- The launch that is placed next: the partition's first that waits (R81). -/
def nextWaiting (s : State) (part : Nat) : Option Launch := s.launches.find? fun l => l.part == part && l.st == .waiting
/-- It has room on every core. -/
def placeable (s : State) (l : Launch) : Bool := (coresOf l).all (roomFor s l)

/-- LAUNCH_PLACEMENT: all workgroups in one step. -/
def execLaunchPlacement (part : Nat) (s : State) : Host.Outcome State Fault Refusal :=
  .next (match nextWaiting s part with
    | none => s
    | some l =>
      if !placeable s l then s
      else ((coresOf l).mapIdx fun i c => (i, c)).foldl (placeWkg l) (s.setLaunch { l with st := .placed }))

/-! ### TASK_GATHER (R93, R94) -/

/-- The task slots of a grid in the order of R93: core, then GROUPID. -/
def taskPlaces (s : State) (l : Launch) : List (Workgroup × Nat) :=
  (List.range 192).flatMap fun c =>
    (s.wkgs.filter fun w => w.core == c && w.part == l.part && w.serial == l.serial && w.st == .running).flatMap fun w =>
      (List.range l.groups).map fun k => (w, k)

/-- A task slot is free: no group has its GROUPID, and the core has room for one. -/
def taskFree (s : State) (l : Launch) (x : Workgroup × Nat) : Bool :=
  coreUp s x.1.core && roomForGroups s l x.1.core [x.2] && !s.groups.any fun g => inWkg x.1 g && g.gid == x.2

/-- The next free task slot after the last one served. -/
def nextPlace (s : State) (l : Launch) : Option (Workgroup × Nat) :=
  let fs := (taskPlaces s l).filter (taskFree s l)
  let after := fun (x : Workgroup × Nat) => l.lastTask.1 < x.1.core || (l.lastTask.1 == x.1.core && l.lastTask.2 < x.2)
  match fs.find? after with
  | some x => some x
  | none => fs.head?

/-- The gatherer's reads of task slots meet their lines' check codes (R26, R27). -/
def seeTasks (s : State) (core part : Nat) (q : TaskQ) (cs : List Word) : State :=
  if s.flaws.isEmpty then s
  else
    cs.foldl (fun s c => seeVaOf s core (dieOfCore core) part (taskSlotVa q c) 32 .read) s

/-- A task slot's 32 bytes; none where they cannot be read now. -/
def readTask (s : State) (core part : Nat) (q : TaskQ) (c : Word) : Option (List Byte) :=
  match translate s core (dieOfCore core) part (taskSlotVa q c) .read with
  | .ok x => if vaHeld s core (dieOfCore core) part (taskSlotVa q c) 32 .read then none else hwRead s (dieOfCore core) x.pa 32
  | .error _ => none

/-- State and entry address of a task slot. -/
def taskState (b : List Byte) : Nat := field b 24 1 % 4
def taskEntry (b : List Byte) : Nat := field b 24 8 / 4 * 4

/-- A batch: its tasks (count and bytes), and the count after it. -/
structure Batch where
  tasks : List (Word × List Byte)
  next : Word
  deriving DecidableEq, Repr

/-- Take ready slots of one entry address from a count upward, skipping void ones (R93). -/
def takeBatch (s : State) (core part : Nat) (q : TaskQ) (entry : Nat) : Nat → Batch → Batch
  | 0, b => b
  | k + 1, b =>
    if 96 ≤ b.tasks.length || b.next == q.tailc then b
    else
      match readTask s core part q b.next with
      | none => b
      | some x =>
        if taskState x = 3 then takeBatch s core part q entry k { b with next := b.next + 1 }
        else if taskState x = 2 ∧ taskEntry x = entry then
          takeBatch s core part q entry k { tasks := b.tasks ++ [(b.next, x)], next := b.next + 1 }
        else b

/-- Counts from one up to another. -/
def countsTo (a b : Word) : List Word := (List.range (b - a).toNat).map fun i => a + BitVec.ofNat 32 i

/-- A gathered group (R94). -/
def taskGroup (l : Launch) (w : Workgroup) (gid slot uid stamp entry : Nat) (b : Batch) (first : Word) : Group :=
  let k := b.tasks.length
  let g := groupAtEntry l w.wkg gid w.core slot uid stamp entry (entryNode (maskOf (List.range k)) entry (s63Of 1 0 0 0))
  let g1 := (b.tasks.mapIdx fun i t => (i, t.2)).foldl (fun g t =>
    (List.range 6).foldl (fun g r => g.wv t.1 r (BitVec.ofNat 32 (field t.2 (4 * r) 4))) g) g
  { g1 with s := sset (sset g1.s 0 first) 1 (BitVec.ofNat 32 k) }

/-- Set slots empty and advance HEADC past them. -/
def consumeTasks (s : State) (core part : Nat) (q : TaskQ) (upto : Word) : State :=
  let at_ : Group := { (default : Group) with part := part, core := core }
  let s1 := (countsTo q.headc upto).foldl (fun s c => setSlotState s at_ q c 0) s
  match s1.part? part with
  | some p => s1.setPart (p.setTaskq { q with headc := upto })
  | none => s1

/-- TASK_GATHER of a task queue: void slots go, or a batch starts a group in the next free task slot. -/
def execTaskGather (part q : Nat) (s : State) : Host.Outcome State Fault Refusal :=
  .next (match s.part? part with
    | none => s
    | some p =>
      match p.taskq? q with
      | none => s
      | some tq =>
        match s.launch? part tq.serial with
        | none => s
        | some l =>
          if l.st != .placed || tq.headc == tq.tailc then s
          else
            match nextPlace s l with
            | none => s
            | some (w, gid) =>
              let batch := fun (s : State) (entry : Nat) =>
                takeBatch s w.core part tq entry (tq.tailc - tq.headc).toNat { tasks := [], next := tq.headc }
              let s0 := seeTasks s w.core part tq [tq.headc]
              match readTask s0 w.core part tq tq.headc with
              | none => s0
              | some x =>
                if taskState x = 3 then consumeTasks s0 w.core part tq (tq.headc + 1)
                else if taskState x ≠ 2 then s0
                else
                  let s1 := seeTasks s0 w.core part tq (countsTo tq.headc (batch s0 (taskEntry x)).next)
                  let b := batch s1 (taskEntry x)
                  let s2 := l1DropAll (consumeTasks s1 w.core part tq b.next) w.core
                  let s3 := startGroup s2 (fun slot uid stamp => taskGroup l w gid slot uid stamp (taskEntry x) b tq.headc) w.core gid
                  s3.setLaunch { l with lastTask := (w.core, gid) })

/-! ### GRID_TERMINATION (R74, R88, R95) -/

/-- The die of a launch's Tollhouse record (R83). -/
def tollhouseDie (l : Launch) : Nat := (((List.range 48).find? (bit (l.fld 24 6))).getD 0) / 12

/-- The grid's workgroups have all ended: for a bound grid R95's conditions, or none of its workgroups is left (DEDUCED [32]). -/
def gridEnded (s : State) (l : Launch) : Bool :=
  let ws := s.wkgs.filter fun w => w.part == l.part && w.serial == l.serial
  if !l.bound then ws.isEmpty
  else
    ws.isEmpty ||
      ((l.fld 48 4 == 0 || !l.gateLive || (s.launch? l.part (BitVec.ofNat 32 (l.fld 48 4))).isNone) &&
        (ws.all fun w => w.st == .running) && !(s.groups.any fun g => g.part == l.part && g.serial == l.serial && g.landing.isNone) &&
        (match (s.part? l.part).bind fun p => p.taskqs.find? fun t => t.serial == l.serial with
         | some t => t.headc == t.tailc && t.reserved.isEmpty
         | none => true))

/-- The grid's committed stores and atomics are performed; a parked atomic is not waited for. -/
def gridQuiet (s : State) (l : Launch) : Bool :=
  (s.pipe.filter fun it => it.part == l.part && it.serial == l.serial).all fun it =>
    it.eff.elems.all fun x => !x.open || x.st == .parked

/-- DONESIG (R74): written like a store, else a record of KIND 5 and HOP 12. -/
def writeDonesig (s0 : State) (l : Launch) : State :=
  let a := l.fld 16 8
  if a = 0 then s0
  else
    let die := tollhouseDie l
    let s := seeWalk s0 (192 + die) die l.part a
    match xlate s die l.part a .write with
    | .ok x =>
      if reaches s die x.pa then pwrite s x.pa (leBytes 8 (l.fld 56 4 + if l.fatal then 2 ^ 32 else 0)) else s
    | .error _ => writeErr s { die := die, kind := 5, hop := 12, part := some l.part, core := 0xFF, addr := 0, synd := 0 }
/-- The write waits behind a parked atomic of its line, or of a line that its walk reads (R156, R157). -/
def donesigBlocked (s : State) (l : Launch) : Bool :=
  l.fld 16 8 != 0 && vaHeld s (192 + tollhouseDie l) (tollhouseDie l) l.part (l.fld 16 8) 8 .write

/-- Give a bound queue back: HEADC and TAILC are written to its descriptor (R90). -/
def unbind (s : State) (l : Launch) : State :=
  match s.part? l.part with
  | none => s
  | some p =>
    match p.taskqs.find? fun t => t.serial == l.serial with
    | none => s
    | some t =>
      let s1 := hwWrite s (tollhouseDie l) (p.savebase + 0x2000 + 32 * t.q + 8) (leBytes 4 t.headc.toNat ++ leBytes 4 t.tailc.toNat)
      s1.setPart { p with taskqs := p.taskqs.filter fun x => x.serial != l.serial }

/-- The launch leaves: its slot frees, the gates it closed open, and workgroups of a bound grid end (R76, R88, R95). -/
def removeLaunch (s : State) (l : Launch) : State :=
  (s.wkgs.filter fun w => w.part == l.part && w.serial == l.serial).foldl leaveRemains
    { s with launches := (s.launches.filter fun k => !(k.part == l.part && k.serial == l.serial)).map fun k =>
        if k.part == l.part && k.fld 48 4 == l.serial.toNat && k.gateLive then { k with gateOpen := true } else k }

/-- GRID_TERMINATION of a launch. -/
def execGridTermination (part : Nat) (serial : Word) (s : State) : Host.Outcome State Fault Refusal :=
  .next (match s.launch? part serial with
    | none => s
    | some l =>
      if l.st != .placed || !gridEnded s l || !gridQuiet s l || donesigBlocked s l then s
      else removeLaunch (unbind (writeDonesig s l) l) l)

end Sys2Proof.Machine
end

