-- ==== Sys2Proof/Machine/Manage.lean ====
section
/-! DEFINITION. The Ferry commands that reach into running groups: SERVICE (R54, R55, R179, R192, R193) and PDESTROY (R46). -/
namespace Sys2Proof.Machine

/-! ### SERVICE -/

/-- The request that a ticket names in a window: of the window's partition, or of any partition in window 15. -/
def requestFor (s : State) (w : Nat) (t : Word) : Option (Nat × Nat × List Byte) :=
  s.parts.findSome? fun p =>
    if w = mgmt ∨ p.part = w then (p.requests.find? fun r => r.1 == t).map fun r => (p.part, r.2.1, r.2.2) else none

/-- The answers that fit a class (R55): an atomic has no lanes to fault, and only a frame takes a result. -/
def answerFits (cls answer : Nat) : Bool :=
  match cls with
  | 3 => answer == 0
  | 4 => answer ≤ 2
  | _ => answer ≤ 1

/-- The request is answered. -/
def dropRequest (s : State) (part : Nat) (t : Word) : State :=
  match s.part? part with
  | some p => s.setPart { p with requests := p.requests.filter fun r => r.1 != t }
  | none => s

/-- CLASS 1: the lanes re-execute their trace, or take the fault that the request replaced (R179). -/
def answerLanes (s : State) (gid : Nat) (t : Word) (answer : Nat) : State :=
  match s.group? gid with
  | none => s
  | some g =>
    match g.nodes.find? fun n => match n.st with
        | .service u _ _ => u == t
        | _ => false with
    | none => s
    | some n =>
      match n.st with
      | .service _ s63 kind =>
        let n1 := { n with st := .ready }
        if answer = 0 then s.setGroup (g.setNode n1)
        else if kind = 4 then entryFault s g n1 (s63.toNat / 2 ^ 16 % 256)
        else if kind = 2 ∨ kind = 3 then addFatal (s.setGroup (g.setNode n1)) g 1 n.code
        else s.setGroup (g.setNode { n1 with trace := handlerOf s g, s63 := s63, toHandler := true, prevKind := kind })
      | _ => s

/-- CLASS 2: the held elements are translated again in their order, or refused with a record (R179, R181); where a parked atomic holds
a line of their walks, the translation is left to POSTED_STORE_CHECK (R156). -/
def answerHeld (s : State) (id answer cause : Nat) : State :=
  match s.item? id with
  | none => s
  | some it =>
    let held := fun (x : Elem) => x.st == .held
    if answer = 0 then
      if it.eff.elems.any fun x => held x && walkHeld s it.core it.die it.part x.addr then
        s.setItem { it with eff := { it.eff with elems := it.eff.elems.map fun x => if held x then { x with st := ElemSt.fresh } else x } }
      else
        let s1 := seeItem s it held
        checkDone s1 (checkedItem s1 it (it.served s1) .translated held)
    else
      let code := fun x => match checkElem s it x with
        | .error e => faultCode e
        | .ok _ => cause
      let refs := (it.eff.elems.filter fun x => x.st == .held).map fun x => (x.lane, code x, x.addr)
      let elems := it.eff.elems.map fun x => if x.st = .held then { x with st := ElemSt.refused } else x
      let kind := if it.kind = 3 then 2 else it.kind
      let s1 := s.setItem { it with eff := { it.eff with elems := elems }, kind := kind, refused := it.refused ++ refs }
      closeItem (settleRecord s1 id) id

/-- CLASS 3: the parked atomic replays. -/
def answerParked (s : State) (id elem : Nat) : State :=
  let mend := fun (p : Parked) => if p.id == id && p.elem == elem then { p with stage := 2 } else p
  { s with dies := s.dies.map fun (d : Die) => { d with parked := d.parked.map mend } }

/-- The die and frame that a ticket's request carries. -/
def frameOf (s : State) (t : Word) : Option (Nat × Frame) :=
  (List.range 4).findSome? fun d => ((s.die d).frames.find? fun f => f.ticket == some t).map fun f => (d, f)

/-- CLASS 4: the management core computes the frame, the fragment takes code 54, or the host's results stand in the frame (R192,
R193). A frame that has been abandoned takes nothing. -/
def answerEmul (s : State) (t : Word) (answer : Nat) (result : List Byte) : State :=
  match frameOf s t with
  | none => s
  | some (d, f) =>
    match answer with
    | 0 => computeFrame s d f
    | 1 => refuseFrame s f
    | _ => answerFrame s d f result

/-- What an answer does. -/
def answerRequest (s : State) (about : Nat) (body : List Byte) (t : Word) (answer : Nat) (result : List Byte) : State :=
  match field body 0 1 with
  | 1 => answerLanes s about t answer
  | 2 => answerHeld s (about / 128) answer (field body 2 1)
  | 3 => answerParked s (about / 128) (about % 128)
  | _ => answerEmul s t answer result

/-- SERVICE (R55). -/
def execService (w : Nat) (d : FerryDesc) (s : State) : Host.Outcome State Fault Refusal :=
  ferryCmd w d .all (fun k => k < 5) false (fun s =>
    let t : Word := BitVec.ofNat 32 (argN d 0 4)
    let answer := argN d 4 1
    match requestFor s w t with
    | none => completeOpen s w d 5
    | some (part, about, body) =>
      let cls := field body 0 1
      if !answerFits cls answer || (answer == 2 && d.len.toNat != 864) then completeOpen s w d 5
      else if answer == 2 && !hostOk s d.haddr.toNat 864 then completeOpen s w d 7
      else completeOpen (answerRequest (dropRequest s part t) about body t answer (hread s d.haddr.toNat 864)) w d 0) s

/-! ### PDESTROY (R46) -/

/-- The partition's queues cease, pilots with them; service requests are dropped and every function runs in hardware mode; engine
entries are abandoned (R54, R58, R69, R150). -/
def stopFetching (s : State) (p : Partition) : State :=
  let off := fun (x : Queue) => { x with st := QSt.off, busy := false, suspended := false, deferred := false, byHost := false }
  let s1 := s.setPart { p with queues := p.queues.map off, modes := 0, requests := [], homeWaits := [],
                               engqs := p.engqs.map fun q => { q with entries := [] } }
  { s1 with dies := s1.dies.map fun (d : Die) => match d.visit with
      | some v => if v.1 = p.part then { d with visit := none, visitSteps := 0 } else d
      | none => d }

/-- Elements that nothing will perform any more are dropped: held ones, and atomics parked on a held word [41]. -/
def dropStuck (s : State) (part : Nat) : State :=
  let heldWord := fun (id k : Nat) => s.dies.any (fun d => d.parked.any (fun x => x.id == id && x.elem == k && x.cause == 3))
  let pipe := s.pipe.map fun it =>
    if it.part = part then
      { it with refused := [], eff := { it.eff with elems := it.eff.elems.mapIdx fun k x =>
          if x.st == .held || (x.st == .parked && heldWord it.id k) then { x with st := ElemSt.refused } else x } }
    else it
  let mine := (s.pipe.filter fun it => it.part == part).map (·.id)
  let again := fun (x : Parked) =>
    if mine.contains x.id then { x with stage := if x.stage = 1 then 0 else x.stage, assisted := false } else x
  let free := fun (d : Die) => { d with parked := (d.parked.filter fun x => !(mine.contains x.id && x.cause == 3)).map again }
  { s with pipe := pipe.filter fun it => it.part != part || !it.closed, dies := s.dies.map free }

/-- Landing calls in progress end, undone; the manifests are dropped with the partition. -/
def dropCalls (s : State) (part : Nat) : State :=
  (s.groups.filter fun g => g.part == part && g.landing.isSome).foldl (fun s g => dropCall (undoCall s g.uid) g) s

/-- Every workgroup ends, torn down, and every launch is terminated. -/
def tearWorkgroups (s : State) (part : Nat) : State :=
  let s1 := (s.wkgs.filter fun w => w.part == part).foldl
    (fun s w => endWkg s w { reason := 6, code := 0, faultg := 0xFFFF }) s
  { s1 with launches := s1.launches.map fun l => if l.part = part then { l with st := .terminated, fatal := true } else l }

/-- The command in progress in the partition's window completes TORNDOWN, and the window stops (R35, R413). -/
def tearWindow (s : State) (part : Nat) : State :=
  let s1 := match (s.win part).waiting with
    | some (d, _) => completeOpen s part d 8
    | none => s
  s1.setWin part { s1.win part with run := false, halted := true }

/-- Steps 1 to 3 of PDESTROY. -/
def tearDown (s : State) (p : Partition) : State :=
  tearWindow (tearWorkgroups (dropCalls (dropStuck (stopFetching s p) p.part) p.part) p.part) p.part

/-- The partition's committed effects are performed, and no DONESIG waits. -/
def tornQuiet (s : State) (part : Nat) : Bool :=
  (s.pipe.all fun it => it.part != part) && s.launches.all fun l => l.part != part || !donesigBlocked s l

/-- Steps 4 to 8: DONESIGs and the counts of bound task queues (R74, R90), then the partition's state goes. -/
def clearPartition (s : State) (p : Partition) : State :=
  let s1 := (s.launches.filter fun l => l.part == p.part).foldl (fun s l => unbind (writeDonesig s l) l) s
  { s1 with remains := s1.remains.filter (fun r => r.part != p.part), launches := s1.launches.filter (fun l => l.part != p.part), wkgs := s1.wkgs.filter (fun w => w.part != p.part),
            groups := s1.groups.filter (fun g => g.part != p.part), parts := s1.parts.filter (fun q => q.part != p.part),
            tlb := s1.tlb.filter (fun e => e.part != p.part), icache := s1.icache.filter (fun e => e.2.1 != p.part),
            fatals := s1.fatals.filter (fun f => !bit p.clumask f.clu) }

/-- PDESTROY (R46): it waits until what was committed is performed. -/
def execPdestroy (w : Nat) (d : FerryDesc) (s : State) : Host.Outcome State Fault Refusal :=
  ferryCmd w d .mgmtOnly (fun k => k == 0) false (fun s =>
    let part := argN d 0 1
    match s.part? part with
    | none => complete s w d 5 part
    | some p =>
      if (progressOf s w).isNone then waitCmd (tearDown s p) w d 1
      else if tornQuiet s part then completeOpen (clearPartition s p) w d 0
      else s) s

end Sys2Proof.Machine
end

