-- ==== Sys2Proof/Machine/MatrixEngine.lean ====
section
/-! DEFINITION. The matrix engine: MMA (R108, R219 to R225, R231 to R235). -/
namespace Sys2Proof.Machine

/-- Fields of an MMA entry's body (Table 10.4). -/
structure MmaCmd where
  fmt : Nat
  aexp : Nat
  apl : Nat
  bexp : Nat
  bpl : Nat
  ksl : Nat
  p : Nat
  gbase : Nat
  gcnt : Nat
  dbase : Nat
  dshape : Nat
  dstr : Nat
  deriving DecidableEq, Repr, Inhabited

def mmaOf (b : List Byte) : MmaCmd :=
  { fmt := field b 60 4, aexp := field b 56 4, apl := field b 52 4, bexp := field b 48 4, bpl := field b 44 4, ksl := field b 42 2,
    p := field b 41 1, gbase := field b 40 1, gcnt := field b 39 1, dbase := field b 37 2, dshape := field b 36 1,
    dstr := field b 35 1 }

/-- Width and height of the destination block. -/
def MmaCmd.w (m : MmaCmd) : Nat := 2 ^ bits m.dshape 1 0
def MmaCmd.h (m : MmaCmd) : Nat := 2 ^ bits m.dshape 3 2

/-- The checks of the body (R219, R233). -/
def mmaBodyCheck (b : List Byte) : Option Plan :=
  let m := mmaOf b
  reject [
    wants (zeroField b 17 18 && m.gbase ≤ 63 && m.dbase < 512 && m.dshape ≤ 15 && m.dstr ≤ 31 && m.fmt / 2 ^ 24 == 0) 1,
    wants (1 ≤ m.ksl && m.ksl ≤ 2048 && 1 ≤ m.p && m.p ≤ 64 && 2 ≤ m.gcnt && m.gcnt ≤ 6 && m.gbase + m.gcnt ≤ 48 &&
      m.w * m.h == 16) 2,
    wants (bits m.fmt 23 16 ≤ 1 && (aFmt (m.fmt % 256)).isSome && (bFmt (bits m.fmt 15 8)).isSome) 3,
    wants (m.apl % 4 == 0 && m.bpl % 4 == 0) 5]

/-- Register of column j of the destination block (R114). -/
def MmaCmd.reg (m : MmaCmd) (j : Nat) : Nat := m.dbase + j / m.w * (if m.dstr = 0 then m.w else m.dstr) + j % m.w

/-! ### Tiles (R232) -/

/-- A tile as read: lines, planes, exponents. -/
structure TileMem where
  lines : Nat
  fmt : ZFmt
  exps : List Byte
  planes : List Byte
  deriving DecidableEq, Repr

/-- The exponents and the planes of a tile. -/
def tileRegions (lines ksl : Nat) (f : ZFmt) (ex pl : Nat) : (Region × Nat) × (Region × Nat) :=
  (({ scr := true, base := ex }, 4 * ksl * lines), ({ scr := true, base := pl }, ksl * f.width * lines * 4))

/-- Read a tile; the status of a region outside its share, or with a bank word in error. -/
def readTile (s : State) (x : Eng) (lines ksl : Nat) (f : ZFmt) (ex pl : Nat) : TileMem × Nat :=
  let rs := tileRegions lines ksl f ex pl
  let e := readRegion s x rs.1.1 rs.1.2
  let p := readRegion s x rs.2.1 rs.2.2
  ({ lines := lines, fmt := f, exps := dataOf e, planes := dataOf p }, worst [statusesOf e, statusesOf p])

/-- The reads of a tile meet its check codes (R27). -/
def seeTile (s : State) (x : Eng) (lines ksl : Nat) (f : ZFmt) (ex pl : Nat) : State :=
  let rs := tileRegions lines ksl f ex pl
  seeRegion (seeRegion s x rs.1) x rs.2

/-- Code of element i of slice sl of a line. -/
def TileMem.code (t : TileMem) (line sl i : Nat) : Nat :=
  ((List.range t.fmt.width).map fun p =>
    if bit (field t.planes (((sl * t.fmt.width + p) * t.lines + line) * 4) 4) i then 2 ^ p else 0).foldl (· + ·) 0

/-- Block j of slice sl of a line: its exponent and its 8 integers; none for a NaN block (R215, R221, R224). -/
def TileMem.block (t : TileMem) (line sl j : Nat) : Option (Nat × List Int) :=
  let e := (t.exps.getD ((4 * sl + j) * t.lines + line) 0).toNat
  if e = 255 then none
  else ((List.range 8).mapM fun i => elemInt t.fmt (t.code line sl (8 * j + i))).map fun es => (e, es)

/-- What a cell's block gives: S_j and x_j (R222). -/
def cellPart (zoff : Nat) (a b : Option (Nat × List Int)) : Part :=
  match a, b with
  | some (ea, xs), some (eb, ys) => some ((List.zipWith (· * ·) xs ys).foldl (· + ·) 0, (ea : Int) + eb - 254 - zoff)
  | _, _ => none

/-- The partials of one slice: for each of its four blocks, each cell's, rows first. -/
def slicePartials (a b : TileMem) (sl : Nat) : List (List Part) :=
  let zoff := (if a.fmt.zf8 then 9 else 0) + (if b.fmt.zf8 then 9 else 0)
  (List.range 4).map fun j =>
    let bs := (List.range b.lines).map fun c => b.block c sl j
    (List.range a.lines).flatMap fun r => let ar := a.block r sl j; bs.map (cellPart zoff ar)

/-- The cells at the end of promotion period k (R223). -/
def periodAcc (a b : TileMem) (ksl p k : Nat) : Acc :=
  ((List.range ksl).filter fun sl => k * p ≤ sl && sl < k * p + p).foldl (fun acc sl => accSlice acc (slicePartials a b sl))
    { cells := List.replicate (a.lines * b.lines) { m := 0, nan := false }, e := none }

/-! ### Promotion (R225, R234, R235) -/

/-- A promotion writes a register; a trace in progress that has shadowed the register restores its own shadow (R235). -/
def promoteReg (g : Group) (lane reg : Nat) (w : Word) : Group :=
  let g1 := g.wv lane reg w
  { g1 with nodes := g1.nodes.map fun n => match n.ctx with
      | some c => if c.shadowed.contains reg then n else { n with ctx := some { c with v0 := sset c.v0 (vkey lane reg) w } }
      | none => n }

/-- Promote one member's columns: rows in its committing lanes, in the registers that it has. -/
def promoteMember (m : MmaCmd) (set : Bool) (acc : Acc) (lanes : LaneMask) (g : Group) : Group :=
  let k := g.gid - m.gbase
  (lanesOf lanes).foldl (fun g r =>
    (List.range 16).foldl (fun g j =>
      let reg := m.reg j
      if g.nregs ≤ reg then g
      else
        let c := acc.cells.getD (r * (16 * m.gcnt) + 16 * k + j) { m := 0, nan := false }
        promoteReg g r reg (BitVec.ofNat 32 (promoteInto set (g.rv r reg).toNat (promoteV c (acc.e.getD 0))))) g) g

/-- One promotion of every cell; a member that has ended receives nothing (R234). -/
def promote (m : MmaCmd) (e : EngEntry) (set : Bool) (acc : Acc) (s : State) : State :=
  e.members.foldl (fun s x => onGroup s x.1 fun g =>
    if m.gbase ≤ g.gid && g.gid < m.gbase + m.gcnt then promoteMember m set acc x.2 g else g) s

/-- Perform an MMA entry in the order of R412: one promotion of every cell at a time (R235), and its completion after the last. A tile
with a bank word in error is STATUS 3 and no further promotion, since the cells of a tile share their exponent (DEDUCED [95]). -/
def runMma (s0 : State) (x : Eng) (r : QueueRef) (e : EngEntry) (b : List Byte) : State :=
  match mmaBodyCheck b with
  | some p => runPlan s0 x r e p
  | none =>
    let m := mmaOf b
    match aFmt (m.fmt % 256), bFmt (bits m.fmt 15 8) with
    | some fa, some fb =>
      let s := seeTile (seeTile s0 x 96 m.ksl fa m.aexp m.apl) x (16 * m.gcnt) m.ksl fb m.bexp m.bpl
      let ta := readTile s x 96 m.ksl fa m.aexp m.apl
      let tb := readTile s x (16 * m.gcnt) m.ksl fb m.bexp m.bpl
      let st := worst [ta.2, tb.2, if workingArrays s r.unit = 0 then 6 else 0]
      if ceilDiv m.ksl m.p ≤ e.done then finishEntry s0 r e 0 0
      else if st ≠ 0 then finishEntry s r e st 0
      else
        let set := bits m.fmt 23 16 == 1 && e.done == 0
        setFirst (promote m e set (periodAcc ta.1 tb.1 m.ksl m.p e.done) s) r { e with done := e.done + 1 }
    | _, _ => s0

/-- MMA_ENTRY of a core's MQ. -/
def execMmaEntry (core : Nat) (s : State) : Host.Outcome State Fault Refusal :=
  .next (match queueOwner s .mq core with
    | none => s
    | some r => takeEntry s r 0x01 fun s x e b => runMma s x r e b)

end Sys2Proof.Machine
end

