-- ==== Sys2Proof/Machine/Predicate.lean ====
section
/-! DEFINITION. Predicate instructions (R297 to R299). -/
namespace Sys2Proof.Machine

/-- Kleene's connectives on predicate codes (Table 12.3). -/
def kleeneAnd (a b : Pred) : Pred := if a = 0 ∨ b = 0 then 0 else if a = 1 ∧ b = 1 then 1 else 2
def kleeneOr (a b : Pred) : Pred := if a = 1 ∨ b = 1 then 1 else if a = 0 ∧ b = 0 then 0 else 2
def kleeneXor (a b : Pred) : Pred := if a = 2 ∨ b = 2 then 2 else if a = b then 0 else 1
def kleeneNot (a : Pred) : Pred := if a = 0 then 1 else if a = 1 then 0 else 2

/-- A predicate instruction: predicate sources, and the code written to D in each selected lane. -/
def predSpec (o : LOp) (srcs : List Nat) (f : Group → Nat → Pred) : LaneSpec :=
  let d := o.d.toNat
  { words := 2, uni := false, ps := o.ps.toNat, pm := o.pm.toNat,
    use := { Use.none with pr := d :: o.ps.toNat :: srcs }, dst := [],
    chk := if predOk d && srcs.all predOk then 0 else 6, quad := false, noMethod := false,
    body := fun g _ _ lane => .ofW [(.p lane d, (f g lane).setWidth 32)], pdst := [d] }

/-- PLOGIC: and, or, xor, a and not b (R297). -/
def plogicSpec (o : LOp) : LaneSpec :=
  predSpec o [o.a.toNat, o.b.toNat] fun g lane =>
    let a := g.rp lane o.a.toNat
    let b := g.rp lane o.b.toNat
    match o.sub.toNat with
    | 0 => kleeneAnd a b
    | 1 => kleeneOr a b
    | 2 => kleeneXor a b
    | _ => kleeneAnd a (kleeneNot b)
/-- PLOGIC (R297). -/
def execPlogic (o : LOp) (s : State) : Host.Outcome State Fault Refusal := laneOp (plogicSpec o) s

/-- PNOT (R297). -/
def pnotSpec (o : LOp) : LaneSpec := predSpec o [o.a.toNat] fun g lane => kleeneNot (g.rp lane o.a.toNat)
/-- PNOT (R297). -/
def execPnot (o : LOp) (s : State) : Host.Outcome State Fault Refusal := laneOp (pnotSpec o) s

/-- PMOV copies A, or writes F, T or U (R297). -/
def pmovSpec (o : LOp) : LaneSpec :=
  predSpec o (if o.sub = 0 then [o.a.toNat] else []) fun g lane =>
    match o.sub.toNat with
    | 0 => g.rp lane o.a.toNat
    | 1 => 0
    | 2 => 1
    | _ => 2
/-- PMOV (R297). -/
def execPmov (o : LOp) (s : State) : Host.Outcome State Fault Refusal := laneOp (pmovSpec o) s

/-- PFORCE writes U as F (SUB 0) or T (SUB 1) (R297). -/
def pforceSpec (o : LOp) : LaneSpec :=
  predSpec o [o.a.toNat] fun g lane =>
    let a := g.rp lane o.a.toNat
    if a = 2 then (if o.sub = 0 then 0 else 1) else a
/-- PFORCE (R297). -/
def execPforce (o : LOp) (s : State) : Host.Outcome State Fault Refusal := laneOp (pforceSpec o) s

/-- The lane's predicate holds the class of MOD bits 1:0 (R298). -/
def voteCounts (cls : Nat) (p : Pred) : Bool :=
  match cls with
  | 0 => p == 1
  | 1 => p == 0
  | 2 => p == 2
  | _ => p != 0

/-- PVOTE over the active lanes, uniform (R298). -/
def pvoteSpec (o : LOp) : LaneSpec :=
  let d := o.d.toNat
  let a := o.a.toNat
  let top := if o.sub = 3 then 2 else 0
  { words := 2, uni := true, ps := 15, pm := 0,
    use := { Use.none with sr := (List.range (top + 1)).map (d + ·), pr := [a], ws := (List.range (top + 1)).map (d + ·) }, dst := [],
    chk := if d + top < 64 && predOk a then 0 else 6, quad := false, noMethod := false,
    body := fun g _ c _ =>
      let ls := lanesOf c.active
      let hit := ls.filter fun l => voteCounts (o.mod.toNat % 4) (g.rp l a)
      .ofW (match o.sub.toNat with
        | 0 => [(.s d, if hit.isEmpty then 0 else 1)]
        | 1 => [(.s d, if hit.length = ls.length then 1 else 0)]
        | 2 => [(.s d, BitVec.ofNat 32 hit.length)]
        | _ => (List.range 3).map fun k => (.s (d + k), maskWord (maskOf hit) k)) }
/-- PVOTE (R298). -/
def execPvote (o : LOp) (s : State) : Host.Outcome State Fault Refusal := laneOp (pvoteSpec o) s

/-- PTOV vd, pa: the predicate's code (R299). -/
def ptovSpec (o : LOp) (nr : Nat) : LaneSpec :=
  let d := o.d.toNat
  { words := 2, uni := false, ps := o.ps.toNat, pm := o.pm.toNat,
    use := { Use.none with vr := [d], pr := [o.ps.toNat, o.a.toNat] }, dst := [d],
    chk := if d < nr && predOk o.a.toNat then 0 else 6, quad := false, noMethod := false,
    body := fun g _ _ lane => .ofW [(.v lane d, (g.rp lane o.a.toNat).setWidth 32)] }
/-- PTOV (R299). -/
def execPtov (o : LOp) (s : State) : Host.Outcome State Fault Refusal := laneOp (ptovSpec o (curNregs s)) s

/-- VTOP pd, va: by zero (SUB 0) or by code (SUB 1) (R299). -/
def vtopSpec (o : LOp) (nr : Nat) : LaneSpec :=
  let d := o.d.toNat
  { words := 2, uni := false, ps := o.ps.toNat, pm := o.pm.toNat,
    use := { Use.none with sr := o.srcA.scalars .raw, vr := o.srcA.vectors .raw [0], pr := [d, o.ps.toNat] }, dst := [],
    chk := if predOk d && srcOk nr .raw [0] o.srcA then 0 else 6, quad := false, noMethod := false,
    body := fun g n _ lane =>
      let x := readSrc g n lane .raw o.srcA 0
      let p := if o.sub = 0 then (if x = 0 then 0 else 1) else (if x % 4 = 3 then 2 else x % 4)
      .ofW [(.p lane d, BitVec.ofNat 32 p)],
    pdst := [d] }
/-- VTOP (R299). -/
def execVtop (o : LOp) (s : State) : Host.Outcome State Fault Refusal := laneOp (vtopSpec o (curNregs s)) s

end Sys2Proof.Machine
end

