-- ==== Sys2Proof/Machine/Preempt.lean ====
section
/-! DEFINITION. Pre-emption (R194 to R202): requests reaching cores, the 512 clocks, the handlers, YIELD's save, and restore. -/
namespace Sys2Proof.Machine

/-! ### Stopping (R195, R196) -/

/-- PREEMPT_REQUEST_ARRIVAL at a core: the launch's workgroup there stops starting traces. -/
def execPreemptRequestArrival (part : Nat) (serial : Word) (core : Nat) (s : State) : Host.Outcome State Fault Refusal :=
  .next (match s.launch? part serial, s.wkgs.find? fun w => w.part == part && w.serial == serial && w.core == core && w.st == .running with
    | some l, some w =>
      if l.preempting.isNone then s else wkgMaybeEnd (s.setWkg { w with st := .stopping }) part serial w.wkg
    | _, _ => s)

/-- The group's workgroup is in a state of Table 8.8. -/
def wkgIn (s : State) (g : Group) (st : WkgSt) : Bool :=
  match s.wkg? g.part g.serial g.wkg with
  | some w => w.st == st
  | none => false

/-- PREEMPT_ALLOWANCE_EXPIRY of a fragment: its trace is rolled back, its arrival at a latch with it; a trace whose effects are entered
has committed [24]. -/
def execPreemptAllowanceExpiry (g n : Nat) (s : State) : Host.Outcome State Fault Refusal :=
  .next (onTrace s g n fun s gr _ c => if wkgIn s gr .stopping && c.entered.isNone then rollBack s g n else s)

/-! ### The pre-emption handler (R197) -/

/-- Every fragment of a workgroup stands at a trace boundary. -/
def atBoundary (s : State) (w : Workgroup) : Bool := (s.groups.filter (inWkg w)).all fun g => g.nodes.all fun n => n.ctx.isNone

/-- Withdraw a group's arrivals at every barrier (R196). -/
def withdraw (s : State) (g : Group) : State :=
  let out := fun (b : Barrier) => { b with arrived := b.arrived.filter fun x => x.1 != g.uid }
  let s1 := match s.wkg? g.part g.serial g.wkg with
    | some w => s.setWkg { w with bars := w.bars.map out }
    | none => s
  match s1.launch? g.part g.serial with
  | some l => s1.setLaunch { l with cbars := l.cbars.map fun x => (x.1, out x.2) }
  | none => s1

/-- The lanes of a group's leaves. -/
def leafLanes (g : Group) : LaneMask := g.nodes.foldl (fun m n => if n.leaf then m ||| n.mask else m) 0

/-- Freeze a group's fragments; which of them the pipeline was issuing, if any, is timing's to say (a free value [33]). -/
def freeze (s : State) (g : Group) : State :=
  match s.fresh with
  | (v, s1) =>
    let k := v.toNat % (g.nodes.length + 1)
    s1.setGroup { g with nodes := g.nodes.mapIdx fun i n => { n with frozen := true, greedy := i == k && n.leaf } }

/-- SAVING begins for a workgroup: every fragment of every group of it is frozen, its barrier arrival withdrawn (R195, R196). -/
def startSaving (s : State) (w : Workgroup) : State :=
  ((s.groups.filter (inWkg w)).map (·.uid)).foldl (fun s k => match s.group? k with
    | some g => freeze (withdraw s g) g
    | none => s) (s.setWkg { w with st := .saving })

/-- Start a group's pre-emption handler: its youngest fragment, of every lane that belongs to a leaf (R197). -/
def startHandler (s : State) (uid : Nat) (entry : Nat) : State :=
  match s.group? uid with
  | none => s
  | some g =>
    let lanes := leafLanes g
    if lanes = 0 then s.setGroup { g with yield := .waiting }
    else
      s.setGroup (addLeaf s g fun ix rank =>
        { entryNode lanes entry (s63Of 7 0 0 0) with ix := ix, rank := rank, saver := true })

/-- PREEMPT_HANDLER_START of a group: SAVING begins once every fragment of its workgroup stands at a boundary, and the group's handler is
its youngest fragment (R195, R197). -/
def execPreemptHandlerStart (g : Nat) (s : State) : Host.Outcome State Fault Refusal :=
  .next (match s.group? g with
    | none => s
    | some gr =>
      match s.wkg? gr.part gr.serial gr.wkg, s.launch? gr.part gr.serial with
      | some w, some l =>
        let ready := (w.st == .stopping && atBoundary s w) || w.st == .saving
        if !ready || gr.yield != .no || gr.landing.isSome || gr.nodes.any (·.saver) then s
        else startHandler (if w.st = .saving then s else startSaving s w) g ((l.preempting).getD (l.fld 8 8))
      | _, _ => s)

/-! ### YIELD (R197 to R200) -/

/-- GRANT of Table 8.9, 28 bytes. -/
def grantBytes (x : Grant) : List Byte :=
  leBytes 8 x.n.toNat ++ leBytes 4 x.c.toNat ++ leBytes 4 x.x.toNat ++ leBytes 4 x.y.toNat ++ leBytes 4 x.z.toNat ++
    leBytes 4 (if x.st = 0 then 0 else 1)

/-- Bytes 0x40 to 0x1FF of the save block. -/
def saveLow (g : Group) : List Byte :=
  grantBytes g.grant ++ leBytes 4 g.fmode.toNat ++ leBytes 4 g.fstat.toNat ++ leBytes 4 g.gang.toNat ++ leBytes 4 (sfrqReg g).toNat ++
    List.replicate 20 0 ++ takeAt (g.horizons.flatMap fun h => leBytes 4 h.1 ++ leBytes 4 h.2.toNat) 0 64 ++
    takeAt g.sfrq.flatten 0 128 ++ List.replicate 192 0
/-- Bytes 0xB00 to 0x17FF. -/
def saveHigh (g : Group) : List Byte :=
  ((List.range 96).map fun l => sget g.rdepth l) ++ List.replicate 160 0 ++
    (List.range 96).flatMap fun l => (List.range 8).flatMap fun e => leBytes 4 (sget g.rstack (8 * l + e)).toNat

/-- The lines of the hardware's fields: address and bytes. -/
def saveLines (g : Group) : List (Nat × List Byte) :=
  let cut := fun (off n : Nat) (b : List Byte) => (List.range n).map fun k => (saveBlock g + off + 64 * k, takeAt b (64 * k) 64)
  cut 0x40 7 (saveLow g) ++ cut 0xB00 52 (saveHigh g)

/-- Translate the lines for writing, or a code. -/
def saveSpans (s : State) (g : Group) : List (Nat × List Byte) → Except Nat (List (Nat × List Byte))
  | [] => .ok []
  | x :: rest =>
    match translate s g.core g.die g.part x.1 .write with
    | .error e => .error e
    | .ok t =>
      match saveSpans s g rest with
      | .error e => .error e
      | .ok ys => .ok ((t.pa, x.2) :: ys)

/-- What YIELD waits for: counters at zero, committed effects performed or parked, calls positioned (R197, R375); and stores of other
groups that the group has seen on its core stand at their homes, so that its reads do not go back on another core (R161). -/
def yieldReady (s : State) (g : Group) : Bool :=
  g.ld == 0 && g.st == 0 && g.cp == 0 && g.tl == 0 && coreSeen s g.core g.uid s.nextId 2 &&
    ((s.pipe.filter fun it => it.group == g.uid).all fun it => it.eff.elems.all fun x => !x.open || x.st == .parked) &&
    (match s.part? g.part with
     | some p => !p.homeWaits.any fun h => h.g == g.uid
     | none => true)

/-- The group leaves its core, saved. -/
def saveGroup (s : State) (g : Group) : State :=
  let s1 := writeContext s g (saveBlock g) 1
  let x : Saved := { gid := g.gid, slot := g.slot, addr := saveBlock g, uid := g.uid, base := g.base, rings := g.rings }
  let s2 : State := match s1.wkg? g.part g.serial g.wkg with
    | some w => s1.setWkg { w with saves := (w.saves.filter fun y => y.uid != g.uid) ++ [x] }
    | none => s1
  wkgMaybeEnd { s2 with groups := s2.groups.filter fun y => y.uid != g.uid } g.part g.serial g.wkg

/-- The walks of the save block's lines are held by a parked atomic (R156), or meet the check codes of their entries (R26, R27). -/
def saveHeld (s : State) (g : Group) : Bool := anyParked s && (saveLines g).any fun x => walkHeld s g.core g.die g.part x.1
def seeSave (s : State) (g : Group) : State :=
  if s.flaws.isEmpty then s else (saveLines g).foldl (fun s x => seeWalk s g.core g.die g.part x.1) s

/-- YIELD_SAVE of a group: the hardware fields of Table 8.9 are written; where they cannot be, the cluster ends (R197). -/
def execYieldSave (g : Nat) (s : State) : Host.Outcome State Fault Refusal :=
  .next (match s.group? g with
    | none => s
    | some gr =>
      if gr.yield != .waiting || !yieldReady s gr || saveHeld s gr then s
      else
        let s0 := seeSave s gr
        match saveSpans s0 gr (saveLines gr) with
        | .error _ => addFatal s0 gr 1 64
        | .ok ls =>
          if ls.any fun x => parkedBlocks s0 x.1 64 true then s0
          else saveGroup (ls.foldl (fun s x => if reaches s gr.die x.1 then pwrite s x.1 x.2 else s) s0) gr)

/-! ### Restore (R201, R202) -/

/-- Bytes of a virtual span as a core reads them, line by line; none where one cannot be read. -/
def readVa (s : State) (core part va : Nat) : Nat → Option (List Byte)
  | 0 => some []
  | n + 1 =>
    match translate s core (dieOfCore core) part va .read with
    | .ok t =>
      (match hwRead s (dieOfCore core) t.pa 64, readVa s core part (va + 64) n with
       | some b, some bs => some (b ++ bs)
       | _, _ => none)
    | .error _ => none

/-- The save block's 6,144 bytes before VREG. -/
def readBlock (s : State) (core part addr : Nat) : Option (List Byte) := readVa s core part addr 96

/-- The group that a save block describes (R82, Table 8.9). -/
def restoredGroup (l : Launch) (w : Workgroup) (x : Saved) (b : List Byte) (core slot uid stamp : Nat) : Group :=
  let f := field b
  let w32 := fun (k : Nat) => (BitVec.ofNat 32 (f k 4) : Word)
  let mask := maskOf ((List.range 96).filter fun i => f (0x200 + i) 1 != 0xFF)
  let count := f 0x68 4 % 16
  let g := groupAtEntry l w.wkg x.gid core slot uid stamp x.base { entryNode mask (f 0 8) (s63Of 8 0 0 0) with restored := true }
  { g with
    rdepth := (List.range 96).foldl (fun m i => sset m i (BitVec.ofNat 8 (f (0xB00 + i) 1))) [],
    rstack := (List.range 768).foldl (fun m i => sset m i (BitVec.ofNat 24 (f (0xC00 + 4 * i) 4))) [],
    s := sset (sset [] 0 (BitVec.ofNat 32 x.addr)) 1 (BitVec.ofNat 32 (x.addr / 2 ^ 32)),
    grant := { st := f 0x58 4, n := BitVec.ofNat 64 (f 0x40 8), c := w32 0x48, x := w32 0x4C, y := w32 0x50, z := w32 0x54 },
    fmode := w32 0x5C, fstat := w32 0x60, gang := w32 0x64,
    sfrq := (List.range count).map fun k => takeAt b (0xC0 + 16 * k) 16, pend := bit (f 0x68 4) 7, lost := bits (f 0x68 4) 15 8,
    horizons := ((List.range 8).filter fun k => f (0x80 + 8 * k) 8 != 0).map fun k => (f (0x80 + 8 * k) 4, w32 (0x84 + 8 * k)),
    rings := x.rings, restoring := true }

/-- The checks of a block and its context record (R202): the record names the block as saved; depths, grant, SFRQ and gang hold values
of Table 8.9, some lane is held, and RESTORE is a trace of KIND 2. -/
def restoreOk (s : State) (p : Partition) (l : Launch) (g : Group) (x : Saved) (b : List Byte) : Bool :=
  let ctx := (hwRead s g.die (contextAt p l g.wkg g.gid) 16).getD []
  field ctx 0 8 == x.addr && field ctx 8 8 == 1 &&
    ((List.range 96).all fun i => decide (field b (0xB00 + i) 1 ≤ 8)) && decide (field b 0x58 4 ≤ 1) &&
    decide (field b 0x68 4 % 128 ≤ 8) && gangOk s g g.gang && (g.nodes.any fun n => n.mask != 0) &&
    (match headerAt s g (field b 0 8) with
     | some h => h.kind == 2
     | none => false)

/-- A saved workgroup has room on a core, for its saved groups (R80). -/
def roomForSaved (s : State) (l : Launch) (w : Workgroup) (core : Nat) : Bool :=
  coreUp s core && roomForPages s l core && roomForGroups s l core (w.saves.map (·.gid))

/-- Assign workgroups to different cores, first fit over a list of candidates; with CLUSTER `fits` keeps positions and clusters. -/
def assignCores (fits : Workgroup → Nat → List (Workgroup × Nat) → Bool) (cands : List Nat) :
    List Workgroup → List (Workgroup × Nat) → Option (List (Workgroup × Nat))
  | [], acc => some acc
  | w :: ws, acc =>
    match cands.find? fun c => fits w c acc with
    | some c => assignCores fits cands ws (acc ++ [(w, c)])
    | none => none

/-- A workgroup may take a core after the others (R201). -/
def fitsCore (s : State) (l : Launch) (all : List Workgroup) (w : Workgroup) (c : Nat) (acc : List (Workgroup × Nat)) : Bool :=
  roomForSaved s l w c && !(acc.any fun a => a.2 == c) &&
    (!bit (l.fld 30 1) 4 ||
      (c % 4 == w.core % 4 &&
        (match acc.find? fun a => cluOfCore a.1.core == cluOfCore w.core with
         | some a => cluOfCore a.2 == cluOfCore c
         | none => !(acc.any fun a => cluOfCore a.2 == cluOfCore c) &&
             (all.filter fun v => cluOfCore v.core == cluOfCore w.core).all fun v => roomForSaved s l v (cluOfCore c * 4 + v.core % 4))))

/-- Put a saved group among others in the order of their slots. -/
def insertSlot (x : Saved) : List Saved → List Saved
  | [] => [x]
  | y :: ys => if x.slot < y.slot then x :: y :: ys else y :: insertSlot x ys
/-- Saved groups in the order of the slots they had: each takes the lowest free slot of its pipeline, so that the order is kept (R201). -/
def bySlot (xs : List Saved) : List Saved := xs.foldl (fun acc x => insertSlot x acc) []

/-- The reads of a save block meet their lines' check codes (R27). -/
def seeBlock (s : State) (core part va : Nat) : State :=
  if s.flaws.isEmpty then s
  else
    (List.range 96).foldl (fun s k => seeVaOf s core (dieOfCore core) part (va + 64 * k) 64 .read) s

/-- A line of a save block, or its walk, waits behind a parked atomic (R156). -/
def blockHeld (s : State) (core part va : Nat) : Bool :=
  anyParked s && (List.range 96).any fun k => vaHeld s core (dieOfCore core) part (va + 64 * k) 64 .read

/-- What a group committed before it was saved goes on from the core that it is restored to: atomics that are parked, and what stands
behind them (R157, R160, R163, R166). -/
def moveItems (s : State) (uid core : Nat) : State :=
  { s with pipe := s.pipe.map fun it => if it.group == uid then { it with core := core } else it }

/-- Restore one workgroup on its core: the block of each group read and checked, the group started at RESTORE; none where a check
fails (R202). The core's L1 keeps no copy, so that the groups find their own stores (R160, R176). -/
def restoreWkg (p : Partition) (l : Launch) (s : State) (w : Workgroup) (core : Nat) : Option State :=
  let w1 : Workgroup := { w with core := core, st := .running, data := [], flaws := [], bars := [], ended := [] }
  let s0 := clearCore s core
  let s1 := { s0.setWkg w1 with icache := s0.icache.filter fun x => !(x.1 == core && x.2.1 == w.part) }
  (bySlot w.saves).foldl (fun (acc : Option State) x =>
    match acc with
    | none => none
    | some s' =>
      let s := seeSpan (seeBlock s' core w.part x.addr) (dieOfCore core) (contextAt p l w.wkg x.gid) 16 (some w.part) (core % 48)
      match readBlock s core w.part x.addr with
      | none => none
      | some b =>
        if !restoreOk s p l (restoredGroup l w1 x b core 0 x.uid 0) x b then none
        else
          some (startGroup (moveItems s x.uid core) (fun slot _ stamp => restoredGroup l w1 x b core slot x.uid stamp) core x.gid)) (some s1)

/-- A launch is wholly saved. -/
def launchSaved (s : State) (l : Launch) : Bool :=
  let ws := s.wkgs.filter fun w => w.part == l.part && w.serial == l.serial
  !ws.isEmpty && ws.all fun w => w.st == .saved

/-- LAUNCH_RESTORE: after WAITING launches that have room, the first saved launch in serial order; which cores it takes is the scheduler's
choice (a free value [33]). -/
def execLaunchRestore (part : Nat) (serial : Word) (s : State) : Host.Outcome State Fault Refusal :=
  .next (match s.part? part, s.launches.find? fun l => l.part == part && launchSaved s l with
    | some p, some l =>
      let blocked := match nextWaiting s part with
        | some k => placeable s k
        | none => false
      if l.serial != serial || blocked then s
      else
        (match s.fresh with
         | (v, s1) =>
           let cores := ((List.range 48).filter (bit p.clumask)).flatMap fun k => (List.range 4).map fun c => 4 * k + c
           let k := v.toNat % (cores.length + 1)
           let ws := s1.wkgs.filter fun w => w.part == part && w.serial == serial
           match assignCores (fitsCore s1 l ws) (cores.drop k ++ cores.take k) ws [] with
           | none => s1
           | some as =>
             if as.any fun a => a.1.saves.any fun x => blockHeld s1 a.2 part x.addr then s1
             else
             (match as.foldl (fun (acc : Option State) a => match acc with
                | some t => restoreWkg p l t a.1 a.2
                | none => none) (some s1) with
              | some t => t.setLaunch { l with preempting := none }
              | none => failRestore s1 part serial))
    | _, _ => s)

end Sys2Proof.Machine
end

