-- ==== Sys2Proof/Machine/Sett.lean ====
section
/-! DEFINITION. The Sett engine: LAYOUT (R236 to R241). -/
namespace Sys2Proof.Machine

/-- Fields of the entry body and of the dimension-mapping word (Tables 10.5 and 10.7). -/
structure LayoutCmd where
  map : Nat
  src : Region
  dst : Region
  shape : Nat
  splitrec : Nat
  space : Nat
  deriving DecidableEq, Repr, Inhabited

def LayoutCmd.bsh (m : LayoutCmd) : Nat := bits m.map 41 40
def LayoutCmd.pk (m : LayoutCmd) : Nat := bits m.map 39 36
def LayoutCmd.plane (m : LayoutCmd) : Bool := bit m.map 35
def LayoutCmd.esize (m : LayoutCmd) : Nat := bits m.map 34 32
def LayoutCmd.split (m : LayoutCmd) : Bool := bit m.map 31
def LayoutCmd.merge (m : LayoutCmd) : Nat := bits m.map 30 24
def LayoutCmd.sidx (m : LayoutCmd) (d : Nat) : Nat := bits m.map (3 * d + 2) (3 * d)
/-- Bytes of an element. -/
def LayoutCmd.esz (m : LayoutCmd) : Nat := eszOf m.esize
/-- Plane width: 0 stands for 16. -/
def LayoutCmd.k (m : LayoutCmd) : Nat := if m.pk = 0 then 16 else m.pk

def layoutOf (b : List Byte) : LayoutCmd :=
  let sp := field b 17 1
  { map := field b 56 8, src := { scr := bit sp 0, base := field b 48 8 }, dst := { scr := bit sp 1, base := field b 40 8 },
    shape := field b 32 8, splitrec := field b 24 8, space := sp }

/-- A scratchpad address keeps its upper half zero. -/
def lowHalf (scr : Bool) (a : Nat) : Bool := !scr || decide (a < 2 ^ 32)

/-- The checks of the body alone (R412, step 1). -/
def layoutBody (b : List Byte) : Option Plan :=
  let m := layoutOf b
  reject [
    wants (zeroField b 18 6 && m.space ≤ 7 && m.map / 2 ^ 42 == 0 && (m.split || m.splitrec == 0) && lowHalf true m.shape &&
      lowHalf true m.splitrec && lowHalf m.src.scr m.src.base && lowHalf (m.plane || m.dst.scr) m.dst.base) 1,
    wants (m.bsh ≤ 1 && m.esize ≤ 4 && (if m.plane then m.esize ≤ 2 && m.pk ≤ 8 && m.dst.scr else m.pk == 0)) 3,
    wants (!(m.plane && m.merge != 0)) 4,
    wants (m.shape % 128 == 0 && (!m.split || m.splitrec % 32 == 0) && (!m.plane || m.dst.base % 4 == 0)) 5]

/-- The shape record (Table 10.6), and the true extents of the split record. -/
structure Shape where
  b : List Byte
  t : Option (List Byte)
  deriving DecidableEq, Repr, Inhabited

def Shape.ndim (h : Shape) : Nat := field h.b 108 1
def Shape.ext (h : Shape) (i : Nat) : Nat := field h.b (4 * i) 4
def Shape.sstride (h : Shape) (i : Nat) : Int := sext (field h.b (32 + 4 * i) 4) 32
def Shape.dstride (h : Shape) (d : Nat) : Int := sext (field h.b (64 + 4 * d) 4) 32
def Shape.esrc (h : Shape) : Nat := field h.b 96 8
def Shape.edst (h : Shape) : Nat := field h.b 104 4

/-- Extent of an output dimension. -/
def extOf (m : LayoutCmd) (h : Shape) (d : Nat) : Nat := h.ext (m.sidx d)
/-- True extent of an output dimension. -/
def trueExt (m : LayoutCmd) (h : Shape) (d : Nat) : Nat :=
  match h.t with
  | some t => field t (4 * m.sidx d) 4
  | none => extOf m h d

/-- The source dimensions are a permutation. -/
def permuted (m : LayoutCmd) (n : Nat) : Bool :=
  (List.range n).all fun i => (List.range n).any fun d => m.sidx d == i

/-- The checks of the shape and split records (R237 to R240, R412 step 2). The upper half of ESRC counts where ESRC is used (DEDUCED
[95]); a nonzero DSTRIDE at or above NDIM gives REASON 1 with PLANE too, which ignores the others (R237, R240; DESIGN CHOICE [99]). -/
def layoutRecords (m : LayoutCmd) (h : Shape) : Option Plan :=
  let n := h.ndim
  let nOk := 1 ≤ n && n ≤ 8
  let above := (List.range 8).filter (n ≤ ·)
  let t := fun i => match h.t with
    | some t => field t (4 * i) 4
    | none => 0
  reject [
    wants (zeroField h.b 109 19 && (above.all fun i => h.ext i == 0 && h.sstride i == 0 && h.dstride i == 0) &&
      (!m.plane || m.bsh != 0 || lowHalf (bit m.space 2) h.esrc)) 1,
    wants (nOk && (List.range n).all (fun i => h.ext i != 0 && t i ≤ h.ext i) && above.all (fun i => t i == 0) &&
      (!m.plane || (n == 2 && extOf m h 0 % 32 == 0 && 1 ≤ extOf m h 1 && extOf m h 1 ≤ 96))) 2,
    wants (permuted m n && (List.range 7).all fun d => !bit m.merge d || decide (d + 1 < n)) 4]

/-! ### Without PLANE (R238, R239) -/

/-- D_d, the output stride after the merges, for d = 0 to n - 1. -/
def strides (m : LayoutCmd) (h : Shape) : Nat → List Int
  | 0 => []
  | d + 1 =>
    let ds := strides m h d
    if d ≠ 0 ∧ bit m.merge (d - 1) then ds ++ [ds.getD (d - 1) 0 * extOf m h (d - 1)] else ds ++ [h.dstride d]

/-- Tuple number j, with o_0 counting fastest. -/
def tupleAt (m : LayoutCmd) (h : Shape) (j : Nat) : List Nat :=
  ((List.range h.ndim).foldl (fun (a : List Nat × Nat) d => (a.1 ++ [a.2 % extOf m h d], a.2 / extOf m h d)) ([], j)).1
/-- How many tuples there are. -/
def tuples (m : LayoutCmd) (h : Shape) : Nat := (List.range h.ndim).foldl (fun k d => k * extOf m h d) 1

/-- An address of 64 bits. -/
def addr64 (a : Int) : Nat := (a % (2 ^ 64 : Nat)).toNat

/-- Address of the source element of a tuple. -/
def layoutFrom (m : LayoutCmd) (h : Shape) (o : List Nat) : Nat :=
  addr64 (m.src.base + m.esz * ((List.range h.ndim).foldl (fun (a : Int) d => a + (o.getD d 0 : Nat) * h.sstride (m.sidx d)) 0))
/-- Address of the destination element of a tuple. -/
def layoutTo (m : LayoutCmd) (h : Shape) (o : List Nat) : Nat :=
  let ds := strides m h h.ndim
  addr64 (m.dst.base + m.esz * ((List.range h.ndim).foldl (fun (a : Int) d => a + (o.getD d 0 : Nat) * ds.getD d 0) 0))

/-- The tuple lies in the padding: it reads nothing and writes zero (R239). -/
def padded (m : LayoutCmd) (h : Shape) (o : List Nat) : Bool :=
  (List.range h.ndim).any fun d => decide (trueExt m h d ≤ o.getD d 0)

/-- The source element of a tuple. A padded tuple's zero is an element of value 0, which PLANE with k = 1 writes as the code of 0 (R239;
DESIGN CHOICE [99]). -/
def layoutElem (s : State) (x : Eng) (m : LayoutCmd) (h : Shape) (o : List Nat) : List (Byte × Nat) :=
  if padded m h o then List.replicate m.esz (0, 0)
  else readRegion s x { m.src with base := layoutFrom m h o } m.esz

/-- Every tuple with its source element, and the regions read. -/
def layoutElems (s : State) (x : Eng) (m : LayoutCmd) (h : Shape) : List (List Nat × List (Byte × Nat)) :=
  (List.range (tuples m h)).map fun j => (tupleAt m h j, layoutElem s x m h (tupleAt m h j))
def layoutReads (m : LayoutCmd) (h : Shape) : List (Region × Nat) :=
  ((List.range (tuples m h)).map (tupleAt m h)).filterMap fun o =>
    if padded m h o then none else some ({ m.src with base := layoutFrom m h o }, m.esz)

/-- The rearrangement: every element is read before any is written. -/
def rearrange (s : State) (x : Eng) (m : LayoutCmd) (h : Shape) : Plan :=
  let els := layoutElems s x m h
  { st := worst (els.map fun e => statusesOf e.2), reason := 0, reads := layoutReads m h,
    writes := els.flatMap fun e => runWrites { m.dst with base := layoutTo m h e.1 } 0 e.2 }

/-! ### With PLANE (R232, R240) -/

/-- Code of an element in k bits: saturated, or its sign for k = 1. -/
def planeCode (esz k : Nat) (bs : List Byte) : Nat :=
  let v := sext (leNat bs) (8 * esz)
  if k = 1 then (if 0 ≤ v then 1 else 0) else trunc (clampInt v (-(2 ^ (k - 1) : Nat)) ((2 ^ (k - 1) : Nat) - 1)) k

/-- One plane word: its offset from PL, and its bytes with the worst status of the 32 elements. -/
def planeWord (m : LayoutCmd) (n : Nat) (elem : Nat → List (Byte × Nat)) (sl p line : Nat) : Nat × List (Byte × Nat) :=
  let es := (List.range 32).map fun i => elem (32 * sl + i)
  let w := (es.mapIdx fun i e => if bit (planeCode m.esz m.k (dataOf e)) p then 2 ^ i else 0).foldl (· + ·) 0
  let st := worst (es.map statusesOf)
  (((sl * m.k + p) * n + line) * 4, (leBytes 4 w).map fun b => (b, st))

/-- A plane word or an exponent byte to which an affected element contributes stays unwritten; its neighbours are written. -/
def planeWrites (r : Region) (off : Nat) (bs : List (Byte × Nat)) : List ByteWrite :=
  (runWrites r off bs).filter fun w => w.st == 0

/-- The plane tile and its exponents. -/
def planePlan (s : State) (x : Eng) (m : LayoutCmd) (h : Shape) : Plan :=
  let k := extOf m h 0
  let n := extOf m h 1
  let lines := (List.range n).map fun line => (List.range k).map fun i => layoutElem s x m h [i, line]
  let words := (List.range (k / 32)).flatMap fun sl => (List.range m.k).flatMap fun p =>
    lines.mapIdx fun line es => planeWord m n (fun i => es.getD i []) sl p line
  let esrc : Region := { scr := bit m.space 2, base := h.esrc }
  let exps := (List.range (k / 8)).flatMap fun b => (List.range n).map fun line =>
    (b * n + line, if m.bsh = 0 then readByte s x esrc (line * (k / 8) + b) else (127, 0))
  { st := worst (lines.map (fun es => worst (es.map statusesOf)) ++ exps.map fun e => e.2.2), reason := 0,
    reads := layoutReads m h ++ (if m.bsh = 0 then [(esrc, n * (k / 8))] else []),
    writes := (words.flatMap fun w => planeWrites m.dst w.1 w.2) ++
      exps.flatMap fun e => planeWrites { scr := true, base := h.edst } e.1 [e.2] }

/-- LAYOUT in the order of R412. -/
def layoutPlan (s : State) (x : Eng) (b : List Byte) : Plan :=
  match layoutBody b with
  | some p => p
  | none =>
    let m := layoutOf b
    let recs : List (Region × Nat) := ({ scr := true, base := m.shape }, 128) ::
      (if m.split then [({ scr := true, base := m.splitrec }, 32)] else [])
    let h := readRegion s x { scr := true, base := m.shape } 128
    let t := if m.split then readRegion s x { scr := true, base := m.splitrec } 32 else []
    let p := match unread (statusesOf (h ++ t)) with
      | some p => p
      | none =>
        let sh : Shape := { b := dataOf h, t := if m.split then some (dataOf t) else none }
        match layoutRecords m sh with
        | some p => p
        | none => if m.plane then planePlan s x m sh else rearrange s x m sh
    { p with reads := recs ++ p.reads }

/-- LAYOUT_ENTRY of a cluster's LQ. -/
def execLayoutEntry (clu : Nat) (s : State) : Host.Outcome State Fault Refusal :=
  .next (match queueOwner s .lq clu with
    | none => s
    | some r => takeEntry s r 0x01 fun s x e b => runPlan s x r e (layoutPlan s x b))

end Sys2Proof.Machine
end

