-- ==== Sys2Proof/Machine/Spdm.lean ====
section
/-! DEFINITION. SPDM over the DOE mailbox (R49, R50). The spec names the messages and what they carry; their codes, layouts, transcripts
and the order in which a connection goes are those of DSP0274 1.2 and 1.3 (PRESUMED [21]). -/
namespace Sys2Proof.Machine

/-! ### The connection -/

/-- The bytes of a request. -/
def spdmBytes (code : Byte) (r : SpdmReq) : List Byte := [r.version, code, r.param1, r.param2] ++ r.body

/-- Die 0's management core answers. -/
def spdmOn (s : State) : Bool := (s.die 0).running && !(s.die 0).tripped
def spdmAnswer (s : State) (b : List Byte) : State := { s with doe := b }

/-- Version byte of the connection: as agreed, else 1.2. -/
def spdmVersion (s : State) : Byte := (s.die 0).spdm.getD 0 0x12
/-- ERROR with its code. -/
def spdmError (s : State) (code : Byte) : State := spdmAnswer s [spdmVersion s, 0x7F, code, 0]

/-- How far a connection has come: nothing, a version answered, capabilities answered, algorithms agreed. -/
def spdmPhase (s : State) : Nat :=
  let d := s.die 0
  if d.spdmVca.isEmpty then 0 else if d.spdm.isEmpty then 1 else if d.spdm.length < 4 then 2 else 3

/-- A request that belongs to a phase is answered where the connection stands in that phase (else UnexpectedRequest), in its version
(else VersionMismatch) and whole (else InvalidRequest). -/
def spdmServe (s : State) (r : SpdmReq) (phase least : Nat) (answer : State) : State :=
  if !spdmOn s then s
  else if spdmPhase s != phase then spdmError s 0x04
  else if 2 ≤ phase && r.version != spdmVersion s then spdmError s 0x41
  else if r.body.length < least then spdmError s 0x01
  else answer

/-- 32 bytes of free value: a nonce of the device. -/
def freshNonce (s : State) : List Byte × State :=
  match s.fresh with
  | (a, s1) => match s1.fresh with
    | (b, s2) => match s2.fresh with
      | (c, s3) => match s3.fresh with
        | (d, s4) => (leBytes 8 a.toNat ++ leBytes 8 b.toNat ++ leBytes 8 c.toNat ++ leBytes 8 d.toNat, s4)

/-- Bytes of a text in ASCII. -/
def ascii (t : String) : List Byte := t.toList.map fun c => BitVec.ofNat 8 c.toNat

/-- The device's signature over a transcript: its digest behind the prefix that names the version and the purpose. -/
def spdmSign (version : Byte) (purpose transcript : List Byte) : List Byte :=
  let named := ascii (if version = 0x13 then "dmtf-spdm-v1.3.*" else "dmtf-spdm-v1.2.*")
  Config.sign 0 (named ++ named ++ named ++ named ++ List.replicate (36 - purpose.length) 0 ++ purpose ++ sha256 transcript)

/-- The requester's context, which versions from 1.3 on carry behind the other fields of a request. -/
def spdmContext (r : SpdmReq) (at_ : Nat) : List Byte := if r.version = 0x13 then takeAt r.body at_ 8 else []
/-- How many bytes that adds to a request. -/
def contextLen (r : SpdmReq) : Nat := if r.version = 0x13 then 8 else 0

/-! ### Negotiation -/

/-- GET_VERSION: 1.2 and 1.3; the connection begins anew. -/
def execSpdmVersionRequest (r : SpdmReq) (s : State) : Host.Outcome State Fault Refusal :=
  .next (if !spdmOn s then s
    else if r.version != 0x10 then spdmError s 0x41
    else
      let a : List Byte := [0x10, 0x04, 0, 0, 0, 2, 0x00, 0x12, 0x00, 0x13]
      let d := { s.die 0 with spdm := [], spdmVca := spdmBytes 0x84 r ++ a, spdmCerts := [], spdmMeas := [] }
      spdmAnswer (s.setDie 0 d) a)

/-- GET_CAPABILITIES in version 1.2 or 1.3, which the connection then keeps: certificates, challenge, measurements with signature. The
exponent of the time limit and the sizes of messages are free values: no rule gives them. -/
def execSpdmCapabilitiesRequest (r : SpdmReq) (s : State) : Host.Outcome State Fault Refusal :=
  .next (spdmServe s r 1 16
    (if r.version != 0x12 && r.version != 0x13 then spdmError s 0x41
    else
      let a := [r.version, 0x61, 0, 0, 0, (Config.spdmLimit 0).setWidth 8, 0, 0] ++ leBytes 4 0x16 ++
        leBytes 4 (Config.spdmLimit 1).toNat ++ leBytes 4 (Config.spdmLimit 2).toNat
      let d := s.die 0
      spdmAnswer (s.setDie 0 { d with spdm := [r.version], spdmVca := d.spdmVca ++ spdmBytes 0xE1 r ++ a }) a))

/-- NEGOTIATE_ALGORITHMS: of what the request offers, ECDSA P-256, SHA-256 and the DMTF measurement specification (with SHA-256 as the
measurement hash). -/
def execSpdmAlgorithmsRequest (r : SpdmReq) (s : State) : Host.Outcome State Fault Refusal :=
  .next (spdmServe s r 2 28
    (let specs := r.body.getD 2 0 &&& 0x01
    let asym := r.body.getD 4 0 &&& 0x10
    let hash := r.body.getD 8 0 &&& 0x01
    let measHash : Byte := if specs = 0 then 0 else 0x02
    let a := [r.version, 0x63, 0, 0, 36, 0, specs, 0, measHash, 0, 0, 0, asym, 0, 0, 0, hash, 0, 0, 0] ++ List.replicate 16 0
    let d := s.die 0
    spdmAnswer (s.setDie 0 { d with spdm := [r.version, asym, hash, specs], spdmVca := d.spdmVca ++ spdmBytes 0xE3 r ++ a }) a))

/-! ### Certificates -/

/-- An answer about certificates, kept for the next challenge. -/
def certAnswer (s : State) (code : Byte) (r : SpdmReq) (a : List Byte) : State :=
  let d := s.die 0
  spdmAnswer (s.setDie 0 { d with spdmCerts := d.spdmCerts ++ spdmBytes code r ++ a, spdmMeas := [] }) a

/-- GET_DIGESTS: slot 0 only. Version 1.3 names the slots that exist beside those that are provisioned. -/
def execSpdmDigestsRequest (r : SpdmReq) (s : State) : Host.Outcome State Fault Refusal :=
  .next (spdmServe s r 3 0
    (certAnswer s 0x81 r ([r.version, 0x01, if r.version = 0x13 then 1 else 0, 1] ++ sha256 (s.die 0).cert)))

/-- GET_CERTIFICATE: a portion of slot 0's chain, or, where version 1.3 asks for it, its size. -/
def execSpdmCertificateRequest (r : SpdmReq) (s : State) : Host.Outcome State Fault Refusal :=
  .next (spdmServe s r 3 4
    (let c := (s.die 0).cert
    let sizeOnly := r.version = 0x13 && r.param2.getLsbD 0
    let off := field r.body 0 2
    if r.param1 &&& 0x0F != 0 || (!sizeOnly && c.length ≤ off) then spdmError s 0x01
    else
      let p := if sizeOnly then [] else (c.drop off).take (field r.body 2 2)
      let rest := if sizeOnly then c.length else c.length - off - p.length
      certAnswer s 0x82 r ([r.version, 0x02, 0, 0] ++ leBytes 2 p.length ++ leBytes 2 rest ++ p)))

/-! ### Measurements -/

/-- A measurement by its SPDM index: a die's slot, or a seal register that holds a sealed range (R49). -/
def measurement (s : State) (index : Nat) : Option (List Byte) :=
  if 1 ≤ index ∧ index ≤ 16 then some ((s.die ((index - 1) / 4)).measure.getD ((index - 1) % 4) [])
  else if 32 ≤ index ∧ index < 32 + 192 then
    match s.part? ((index - 32) / 16) with
    | some p =>
      match p.seals[(index - 32) % 16]? with
      | some r => if r.st == .sealed then some r.digest else none
      | none => none
    | none => none
  else none

/-- The measurement indices that exist now. -/
def measurementList (s : State) : List Nat := (List.range 224).filter fun k => (measurement s k).isSome

/-- What a measurement is of, in DSP0274's numbering: a ROM, firmware configuration, hardware configuration, or mutable firmware. -/
def measurementType (index : Nat) : Byte := if index ≤ 16 then [0, 3, 2, 1].getD ((index - 1) % 4) 1 else 1

/-- The block of a measurement: its index, the DMTF specification, and a digest of 32 bytes with its type. -/
def measurementBlock (s : State) (index : Nat) : List Byte :=
  leBytes 1 index ++ [1] ++ leBytes 2 35 ++ [measurementType index] ++ leBytes 2 32 ++ (measurement s index).getD []

/-- The summary that a challenge may ask for: the digest of the blocks of the boot measurements (1) or of all (255). -/
def measurementSummary (s : State) (kind : Byte) : List Byte :=
  if kind = 0 then []
  else sha256 (((measurementList s).filter fun k => kind != 1 || k ≤ 16).flatMap (measurementBlock s))

/-- CHALLENGE of slot 0: the chain's digest, a nonce of the device, the summary asked for, and a signature over everything exchanged
since the connection began. -/
def execSpdmChallengeRequest (r : SpdmReq) (s : State) : Host.Outcome State Fault Refusal :=
  .next (spdmServe s r 3 (32 + contextLen r)
    (if r.param1 != 0 || !(r.param2 == 0 || r.param2 == 1 || r.param2 == 0xFF) then spdmError s 0x01
    else
      match freshNonce s with
      | (mine, s1) =>
        let d := s1.die 0
        let a := [r.version, 0x03, 0, 1] ++ sha256 d.cert ++ mine ++ measurementSummary s r.param2 ++ [0, 0] ++ spdmContext r 32
        let sig := spdmSign r.version (ascii "responder-challenge_auth signing") (d.spdmVca ++ d.spdmCerts ++ spdmBytes 0x83 r ++ a)
        spdmAnswer (s1.setDie 0 { d with spdmCerts := [], spdmMeas := [] }) (a ++ sig)))

/-- GET_MEASUREMENTS: the count (0), one, or all (255), signed or not. The signature covers the negotiation and the requests and answers
of measurements since the last signature. -/
def execSpdmMeasurementsRequest (r : SpdmReq) (s : State) : Host.Outcome State Fault Refusal :=
  let signed := r.param1.getLsbD 0
  let own := if signed then 33 else 0
  .next (spdmServe s r 3 (own + contextLen r)
    (let all := measurementList s
    let index := r.param2.toNat
    let which := if index = 255 then all else if index = 0 then [] else [index]
    if (which.any fun k => (measurement s k).isNone) || (signed && r.body.getD 32 0 &&& 0x0F != 0) then spdmError s 0x01
    else
      match freshNonce s with
      | (mine, s1) =>
        let d := s1.die 0
        let blocks := which.flatMap (measurementBlock s)
        let a := [r.version, 0x60, if index = 0 then BitVec.ofNat 8 all.length else 0, 0] ++ leBytes 1 which.length ++
          leBytes 3 blocks.length ++ blocks ++ mine ++ [0, 0] ++ spdmContext r own
        let said := d.spdmMeas ++ spdmBytes 0xE0 r ++ a
        let sig := if signed then spdmSign r.version (ascii "responder-measurements signing") (d.spdmVca ++ said) else []
        spdmAnswer (s1.setDie 0 { d with spdmCerts := [], spdmMeas := if signed then [] else said }) (a ++ sig)))

/-- Every other request: ERROR UnsupportedRequest with the request's code (R50). -/
def execSpdmUnsupportedRequest (code : Byte) (s : State) : Host.Outcome State Fault Refusal :=
  .next (if spdmOn s then spdmAnswer s [spdmVersion s, 0x7F, 0x07, code] else s)

end Sys2Proof.Machine

/-! ### Requests in their plain form -/

namespace Sys2Proof
open Machine

/-- A request of version 1.3 with its two parameters; a requester's context of zeros stands last where one is carried. -/
def SpdmReq.plain (param1 param2 : Byte) (body : List Byte) : SpdmReq := { version := 0x13, param1 := param1, param2 := param2, body := body }
/-- GET_VERSION, which is always of version 1.0. -/
def SpdmReq.version10 : SpdmReq := { version := 0x10, param1 := 0, param2 := 0, body := [] }
/-- GET_CAPABILITIES of a requester with no capabilities and messages of 4 KiB. -/
def SpdmReq.capabilities : SpdmReq := .plain 0 0 (List.replicate 8 0 ++ leBytes 4 4096 ++ leBytes 4 4096)
/-- NEGOTIATE_ALGORITHMS that offers, in the first byte of each, asymmetric and hash algorithms, and measurement specifications. -/
def SpdmReq.algorithms (version asym hash measSpec : Byte) : SpdmReq :=
  { version := version, param1 := 0, param2 := 0,
    body := leBytes 2 32 ++ [measSpec, 0, asym, 0, 0, 0, hash, 0, 0, 0] ++ List.replicate 16 0 }
/-- GET_CERTIFICATE of a slot, an offset and a length. -/
def SpdmReq.certificate (slot : Byte) (off len : Nat) : SpdmReq := .plain slot 0 (leBytes 2 off ++ leBytes 2 len)
/-- CHALLENGE of a slot with a nonce, no summary asked for. -/
def SpdmReq.challenge (slot : Byte) (nonce : List Byte) : SpdmReq := .plain slot 0 (nonce ++ List.replicate 8 0)
/-- GET_MEASUREMENTS of an index, signed under a nonce or not. -/
def SpdmReq.measurements (index : Nat) (signed : Bool) (nonce : List Byte) : SpdmReq :=
  .plain (if signed then 1 else 0) (BitVec.ofNat 8 index) ((if signed then nonce ++ [0] else []) ++ List.replicate 8 0)

/-! Each as an instruction; the constructors lie beyond the 244 that Lean's compiler builds. -/

/-- GET_VERSION (R50). -/
noncomputable def Instr.spdmGetVersion : Instr := .spdmVersionRequest .version10
/-- GET_CAPABILITIES (R50). -/
noncomputable def Instr.spdmGetCapabilities : Instr := .spdmCapabilitiesRequest .capabilities
/-- NEGOTIATE_ALGORITHMS (R50). -/
noncomputable def Instr.spdmNegotiateAlgorithms (version asym hash measSpec : Byte) : Instr :=
  .spdmAlgorithmsRequest (.algorithms version asym hash measSpec)
/-- GET_DIGESTS (R50). -/
noncomputable def Instr.spdmGetDigests : Instr := .spdmDigestsRequest (.plain 0 0 [])
/-- GET_CERTIFICATE (R50). -/
noncomputable def Instr.spdmGetCertificate (slot : Byte) (off len : Nat) : Instr := .spdmCertificateRequest (.certificate slot off len)
/-- CHALLENGE (R50). -/
noncomputable def Instr.spdmChallenge (slot : Byte) (nonce : List Byte) : Instr := .spdmChallengeRequest (.challenge slot nonce)
/-- GET_MEASUREMENTS (R50). -/
noncomputable def Instr.spdmGetMeasurements (index : Nat) (signed : Bool) (nonce : List Byte) : Instr :=
  .spdmMeasurementsRequest (.measurements index signed nonce)

end Sys2Proof

namespace Sys2Proof.Machine

/-- GET_VERSION in its plain form. -/
def execSpdmGetVersion (s : State) : Host.Outcome State Fault Refusal := execSpdmVersionRequest .version10 s
/-- GET_CAPABILITIES in its plain form. -/
def execSpdmGetCapabilities (s : State) : Host.Outcome State Fault Refusal := execSpdmCapabilitiesRequest .capabilities s
/-- NEGOTIATE_ALGORITHMS in its plain form. -/
def execSpdmNegotiateAlgorithms (version asym hash measSpec : Byte) (s : State) : Host.Outcome State Fault Refusal :=
  execSpdmAlgorithmsRequest (.algorithms version asym hash measSpec) s
/-- GET_DIGESTS in its plain form. -/
def execSpdmGetDigests (s : State) : Host.Outcome State Fault Refusal := execSpdmDigestsRequest (.plain 0 0 []) s
/-- GET_CERTIFICATE in its plain form. -/
def execSpdmGetCertificate (slot : Byte) (off len : Nat) (s : State) : Host.Outcome State Fault Refusal :=
  execSpdmCertificateRequest (.certificate slot off len) s
/-- CHALLENGE in its plain form. -/
def execSpdmChallenge (slot : Byte) (nonce : List Byte) (s : State) : Host.Outcome State Fault Refusal :=
  execSpdmChallengeRequest (.challenge slot nonce) s
/-- GET_MEASUREMENTS in its plain form. -/
def execSpdmGetMeasurements (index : Nat) (signed : Bool) (nonce : List Byte) (s : State) : Host.Outcome State Fault Refusal :=
  execSpdmMeasurementsRequest (.measurements index signed nonce) s

end Sys2Proof.Machine
end

