-- ==== Sys2Proof/Machine/Dispatch.lean ====
section
/-! DEFINITION. One arm for each constructor of `Instr`: each is one call of that instruction's meaning. -/
namespace Sys2Proof.Machine

/-- What an instruction or an event does to the machine. -/
def exec (i : Instr) (s : State) : Host.Outcome State Fault Refusal :=
  match i with
  | .ferryWrite w d => Sys2Proof.Machine.execFerryWrite w d s
  | .ferryRead w d => Sys2Proof.Machine.execFerryRead w d s
  | .ferryTail w d => Sys2Proof.Machine.execFerryTail w d s
  | .ferryRearm w d => Sys2Proof.Machine.execFerryRearm w d s
  | .ferryLaunch w d => Sys2Proof.Machine.execFerryLaunch w d s
  | .sealRange w d => Sys2Proof.Machine.execSealRange w d s
  | .inval w d => Sys2Proof.Machine.execInval w d s
  | .service w d => Sys2Proof.Machine.execService w d s
  | .budget w d => Sys2Proof.Machine.execBudget w d s
  | .modeset w d => Sys2Proof.Machine.execModeset w d s
  | .thresh w d => Sys2Proof.Machine.execThresh w d s
  | .pcreate w d => Sys2Proof.Machine.execPcreate w d s
  | .pdestroy w d => Sys2Proof.Machine.execPdestroy w d s
  | .ferryBadop w d => Sys2Proof.Machine.execFerryBadop w d s
  | .ldp d sz imm => Sys2Proof.Machine.execLdp d sz imm s
  | .ldq d sz imm => Sys2Proof.Machine.execLdq d sz imm s
  | .stq a sz imm => Sys2Proof.Machine.execStq a sz imm s
  | .ldi d imm => Sys2Proof.Machine.execLdi d imm s
  | .pilotAdd d a b => Sys2Proof.Machine.execPilotAdd d a b s
  | .pilotSub d a b => Sys2Proof.Machine.execPilotSub d a b s
  | .pilotAddi d a imm => Sys2Proof.Machine.execPilotAddi d a imm s
  | .pilotAnd d a b => Sys2Proof.Machine.execPilotAnd d a b s
  | .pilotOr d a b => Sys2Proof.Machine.execPilotOr d a b s
  | .pilotXor d a b => Sys2Proof.Machine.execPilotXor d a b s
  | .pilotShl d a imm => Sys2Proof.Machine.execPilotShl d a imm s
  | .pilotShr d a imm => Sys2Proof.Machine.execPilotShr d a imm s
  | .beq a b imm => Sys2Proof.Machine.execBeq a b imm s
  | .bne a b imm => Sys2Proof.Machine.execBne a b imm s
  | .bltu a b imm => Sys2Proof.Machine.execBltu a b imm s
  | .loop d a imm => Sys2Proof.Machine.execLoop d a imm s
  | .stl a sz imm => Sys2Proof.Machine.execStl a sz imm s
  | .pilotLaunch d => Sys2Proof.Machine.execPilotLaunch d s
  | .sigw a b host => Sys2Proof.Machine.execSigw a b host s
  | .sigwait a b host rel => Sys2Proof.Machine.execSigwait a b host rel s
  | .emit a => Sys2Proof.Machine.execEmit a s
  | .fault imm => Sys2Proof.Machine.execFault imm s
  | .unallocatedOpcode why w => Sys2Proof.Machine.execUnallocatedOpcode why w s
  | .iaddS o => Sys2Proof.Machine.execIaddS o s
  | .isubS o => Sys2Proof.Machine.execIsubS o s
  | .imulS o => Sys2Proof.Machine.execImulS o s
  | .imulhS o => Sys2Proof.Machine.execImulhS o s
  | .iminS o => Sys2Proof.Machine.execIminS o s
  | .imaxS o => Sys2Proof.Machine.execImaxS o s
  | .iabsS o => Sys2Proof.Machine.execIabsS o s
  | .inegS o => Sys2Proof.Machine.execInegS o s
  | .andS o => Sys2Proof.Machine.execAndS o s
  | .orS o => Sys2Proof.Machine.execOrS o s
  | .xorS o => Sys2Proof.Machine.execXorS o s
  | .andnS o => Sys2Proof.Machine.execAndnS o s
  | .notS o => Sys2Proof.Machine.execNotS o s
  | .shlS o => Sys2Proof.Machine.execShlS o s
  | .shrS o => Sys2Proof.Machine.execShrS o s
  | .sarS o => Sys2Proof.Machine.execSarS o s
  | .rotS o => Sys2Proof.Machine.execRotS o s
  | .popcS o => Sys2Proof.Machine.execPopcS o s
  | .clzS o => Sys2Proof.Machine.execClzS o s
  | .brevS o => Sys2Proof.Machine.execBrevS o s
  | .movS o => Sys2Proof.Machine.execMovS o s
  | .faddS o => Sys2Proof.Machine.execFaddS o s
  | .fsubS o => Sys2Proof.Machine.execFsubS o s
  | .fmulS o => Sys2Proof.Machine.execFmulS o s
  | .fmulzS o => Sys2Proof.Machine.execFmulzS o s
  | .fminS o => Sys2Proof.Machine.execFminS o s
  | .fmaxS o => Sys2Proof.Machine.execFmaxS o s
  | .frcpS o => Sys2Proof.Machine.execFrcpS o s
  | .frsqS o => Sys2Proof.Machine.execFrsqS o s
  | .fsqrtS o => Sys2Proof.Machine.execFsqrtS o s
  | .fexp2S o => Sys2Proof.Machine.execFexp2S o s
  | .flog2S o => Sys2Proof.Machine.execFlog2S o s
  | .fsinS o => Sys2Proof.Machine.execFsinS o s
  | .fcosS o => Sys2Proof.Machine.execFcosS o s
  | .ftanhS o => Sys2Proof.Machine.execFtanhS o s
  | .trace h => Sys2Proof.Machine.execTrace h s
  | .endTrace o => Sys2Proof.Machine.execEndTrace o s
  | .endx o => Sys2Proof.Machine.execEndx o s
  | .join o => Sys2Proof.Machine.execJoin o s
  | .guard o => Sys2Proof.Machine.execGuard o s
  | .guardc o => Sys2Proof.Machine.execGuardc o s
  | .callt o => Sys2Proof.Machine.execCallt o s
  | .trap o => Sys2Proof.Machine.execTrap o s
  | .brk o => Sys2Proof.Machine.execBrk o s
  | .plogic o => Sys2Proof.Machine.execPlogic o s
  | .pnot o => Sys2Proof.Machine.execPnot o s
  | .pmov o => Sys2Proof.Machine.execPmov o s
  | .pvote o => Sys2Proof.Machine.execPvote o s
  | .ptov o => Sys2Proof.Machine.execPtov o s
  | .vtop o => Sys2Proof.Machine.execVtop o s
  | .pforce o => Sys2Proof.Machine.execPforce o s
  | .waitc c => Sys2Proof.Machine.execWaitc c s
  | .waitp o => Sys2Proof.Machine.execWaitp o s
  | .waitseq o => Sys2Proof.Machine.execWaitseq o s
  | .bar o => Sys2Proof.Machine.execBar o s
  | .cbar o => Sys2Proof.Machine.execCbar o s
  | .fence o => Sys2Proof.Machine.execFence o s
  | .qfence o => Sys2Proof.Machine.execQfence o s
  | .qopen o => Sys2Proof.Machine.execQopen o s
  | .qclose o => Sys2Proof.Machine.execQclose o s
  | .pushq o => Sys2Proof.Machine.execPushq o s
  | .popq o => Sys2Proof.Machine.execPopq o s
  | .qstat o => Sys2Proof.Machine.execQstat o s
  | .ticket o => Sys2Proof.Machine.execTicket o s
  | .spawn o => Sys2Proof.Machine.execSpawn o s
  | .iadd o => Sys2Proof.Machine.execIadd o s
  | .isub o => Sys2Proof.Machine.execIsub o s
  | .iaddc o => Sys2Proof.Machine.execIaddc o s
  | .imul o => Sys2Proof.Machine.execImul o s
  | .imulh o => Sys2Proof.Machine.execImulh o s
  | .imad o => Sys2Proof.Machine.execImad o s
  | .imin o => Sys2Proof.Machine.execImin o s
  | .imax o => Sys2Proof.Machine.execImax o s
  | .iabs o => Sys2Proof.Machine.execIabs o s
  | .ineg o => Sys2Proof.Machine.execIneg o s
  | .and o => Sys2Proof.Machine.execAnd o s
  | .or o => Sys2Proof.Machine.execOr o s
  | .xor o => Sys2Proof.Machine.execXor o s
  | .andn o => Sys2Proof.Machine.execAndn o s
  | .not o => Sys2Proof.Machine.execNot o s
  | .shl o => Sys2Proof.Machine.execShl o s
  | .shr o => Sys2Proof.Machine.execShr o s
  | .sar o => Sys2Proof.Machine.execSar o s
  | .rot o => Sys2Proof.Machine.execRot o s
  | .bfe o => Sys2Proof.Machine.execBfe o s
  | .bfi o => Sys2Proof.Machine.execBfi o s
  | .popc o => Sys2Proof.Machine.execPopc o s
  | .clz o => Sys2Proof.Machine.execClz o s
  | .brev o => Sys2Proof.Machine.execBrev o s
  | .icmp o => Sys2Proof.Machine.execIcmp o s
  | .sel o => Sys2Proof.Machine.execSel o s
  | .lea o => Sys2Proof.Machine.execLea o s
  | .mov o => Sys2Proof.Machine.execMov o s
  | .movi o => Sys2Proof.Machine.execMovi o s
  | .fadd o => Sys2Proof.Machine.execFadd o s
  | .fsub o => Sys2Proof.Machine.execFsub o s
  | .fmul o => Sys2Proof.Machine.execFmul o s
  | .fmulz o => Sys2Proof.Machine.execFmulz o s
  | .fma o => Sys2Proof.Machine.execFma o s
  | .fmaz o => Sys2Proof.Machine.execFmaz o s
  | .fmin o => Sys2Proof.Machine.execFmin o s
  | .fmax o => Sys2Proof.Machine.execFmax o s
  | .fcmp o => Sys2Proof.Machine.execFcmp o s
  | .fclass o => Sys2Proof.Machine.execFclass o s
  | .frnd o => Sys2Proof.Machine.execFrnd o s
  | .fscale o => Sys2Proof.Machine.execFscale o s
  | .frcp o => Sys2Proof.Machine.execFrcp o s
  | .frsq o => Sys2Proof.Machine.execFrsq o s
  | .fsqrt o => Sys2Proof.Machine.execFsqrt o s
  | .fexp2 o => Sys2Proof.Machine.execFexp2 o s
  | .flog2 o => Sys2Proof.Machine.execFlog2 o s
  | .fsin o => Sys2Proof.Machine.execFsin o s
  | .fcos o => Sys2Proof.Machine.execFcos o s
  | .ftanh o => Sys2Proof.Machine.execFtanh o s
  | .cvt o => Sys2Proof.Machine.execCvt o s
  | .pack o => Sys2Proof.Machine.execPack o s
  | .unpack o => Sys2Proof.Machine.execUnpack o s
  | .dot4 o => Sys2Proof.Machine.execDot4 o s
  | .dot8 o => Sys2Proof.Machine.execDot8 o s
  | .bscale o => Sys2Proof.Machine.execBscale o s
  | .ivmake o => Sys2Proof.Machine.execIvmake o s
  | .ivadd o => Sys2Proof.Machine.execIvadd o s
  | .ivsub o => Sys2Proof.Machine.execIvsub o s
  | .ivmul o => Sys2Proof.Machine.execIvmul o s
  | .ivdiv o => Sys2Proof.Machine.execIvdiv o s
  | .ivsqr o => Sys2Proof.Machine.execIvsqr o s
  | .ivsqrt o => Sys2Proof.Machine.execIvsqrt o s
  | .ivhull o => Sys2Proof.Machine.execIvhull o s
  | .ivisect o => Sys2Proof.Machine.execIvisect o s
  | .ivmid o => Sys2Proof.Machine.execIvmid o s
  | .ivwid o => Sys2Proof.Machine.execIvwid o s
  | .ivcmp o => Sys2Proof.Machine.execIvcmp o s
  | .ivsplit o => Sys2Proof.Machine.execIvsplit o s
  | .ivbis o => Sys2Proof.Machine.execIvbis o s
  | .ivld o => Sys2Proof.Machine.execIvld o s
  | .ivst o => Sys2Proof.Machine.execIvst o s
  | .ivmakeIv16 o => Sys2Proof.Machine.execIvmakeIv16 o s
  | .ivaddIv16 o => Sys2Proof.Machine.execIvaddIv16 o s
  | .ivsubIv16 o => Sys2Proof.Machine.execIvsubIv16 o s
  | .ivmulIv16 o => Sys2Proof.Machine.execIvmulIv16 o s
  | .ivdivIv16 o => Sys2Proof.Machine.execIvdivIv16 o s
  | .ivsqrIv16 o => Sys2Proof.Machine.execIvsqrIv16 o s
  | .ivsqrtIv16 o => Sys2Proof.Machine.execIvsqrtIv16 o s
  | .ivhullIv16 o => Sys2Proof.Machine.execIvhullIv16 o s
  | .ivisectIv16 o => Sys2Proof.Machine.execIvisectIv16 o s
  | .ivmidIv16 o => Sys2Proof.Machine.execIvmidIv16 o s
  | .ivwidIv16 o => Sys2Proof.Machine.execIvwidIv16 o s
  | .ivcmpIv16 o => Sys2Proof.Machine.execIvcmpIv16 o s
  | .ivsplitIv16 o => Sys2Proof.Machine.execIvsplitIv16 o s
  | .ivbisIv16 o => Sys2Proof.Machine.execIvbisIv16 o s
  | .ivldIv16 o => Sys2Proof.Machine.execIvldIv16 o s
  | .ivstIv16 o => Sys2Proof.Machine.execIvstIv16 o s
  | .shfl o => Sys2Proof.Machine.execShfl o s
  | .qswap o => Sys2Proof.Machine.execQswap o s
  | .qbcast o => Sys2Proof.Machine.execQbcast o s
  | .matchLanes o => Sys2Proof.Machine.execMatchLanes o s
  | .redux o => Sys2Proof.Machine.execRedux o s
  | .scan o => Sys2Proof.Machine.execScan o s
  | .rdlane o => Sys2Proof.Machine.execRdlane o s
  | .wrlane o => Sys2Proof.Machine.execWrlane o s
  | .ld o => Sys2Proof.Machine.execLd o s
  | .st o => Sys2Proof.Machine.execSt o s
  | .ldu o => Sys2Proof.Machine.execLdu o s
  | .stu o => Sys2Proof.Machine.execStu o s
  | .lds o => Sys2Proof.Machine.execLds o s
  | .sts o => Sys2Proof.Machine.execSts o s
  | .lda o => Sys2Proof.Machine.execLda o s
  | .ldlit o => Sys2Proof.Machine.execLdlit o s
  | .pref o => Sys2Proof.Machine.execPref o s
  | .cctl o => Sys2Proof.Machine.execCctl o s
  | .icinv o => Sys2Proof.Machine.execIcinv o s
  | .atom o => Sys2Proof.Machine.execAtom o s
  | .atoms o => Sys2Proof.Machine.execAtoms o s
  | .red o => Sys2Proof.Machine.execRed o s
  | .sred o => Sys2Proof.Machine.execSred o s
  | .bop o => Sys2Proof.Machine.execBop o s
  | .gang o => Sys2Proof.Machine.execGang o s
  | .mma o => Sys2Proof.Machine.execMma o s
  | .layout o => Sys2Proof.Machine.execLayout o s
  | .copy o => Sys2Proof.Machine.execCopy o s
  | .gather o => Sys2Proof.Machine.execGather o s
  | .scatter o => Sys2Proof.Machine.execScatter o s
  | .coll o => Sys2Proof.Machine.execColl o s
  | .seqrd o => Sys2Proof.Machine.execSeqrd o s
  | .rcall o => Sys2Proof.Machine.execRcall o s
  | .rread o => Sys2Proof.Machine.execRread o s
  | .rsync o => Sys2Proof.Machine.execRsync o s
  | .rret o => Sys2Proof.Machine.execRret o s
  | .tstep o => Sys2Proof.Machine.execTstep o s
  | .pdgset o => Sys2Proof.Machine.execPdgset o s
  | .pdgrd o => Sys2Proof.Machine.execPdgrd o s
  | .dlog o => Sys2Proof.Machine.execDlog o s
  | .sysrd o => Sys2Proof.Machine.execSysrd o s
  | .sysrdCycle o => Sys2Proof.Machine.execSysrdCycle o s
  | .syswrFmode o => Sys2Proof.Machine.execSyswrFmode o s
  | .syswrFstat o => Sys2Proof.Machine.execSyswrFstat o s
  | .syswrSfrqPop o => Sys2Proof.Machine.execSyswrSfrqPop o s
  | .syswrSfrqClearLost o => Sys2Proof.Machine.execSyswrSfrqClearLost o s
  | .syswrPreempt o => Sys2Proof.Machine.execSyswrPreempt o s
  | .syswrSavelo o => Sys2Proof.Machine.execSyswrSavelo o s
  | .syswrSavehi o => Sys2Proof.Machine.execSyswrSavehi o s
  | .syswrLdaerr o => Sys2Proof.Machine.execSyswrLdaerr o s
  | .hintKeep o => Sys2Proof.Machine.execHintKeep o s
  | .hintStream o => Sys2Proof.Machine.execHintStream o s
  | .hintOcc o => Sys2Proof.Machine.execHintOcc o s
  | .hintThr o => Sys2Proof.Machine.execHintThr o s
  | .hintUnimplemented k o => Sys2Proof.Machine.execHintUnimplemented k o s
  | .packageReset flash => Sys2Proof.Machine.execPackageReset flash s
  | .boundaryFlitReceive b rev flit crc => Sys2Proof.Machine.execBoundaryFlitReceive b rev flit crc s
  | .boundaryRetrain b ok => Sys2Proof.Machine.execBoundaryRetrain b ok s
  | .causewayFlitReceive port flit crc => Sys2Proof.Machine.execCausewayFlitReceive port flit crc s
  | .arbiterPeriodEnd die power temp => Sys2Proof.Machine.execArbiterPeriodEnd die power temp s
  | .scrubLine die e => Sys2Proof.Machine.execScrubLine die e s
  | .subarraySelfTest core sub product => Sys2Proof.Machine.execSubarraySelfTest core sub product s
  | .spdmAlgorithmsRequest r => Sys2Proof.Machine.execSpdmAlgorithmsRequest r s
  | .spdmCertificateRequest r => Sys2Proof.Machine.execSpdmCertificateRequest r s
  | .spdmChallengeRequest r => Sys2Proof.Machine.execSpdmChallengeRequest r s
  | .spdmMeasurementsRequest r => Sys2Proof.Machine.execSpdmMeasurementsRequest r s
  | .spdmUnsupportedRequest code => Sys2Proof.Machine.execSpdmUnsupportedRequest code s
  | .cmdtailWrite w v => Sys2Proof.Machine.execCmdtailWrite w v s
  | .cplheadWrite w v => Sys2Proof.Machine.execCplheadWrite w v s
  | .evheadWrite w v => Sys2Proof.Machine.execEvheadWrite w v s
  | .ringBaseSizeWrite w r v => Sys2Proof.Machine.execRingBaseSizeWrite w r v s
  | .wstateRunSet w => Sys2Proof.Machine.execWstateRunSet w s
  | .wstateRunClear w => Sys2Proof.Machine.execWstateRunClear w s
  | .registerWrite bar off v => Sys2Proof.Machine.execRegisterWrite bar off v s
  | .eventRingWrite w => Sys2Proof.Machine.execEventRingWrite w s
  | .fetcherVisit die => Sys2Proof.Machine.execFetcherVisit die s
  | .fetchFaultRetry part q => Sys2Proof.Machine.execFetchFaultRetry part q s
  | .launchPlacement part => Sys2Proof.Machine.execLaunchPlacement part s
  | .gridTermination part serial => Sys2Proof.Machine.execGridTermination part serial s
  | .taskGather part q => Sys2Proof.Machine.execTaskGather part q s
  | .traceCommit g n => Sys2Proof.Machine.execTraceCommit g n s
  | .rejoinFusion g n => Sys2Proof.Machine.execRejoinFusion g n s
  | .fragmentSpillMove g n => Sys2Proof.Machine.execFragmentSpillMove g n s
  | .loadDataReturn g id e => Sys2Proof.Machine.execLoadDataReturn g id e s
  | .postedStoreCheck id => Sys2Proof.Machine.execPostedStoreCheck id s
  | .storePerformed id elem => Sys2Proof.Machine.execStorePerformed id elem s
  | .deferredAtomicPerform id elem mf => Sys2Proof.Machine.execDeferredAtomicPerform id elem mf s
  | .atomicRepair die id => Sys2Proof.Machine.execAtomicRepair die id s
  | .atomicReplay die id => Sys2Proof.Machine.execAtomicReplay die id s
  | .sredElementApply id elem turn => Sys2Proof.Machine.execSredElementApply id elem turn s
  | .sredPeerElement part die addr op ty value => Sys2Proof.Machine.execSredPeerElement part die addr op ty value s
  | .ldaElementWrite id elem e => Sys2Proof.Machine.execLdaElementWrite id elem e s
  | .mmaEntry core => Sys2Proof.Machine.execMmaEntry core s
  | .layoutEntry clu => Sys2Proof.Machine.execLayoutEntry clu s
  | .copyEntry core e => Sys2Proof.Machine.execCopyEntry core e s
  | .gatherEntry core => Sys2Proof.Machine.execGatherEntry core s
  | .scatterEntry core => Sys2Proof.Machine.execScatterEntry core s
  | .collEntry part die peers => Sys2Proof.Machine.execCollEntry part die peers s
  | .collPeerTimeout part die => Sys2Proof.Machine.execCollPeerTimeout part die s
  | .qfenceEntry q => Sys2Proof.Machine.execQfenceEntry q s
  | .gangwayLatchOpen g => Sys2Proof.Machine.execGangwayLatchOpen g s
  | .barrierComplete b => Sys2Proof.Machine.execBarrierComplete b s
  | .ringPush g n => Sys2Proof.Machine.execRingPush g n s
  | .ringPop g n => Sys2Proof.Machine.execRingPop g n s
  | .preemptRequestArrival part serial core => Sys2Proof.Machine.execPreemptRequestArrival part serial core s
  | .preemptAllowanceExpiry g n => Sys2Proof.Machine.execPreemptAllowanceExpiry g n s
  | .preemptHandlerStart g => Sys2Proof.Machine.execPreemptHandlerStart g s
  | .yieldSave g => Sys2Proof.Machine.execYieldSave g s
  | .launchRestore part serial => Sys2Proof.Machine.execLaunchRestore part serial s
  | .clusterTermination clu => Sys2Proof.Machine.execClusterTermination clu s
  | .emulationFrame g n => Sys2Proof.Machine.execEmulationFrame g n s
  | .emulationResultWrite g n => Sys2Proof.Machine.execEmulationResultWrite g n s
  | .manifestAppend g n => Sys2Proof.Machine.execManifestAppend g n s
  | .landingApply part die obj => Sys2Proof.Machine.execLandingApply part die obj s
  | .rreadMethodRun g id => Sys2Proof.Machine.execRreadMethodRun g id s
  | .upstreamLinkTraining width rate => Sys2Proof.Machine.execUpstreamLinkTraining width rate s
  | .supplyMonitorReset => Sys2Proof.Machine.execSupplyMonitorReset s
  | .spdmVersionRequest r => Sys2Proof.Machine.execSpdmVersionRequest r s
  | .spdmCapabilitiesRequest r => Sys2Proof.Machine.execSpdmCapabilitiesRequest r s
  | .spdmDigestsRequest r => Sys2Proof.Machine.execSpdmDigestsRequest r s
  | .pilotStepBudgetExhausted => Sys2Proof.Machine.execPilotStepBudgetExhausted s
  | .pilotFence => Sys2Proof.Machine.execPilotFence s
  | .done => Sys2Proof.Machine.execDone s
  | .nop => Sys2Proof.Machine.execNop s
  | .exit => Sys2Proof.Machine.execExit s
  | .rett => Sys2Proof.Machine.execRett s
  | .kill => Sys2Proof.Machine.execKill s
  | .yield => Sys2Proof.Machine.execYield s
  | .resume => Sys2Proof.Machine.execResume s
  | .nopLong => Sys2Proof.Machine.execNopLong s
  | .gate => Sys2Proof.Machine.execGate s
  | .release => Sys2Proof.Machine.execRelease s
  | .drain => Sys2Proof.Machine.execDrain s
  | .savesplit => Sys2Proof.Machine.execSavesplit s
  | .loadsplit => Sys2Proof.Machine.execLoadsplit s

end Sys2Proof.Machine
end

