-- ==== Sys2Proof/Machine/Caches.lean ====
section
/-! DEFINITION. What moves without being an instruction or an event of the opcode table: TLB, L1 and instruction-cache copies (R142,
R144, R159, R285), the clock (R3), and the host's own memory (R33). -/
namespace Sys2Proof.Machine

/-! ### Translation copies (R142, R144) -/

/-- The base of the table that a walk reads at a level, or none where it stops before. -/
def tableBase (s : State) (unit part level va : Nat) : Option Nat :=
  match s.part? part with
  | none => none
  | some p =>
    let die := unitDie unit
    let next := fun (level base : Nat) => match pteAt s unit die part level va base with
      | .ok e => pteNext e
      | .error _ => none
    if 4 * hbmDie ≤ p.root then none
    else if level = 1 then some p.root
    else
      match next 1 p.root with
      | none => none
      | some b2 => if level = 2 then some b2 else if level = 3 then next 2 b2 else none

/-- A TLB keeps a copy of a present entry: a core's of leaves only. The read waits behind a parked atomic (R156), meets the check code of
its line (R26, R27), and an entry that memory cannot give leaves no copy [98]. -/
def tlbFill (s : State) (unit part level va : Nat) : State :=
  let die := unitDie unit
  if 196 ≤ unit || !(s.die die).running || 2 ^ 55 ≤ va || walkHeld s unit die part va then s
  else
    let s1 := seeWalk s unit die part va
    match tableBase s1 unit part level va with
    | none => s1
    | some b =>
      let tag := va >>> levelShift level
      let e := leNat (pread s1 (pteAddr level va b) 8)
      if pteBad s1 die (pteAddr level va b) || !bit e 0 || (unit < 192 && !bit e 5) ||
          (s1.tlb.any fun x => x.unit == unit && x.part == part && x.level == level && x.tag == tag) then s1
      else { s1 with tlb := s1.tlb ++ [{ unit := unit, part := part, level := level, tag := tag, value := e }] }

/-- A copy is replaced. -/
def tlbEvict (s : State) (unit part level va : Nat) : State :=
  { s with tlb := s.tlb.filter fun x => !(x.unit == unit && x.part == part && x.level == level && x.tag == va >>> levelShift level) }

/-! ### Data and instruction copies -/

/-- A core's L1 keeps a copy of a line of HBM or of the second tier (R159), once no atomic is parked on it (R156). -/
def l1Fill (s : State) (core line : Nat) : State :=
  let pa := line / 64 * 64
  let cached := match tierOf pa with
    | some (.bench, _) => false
    | some _ => true
    | none => false
  if 192 ≤ core || !cached || !populated s pa || (l1Copy s core pa).isSome || lineParked s pa then s
  else
    let s1 := seeSpan s (dieOfCore core) pa 64 (ownerOf s (cluOfCore core)) (core % 48)
    if badSpan s1 (dieOfCore core) pa 64 then s1 else { s1 with l1 := s1.l1 ++ [(core, pa, pread s1 pa 64)] }

/-- A core's instruction cache keeps a copy of a line of virtual addresses, filled by a device-scope read (R285), once no atomic is parked
on it or on its walk (R156); unit 192 + d is the landing pipeline of die d. -/
def icacheFill (s : State) (core part line : Nat) : State :=
  let va := line / 64 * 64
  let die := unitDie core
  if 196 ≤ core || (s.icache.any fun e => e.1 == core && e.2.1 == part && e.2.2.1 == va) || vaHeld s core die part va 64 .exec then s
  else
    let s1 := seeVaOf s core die part va 64 .exec
    match translate s1 core die part va .exec with
    | .error _ => s1
    | .ok x => if badSpan s1 die x.pa 64 then s1 else { s1 with icache := s1.icache ++ [(core, part, va, pread s1 x.pa 64)] }

/-- The copy goes. -/
def icacheEvict (s : State) (core part line : Nat) : State :=
  { s with icache := s.icache.filter fun e => !(e.1 == core && e.2.1 == part && e.2.2.1 == line / 64 * 64) }

/-! ### Time and the host -/

/-- Clocks of a die pass (R3). -/
def passClocks (s : State) (die n : Nat) : State :=
  let d := s.die die
  if d.running then s.setDie die { d with clock := d.clock + n } else s

/-- Clocks of one core pass, as its CYCLE counts them (R3). -/
def passCoreClocks (s : State) (core n : Nat) : State :=
  if (s.die (dieOfCore core)).running then { s with cycles := s.cycles.set core (s.cycles.getD core 0 + n) } else s

/-! ### Bits that change in their stores (R25) -/

/-- A register's check code comes to show an error. -/
def setRegFlaw (s : State) (g : Nat) (ref : RegRef) (bad : Bool) (synd : Nat) : State :=
  match s.group? g with
  | some x => s.setGroup { x with flaws := x.flaws.filter (fun f => f.ref != ref) ++ [{ ref := ref, bad := bad, synd := synd, seq := none }] }
  | none => s

/-- The check code of a scratchpad bank word comes to show an error. -/
def setWordFlaw (s : State) (part : Nat) (serial : Word) (wkg off : Nat) (bad : Bool) (synd : Nat) : State :=
  match s.wkg? part serial wkg with
  | some w =>
    let o := off / 4 * 4
    if w.share ≤ o then s
    else s.setWkg { w with flaws := w.flaws.filter (fun f => f.off != o) ++ [{ off := o, bad := bad, synd := synd, seq := none }] }
  | none => s

/-- A 64-byte line of host memory starts or stops failing (R33). -/
def setHostFail (s : State) (addr : Nat) (fails : Bool) : State :=
  let line := addr / 64 * 64
  let rest := s.hostfail.filter fun r => r.1 != line
  { s with hostfail := if fails then rest ++ [(line, 64)] else rest }

/-- One activity that is no instruction and no event. -/
def background (a : Activity) (s : State) : State :=
  match a with
  | .tlbFill unit part level va => tlbFill s unit part level va
  | .tlbEvict unit part level va => tlbEvict s unit part level va
  | .l1Fill core line => l1Fill s core line
  | .l1Evict core line => l1Drop s core line
  | .icacheFill core part line => icacheFill s core part line
  | .icacheEvict core part line => icacheEvict s core part line
  | .clocks die n => passClocks s die n
  | .coreClocks core n => passCoreClocks s core n
  | .flitSend src dst data => sendFlit s src dst data
  | .portSend port data => portSend s port data
  | .portPeerSend port data => portPeerSend s port data
  | .portPeerCheck port good => portPeerCheck s port good
  | .lineFlaw line e => if populated s line then setFlaw s (line / 64 * 64) e else s
  | .regFlaw g vector lane reg bad synd => setRegFlaw s g (if vector then .v lane reg else .s reg) bad synd
  | .scratchFlaw part serial wkg off bad synd => setWordFlaw s part serial wkg off bad synd
  | .hostRead bar off => { s with hostRead := registerRead s bar off }
  | .hostWrite addr data => hwrite s addr data
  | .hostFail addr fails => setHostFail s addr fails
  | .issue _ _ => s
  | .pilot _ => s
  | .ferry _ => s
  | .event _ => s

end Sys2Proof.Machine
end

