-- ==== Sys2Proof/Machine/Step.lean ====
section
/-! DEFINITION. One step of the machine: one activity, which the agenda names, or the machine's own timing (R101, R102, R168) [1]. -/
namespace Sys2Proof.Machine

/-- A row of the opcode table that happens by itself, not by being fetched. -/
def isEvent : Instr → Bool
  | .packageReset .. => true
  | .boundaryFlitReceive .. => true
  | .boundaryRetrain .. => true
  | .causewayFlitReceive .. => true
  | .arbiterPeriodEnd .. => true
  | .scrubLine .. => true
  | .subarraySelfTest .. => true
  | .spdmAlgorithmsRequest .. => true
  | .spdmCertificateRequest .. => true
  | .spdmChallengeRequest .. => true
  | .spdmMeasurementsRequest .. => true
  | .spdmUnsupportedRequest .. => true
  | .cmdtailWrite .. => true
  | .cplheadWrite .. => true
  | .evheadWrite .. => true
  | .ringBaseSizeWrite .. => true
  | .wstateRunSet .. => true
  | .wstateRunClear .. => true
  | .registerWrite .. => true
  | .eventRingWrite .. => true
  | .fetcherVisit .. => true
  | .fetchFaultRetry .. => true
  | .launchPlacement .. => true
  | .gridTermination .. => true
  | .taskGather .. => true
  | .traceCommit .. => true
  | .rejoinFusion .. => true
  | .fragmentSpillMove .. => true
  | .loadDataReturn .. => true
  | .postedStoreCheck .. => true
  | .storePerformed .. => true
  | .deferredAtomicPerform .. => true
  | .atomicRepair .. => true
  | .atomicReplay .. => true
  | .sredElementApply .. => true
  | .sredPeerElement .. => true
  | .ldaElementWrite .. => true
  | .mmaEntry .. => true
  | .layoutEntry .. => true
  | .copyEntry .. => true
  | .gatherEntry .. => true
  | .scatterEntry .. => true
  | .collEntry .. => true
  | .collPeerTimeout .. => true
  | .qfenceEntry .. => true
  | .gangwayLatchOpen .. => true
  | .barrierComplete .. => true
  | .ringPush .. => true
  | .ringPop .. => true
  | .preemptRequestArrival .. => true
  | .preemptAllowanceExpiry .. => true
  | .preemptHandlerStart .. => true
  | .yieldSave .. => true
  | .launchRestore .. => true
  | .clusterTermination .. => true
  | .emulationFrame .. => true
  | .emulationResultWrite .. => true
  | .manifestAppend .. => true
  | .landingApply .. => true
  | .rreadMethodRun .. => true
  | .upstreamLinkTraining .. => true
  | .supplyMonitorReset .. => true
  | .spdmVersionRequest .. => true
  | .spdmCapabilitiesRequest .. => true
  | .spdmDigestsRequest .. => true
  | _ => false

/-- The step is over: nothing is issuing. -/
def settle : Host.Outcome State Fault Refusal → Host.Outcome State Fault Refusal
  | .next s => .next { s with cur := .none }
  | .fault f => .fault f
  | .refused r => .refused r

/-- Run an instruction that a fragment, a pilot or nothing issues. -/
def issue (c : Cur) (i : Instr) (s : State) : Host.Outcome State Fault Refusal := settle (exec i { s with cur := c })

/-- One activity. An activity that finds nothing to do changes nothing. -/
def act (a : Activity) (s : State) : Host.Outcome State Fault Refusal :=
  match a with
  | .issue g n =>
    (match fetchFor s g n with
     | .idle => .next s
     | .fault t => .next t
     | .instr t i => issue (.frag g n) i t)
  | .pilot die =>
    (match pilotFetch s die with
     | some (part, q, i) => issue (.pilot part q) i s
     | none => .next s)
  | .ferry w =>
    if w < Config.windows then
      (match ferryFetch s w with
       | .idle => .next s
       | .fault t => .next t
       | .instr t i => issue .none i t)
    else .next s
  | .event i => if isEvent i then issue .none i s else .next s
  | a => .next (background a s)

/-- Who moves. -/
def chosen (s : State) : Activity :=
  match s.agenda with
  | a :: _ => a
  | [] => Config.nextActivity s.tick

/-- One step. -/
def step (s : State) : Host.Outcome State Fault Refusal :=
  act (chosen s) { s with agenda := s.agenda.tail, tick := s.tick + 1 }

/-! ### An instruction placed for the next step -/

namespace State

/-- Page tables in HBM of die 0 that map one 64 KiB page at 0x1_0000 with every permission: level by level at 0x1_0000, 0x2_0000 and
0x3_0000, the page itself at 0x4_0000. -/
def probeTables : List (Nat × Nat) := [(0x10000, 0x2001), (0x20000, 0x3001), (0x30008, 0x412F)]

/-- The partition of a placed instruction: cluster 0, page tables at 0x1_0000. -/
def probePart : Partition := partNew (putAt (putAt (List.replicate 64 0) 32 [1]) 40 (leBytes 8 0x10000))
/-- Its launch, running. -/
def probeLaunch : Launch :=
  { part := 0, serial := 1, slot := 0, record := List.replicate 64 0, st := .placed, release := 0, next := 0, gateOpen := true,
    fatal := false, gateLive := false, preempting := none, cbars := [], lastTask := (0, 0) }
/-- Its workgroup on core 0. -/
def probeWkg : Workgroup :=
  { part := 0, serial := 1, wkg := 0, core := 0, share := 65536, data := [], flaws := [], bars := [], st := .running, ended := [], saves := [] }
/-- The header of the trace that it stands in. -/
def probeHdr : TraceHdr :=
  { kind := 0, mode := false, nlen := 255, nstore := 24, nshadow := 32, natom := 4, npost := 4, nspawn := true, zero := false, rejoin := 0, park := 0 }
/-- Its group of 96 lanes and 256 registers, in an open trace at 0x1_0000, or about to enter it. -/
def probeGroup (uid : Nat) (header : Bool) : Group :=
  let n := entryNode allLanes 0x10000 (s63Of 1 0 0 0)
  let g := groupAtEntry { probeLaunch with record := putAt probeLaunch.record 29 [16] } 0 0 0 0 uid 0 0x10000 n
  let g1 := { g with nregs := 256 }
  if header then g1 else g1.setNode { n with ctx := some (openCtx g1 n probeHdr) }

/-- A die that runs. -/
def probeDie (s : State) : State := s.setDie 0 { s.die 0 with running := true, tripped := false }

/-- Where a fragment that is to issue fetches its instruction. -/
def fetchAt (s : State) (gid nix : Nat) : Option Nat :=
  match s.group? gid with
  | none => none
  | some g =>
    match g.node? nix with
    | none => none
    | some n =>
      match translate s g.core g.die g.part (match n.ctx with
        | some c => c.pc
        | none => n.trace) .exec with
      | .ok x => some x.pa
      | .error _ => none

/-- A fragment that reads again the words of its trace. -/
def unfetched (s : State) (gid nix : Nat) : State :=
  match s.group? gid with
  | none => s
  | some g =>
    match g.node? nix with
    | none => s
    | some n => s.setGroup (g.setNode { n with ctx := n.ctx.map fun c => { c with fetched := [] } })

/-- An instruction of a core: where a fragment is about to issue, or in a machine made ready for it. -/
def placeCore (s : State) (nbits w : Nat) : State :=
  let here := match s.agenda with
    | .issue g n :: _ => (s.fetchAt g n).map fun pa => (g, n, pa)
    | _ => none
  match here with
  | some (g, n, pa) => ({ s with mem := swrite s.mem pa (tableBytes nbits w), icache := [] }).unfetched g n
  | none =>
    let header := match decodeTableWord nbits w with
      | some (.trace _) => true
      | _ => false
    let s1 := probeDie s
    let mem := probeTables.foldl (fun m e => swrite m e.1 (leBytes 8 e.2)) s1.mem
    let pa := if header then 0x40000 else 0x40008
    { s1 with mem := swrite mem pa (tableBytes nbits w), parts := [probePart], launches := [probeLaunch], wkgs := [probeWkg],
              groups := [probeGroup s.nextId header], nextId := s.nextId + 1, tlb := [], icache := [], fatals := [], calls := [],
              agenda := [.issue s.nextId 0] }

/-- A pilot operation: the program of queue 0 of a partition, visited by die 0. -/
def placePilot (s : State) (w : Nat) : State :=
  let s1 := probeDie s
  let q : Queue := { queueNew 0 with st := .active, busy := true, pilot := [BitVec.ofNat 32 w], packet := List.replicate 64 0 }
  let d := s1.die 0
  let s2 := s1.setDie 0 { d with visit := some (0, 0), visitSteps := 0 }
  { s2 with parts := [probePart.setQueue q], agenda := [.pilot 0] }

/-- The state with an instruction of the opcode table stored where the next step fetches, so that the very next step runs it [42]. -/
def withFetchWord (s : State) (nbits w : Nat) : State :=
  match decodeTableWord nbits w with
  | some i => if (encode i).length = 1 && (decode (tableBytes nbits w)).toOption.map (·.1) != some i then s.placePilot w else s.placeCore nbits w
  | none => s.placeCore nbits w

end State
end Sys2Proof.Machine
end

