-- ==== Sys2Proof/Safety.lean ====
section
/-! DEFINITION. What counts as a safe run, and the conditions and results in whose terms statements are made: when an instruction
issues, what a fragment is afterwards, which memories are canonical. -/
namespace Sys2Proof.Machine

/-- k steps that neither stop with a fault nor lack a meaning. -/
def SafeFor : Nat → State → Prop
  | 0, _ => True
  | k + 1, s => ∃ t, step s = .next t ∧ SafeFor k t

/-- The machine's memories are canonical: device memory, the host's memory, every scratchpad share and what is left of one. -/
def State.memOk (s : State) : Bool :=
  Memory.wf s.mem && Memory.wf s.hostmem && (s.wkgs.all fun w => Memory.wf w.data) && s.remains.all fun r => Memory.wf r.data

/-! ### Issue -/

/-- The instruction that `s.cur` names issues for fragment n of group g in its open trace c: the fragment is ready (R101), the trace
goes on (R119, R120), a call has instructions left (R249), no register it uses awaits a value (R101), no other open trace of the
group owns a scalar it uses (R130), and no register of the group is in error (R27). -/
structure Issues (s : State) (g : Group) (n : Node) (c : Ctx) (isTerm : Bool) (u : Use) : Prop where
  frame : curFrame s = some (g, n)
  can : canIssue s g n = true
  ctx : n.ctx = some c
  going : (c.term.isSome || c.emul.isSome) = false
  count : (g.landing.isSome && s.calls.any fun k => k.g == g.uid && 65536 ≤ k.count) = false
  len : (decide (c.lastIx < c.ix) || (isTerm && c.ix != c.lastIx)) = false
  board : scoreboarded s g n c u = false
  own : (owners g n u.sr).isEmpty = true
  clean : g.flaws = []

/-- The state in which the fragment's group stands as g, its node as n, its open trace as c; an instruction of a landing call has
been counted (R249). -/
def stand (s : State) (g0 g : Group) (n : Node) (c : Ctx) : State := putCtx (countCall s g0) g n c

/-- Faults of the trace go to the launch's handler: it runs no method (R249) and is of no kind 2 or 3 (R178). -/
def Handled (g : Group) (c : Ctx) : Prop := g.landing = none ∧ c.hdr.kind ≠ 2 ∧ c.hdr.kind ≠ 3

/-- The trace once lanes have taken their faults, each a lane with its fault: a lane leaves for the handler, or for page-fault service
where the partition has it and the fault is one that it replaces (R121, R143, R177, R179). -/
def faulted (s : State) (g : Group) (c : Ctx) (fs : List (Nat × Nat)) : Ctx :=
  fs.foldl (fun c f => c.takeFault (pageAssisted s g) f.1 f.2 c.ix) c

/-- A pilot step: queue x of partition p is busy and its operation is the one that issues (R61). -/
def PilotAt (s : State) (p : Partition) (x : Queue) : Prop := curPilot s = some (p, x)

/-! ### Instructions on lanes -/

/-- The element-wise compute instructions: operand kinds and function, operands, length in words. -/
def compOf : Instr → Option (Comp × LOp × Nat)
  | .iadd o => some (kIadd o, o, lenWords o.w2) | .isub o => some (kIsub o, o, lenWords o.w2)
  | .imul o => some (kImul o, o, lenWords o.w2) | .imulh o => some (kImulh o, o, lenWords o.w2)
  | .imad o => some (kImad o, o, lenWords o.w2) | .imin o => some (kImin o, o, lenWords o.w2)
  | .imax o => some (kImax o, o, lenWords o.w2) | .iabs o => some (kIabs o, o, lenWords o.w2)
  | .ineg o => some (kIneg o, o, lenWords o.w2) | .and o => some (kAnd o, o, lenWords o.w2)
  | .or o => some (kOr o, o, lenWords o.w2) | .xor o => some (kXor o, o, lenWords o.w2)
  | .andn o => some (kAndn o, o, lenWords o.w2) | .not o => some (kNot o, o, lenWords o.w2)
  | .shl o => some (kShl o, o, lenWords o.w2) | .shr o => some (kShr o, o, lenWords o.w2)
  | .sar o => some (kSar o, o, lenWords o.w2) | .rot o => some (kRot o, o, lenWords o.w2)
  | .bfe o => some (kBfe o, o, lenWords o.w2) | .bfi o => some (kBfi o, o, lenWords o.w2)
  | .popc o => some (kPopc o, o, lenWords o.w2) | .clz o => some (kClz o, o, lenWords o.w2)
  | .brev o => some (kBrev o, o, lenWords o.w2) | .icmp o => some (kIcmp o, o, lenWords o.w2)
  | .lea o => some (kLea o, o, lenWords o.w2) | .mov o => some (kMov o, o, lenWords o.w2)
  | .movi o => some (kMovi o, o, lenWords o.w2)
  | .iaddS o => some (kIadd (sToL o modI32), sToL o modI32, 1) | .isubS o => some (kIsub (sToL o modI32), sToL o modI32, 1)
  | .imulS o => some (kImul (sToL o modI32), sToL o modI32, 1)
  | .imulhS o => let m := if o.x then modN32 else modI32; some (kImulh (sToL o m), sToL o m, 1)
  | .iminS o => let m := if o.x then modN32 else modI32; some (kImin (sToL o m), sToL o m, 1)
  | .imaxS o => let m := if o.x then modN32 else modI32; some (kImax (sToL o m), sToL o m, 1)
  | .iabsS o => some (kIabs (sToL o modI32), sToL o modI32, 1) | .inegS o => some (kIneg (sToL o modI32), sToL o modI32, 1)
  | .andS o => some (kAnd (sToL o modI32), sToL o modI32, 1) | .orS o => some (kOr (sToL o modI32), sToL o modI32, 1)
  | .xorS o => some (kXor (sToL o modI32), sToL o modI32, 1) | .andnS o => some (kAndn (sToL o modI32), sToL o modI32, 1)
  | .notS o => some (kNot (sToL o modI32), sToL o modI32, 1) | .shlS o => some (kShl (sToL o modI32), sToL o modI32, 1)
  | .shrS o => some (kShr (sToL o modI32), sToL o modI32, 1) | .sarS o => some (kSar (sToL o modI32), sToL o modI32, 1)
  | .rotS o => some (kRot (sToL o modI32), sToL o modI32, 1) | .popcS o => some (kPopc (sToL o modI32), sToL o modI32, 1)
  | .clzS o => some (kClz (sToL o modI32), sToL o modI32, 1) | .brevS o => some (kBrev (sToL o modI32), sToL o modI32, 1)
  | .movS o => some (kMov (sToL o modI32), sToL o modI32, 1)
  | .fadd o => some (kFadd o, o, lenWords o.w2) | .fsub o => some (kFsub o, o, lenWords o.w2)
  | .fmul o => some (kFmul o, o, lenWords o.w2) | .fmulz o => some (kFmulz o, o, lenWords o.w2)
  | .fma o => some (kFma o, o, lenWords o.w2) | .fmaz o => some (kFmaz o, o, lenWords o.w2)
  | .fmin o => some (kFmin o, o, lenWords o.w2) | .fmax o => some (kFmax o, o, lenWords o.w2)
  | .fcmp o => some (kFcmp o, o, lenWords o.w2) | .fclass o => some (kFclass o, o, lenWords o.w2)
  | .frnd o => some (kFrnd o, o, lenWords o.w2) | .fscale o => some (kFscale o, o, lenWords o.w2)
  | .frcp o => some (kFrcp o, o, lenWords o.w2) | .frsq o => some (kFrsq o, o, lenWords o.w2)
  | .fsqrt o => some (kFsqrt o, o, lenWords o.w2) | .fexp2 o => some (kFexp2 o, o, lenWords o.w2)
  | .flog2 o => some (kFlog2 o, o, lenWords o.w2) | .fsin o => some (kFsin o, o, lenWords o.w2)
  | .fcos o => some (kFcos o, o, lenWords o.w2) | .ftanh o => some (kFtanh o, o, lenWords o.w2)
  | .faddS o => some (kFadd (sToL o 0), sToL o 0, 1) | .fsubS o => some (kFsub (sToL o 0), sToL o 0, 1)
  | .fmulS o => some (kFmul (sToL o 0), sToL o 0, 1) | .fmulzS o => some (kFmulz (sToL o 0), sToL o 0, 1)
  | .fminS o => some (kFmin (sToL o 0), sToL o 0, 1) | .fmaxS o => some (kFmax (sToL o 0), sToL o 0, 1)
  | .frcpS o => some (kFrcp (sToL o 0), sToL o 0, 1) | .frsqS o => some (kFrsq (sToL o 0), sToL o 0, 1)
  | .fsqrtS o => some (kFsqrt (sToL o 0), sToL o 0, 1) | .fexp2S o => some (kFexp2 (sToL o 0), sToL o 0, 1)
  | .flog2S o => some (kFlog2 (sToL o 0), sToL o 0, 1) | .fsinS o => some (kFsin (sToL o 0), sToL o 0, 1)
  | .fcosS o => some (kFcos (sToL o 0), sToL o 0, 1) | .ftanhS o => some (kFtanh (sToL o 0), sToL o 0, 1)
  | .cvt o => some (kCvt o, o, 2) | .dot4 o => some (dotComp o 4 8 (!o.sub.getLsbD 0) (!o.sub.getLsbD 1), o, 3)
  | .dot8 o => some (dotComp o 8 4 true true, o, 3) | .bscale o => some (kBscale o, o, lenWords o.w2)
  | .ivmake o => some (ivMakeComp false o, o, lenWords o.w2) | .ivmakeIv16 o => some (ivMakeComp true o, o, lenWords o.w2)
  | .ivadd o => some (ivBin false ivAdd, o, lenWords o.w2) | .ivaddIv16 o => some (ivBin true ivAdd, o, lenWords o.w2)
  | .ivsub o => some (ivBin false ivSub, o, lenWords o.w2) | .ivsubIv16 o => some (ivBin true ivSub, o, lenWords o.w2)
  | .ivmul o => some (ivBin false ivMul, o, lenWords o.w2) | .ivmulIv16 o => some (ivBin true ivMul, o, lenWords o.w2)
  | .ivdiv o => some (ivBin false ivDiv, o, lenWords o.w2)
  | .ivsqr o => some (ivUn false ivSqr, o, lenWords o.w2) | .ivsqrIv16 o => some (ivUn true ivSqr, o, lenWords o.w2)
  | .ivsqrt o => some (ivUn false ivSqrt, o, lenWords o.w2)
  | .ivhull o => some (ivHullComp false, o, lenWords o.w2) | .ivhullIv16 o => some (ivHullComp true, o, lenWords o.w2)
  | .ivmid o => some (ivScalar false ivMid, o, lenWords o.w2) | .ivmidIv16 o => some (ivScalar true ivMid, o, lenWords o.w2)
  | .ivwid o => some (ivScalar false ivWid, o, lenWords o.w2) | .ivwidIv16 o => some (ivScalar true ivWid, o, lenWords o.w2)
  | .ivcmp o => some (ivCmpComp false o, o, lenWords o.w2) | .ivcmpIv16 o => some (ivCmpComp true o, o, lenWords o.w2)
  | _ => none

/-- Every register-only instruction that works lane by lane, for a group of nr registers in a state. -/
def laneSpecOf (s : State) (nr : Nat) (i : Instr) : Option LaneSpec :=
  match compOf i with
  | some (k, o, w) => some (k.spec o w nr)
  | none =>
    match i with
    | .trap o => some (trapSpec 17 o) | .brk o => some (trapSpec 18 o)
    | .plogic o => some (plogicSpec o) | .pnot o => some (pnotSpec o) | .pmov o => some (pmovSpec o)
    | .pforce o => some (pforceSpec o) | .pvote o => some (pvoteSpec o) | .ptov o => some (ptovSpec o nr)
    | .vtop o => some (vtopSpec o nr) | .iaddc o => some (iaddcSpec o nr) | .sel o => some (selSpec o nr)
    | .pack o => some (packSpec o nr) | .unpack o => some (unpackSpec o nr)
    | .ivisect o => some (isectSpec false o nr) | .ivisectIv16 o => some (isectSpec true o nr)
    | .ivsplit o => some (splitSpec false o nr) | .ivsplitIv16 o => some (splitSpec true o nr)
    | .shfl o => some (shflSpec o nr) | .qswap o => some (qswapSpec o nr) | .qbcast o => some (qbcastSpec o nr)
    | .matchLanes o => some (matchSpec o nr) | .redux o => some (reduxSpec o nr) | .scan o => some (scanSpec o nr)
    | .rdlane o => some (rdlaneSpec o nr) | .sysrd o => some (sysrdSpec o (sysrdVal s o) nr)
    | .pdgset o => some (pdgsetSpec o nr) | .pdgrd o => some (pdgrdSpec o nr)
    | _ => none

/-- The context once helper lanes are engaged, which the first quad operation does (R110, R111). -/
def LaneSpec.engaged (d : LaneSpec) (g : Group) (n : Node) (c : Ctx) : Ctx := if d.quad then c.engage g n else c

/-- The lanes an instruction runs in: the fragment once, or the selected active lanes and helpers (R111, R115, R129, R362). -/
def LaneSpec.lanes (d : LaneSpec) (g : Group) (n : Node) (c : Ctx) : List Nat :=
  if d.uni then [uniLane]
  else selected g d.ps d.pm
    (if d.noHelpers then (d.engaged g n c).active else (d.engaged g n c).active ||| (d.engaged g n c).helpers)

/-- The context in which the lanes are computed: the shadows of the destinations taken (R119). -/
def LaneSpec.ctx (d : LaneSpec) (g : Group) (n : Node) (c : Ctx) : Ctx :=
  if d.uni || (d.lanes g n c).isEmpty then d.engaged g n c else (d.engaged g n c).shadow d.dst

/-- What each lane gives, every lane from the values before the instruction. -/
def LaneSpec.outs (d : LaneSpec) (g : Group) (n : Node) (c : Ctx) : List (Nat × LaneOut) :=
  (d.lanes g n c).map fun l => (l, d.body g n (d.ctx g n c) (if d.uni then 0 else l))

/-- The instruction runs without a fault: its operands are legal, its shadows fit, no lane faults or traps. -/
def LaneSpec.runs (d : LaneSpec) (g : Group) (n : Node) (c : Ctx) : Bool :=
  d.chk == 0 && (d.uni || (d.lanes g n c).isEmpty || !overShadow (d.engaged g n c) d.dst) &&
    (d.outs g n c).all fun x => x.2.trap g.fmode == 0

/-- The registers, flags and digests that some lanes' results leave (R111, R112, R130). -/
def written (g : Group) (n : Node) (c : Ctx) (outs : List (Nat × LaneOut)) : Group × Node × Ctx :=
  (outs.foldl (applyOut g.fmode) ((g, n, c), [])).1

/-- One element's image at its destination in a lane: register or even pair D at the element's offset, low word first, or predicate D
(R112, R113, R275). -/
def Comp.put (k : Comp) (o : LOp) (g : Group) (lane off img : Nat) : Group :=
  match k.dst with
  | .reg false => g.wv lane (o.d.toNat + off) (BitVec.ofNat 32 img)
  | .reg true => (g.wv lane (o.d.toNat + off) (BitVec.ofNat 32 img)).wv lane (o.d.toNat + off + 1) (BitVec.ofNat 32 (img / 2 ^ 32))
  | .pred => g.wp lane o.d.toNat (BitVec.ofNat 2 img)

end Sys2Proof.Machine
end

