-- ==== Sys2Proof/Certificates/Slice0/Obligations.lean ====
section
/-! DEFINITION. The statements about the machine, rule by rule. Hypotheses speak of the state and the operands alone; `Issues` says that
the instruction issues in its fragment, `stand` is the state in which the fragment goes on. -/
open Sys2Proof Sys2Proof.Machine

/-! ### Encoding -/

/-- The bytes of words in memory order. -/
def wordsBytes (ws : List Word) : List Byte := ws.flatMap wordBytes

/-- R65, R258 to R269, R287, R344, R355: words written out from the encodings decode to the instructions they stand for: one of each
layout. -/
def Obligations.WordsDecode : Prop :=
  -- IADD v3, v1, v2 (S-form): opcode 0x01, U 0, D 3, A 1, B 2, X 0
  (decode (wordsBytes [0x00818104])).toOption = some (.iaddS { u := false, d := 3, a := 1, b := 2, x := false }, []) ∧
  -- NOP
  (decode (wordsBytes [0])).toOption = some (.nop, []) ∧
  -- EXIT: LEN 01, opcode 0x04; PS 15
  (decode (wordsBytes [0x41000000, 0x00003C00])).toOption = some (.exit, []) ∧
  -- FADD v5, v6, v7 (L-form), RSEL 0, FTYPE 0, PS 15: opcode 0x50
  (decode (wordsBytes [0x54005030, 0x03803C00])).toOption = some (.fadd { LOp.blank with d := 5, a := 6, b := 7 }, []) ∧
  -- END +16 words: opcode 0x01, offset in bits 31:8 of word 1
  (decode (wordsBytes [0x40400000, 0x00001000])).toOption =
    some (.endTrace { u := false, d := 0, a := 0, sub := 0, offset := 16, pred := 0, sense := 0, kind := 0, w2 := none }, []) ∧
  -- TRACE KIND 0, NLEN 4, NSTORE 1, NSHADOW 8
  (decode (wordsBytes [0x40002048, 0])).toOption =
    some (.trace { kind := 0, mode := false, nlen := 4, nstore := 1, nshadow := 8, natom := 0, npost := 0, nspawn := false,
                   zero := false, rejoin := 0, park := 0 }, []) ∧
  -- LD.32 v4, v2, v0: opcode 0xA0, SUB 4, PS 15
  (decode (wordsBytes [0x68004014, 0x00003C00])).toOption =
    some (.ld { u := false, d := 4, a := 2, sub := 4, b := 0, zero := 0, ps := 15, pm := 0, ak := false, bk := false, nt := false,
                scope := 0, mark := 0, w2 := none }, []) ∧
  -- RED.add .n32 v2, v3: opcode 0xAE, SUB 0, TYPE 1, PS 15
  (decode (wordsBytes [0x6B800010, 0x01803C08])).toOption =
    some (.red { u := false, d := 0, a := 2, sub := 0, b := 3, scope := 0, mark := 0, zero := 0, ps := 15, pm := 0, ak := false,
                 bk := false, ty := 1, x4 := false, low := 0, w2 := none }, []) ∧
  -- MOVI v1, 0x12345678 (X-form): LEN 10, opcode 0x4C
  (decode (wordsBytes [0x93001000, 0x00003C00, 0x12345678])).toOption =
    some (.movi { LOp.blank with d := 1, w2 := some 0x12345678 }, []) ∧
  -- pilot ADD x3, x1, x2: opcode 0x04
  (decodePilot 0x23280000).toOption = some (.pilotAdd 3 1 2) ∧
  -- LEN 11 and an opcode that no map allocates
  (decode (wordsBytes [0xC0000000])).toOption = none ∧ (decode (wordsBytes [0x4BC00000, 0])).toOption = none

/-- R65, R258, R284: decoding what an instruction encodes to gives it back, for every well-formed instruction that has words, with every
operand at every value its encoding admits, whatever follows it in memory. -/
def Obligations.DecodeOfEncode : Prop :=
  (∀ (i : Instr) (rest : List Byte), i.wf = true → encode i ≠ [] → pilotOf i = false →
    decode (encodeBytes i ++ rest) = .ok (i, rest)) ∧
  (∀ (i : Instr) (w : Word), i.wf = true → pilotOf i = true → encode i = [w] → decodePilot w = .ok i)

/-- R258, R266, R284: only well-formed instructions are decoded, and each word has one meaning: what decodes encodes to the bytes it came
from, so that no bit is dropped and no reserved encoding passes. -/
def Obligations.EncodeOfDecode : Prop :=
  (∀ (bs rest : List Byte) (i : Instr), decode bs = .ok (i, rest) → i.wf = true ∧ encodeBytes i ++ rest = bs) ∧
  (∀ (w : Word) (i : Instr), decodePilot w = .ok i → i.wf = true ∧ encode i = [w])

/-! ### Steps -/

/-- R101, R128, R258, R284, R285: when a fragment is next to issue and the words at its program counter are fetched and decode to an
instruction, the step is that instruction's execution, with the fragment as the one that issues and nothing issuing afterwards, in the
state in which the trace keeps the lines that it fetched; the same of a fragment that is about to enter a trace. A fetch changes nothing
else where no line's check code shows an error; where it does, the state is the one in which the error has been met (R26, R27). -/
def Obligations.StepRunsTheDecodedInstruction : Prop :=
  ∀ (s : State) (gid nix : Nat) (as : List Activity) (g : Group) (n : Node) (c : Ctx) (i : Instr) (rest : List Byte),
    s.agenda = .issue gid nix :: as → s.group? gid = some g → g.node? nix = some n → n.leaf = true →
    canIssue s g n = true →
    let t := { s with agenda := as, tick := s.tick + 1 }
    (n.ctx = some c → c.term = none → c.emul = none → c.ix ≤ c.lastIx → wordsHeld t g c.fetched c.pc = false →
      let u := seeWords t g c.fetched c.pc
      (∀ ws, fetchWords u g c.fetched c.pc = .ok ws → decode (bytesOf ws) = .ok (i, rest) →
        step s = settle (exec i { putCtx u g n { c with fetched := keepLines u g c.pc ws.length c.fetched } with cur := .frag gid nix })) ∧
      (s.flaws = [] → u = t)) ∧
    (n.ctx = none → n.trace % 4 = 0 → wordsHeld t g [] n.trace = false →
      let u := seeWords t g [] n.trace
      (∀ ws, fetchWords u g [] n.trace = .ok ws → decode (bytesOf ws) = .ok (i, rest) →
        step s = settle (exec i { u with cur := .frag gid nix })) ∧
      (s.flaws = [] → u = t))

/-- R258, R285: the words at an address are those of its memory bytes, one to three by bits 31:30 of the first, where the pages allow
execution, no instruction-cache copy stands in, no word is bad and the trace has not fetched the lines yet; a word of a line that the
trace has fetched is the one that it fetched, whatever memory and the instruction cache hold now. -/
def Obligations.FetchReadsMemory : Prop :=
  ∀ (s : State) (g : Group) (got : Fetches) (va : Nat) (pa : Nat → Nat),
    (s.icache = [] → (∀ k < 3, ∀ e ∈ got, e.1 ≠ (va + 4 * k) / 64 * 64) →
      (∀ k < 3, ∃ x, translate s g.core g.die g.part (va + 4 * k) .exec = .ok x ∧ x.pa = pa k ∧ badSpan s g.die (pa k) 4 = false) →
      let word := fun k => (BitVec.ofNat 32 (leNat (pread s (pa k) 4)) : Word)
      fetchWords s g got va = .ok (match (word 0).toNat / 2 ^ 30 with
        | 1 => [word 0, word 1]
        | 2 => [word 0, word 1, word 2]
        | _ => [word 0])) ∧
    (∀ line : List Byte, (∀ e ∈ got, e.1 = va / 64 * 64 → e.2 = line) → (∃ e ∈ got, e.1 = va / 64 * 64) →
      fetchWord s g got va = .ok (BitVec.ofNat 32 (leNat (takeAt line (va % 64) 4))))

/-- R61, R65: when a die's fetcher is next and visits a busy queue of a running die within its step budget, the step is the execution of
the pilot word at the queue's place; a host activity in the agenda is executed as it stands. -/
def Obligations.StepRunsPilotsAndEvents : Prop :=
  ∀ (s : State) (as : List Activity),
    let t := { s with agenda := as, tick := s.tick + 1 }
    (∀ (die : Nat) (p : Partition) (x : Queue) (i : Instr), s.agenda = .pilot die :: as → (s.die die).running = true →
      (s.die die).tripped = false → (s.die die).visit = some (p.part, x.q) → s.part? p.part = some p → p.queue? x.q = some x →
      x.busy = true → x.st = .active → x.steps < 512 ∨ x.suspended = true → decodePilot (x.pilot.getD x.pc 0) = .ok i →
      step s = settle (exec i { t with cur := .pilot p.part x.q })) ∧
    (∀ i : Instr, s.agenda = .event i :: as → isEvent i = true → step s = settle (exec i { t with cur := .none })) ∧
    (∀ i : Instr, s.agenda = .event i :: as → isEvent i = false → step s = .next t)

/-- Every step keeps the machine's form: device memory, the host's memory and every scratchpad share stay canonical, and nothing issues
between steps; whatever the step executes. The canonical form is the model's own (log entry 5). -/
def Obligations.EveryStepKeepsMemoryCanonical : Prop :=
  ∀ s t : State, s.memOk = true → s.cur = .none → step s = .next t → t.memOk = true ∧ t.cur = .none

/-- R23, R48: right after reset no die runs, no partition, launch, workgroup or group exists, nothing is queued or cached, memory lists
nothing, every window's tail and head are 0 and RUN is 0, the boundaries are up, and no activity is queued. That memory lists nothing and
that the windows' registers are 0 is the model's choice (log entries 4 and 5). -/
def Obligations.ResetState : Prop :=
  State.reset.memOk = true ∧ State.reset.cur = .none ∧ (∀ d < 4, (State.reset.die d).running = false ∧ (State.reset.die d).visit = none) ∧
  State.reset.parts = [] ∧ State.reset.launches = [] ∧ State.reset.wkgs = [] ∧ State.reset.groups = [] ∧ State.reset.pipe = [] ∧
  State.reset.tlb = [] ∧ State.reset.icache = [] ∧ State.reset.l1 = [] ∧ State.reset.mem = [] ∧
  (∀ w < 13, (State.reset.win w).cmdtail = 0 ∧ (State.reset.win w).cmdhead = 0 ∧ (State.reset.win w).run = false) ∧
  (∀ b < 4, boundaryUp State.reset b = true) ∧ State.reset.agenda = []

/-! ### Memory -/

/-- R4, R17: bytes written to device memory are read back as written, every other byte of the machine's memory stays, and memory keeps
its canonical form; the same holds of the host's memory. R28: a write of any length makes good exactly the bad 8-byte words that it
covers wholly; every other bad word stays bad, one that it covers in part among them; the same of a write within one line. -/
def Obligations.MemoryReadsBackWhatWasWritten : Prop :=
  (
  ∀ (s : State) (a : Nat) (d : List Byte), s.memOk = true →
    pread (pwrite s a d) a d.length = d ∧ (pwrite s a d).memOk = true ∧
    (∀ b, (b < a ∨ a + d.length ≤ b) → sget (pwrite s a d).mem b = sget s.mem b) ∧ (pwrite s a d).hostmem = s.hostmem ∧
    pread (pwriteLong s a d) a d.length = d ∧ (pwriteLong s a d).memOk = true ∧
    (∀ b, (b < a ∨ a + d.length ≤ b) → sget (pwriteLong s a d).mem b = sget s.mem b) ∧ (pwriteLong s a d).hostmem = s.hostmem ∧
    sread (hwrite s a d).hostmem a d.length = d ∧ (hwrite s a d).memOk = true ∧ (hwrite s a d).mem = s.mem ∧
    (∀ b, (b < a ∨ a + d.length ≤ b) → sget (hwrite s a d).hostmem b = sget s.hostmem b)
  ) ∧
  (
  ∀ (s : State) (a line k : Nat) (d : List Byte), line % 64 = 0 → k < 8 → 4 ≤ s.dies.length →
    let covered := decide (a ≤ line + 8 * k) && decide (line + 8 * k + 8 ≤ a + d.length)
    ((badWords (pwriteLong s a d) line).getLsbD k = ((badWords s line).getLsbD k && !covered)) ∧
    (a % 64 + d.length ≤ 64 → (badWords (pwrite s a d) line).getLsbD k = ((badWords s line).getLsbD k && !covered))
  )

/-- R140 to R142, R411: a translated access lies in a page whose leaf names the partition's key and the permission it needs, at the
page's address plus the offset in it; an address of 2^55 or above is code 3 before any walk, and every failure is code 1, 2, 3 or 4, where
the entries of the walk can be read; that an entry that cannot be read is the access's data error, code 9, is the model's reading (DEDUCED,
log entry 98).
R411: a load's address that is no multiple of its width is code 5 (where it is in range), and one of 2^55 or above code 3; a load that
succeeds is aligned, in range, and reads at the address that translation with read permission gives. -/
def Obligations.TranslationIsChecked : Prop :=
  (
  ∀ (s : State) (core die part va : Nat) (need : Need),
    (2 ^ 55 ≤ va → translate s core die part va need = .error 3) ∧
    (∀ e, translate s core die part va need = .error e → e ∈ [1, 2, 3, 4] ∨ faultCode e = 9) ∧
    (∀ e, (∀ a, pteBad s die a = false) → translate s core die part va need = .error e → e ∈ [1, 2, 3, 4]) ∧
    (∀ x, translate s core die part va need = .ok x → ∃ big, walk s core die part va = .ok (x.leaf, big) ∧
      x.pa = ptePfn x.leaf * 65536 + va % (if big then 2 ^ 29 else 65536) ∧ populated s x.pa = true ∧
      (need = .write → bit x.leaf 2 = true ∧ bit x.leaf 7 = false ∧ sealedPa s x.pa = false) ∧
      (need = .read → bit x.leaf 1 = true) ∧ (need = .exec → bit x.leaf 1 = true ∧ bit x.leaf 3 = true) ∧
      (∀ p, s.part? part = some p → bits x.leaf 63 48 = p.pkey))
  ) ∧
  (
  ∀ (s : State) (g : Group) (c : Ctx) (lane va n : Nat) (home : Bool), 0 < n →
    (2 ^ 55 ≤ va → loadLane s g c lane va n home = .fault (accessFault 3 0 va)) ∧
    (va < 2 ^ 55 → va % n ≠ 0 → loadLane s g c lane va n home = .fault 5) ∧
    (∀ bs pa, loadLane s g c lane va n home = .ok bs pa → va % n = 0 ∧ va < 2 ^ 55 ∧
      ∃ x, translate s g.core g.die g.part va .read = .ok x ∧ x.pa = pa)
  )

/-! ### Lane instructions -/

/-- R111, R113, R115, R129, R313: every register-only instruction on lanes, TRAP and BRK apart, completes where its operands are legal
and no lane faults: every selected lane is computed from the values before the instruction, the results are written, and the fragment
stands at the next instruction. R121, R129, R177, R212: where lanes fault, by their values or by a flag that traps, they leave for the
handler, the others' results are written, and a fault of the fragment as one is a fault of each of its lanes; an instruction that would
write more registers than the shadows hold is a group fault 49 (R119). -/
def Obligations.LaneInstructionsComplete : Prop :=
  (
  ∀ (i : Instr) (s : State) (g : Group) (n : Node) (c : Ctx) (d : LaneSpec), laneSpecOf s g.nregs i = some d →
    Issues s g n c false d.used → (d.noMethod = false ∨ g.landing = none) → d.runs g n c = true →
    let r := written g n (d.ctx g n c) (d.outs g n c)
    exec i s = .next (stand s g r.1 r.2.1 (r.2.2.advance d.words).settle)
  ) ∧
  (
  ∀ (i : Instr) (s : State) (g : Group) (n : Node) (c : Ctx) (d : LaneSpec), laneSpecOf s g.nregs i = some d →
    Issues s g n c false d.used → d.chk = 0 →
    let full := !d.uni && !(d.lanes g n c).isEmpty && overShadow (d.engaged g n c) d.dst
    let r := (d.outs g n c).foldl (applyOut g.fmode) ((g, n, d.ctx g n c), [])
    (full = false → Handled g c → exec i s = .next (stand s g r.1.1 r.1.2.1
      ((faulted s r.1.1 r.1.2.2 (spreadFaults (d.ctx g n c) d.uni r.2)).advance d.words).settle)) ∧
    (full = true → (d.noMethod = false ∨ g.landing = none) →
      exec i s = .next (groupFault (countCall s g) g n (d.engaged g n c) 49))
  )

/-- R112, R114, R275, R314: an element-wise instruction on vectors computes each element of its block in each selected lane from the
values before the instruction and puts each image at its destination; nothing else of the group changes, and the fragment stands at
the next instruction with the lanes it had. -/
def Obligations.ElementResults : Prop :=
  ∀ (i : Instr) (k : Comp) (o : LOp) (w : Nat) (s : State) (g : Group) (n : Node) (c : Ctx),
    compOf i = some (k, o, w) → o.u = false → Issues s g n c false (k.spec o w g.nregs).used → (k.spec o w g.nregs).runs g n c = true →
    ∃ c' : Ctx, exec i s = .next (stand s g
        (((k.spec o w g.nregs).lanes g n c).foldl (fun g' l =>
          (o.offs k.paired).foldl (fun g' off => k.put o g' l off (k.elt o g n l off).img) g') g) n c'.settle) ∧
      c'.pc = c.pc + 4 * w ∧ c'.ix = c.ix + 1 ∧ c'.active = c.active ∧ c'.fails = c.fails ∧ c'.effs = c.effs ∧
      c'.owned = c.owned ∧ c'.term = c.term

/-! ### Effects buffered until commit (Table 5.5) -/

/-- The special registers whose write takes effect at commit, by the instruction, with the bits that must be written as 0. -/
def syswrAtCommit : List ((LOp → Instr) × CommitReg × Word) :=
  [(.syswrFstat, .fstat, 0xFFFFFFE0), (.syswrSfrqPop, .sfrq, 0xFFFF0070), (.syswrSfrqClearLost, .sfrq, 0xFFFF0070),
   (.syswrPreempt, .preempt, 0), (.syswrLdaerr, .ldaerr, 0xFFFF0000)]

/-- The special registers whose write takes effect at issue, owned like a scalar, with the bits that must be written as 0. -/
def syswrAtIssue : List ((LOp → Instr) × Nat × Word) :=
  [(.syswrFmode, regFmode, 0xFFFFE0FC), (.syswrSavelo, regSavelo, 0x00000FFF), (.syswrSavehi, regSavehi, 0xFF800000)]

/-- R183, R194, R198, R211, R349, R384: a SYSWR of a legal source with no zero field set, outside a method: FSTAT, SFRQ, PREEMPT and LDAERR
are buffered for commit; FMODE, SAVELO and SAVEHI change at once, are shadowed and become owned; one that sets a zero field is fault 6 of
every active lane, and so is one of a register that is read-only or that does not exist (R382, R384), which is the first form with another
number than FMODE's. R3, R382: a read of CYCLE reads the low half of its core's clock count and latches its high half into CYCLEH. -/
def Obligations.SpecialRegisterReadsAndWrites : Prop :=
  (
  ∀ (o : LOp) (s : State) (g : Group) (n : Node) (c : Ctx), g.landing = none → (o.w2.isSome || scalarOk o.b.toNat) = true →
    let srcs := if o.w2.isSome then [] else scalarUse o.b.toNat
    let v := syswrVal g n o
    (∀ x ∈ syswrAtCommit, Issues s g n c false { Use.none with sr := srcs } →
      (v &&& x.2.2 = 0 → exec (x.1 o) s = .next (stand s g g n ((c.buffer (.sysw x.2.1 v) []).advance (lenWords o.w2)))) ∧
      (v &&& x.2.2 ≠ 0 → exec (x.1 o) s = .next (uniFault s g n c 6 (·.advance (lenWords o.w2))))) ∧
    (∀ x ∈ syswrAtIssue, o.a.toNat = (if x.2.1 = regFmode then 9 else if x.2.1 = regSavelo then 0x18 else 0x19) →
      Issues s g n c false { Use.none with sr := x.2.1 :: srcs } →
      (v &&& x.2.2 = 0 → ∃ c' : Ctx, exec (x.1 o) s = .next (stand s g (g.setOwned x.2.1 v) n (c'.advance (lenWords o.w2))) ∧
        (∃ old, (x.2.1, old) ∈ c'.owned) ∧ (∀ e ∈ c.owned, e ∈ c'.owned) ∧
        ((∀ e ∈ c.owned, e.1 ≠ x.2.1) → c'.owned = (x.2.1, g.ownedVal x.2.1) :: c.owned) ∧ c'.effs = c.effs) ∧
      (v &&& x.2.2 ≠ 0 → exec (x.1 o) s = .next (uniFault s g n c 6 (·.advance (lenWords o.w2)))))
  ) ∧
  (
  ∀ (o : LOp) (s : State) (g : Group) (n : Node) (c : Ctx), g.landing = none → o.a ≠ 9 → Issues s g n c false Use.none →
    exec (.syswrFmode o) s = .next (uniFault s g n c 6 (·.advance (lenWords o.w2)))
  ) ∧
  (
  ∀ (o : LOp) (s : State) (g : Group) (n : Node) (c : Ctx), Issues s g n c false (cycleSpec o s).used →
    g.landing = none → sysrdOk o g.nregs = true → o.a = 0x15 → selectsAny o g c = true → (cycleSpec o s).runs g n c = true →
    let g1 := { g with cycleh := BitVec.ofNat 32 (coreClock s g.core / 2 ^ 32) }
    let d := sysrdSpec o (fun _ _ => BitVec.ofNat 32 (coreClock s g.core)) g.nregs
    let r := written g1 n (d.ctx g1 n c) (d.outs g1 n c)
    exec (.sysrdCycle o) s = .next (stand (s.setGroup g1) g1 r.1 r.2.1 (r.2.2.advance 2).settle)
  )

/-- R125, R303, R310, R354: FENCE, RELEASE, ICINV and GANG with legal operands are buffered in the trace with their operands and the
instruction's INDEX, and the fragment stands at the next instruction. R307, R378, R381: QOPEN of a ring that passes its checks where the
group's traces hold or have buffered at most eight attachments with it, QCLOSE, RRET in a method and DLOG under a SEALED register are
buffered with their operands; a ninth attachment, and a register that names no ring, is fault 6. -/
def Obligations.OrderingRingAndRecordEffectsAreBuffered : Prop :=
  (
  ∀ (s : State) (g : Group) (n : Node) (c : Ctx),
    (∀ o : LOp, Issues s g n c false Use.none →
      exec (.fence o) s = .next (stand s g g n ((c.buffer (.fence o.sub.toNat o.mod.toNat) []).advance 2))) ∧
    (Issues s g n c false Use.none → g.landing = none →
      exec .release s = .next (stand s g g n ((c.buffer .release []).advance 2))) ∧
    (∀ o : LOp, Issues s g n c false { Use.none with sr := pairUse o.a.toNat ++ scalarUse o.b.toNat } →
      pairOk o.a.toNat = true → scalarOk o.b.toNat = true → (readScalar g n o.b.toNat).toNat ≤ 2 ^ 24 →
      readPair g n o.a.toNat < 2 ^ 55 →
      exec (.icinv o) s = .next (stand s g g n
        ((c.buffer (.icinv (readPair g n o.a.toNat) (readScalar g n o.b.toNat).toNat) []).advance 2))) ∧
    (∀ (o : LOp) (w : Word), Issues s g n c false Use.none → g.landing = none → o.w2 = some w → gangOk s g w = true →
      exec (.gang o) s = .next (stand s g g n ((c.buffer (.gang w) []).advance 3))) ∧
    (∀ o : LOp, Issues s g n c false { Use.none with sr := scalarUse o.a.toNat } → g.landing = none → o.w2 = none →
      scalarOk o.a.toNat = true → gangOk s g (readScalar g n o.a.toNat) = true →
      exec (.gang o) s = .next (stand s g g n ((c.buffer (.gang (readScalar g n o.a.toNat)) []).advance 2)))
  ) ∧
  (
  ∀ (o : LOp) (s : State) (g : Group) (n : Node) (c : Ctx),
    let bench := bit o.sub.toNat 2
    let x := ringSpot g n bench o.a.toNat
    let key := (bit o.sub.toNat 0, bench, x.addr)
    (Issues s g n c false { Use.none with sr := ringUse bench o.a.toNat } → ringRegOk bench o.a.toNat = true →
      headerReady s g x = true →
      let t := seeSpot (countCall s g) g x 64
      (∃ h pa, ringCheck t g c x = .ok h pa) → ((attachments g).contains key || decide ((attachments g).length < 8)) = true →
      exec (.qopen o) s = .next (putCtx t g n ((c.buffer (.ring true (bit o.sub.toNat 0) bench x.addr) []).advance 2))) ∧
    (Issues s g n c false { Use.none with sr := ringUse bench o.a.toNat } → ringRegOk bench o.a.toNat = true →
      headerReady s g x = true →
      let t := seeSpot (countCall s g) g x 64
      (∃ h pa, ringCheck t g c x = .ok h pa) → (attachments g).contains key = false → 8 ≤ (attachments g).length →
      exec (.qopen o) s = .next (uniFault t g n c 6 (·.advance 2))) ∧
    (Issues s g n c false { Use.none with sr := ringUse bench o.a.toNat } → ringRegOk bench o.a.toNat = false →
      exec (.qopen o) s = .next (uniFault (countCall s g) g n c 6 (·.advance 2)) ∧
      exec (.qclose o) s = .next (uniFault (countCall s g) g n c 6 (·.advance 2))) ∧
    (Issues s g n c false { Use.none with sr := ringUse bench o.a.toNat } → ringRegOk bench o.a.toNat = true →
      exec (.qclose o) s = .next (stand s g g n ((c.buffer (.ring false (bit o.sub.toNat 0) bench x.addr) []).advance 2))) ∧
    (Issues s g n c false { Use.none with sr := pairUse o.a.toNat } → c.hdr.kind = 1 → pairOk o.a.toNat = true →
      exec (.rret o) s = .next (stand s g g n ((c.buffer (.rret (BitVec.ofNat 64 (readPair g n o.a.toNat))) []).advance 2))) ∧
    (Issues s g n c false
        { sr := o.srcA.scalars (.int 3) ++ o.srcB.scalars (.int 3)
          vr := o.srcA.vectors (.int 3) [0] ++ o.srcB.vectors (.int 3) [0]
          pr := [o.ps.toNat]
          pdg := true
          extra := 0 } →
      g.landing = none → srcOk g.nregs (.int 3) [0] o.srcA = true → srcOk g.nregs (.int 3) [0] o.srcB = true →
      postCount c < c.hdr.npost.toNat → sealSet s g (o.mod.toNat % 16) = true →
      exec (.dlog o) s = .next (stand s g g n ((c.buffer (.dlog (o.mod.toNat % 16))
        ((selected g o.ps.toNat o.pm.toNat c.active).map fun l =>
          { Elem.mk0 l 0 (leBytes 8 (readSrc g n l (.int 3) o.srcA 0) ++ leBytes 8 (readSrc g n l (.int 3) o.srcB 0)) with
            b := (g.rpdg l).toNat })).advance 2)))
  )

/-! ### Memory -/

/-- The store instructions, and what each accesses. -/
def storeForms : List ((MemOp → Instr) × (MemOp → MemForm)) :=
  [(.st, fun o => formOf false o.sub.toNat), (.stu, fun o => formOf false o.sub.toNat), (.sts, fun o => formOf true o.sub.toNat),
   (.ivst, ivForm false), (.ivstIv16, ivForm true)]

/-- R119, R127, R129, R347: a store whose operands and addresses are legal and which fits the trace's NSTORE is buffered: one element for
each lane that stores, with the address as formed and the low bytes of D; nothing reaches memory. R113, R134, R177, R411: lanes whose
operands or addresses are not legal take their fault, the uniform forms in every active lane, and the others' elements are buffered; a
store that does not fit is a group fault 49. -/
def Obligations.StoresAreBuffered : Prop :=
  (
  ∀ x ∈ storeForms, ∀ (o : MemOp) (s : State) (g : Group) (n : Node) (c : Ctx),
    let m := x.2 o
    let lanes := memLanes g c o
    Issues s g n c false (memUse o m) → memChk o m g.nregs true = true → lanes ≠ [] →
    (∀ l ∈ lanes, storeCode (countCall s g) g m (memAddr g n o m.scratch l) = 0) →
    (∀ l ∈ (if o.u then lanesOf c.active else lanes), storeEntries c l < c.hdr.nstore.toNat) →
    exec (x.1 o) s = .next (stand s g g n ((c.buffer
      (.store (if m.scratch then .scratch else .global) m.bytes (o.mark == 1) o.scope.toNat o.u)
      (lanes.map fun l => Elem.mk0 l
        (if m.scratch then scratchName g (memAddr g n o m.scratch l) else memAddr g n o m.scratch l)
        (storeBytes g n o m l))).advance (memWords o)).settle)
  ) ∧
  (
  ∀ x ∈ storeForms, ∀ (o : MemOp) (s : State) (g : Group) (n : Node) (c : Ctx),
    let m := x.2 o
    let legal := memChk o m g.nregs true
    let codes := (memLanes g c o).map fun l =>
      (l, if legal then storeCode (countCall s g) g m (memAddr g n o m.scratch l) else 6)
    let good := (codes.filter fun f => f.2 == 0).map (·.1)
    let counted := if o.u then (if good = [] then [] else lanesOf c.active) else good
    Issues s g n c false (memUse o m) →
    (Handled g c → (∀ l ∈ counted, storeEntries c l < c.hdr.nstore.toNat) →
      let c1 := if good = [] then c else c.buffer
        (.store (if m.scratch then .scratch else .global) m.bytes (o.mark == 1) o.scope.toNat o.u)
        (good.map fun l => Elem.mk0 l
          (if m.scratch then scratchName g (memAddr g n o m.scratch l) else memAddr g n o m.scratch l) (storeBytes g n o m l))
      exec (x.1 o) s = .next (stand s g g n
        ((faulted s g c1 (spreadFaults c o.u (codes.filter fun f => f.2 != 0))).advance (memWords o)).settle)) ∧
    ((∃ l ∈ counted, c.hdr.nstore.toNat ≤ storeEntries c l) → exec (x.1 o) s = .next (groupFault (countCall s g) g n c 49))
  )

/-- The load instructions, and what each accesses. -/
def loadForms : List ((MemOp → Instr) × (MemOp → MemForm)) :=
  [(.ld, fun o => formOf false o.sub.toNat), (.ldu, fun o => formOf false o.sub.toNat), (.lds, fun o => formOf true o.sub.toNat),
   (.ivld, ivForm false), (.ivldIv16, ivForm true)]

/-- A load is served at the home of its bytes: it is `.nt`, or an acquire (R163, R164). -/
def loadHome (o : MemOp) (m : MemForm) (s : State) (g : Group) (n : Node) (c : Ctx) : Bool := o.nt || memAcquires o m s g n c

/-- The state in which a load's lanes read: an acquire has dropped its core's copies, and the check codes of what is read have been met
(R26, R163). -/
def loadView (o : MemOp) (m : MemForm) (s : State) (g : Group) (n : Node) (c : Ctx) : State :=
  seeLanes o m (loadHome o m s g n c) (if memAcquires o m s g n c then acquire s g o.scope.toNat else s) g n c

/-- The value a lane's load gives, at the home or not. -/
def loadValue (s : State) (g : Group) (n : Node) (c : Ctx) (o : MemOp) (m : MemForm) (home : Bool) (l : Nat) : Got :=
  let a := memAddr g n o m.scratch l
  if m.scratch then loadScratch s g c l a m.bytes else loadLane s g c l a m.bytes home

/-- R120, R346: a load that is ready, whose operands are legal and which every accessing lane can make, puts one load in flight that
will write each lane's image of the bytes read at issue to the registers from D on; until it returns these registers are outstanding.
No register and no byte of memory changes. R113, R134, R177, R411: lanes whose operands or reads fault take their fault, the uniform forms
in every active lane, and the others' load goes in flight; a load that would write more registers than the shadows hold is a group
fault 49; while a lane's read is not ready nothing changes (R101). -/
def Obligations.LoadsGoInFlight : Prop :=
  (
  ∀ x ∈ loadForms, ∀ (o : MemOp) (s : State) (g : Group) (n : Node) (c : Ctx),
    let m := x.2 o
    let lanes := memLanes g c o
    let dst := (List.range m.regs).map (o.d.toNat + ·)
    ∀ (bs : Nat → List Byte) (pa : Nat → Nat),
    Issues s g n c false (loadUse o m) → loadsReady o m s g n c = true → memChk o m g.nregs true = true → lanes ≠ [] →
    (∀ l ∈ lanes, loadValue (loadView o m (countCall s g) g n c) g n c o m (loadHome o m (countCall s g) g n c) l =
      .ok (bs l) (pa l)) → (o.u || !overShadow c dst) = true →
    ∃ (s' : State) (c' : Ctx) (l : Load),
      exec (x.1 o) s = .next (putCtx s' { g with loads := g.loads ++ [l] } n c'.settle) ∧
      l.node = n.ix ∧ l.ix = c.ix ∧ l.iv = m.iv ∧ l.rread = none ∧
      l.writes = (lanes.flatMap fun k =>
        (dst.zip (loadImage m (bs k))).map fun w => ((if o.u then RegRef.s w.1 else .v k w.1), w.2)) ∧
      s'.mem = s.mem ∧ s'.wkgs.map (·.data) = s.wkgs.map (·.data) ∧ s'.hostmem = s.hostmem ∧ s'.groups = s.groups ∧
      c'.pc = c.pc + 4 * memWords o ∧ c'.ix = c.ix + 1 ∧ c'.active = c.active ∧ c'.effs = c.effs
  ) ∧
  (
  ∀ x ∈ loadForms, ∀ (o : MemOp) (s : State) (g : Group) (n : Node) (c : Ctx),
    let m := x.2 o
    let lanes := memLanes g c o
    let dst := (List.range m.regs).map (o.d.toNat + ·)
    let t := loadView o m (countCall s g) g n c
    Issues s g n c false (loadUse o m) →
    (loadsReady o m s g n c = false → exec (x.1 o) s = .next s) ∧
    (memChk o m g.nregs true = false → Handled g c → exec (x.1 o) s = .next (stand s g g n
      ((faulted s g c (spreadFaults c o.u (lanes.map fun l => (l, 6)))).advance (memWords o)).settle)) ∧
    (∀ (bs : Nat → List Byte) (pa code : Nat → Nat), loadsReady o m s g n c = true → memChk o m g.nregs true = true →
      (∀ l ∈ lanes, loadValue t g n c o m (loadHome o m (countCall s g) g n c) l =
        if code l = 0 then .ok (bs l) (pa l) else .fault (code l)) →
      let good := lanes.filter fun l => code l == 0
      let fs := spreadFaults c o.u ((lanes.filter fun l => code l != 0).map fun l => (l, code l))
      (good = [] → Handled g c →
        exec (x.1 o) s = .next (putCtx t g n ((faulted t g c fs).advance (memWords o)).settle)) ∧
      (good ≠ [] → o.u = false → overShadow c dst = true → exec (x.1 o) s = .next (groupFault (countCall s g) g n c 49)) ∧
      (good ≠ [] → (o.u || !overShadow c dst) = true → Handled g c → ∃ (s' : State) (c' : Ctx) (l : Load),
        exec (x.1 o) s = .next (putCtx s' { g with loads := g.loads ++ [l] } n
          ((faulted s' { g with loads := g.loads ++ [l] } c' fs).advance (memWords o)).settle) ∧
        l.writes = (good.flatMap fun k =>
          (dst.zip (loadImage m (bs k))).map fun w => ((if o.u then RegRef.s w.1 else .v k w.1), w.2)) ∧
        s'.mem = s.mem ∧ s'.hostmem = s.hostmem ∧ c'.pc = c.pc ∧ c'.ix = c.ix ∧ c'.active = c.active ∧ c'.fails = c.fails ∧
        c'.effs = c.effs))
  )

/-- The atomic instructions, and what distinguishes them. -/
def atomForms : List ((AtomOp → Instr) × (AtomOp → AtomForm)) :=
  [(.atom, fun o => { kind := .atom, returns := true, useC := o.w2.isSome, bytes := atomBytes o.ty.toNat }),
   (.atoms, fun o => { kind := .atoms, returns := true, useC := o.w2.isSome, bytes := atomBytes o.ty.toNat }),
   (.red, fun o => { kind := .red, returns := false, useC := false, bytes := atomBytes o.ty.toNat }),
   (.sred, fun o => { kind := .sred, returns := false, useC := false, bytes := atomBytes o.ty.toNat }),
   (.bop, fun o => { kind := .bop, returns := false, useC := o.w2.isSome, bytes := if o.x4 then 16 else 4 })]

/-- R119, R357 to R361: a deferred atomic whose operands and addresses are legal and which fits NATOM and NSHADOW is buffered: one
element for each selected active lane, with its address and its operands' images; nothing reaches memory, no register changes. R113, R134,
R177, R411: lanes whose operands or addresses are not legal take their fault, and the others' elements are buffered; an atomic that does
not fit is a group fault 49. -/
def Obligations.AtomicsAreDeferred : Prop :=
  (
  ∀ x ∈ atomForms, ∀ (o : AtomOp) (s : State) (g : Group) (n : Node) (c : Ctx),
    let m := x.2 o
    let ty := o.ty.toNat
    let lanes := selected g o.ps.toNat o.pm.toNat c.active
    let dst := if m.returns then (if wideTy ty then [o.d.toNat, o.d.toNat + 1] else [o.d.toNat]) else []
    Issues s g n c false (atomUse o m) → atomChk (countCall s g) o m g.nregs = true → lanes ≠ [] →
    (∀ l ∈ lanes, atomCode (countCall s g) g m (atomAddr g n o m l)
      (readSrc g n l (addrKd (m.kind == .atoms)) (atomSrcA o) 0) = 0) →
    (∀ l ∈ lanes, atomEntries c l < c.hdr.natom.toNat) → overShadow c dst = false →
    exec (x.1 o) s = .next (stand s g g n (((c.shadow dst).buffer
      (.atomic m.kind o.sub.toNat ty o.x4 (o.mark == 1 || o.mark == 3) (o.mark == 2 || o.mark == 3) o.scope.toNat o.d.toNat
        (if m.kind = .sred then o.w2.map fun w => w.toNat % 16 else none))
      (lanes.map fun l =>
        { Elem.mk0 l (if m.kind = .atoms then scratchName g (atomAddr g n o m l) else atomAddr g n o m l) [] with
          b := readSrc g n l (atomKd ty) (atomSrcB o) 0
          c := if m.useC then readSrc g n l (atomKd ty) (atomSrcC o) 0 else 0 })).advance
      (lenWords o.w2)).settle)
  ) ∧
  (
  ∀ x ∈ atomForms, ∀ (o : AtomOp) (s : State) (g : Group) (n : Node) (c : Ctx),
    let m := x.2 o
    let ty := o.ty.toNat
    let dst := if m.returns then (if wideTy ty then [o.d.toNat, o.d.toNat + 1] else [o.d.toNat]) else []
    let codes := (selected g o.ps.toNat o.pm.toNat c.active).map fun l =>
      (l, if atomChk (countCall s g) o m g.nregs then
          atomCode (countCall s g) g m (atomAddr g n o m l) (readSrc g n l (addrKd (m.kind == .atoms)) (atomSrcA o) 0) else 6)
    let good := (codes.filter fun f => f.2 == 0).map (·.1)
    let full := (good.any fun l => decide (c.hdr.natom.toNat ≤ atomEntries c l)) || (!good.isEmpty && overShadow c dst)
    Issues s g n c false (atomUse o m) →
    (full = false → Handled g c →
      let c1 := if good = [] then c else (c.shadow dst).buffer
        (.atomic m.kind o.sub.toNat ty o.x4 (o.mark == 1 || o.mark == 3) (o.mark == 2 || o.mark == 3) o.scope.toNat o.d.toNat
          (if m.kind = .sred then o.w2.map fun w => w.toNat % 16 else none))
        (good.map fun l =>
          { Elem.mk0 l (if m.kind = .atoms then scratchName g (atomAddr g n o m l) else atomAddr g n o m l) [] with
            b := readSrc g n l (atomKd ty) (atomSrcB o) 0
            c := if m.useC then readSrc g n l (atomKd ty) (atomSrcC o) 0 else 0 })
      exec (x.1 o) s = .next (stand s g g n
        ((faulted s g c1 (codes.filter fun f => f.2 != 0)).advance (lenWords o.w2)).settle)) ∧
    (full = true → exec (x.1 o) s = .next (groupFault (countCall s g) g n c 49))
  )

/-- R348: LDA outside a method, with legal operands, NPOST not reached, and every selected lane's source and destination legal, is
buffered as one post with an element for each lane. R113, R119, R177, R411: lanes whose source or destination is not legal take their
fault, and the others' elements are posted; illegal operands are fault 6 of each lane, and one post too many is a group fault 49.
While a walk of a lane waits behind a parked atomic nothing changes (R101, R142, R156). -/
def Obligations.AsyncLoadsArePosted : Prop :=
  (
  ∀ (o : MemOp) (s : State) (g : Group) (n : Node) (c : Ctx) (pa : Nat → Nat),
    let b := widthBytes o.sub.toNat
    let m : MemForm := { scratch := false, bytes := b, regs := 1, signed := false, iv := 0 }
    let lanes := memLanes g c o
    Issues s g n c false (memUse o m) → g.landing = none → memChk o m g.nregs true = true → postCount c < c.hdr.npost.toNat →
    walksFree o s g n c = true →
    let t := seeWalks o s g n c
    (∀ l ∈ lanes, ldaCheck t g (memAddr g n o false l) (g.rv l o.d.toNat).toNat b = .ok (pa l)) →
    exec (.lda o) s = .next (stand t g g n ((c.buffer (.lda b) (lanes.map fun l =>
      { Elem.mk0 l (memAddr g n o false l) [] with
        b := scratchName g (g.rv l o.d.toNat).toNat
        pa := pa l
        st := .checked })).advance (memWords o)).settle)
  ) ∧
  (
  ∀ (o : MemOp) (s : State) (g : Group) (n : Node) (c : Ctx) (pa code : Nat → Nat),
    let b := widthBytes o.sub.toNat
    let m : MemForm := { scratch := false, bytes := b, regs := 1, signed := false, iv := 0 }
    let lanes := memLanes g c o
    Issues s g n c false (memUse o m) → Handled g c →
    (memChk o m g.nregs true = false → exec (.lda o) s = .next (stand s g g n
      ((faulted s g c (lanes.map fun l => (l, 6))).advance (memWords o)).settle)) ∧
    (memChk o m g.nregs true = true → walksFree o s g n c = false → exec (.lda o) s = .next s) ∧
    (memChk o m g.nregs true = true → walksFree o s g n c = true → c.hdr.npost.toNat ≤ postCount c →
      exec (.lda o) s = .next (groupFault s g n c 49)) ∧
    (memChk o m g.nregs true = true → walksFree o s g n c = true → postCount c < c.hdr.npost.toNat →
      let t := seeWalks o s g n c
      (∀ l ∈ lanes, ldaCheck t g (memAddr g n o false l) (g.rv l o.d.toNat).toNat b =
        if code l = 0 then .ok (pa l) else .error (code l)) →
      exec (.lda o) s = .next (stand t g g n ((faulted t g
        (c.buffer (.lda b) ((lanes.filter fun l => code l == 0).map fun l =>
          { Elem.mk0 l (memAddr g n o false l) [] with
            b := scratchName g (g.rv l o.d.toNat).toNat
            pa := pa l
            st := .checked }))
        ((lanes.filter fun l => code l != 0).map fun l => (l, code l))).advance (memWords o)).settle))
  )

/-- R281, R296, R351, R352: NOP in both forms, the hints that change timing only or are not implemented, and PREF change nothing but the
trace's position; CCTL drops L1 copies and nothing else: `.inv` its core's copy of each lane's line, whose walk meets its check codes and
waits behind a parked atomic (R156), `.invall` all of its core's; a hint that reads a value writes it to its scalar. -/
def Obligations.HintsOnlyPass : Prop :=
  ∀ (s : State) (g : Group) (n : Node) (c : Ctx),
    (Issues s g n c false Use.none →
      exec .nop s = .next (stand s g g n (c.advance 1)) ∧ exec .nopLong s = .next (stand s g g n (c.advance 2)) ∧
      (∀ o : LOp, exec (.hintKeep o) s = .next (stand s g g n (c.advance (lenWords o.w2))) ∧
        exec (.hintStream o) s = .next (stand s g g n (c.advance (lenWords o.w2))) ∧
        (∀ k, exec (.hintUnimplemented k o) s = .next (stand s g g n (c.advance (lenWords o.w2)))))) ∧
    (∀ o : MemOp, Issues s g n c false (memUse o { scratch := false, bytes := 1, regs := 0, signed := false, iv := 0 }) →
      exec (.pref o) s = .next (stand s g g n (c.advance (memWords o)))) ∧
    (∀ o : MemOp, Issues s g n c false
        (if o.sub = 1 then Use.none else memUse o { scratch := false, bytes := 1, regs := 0, signed := false, iv := 0 }) →
      let legal := memChk o { scratch := false, bytes := 1, regs := 0, signed := false, iv := 0 } g.nregs false
      let t := if o.sub = 0 ∧ legal = true then seeWalks o (countCall s g) g n c else countCall s g
      (o.sub = 0 → legal = true → walksFree o s g n c = false → exec (.cctl o) s = .next s) ∧
      ((o.sub = 0 → legal = true → walksFree o s g n c = true) →
        ∃ l1 : List (Nat × Nat × List Byte), (∀ e ∈ l1, e ∈ s.l1) ∧ (∀ e ∈ s.l1, e.1 ≠ g.core → e ∈ l1) ∧
          exec (.cctl o) s = .next { putCtx t g n (c.advance 2) with l1 := l1 } ∧
          (o.sub = 1 → l1 = s.l1.filter fun e => e.1 != g.core) ∧
          (o.sub = 0 → legal = true → ∀ l ∈ memLanes g c o, ∀ pa, pageOf t g (memAddr g n o false l) = some pa →
            ∀ e ∈ l1, ¬ (e.1 = g.core ∧ e.2.1 = pa / 64 * 64)))) ∧
    (∀ o : LOp, o.u = true → o.d.toNat < 64 → Issues s g n c false { Use.none with sr := [o.d.toNat] } →
      let occ := writeS (g, n, c) o.d.toNat (BitVec.ofNat 32 ((countCall s g).groups.filter fun x => x.core == g.core).length)
      let thr := writeS (g, n, c) o.d.toNat (BitVec.ofNat 32 (s.die g.die).throttle)
      exec (.hintOcc o) s = .next (stand s g occ.1 occ.2.1 (occ.2.2.advance (lenWords o.w2)).settle) ∧
      exec (.hintThr o) s = .next (stand s g thr.1 thr.2.1 (thr.2.2.advance (lenWords o.w2)).settle)) ∧
    (∀ o : LOp, (o.u && decide (o.d.toNat < 64)) = false → Issues s g n c false Use.none →
      exec (.hintOcc o) s = .next (stand s g g n (c.advance (lenWords o.w2))) ∧
      exec (.hintThr o) s = .next (stand s g g n (c.advance (lenWords o.w2))))

/-! ### Engine posts (Table 15.2) -/

/-- The instructions that post an entry from twelve scalars, and the queue, OP and place of their entries. -/
def postForms : List ((LOp → Instr) × PostForm) :=
  [(.layout, { kind := .lq, op := 1, bench := false, counted := true }), (.copy, { kind := .cq, op := 1, bench := false, counted := true }),
   (.gather, { kind := .cq, op := 2, bench := false, counted := true }),
   (.scatter, { kind := .cq, op := 3, bench := false, counted := true }),
   (.coll, { kind := .kq, op := 1, bench := true, counted := false })]

/-- R149, R304, R371, R373: a post outside a method with legal operands, NPOST not reached and its entry in place is buffered with the
values captured at issue, and owns the scalar that will take its sequence number; while the walk to an entry on a bench page waits behind a
parked atomic nothing changes (R101, R142, R156). -/
def Obligations.PostsAreCaptured : Prop :=
  ∀ (o : LOp) (s : State) (g : Group) (n : Node) (c : Ctx), g.landing = none → postCount c < c.hdr.npost.toNat →
    (∀ x ∈ postForms,
      let spot := ringSpot g n x.2.bench o.a.toNat
      Issues s g n c false
        { Use.none with sr := o.d.toNat :: ringUse x.2.bench o.a.toNat ++ (List.range 12).map (o.b.toNat + ·) } →
      o.d.toNat < 60 → o.b.toNat ≤ 52 → ringRegOk x.2.bench o.a.toNat = true →
      (spotWalkHeld s g spot = true → exec (x.1 o) s = .next s) ∧
      (spotWalkHeld s g spot = false → let t := seeSpotWalk s g spot
      spotCheck t g spot 64 64 (if x.2.bench then .update else .read) = 0 →
      exec (x.1 o) s = .next (stand t g g n (((c.own g o.d.toNat).buffer (.post x.2.kind spot.addr x.2.op
        (putAt ((List.range 12).flatMap fun i => leBytes 4 (readS g n (o.b.toNat + i)).toNat) 0 [0]) o.d.toNat x.2.counted) []).advance
        2)))) ∧
    (let bench := o.sub == 3
     let spot := ringSpot g n bench o.a.toNat
     Issues s g n c false { Use.none with sr := o.d.toNat :: ringUse bench o.a.toNat } →
      o.d.toNat < 60 → ringRegOk bench o.a.toNat = true →
      (spotWalkHeld s g spot = true → exec (.qfence o) s = .next s) ∧
      (spotWalkHeld s g spot = false → let t := seeSpotWalk s g spot
      spotCheck t g spot 64 64 (if bench then .update else .read) = 0 →
      exec (.qfence o) s = .next (stand t g g n (((c.own g o.d.toNat).buffer (.post (queueKindOf o.sub.toNat) spot.addr 0x0F
        (putAt (List.replicate 48 0) 1 (leBytes 1 o.mod.toNat)) o.d.toNat false) []).advance 2)))) ∧
    (let sq := (o.w2.getD 0).toNat
     let fields := (List.range 6).map fun i => readS g n (o.b.toNat + i)
     Issues s g n c false
        { sr := sq :: (List.range 6).map (o.b.toNat + ·)
          vr := [o.a.toNat]
          pr := []
          pdg := false
          extra := 0 } →
      o.bk = true → o.b.toNat ≤ 58 → sq < 60 → o.a.toNat < g.nregs → dstOk false g.nregs false (o.offs false) o.d.toNat = true →
      g.gang ≠ 0 → spotCheck s g { bench := false, addr := (fields.getD 0 0).toNat } 64 64 .read = 0 →
      bits (fields.getD 5 0).toNat 31 24 = 0 →
      exec (.mma o) s = .next (stand s g g n (((c.own g sq).buffer
        (.mma fields o.d.toNat (o.bw.toNat + 4 * o.bh.toNat) o.bs.toNat sq)
        ((lanesOf c.active).map fun l => Elem.mk0 l 0 (leBytes 4 (g.rv l o.a.toNat).toNat))).advance 3)))

/-! ### Control flow -/

/-- A terminator may stand here: CALLT and RETT go with no JOIN and no EXIT, YIELD with END and EXIT alone, RESUME with EXIT alone
(R292, R295). -/
def termFits (c : Ctx) (t : Term) : Bool :=
  (match c.flow, t with
   | some (.callt _), .exit => false | some (.callt _), .join _ => false
   | some .rett, .exit => false | some .rett, .join _ => false
   | some .yield, .fin _ => true | some .yield, .exit => true | some .yield, _ => false
   | _, _ => true) && (!c.resume || t == .exit)

/-- The successor and the callee that a terminator uses lie in the code window (R100, R126). -/
def termReaches (g : Group) (c : Ctx) (succ : List Nat) : Bool :=
  match c.flow with
  | some .rett => true
  | some .yield => true
  | some .kill => true
  | some (.callt a) => (succ ++ [a]).all (inWindow g)
  | none => succ.all (inWindow g)

/-- The terminators that carry no record or ring: the terminator and its successor in the trace, where the operands are legal. -/
def plainTerm (s : State) (g : Group) (c : Ctx) : Instr → Option (Term × List Nat)
  | .endTrace o => some (.fin (relAddr c.pc o.offset), [relAddr c.pc o.offset])
  | .join o => some (.join (relAddr c.pc o.offset), [relAddr c.pc o.offset])
  | .exit => some (.exit, [])
  | .endx o => if o.a.toNat % 2 = 0 ∧ o.a.toNat < 63 then some (.finx o.a.toNat, []) else none
  | .bar o => if g.landing = none ∧ o.a.toNat ≤ 15 then
      some (.bar false o.a.toNat (relAddr c.pc o.offset), [relAddr c.pc o.offset]) else none
  | .cbar o => if g.landing = none ∧ o.a.toNat ≤ 3 ∧ inClusterLaunch s g = true then
      some (.bar true o.a.toNat (relAddr c.pc o.offset), [relAddr c.pc o.offset]) else none
  | _ => none

/-- What they use. -/
def termUse : Instr → Use
  | .endx o => { Use.none with sr := [o.a.toNat, o.a.toNat + 1] }
  | _ => Use.none

/-- R100, R120, R289, R305, R308, R375: END, ENDX, JOIN, EXIT, BAR, CBAR, PUSHQ, POPQ and RCALL, standing last, with legal operands and
their targets in the code window, end the trace: it stands at its terminator with the successor that the offset gives and waits to
commit; no register changes. PUSHQ and POPQ have read their ring's header, and met what its check codes show. A successor or a callee
outside the code window is a group fault 50 (R100), and a terminator that the trace's CALLT, RETT, YIELD or RESUME does not allow a group
fault 48 (R292, R295), of END, ENDX, JOIN, EXIT, BAR and CBAR alike. -/
def Obligations.TerminatorsEndTheTrace : Prop :=
  ∀ (s : State) (g : Group) (n : Node) (c : Ctx),
    let goes := fun (t : Term) => stand s g g n { c with term := some t }
    (∀ o : CtlOp, Issues s g n c true Use.none →
      let t := relAddr c.pc o.offset
      (termFits c (.fin t) = true → termReaches g c [t] = true → exec (.endTrace o) s = .next (goes (.fin t))) ∧
      (termFits c (.join t) = true → termReaches g c [t] = true → exec (.join o) s = .next (goes (.join t))) ∧
      (g.landing = none → o.a.toNat ≤ 15 → termFits c (.bar false o.a.toNat t) = true → termReaches g c [t] = true →
        exec (.bar o) s = .next (goes (.bar false o.a.toNat t))) ∧
      (g.landing = none → o.a.toNat ≤ 3 → inClusterLaunch s g = true → termFits c (.bar true o.a.toNat t) = true →
        termReaches g c [t] = true → exec (.cbar o) s = .next (goes (.bar true o.a.toNat t)))) ∧
    (Issues s g n c true Use.none → termFits c .exit = true → termReaches g c [] = true → exec .exit s = .next (goes .exit)) ∧
    (∀ o : LOp, Issues s g n c true { Use.none with sr := [o.a.toNat, o.a.toNat + 1] } → o.a.toNat % 2 = 0 → o.a.toNat < 63 →
      termFits c (.finx o.a.toNat) = true → termReaches g c [] = true →
      exec (.endx o) s = .next (goes (.finx o.a.toNat))) ∧
    (∀ o : CtlOp, g.landing = none → Issues s g n c true
        { Use.none with sr := o.d.toNat :: (List.range 12).map (o.a.toNat + ·) } →
      o.d.toNat < 60 → callRecordOk g n o.a.toNat = true →
      let t := relAddr c.pc o.offset
      let call := Term.rcall (callObj g n o.a.toNat) (callMethod g n o.a.toNat) (readS g n (o.a.toNat + 1)) (callArgs g n o.a.toNat)
        o.d.toNat t
      termFits c call = true → termReaches g c [t] = true → exec (.rcall o) s = .next (goes call)) ∧
    (∀ (o : CtlOp) (cons : Bool), g.landing = none → Issues s g n c true
        { Use.none with sr := ringUse (bit o.sub.toNat 2) o.d.toNat, vr := [o.a.toNat], pr := [o.pred.toNat] } →
      let bench := bit o.sub.toNat 2
      let x := ringSpot g n bench o.d.toNat
      let t := relAddr c.pc o.offset
      let ring := if cons then Term.pop bench x.addr o.a.toNat o.pred.toNat t else Term.push bench x.addr o.a.toNat o.pred.toNat t
      let seen := seeSpot s g x 64
      o.d.toNat < 64 → ringRegOk bench o.d.toNat = true → o.a.toNat < g.nregs → headerReady s g x = true →
      g.rings.contains (cons, bench, x.addr) = true → (∃ h pa, ringCheck seen g c x = .ok h pa) →
      termFits c ring = true → termReaches g c [t] = true →
      exec (if cons then .popq o else .pushq o) s = .next (putCtx seen g n { c with term := some ring })) ∧
    (∀ (i : Instr) (t : Term) (succ : List Nat), plainTerm s g c i = some (t, succ) → Issues s g n c true (termUse i) →
      (termFits c t = false → exec i s = .next (groupFault (countCall s g) g n c 48)) ∧
      (termFits c t = true → termReaches g c succ = false → exec i s = .next (groupFault (countCall s g) g n c 50)))

/-- R121, R123, R290: at a GUARD every active lane whose predicate equals the sense goes on; a lane whose predicate is U leaves for the
undecided trace if one is named; every other lane leaves for the alternative. Each active lane folds the outcome 0, 1 or 2 into its
path digest, and a lane that leaves takes ENTRY 3 or 4, OUTCOME 1 or 2 and the guard's INDEX in s63. -/
def Obligations.GuardsSplitLanes : Prop :=
  ∀ (o : CtlOp) (s : State) (g : Group) (n : Node) (c : Ctx),
    Issues s g n c false { Use.none with pr := [o.pred.toNat], pdg := true } →
    let lanes := lanesOf c.active
    let p := fun l => g.rp l o.pred.toNat
    let words := if o.w2.isSome then 3 else 2
    let leave := fun (l : Nat) =>
      if p l = 2 ∧ o.w2.isSome then
        { lane := l, dest := .undecided (relAddr c.pc ((o.w2.getD 0).setWidth 24)), s63 := s63Of 4 2 0 c.ix, seq := none : Fail }
      else { lane := l, dest := .alternative (relAddr c.pc o.offset), s63 := s63Of 3 1 0 c.ix, seq := none }
    let mark := fun (l : Nat) (out : Bool) => if out then (if p l = 2 then 2 else 1) else 0
    let after := fun (out : Nat → Bool) => stand s g
      (lanes.foldl (fun g' l => foldGuard g' l c.pc (mark l (out l))) g) n
      ((((lanes.filter out).map leave).foldl Ctx.addFail c).advance words).settle
    exec (.guard o) s = .next (after fun l => p l != o.sense) ∧
    exec (.guardc o) s = .next (after fun _ => !(lanes.all fun l => p l == o.sense))

/-- R126, R292, R294, R295: a flow modifier takes its place in a trace that has none: CALLT with its callee, a lane whose return stack is
full taking fault 15; RETT, one whose stack is empty taking fault 16; KILL outside methods; YIELD and RESUME only in their kind 2 traces,
RESUME only in one whose terminator is EXIT. Elsewhere, and where the trace holds a modifier already, each is a group fault 48. -/
def Obligations.FlowModifiersTakeTheirPlace : Prop :=
  (
  ∀ (s : State) (g : Group) (n : Node) (c : Ctx), Issues s g n c false Use.none →
    let bad := Host.Outcome.next (groupFault (countCall s g) g n c 48)
    (c.flow ≠ none → (∀ o : CtlOp, exec (.callt o) s = bad) ∧ exec .rett s = bad ∧ exec .kill s = bad ∧ exec .yield s = bad) ∧
    (c.flow = none → Handled g c →
      (∀ o : CtlOp, exec (.callt o) s = .next (stand s g g n
        ((faulted s g { c with flow := some (.callt (relAddr c.pc o.offset)) }
          (((lanesOf c.active).filter fun l => decide (8 ≤ (sget g.rdepth l).toNat)).map fun l => (l, 15))).advance 2).settle)) ∧
      exec .rett s = .next (stand s g g n ((faulted s g { c with flow := some .rett }
        (((lanesOf c.active).filter fun l => sget g.rdepth l == 0).map fun l => (l, 16))).advance 2).settle)) ∧
    (c.hdr.kind = 1 → exec .kill s = bad) ∧ (¬ (c.hdr.kind = 2 ∧ inSaving s g = true) → exec .yield s = bad) ∧
    (¬ (c.hdr.kind = 2 ∧ n.restored = true ∧ g.loadsplit = true) → exec .resume s = bad)
  ) ∧
  (
  ∀ (s : State) (g : Group) (n : Node) (c : Ctx), Issues s g n c false Use.none → c.flow = none →
    (∀ o : CtlOp, (∀ l ∈ lanesOf c.active, (sget g.rdepth l).toNat < 8) →
      exec (.callt o) s = .next (stand s g g n (({ c with flow := some (.callt (relAddr c.pc o.offset)) }).advance 2).settle)) ∧
    ((∀ l ∈ lanesOf c.active, sget g.rdepth l ≠ 0) →
      exec .rett s = .next (stand s g g n (({ c with flow := some .rett }).advance 2).settle)) ∧
    (c.hdr.kind ≠ 1 → exec .kill s = .next (stand s g g n (({ c with flow := some .kill }).advance 2))) ∧
    (c.hdr.kind = 2 → inSaving s g = true → exec .yield s = .next (stand s g g n (({ c with flow := some .yield }).advance 2))) ∧
    (c.hdr.kind = 2 → n.restored = true → g.loadsplit = true →
      exec .resume s = .next (if endsOtherwise (countCall s g) g c then groupFault (countCall s g) g n c 48
        else stand s g g n (({ c with resume := true }).advance 2)))
  )

/-- R118, R124, R288: a fragment that enters a trace through a header of a kind that may stand there opens it: its mask is active, the
registers, predicates and digests are shadowed, nothing is buffered, and the first instruction stands 8 bytes on with INDEX 1. -/
def Obligations.TracesOpen : Prop :=
  ∀ (h : TraceHdr) (s : State) (g : Group) (n : Node), curFrame s = some (g, n) → canIssue s g n = true → n.ctx = none →
    (h.kind = 1 → g.landing ≠ none) → (n.toHandler = true → h.kind = 3) →
    ∃ c : Ctx, exec (.trace h) s = .next ((countCall s g).setGroup (g.setNode { n with
        code := if n.s63.toNat % 16 = 5 then n.s63.toNat / 2 ^ 16 % 256 else 64
        ctx := some c })) ∧
      c.hdr = h ∧ c.addr = n.trace ∧ c.pc = n.trace + 8 ∧ c.ix = 1 ∧ c.active = n.mask ∧ c.fails = [] ∧ c.effs = [] ∧ c.flow = none ∧
      c.term = none ∧ c.owned = [] ∧ c.v0 = (withoutHelpers g).v ∧ c.p0 = (withoutHelpers g).p ∧ c.pdg0 = (withoutHelpers g).pdg

/-- R30, R143, R178, R414: a fault as a fragment enters a trace sends it to the handler with INDEX 0, and its lanes with the SEQ of the
record where it is a data error; a fault of the handler's own entry is
fatal with reason 2, one of a fragment that comes from a trace of kind 2 or 3 with reason 1. R178, R187, R249: where a fault is not to
be taken to the handler: in a trace of kind 2 or 3 it marks the group's cluster for fatal termination with reason 1, and in a method it
rejects the call with reason 4 and the fault's code; the lanes and the trace stay. -/
def Obligations.FaultsAtEntry : Prop :=
  (
  ∀ (s : State) (g : Group) (n : Node) (code : Nat), g.landing = none →
    (n.toHandler = false → n.prevKind ≠ 2 → n.prevKind ≠ 3 →
      let g1 := match faultSeq code with
        | some q => g.noteSeqs ((lanesOf n.mask).map fun l => (l, q))
        | none => g
      entryFault s g n code = s.setGroup (g1.setNode { n with
        trace := handlerOf s g
        s63 := s63Of 5 3 (faultCode code) 0
        toHandler := true
        prevKind := 4
        code := faultCode code
        ctx := none })) ∧
    (n.toHandler = true → entryFault s g n code = addFatal s g 2 (n.s63.toNat / 2 ^ 16 % 256)) ∧
    (n.toHandler = false → (n.prevKind = 2 ∨ n.prevKind = 3) → entryFault s g n code = addFatal s g 1 n.code)
  ) ∧
  (
  ∀ (s : State) (g : Group) (n : Node) (c : Ctx) (f : Nat × Nat) (next : Ctx → Ctx), c.active.getLsbD f.1 = true →
    faultCause f.2 = 0 →
    (g.landing = none → (c.hdr.kind = 2 ∨ c.hdr.kind = 3) → faultLanes s g n c [f] next = addFatal (putCtx s g n c) g 1 n.code) ∧
    (g.landing ≠ none → faultLanes s g n c [f] next = rejectCall (putCtx s g n c) g 4 (faultCode f.2))
  )

/-! ### Waits, counters, tickets, spawning -/

/-- R88, R147, R300 to R302, R353, R377: a wait passes when its condition holds: counters at or below their allowances, the completion
word past the number, the gate open, the group's stores checked, the die's applied position reached; WAITC, WAITP, WAITSEQ, GATE and
RSYNC then are acquires at device scope, and RSYNC raises the group's horizon; they also wait for the group's FENCEs and for its parked and
acquiring atomics (R163, R166, R168). THE MODEL'S CHOICE (derived): that DRAIN passes leaving an item behind which the group's later effects
wait is log 90 (DESIGN CHOICE). R101, R300 to R302,
R353, R377: while its condition does not hold a wait is not ready: the fragment stays where it is and nothing changes. -/
def Obligations.WaitsPassAndHold : Prop :=
  (
  ∀ (s : State) (g : Group) (n : Node) (c : Ctx),
    let pass := putCtx (acquire (countCall s g) g 4) g n (c.advance 2)
    (∀ k : WaitCounts, Issues s g n c false Use.none → acquireReady s g = true →
      (∀ x ∈ [(g.ld, k.ld), (g.st, k.st), (g.cp, k.cp), (g.tl, k.tl)], x.2 = 255 ∨ x.1.toNat ≤ x.2.toNat) →
      exec (.waitc k) s = .next pass) ∧
    (∀ o : LOp, Issues s g n c false { Use.none with sr := scalarUse o.a.toNat } → scalarOk o.a.toNat = true → acquireReady s g = true →
      ((counterOf g o.sub.toNat).toNat ≤ (readScalar g n o.a.toNat).toNat → exec (.waitp o) s = .next pass) ∧
      (∀ q, engqFor s g o.sub.toNat = some q → seqReached q.word (readScalar g n o.a.toNat) = true →
        exec (.waitseq o) s = .next pass)) ∧
    (Issues s g n c false Use.none → acquireReady s g = true → (∀ l, s.launch? g.part g.serial = some l → l.gateOpen = true) →
      exec .gate s = .next pass) ∧
    (Issues s g n c false Use.none → uncheckedStores s g = false → exec .drain s = .next
      (tidy (addItem (stand s g g n (c.advance 2)) (itemOf g c { ix := c.ix, op := .fence 1 1, elems := [] } 1)))) ∧
    (∀ o : LOp, g.landing = none → Issues s g n c false { Use.none with sr := scalarUse o.a.toNat ++ scalarUse o.b.toNat } →
      scalarOk o.a.toNat = true → scalarOk o.b.toNat = true →
      let obj := bits (readScalar g n o.a.toNat).toNat 7 0
      seqReached (appliedOn s g.part g.die obj) (readScalar g n o.b.toNat) = true → horizonReady s g obj = true →
      acquireReady s g = true →
      exec (.rsync o) s = .next (putCtx (acquire s g 4) (raiseHorizon g obj (readScalar g n o.b.toNat)) n (c.advance 2)))
  ) ∧
  (
  ∀ (s : State) (g : Group) (n : Node) (c : Ctx),
    (∀ k : WaitCounts, Issues s g n c false Use.none →
      (∃ x ∈ [(g.ld, k.ld), (g.st, k.st), (g.cp, k.cp), (g.tl, k.tl)], x.2 ≠ 255 ∧ x.2.toNat < x.1.toNat) →
      exec (.waitc k) s = .next s) ∧
    (∀ (o : LOp), Issues s g n c false { Use.none with sr := scalarUse o.a.toNat } → scalarOk o.a.toNat = true →
      (readScalar g n o.a.toNat).toNat < (counterOf g o.sub.toNat).toNat → exec (.waitp o) s = .next s) ∧
    (∀ (o : LOp) (q : EngQ), Issues s g n c false { Use.none with sr := scalarUse o.a.toNat } → scalarOk o.a.toNat = true →
      engqFor s g o.sub.toNat = some q → seqReached q.word (readScalar g n o.a.toNat) = false → exec (.waitseq o) s = .next s) ∧
    (∀ l, Issues s g n c false Use.none → s.launch? g.part g.serial = some l → l.gateOpen = false → exec .gate s = .next s) ∧
    (Issues s g n c false Use.none → uncheckedStores s g = true → exec .drain s = .next s) ∧
    (∀ o : LOp, g.landing = none → Issues s g n c false { Use.none with sr := scalarUse o.a.toNat ++ scalarUse o.b.toNat } →
      scalarOk o.a.toNat = true → scalarOk o.b.toNat = true →
      seqReached (appliedOn s g.part g.die (bits (readScalar g n o.a.toNat).toNat 7 0)) (readScalar g n o.b.toNat) = false →
      exec (.rsync o) s = .next s) ∧
    (acquireReady s g = false →
      (∀ k : WaitCounts, Issues s g n c false Use.none → exec (.waitc k) s = .next s) ∧
      (∀ (o : LOp), Issues s g n c false { Use.none with sr := scalarUse o.a.toNat } → scalarOk o.a.toNat = true →
        exec (.waitp o) s = .next s ∧ exec (.waitseq o) s = .next s) ∧
      (∀ l, Issues s g n c false Use.none → s.launch? g.part g.serial = some l → exec .gate s = .next s) ∧
      (∀ o : LOp, g.landing = none → Issues s g n c false { Use.none with sr := scalarUse o.a.toNat ++ scalarUse o.b.toNat } →
        scalarOk o.a.toNat = true → scalarOk o.b.toNat = true → exec (.rsync o) s = .next s))
  )

/-- R83 to R86, R310: TICKET to an even scalar up to s54, outside a method, takes the group's pending grant, or, where the grant register is
empty, the launch's next positions, up to its chunk, which the launch then has given out: its position is the ledger's next, its coordinates
those of that position under the launch's walk, row by row or by panels (R84), and zero where the count is 0; the six scalars from D on take
the position, the count and the coordinates, and the grant stays unconfirmed; while another trace holds the group's unconfirmed grant TICKET
waits, and an illegal D is fault 6 (R85, R113). R309: QSTAT of a ring whose header can be read writes to D the count of occupied slots
(TAILC less HEADC), or with SUB bit 0 the flags and the numbers of producers and consumers. -/
def Obligations.TicketsAreGrantedAndRingStatusIsRead : Prop :=
  (
  ∀ (o : LOp) (s : State) (g : Group) (n : Node) (c : Ctx) (l : Launch), g.landing = none →
    Issues s g n c false { Use.none with sr := (List.range 6).map (o.d.toNat + ·) } → o.d.toNat % 2 = 0 → o.d.toNat ≤ 54 →
    s.launch? g.part g.serial = some l → (g.grant.st ≠ 2 ∨ c.ticket = true) →
    let fresh := g.grant.st == 0
    let t := if fresh then takeGrant l else { g.grant with st := 2 }
    ∃ c' : Ctx, exec (.ticket o) s =
        .next (stand (if fresh then s.setLaunch { l with next := l.next + t.c.toNat } else s) g
          { g with
            s := ([t.n.setWidth 32, (t.n >>> 32).setWidth 32, t.c, t.x, t.y, t.z].zipIdx).foldl
              (fun m w => sset m (o.d.toNat + w.2) w.1) g.s
            grant := t } n c') ∧
      c'.ticket = true ∧ c'.pc = c.pc + 8 ∧ c'.ix = c.ix + 1 ∧ c'.effs = c.effs ∧
      (fresh = true →
        let count := min (l.fld 44 2) (l.space - l.next)
        let X := l.fld 36 4
        let Y := l.fld 40 2
        let W := 2 ^ (l.fld 46 1 / 16)
        let q := l.next % (X * Y)
        let y0 := q / (X * W) * W
        let h := min W (Y - y0)
        let q1 := q - y0 * X
        let coords := fun x y z : Nat => t.x = BitVec.ofNat 32 x ∧ t.y = BitVec.ofNat 32 y ∧ t.z = BitVec.ofNat 32 z
        t.n = BitVec.ofNat 64 l.next ∧ t.c.toNat = count % 2 ^ 32 ∧ (count = 0 → coords 0 0 0) ∧
        (count ≠ 0 → l.fld 46 1 % 16 = 0 → coords (l.next % X) (l.next / X % Y) (l.next / (X * Y))) ∧
        (count ≠ 0 → l.fld 46 1 % 16 = 1 → coords (q1 / h) (y0 + q1 % h) (l.next / (X * Y))))
  ) ∧
  (
  ∀ (o : LOp) (s : State) (g : Group) (n : Node) (c : Ctx), g.landing = none →
    Issues s g n c false { Use.none with sr := (List.range 6).map (o.d.toNat + ·) } →
    (o.d.toNat % 2 = 0 → o.d.toNat ≤ 54 → g.grant.st = 2 → c.ticket = false → exec (.ticket o) s = .next s) ∧
    (¬ (o.d.toNat % 2 = 0 ∧ o.d.toNat ≤ 54) → exec (.ticket o) s = .next (uniFault s g n c 6 (·.advance 2)))
  ) ∧
  (
  ∀ (o : LOp) (s : State) (g : Group) (n : Node) (c : Ctx) (h : List Byte) (pa : Nat),
    let bench := bit o.sub.toNat 2
    let x := ringSpot g n bench o.a.toNat
    Issues s g n c false { Use.none with sr := o.d.toNat :: ringUse bench o.a.toNat } → o.d.toNat < 64 →
    ringRegOk bench o.a.toNat = true → headerReady s g x = true →
    let t := seeSpot (countCall s g) g x 64
    spotCheck t g x 64 64 .read = 0 → loadHeader t g c x = .ok h pa →
    let v : Word := if bit o.sub.toNat 0 then
        BitVec.ofNat 32 (field h 12 1 % 4 + min (field h 8 2) 255 * 2 ^ 8 + min (field h 10 2) 255 * 2 ^ 16)
      else BitVec.ofNat 32 (field h 4 4) - BitVec.ofNat 32 (field h 0 4)
    let r := writeS (g, n, c) o.d.toNat v
    exec (.qstat o) s = .next (putCtx t r.1 r.2.1 (r.2.2.advance 2).settle)
  )

/-- R92, R311: SPAWN of a trace's first spawn, outside a method, reserves slots of the task queue for its selected lanes from the lowest
lane up while there is room, writes to each lane's predicate whether it won one, and buffers each winner's six registers as its argument
record; illegal registers are fault 6 of each selected lane, and a second one in a trace is a group fault 49 (R113, R119). R92: reserving
takes the task queue's free slots in ascending lane order and no more than it has: the winners are the first lanes, they hold consecutive
counts from TAILC on, and TAILC rises by their number. R339: IVBIS with legal registers and room in the shadows, outside a method, in a
trace without a spawn: each selected lane whose operand is an interval and that wins a slot keeps the half that SUB names in D and spawns
the other half with four registers; a lane that wins none, or that is a helper (R111), copies the whole interval; the predicate says which;
every zero bound is +0 (R333). A helper whose operand is no interval writes zero. THE MODEL'S READING (derived): that a SPAWN's helper lane
takes no slot and its predicate reads F is log 23 (DEDUCED); Table 13.7 says so of IVBIS only. -/
def Obligations.SpawnsReserveSlots : Prop :=
  (
  ∀ (o : LOp) (s : State) (g : Group) (n : Node) (c : Ctx), g.landing = none →
    Issues s g n c false { Use.none with vr := (List.range 6).map (o.a.toNat + ·), pr := [o.d.toNat, o.ps.toNat] } →
    spawnCount c = 0 → o.d.toNat < 16 → o.a.toNat + 6 ≤ g.nregs →
    let lanes := selected g o.ps.toNat o.pm.toNat c.active
    let help := selected g o.ps.toNat o.pm.toNat c.helpers
    let r := reserveSlots s g (spawnQueue o) lanes
    exec (.spawn o) s = .next (putCtx r.s
      ((lanes ++ help).foldl (fun g' l => g'.wp l o.d.toNat (if r.won.any fun w => w.1 == l then 1 else 0)) g) n
      ((spawnEff c (spawnQueue o) (spawnEntry c o) r.won fun l =>
        (List.range 6).flatMap fun k => leBytes 4 (g.rv l (o.a.toNat + k)).toNat).advance 3))
  ) ∧
  (
  ∀ (o : LOp) (s : State) (g : Group) (n : Node) (c : Ctx), g.landing = none → spawnCount c ≠ 0 →
    Issues s g n c false { Use.none with vr := (List.range 6).map (o.a.toNat + ·), pr := [o.d.toNat, o.ps.toNat] } →
    exec (.spawn o) s = .next (groupFault s g n c 49)
  ) ∧
  (
  ∀ (o : LOp) (s : State) (g : Group) (n : Node) (c : Ctx), Handled g c → spawnCount c = 0 → ¬ (o.d.toNat < 16 ∧ o.a.toNat + 6 ≤ g.nregs) →
    Issues s g n c false { Use.none with vr := (List.range 6).map (o.a.toNat + ·), pr := [o.d.toNat, o.ps.toNat] } →
    let g1 := (selected g o.ps.toNat o.pm.toNat c.helpers).foldl (zeroLane [] (if o.d.toNat < 16 then [o.d.toNat] else [])) g
    exec (.spawn o) s = .next (stand s g g1 n ((faulted s g1 c
      ((selected g o.ps.toNat o.pm.toNat c.active).map fun l => (l, 6))).advance 3).settle)
  ) ∧
  (
  ∀ (s : State) (g : Group) (q : Nat) (lanes : List Nat) (p : Partition) (tq : TaskQ),
    s.part? g.part = some p → p.taskq? q = some tq →
    let r := reserveSlots s g q lanes
    let room := tq.size - (tq.tailc - tq.headc).toNat
    r.won.length = min room lanes.length ∧
    (∀ i (h : i < r.won.length) (h' : i < lanes.length), r.won[i] = (lanes[i], tq.tailc + BitVec.ofNat 32 i)) ∧
    r.s.parts = (s.setPart (p.setTaskq { tq with
      tailc := tq.tailc + BitVec.ofNat 32 r.won.length
      reserved := tq.reserved ++ r.won.map (·.2) })).parts
  ) ∧
  (
  ∀ (half : Bool) (o : LOp) (s : State) (g : Group) (n : Node) (c : Ctx), g.landing = none → spawnCount c = 0 →
    let dst := if half then [o.d.toNat] else [o.d.toNat, o.d.toNat + 1]
    let pr := o.mod.toNat % 16
    Issues s g n c false
      { sr := o.srcA.scalars (ivKd half)
        vr := dst ++ (List.range 4).map (o.b.toNat + ·) ++ o.srcA.vectors (ivKd half) [0]
        pr := [pr, o.ps.toNat]
        pdg := false
        extra := 0 } →
    dstOk false g.nregs (!half) [0] o.d.toNat = true → srcOk g.nregs (ivKd half) [0] o.srcA = true → o.b.toNat + 4 ≤ g.nregs →
    let lanes := selected g o.ps.toNat o.pm.toNat c.active
    let help := selected g o.ps.toNat o.pm.toNat c.helpers
    let x := fun l => ivOf half (readSrc g n l (ivKd half) o.srcA 0)
    lanes ≠ [] → overShadow c dst = false → (∀ l ∈ lanes, ivCheck (ivFmt half) [x l] = 0) →
    let r := reserveSlots s g (spawnQueue o) lanes
    let m := fun l => ivMid (ivFmt half) (x l)
    let lower := fun l => ivImg half { lo := posZero (ivFmt half) (x l).lo, hi := m l }
    let upper := fun l => ivImg half { lo := m l, hi := posZero (ivFmt half) (x l).hi }
    let whole := fun l => ivImg half { lo := posZero (ivFmt half) (x l).lo, hi := posZero (ivFmt half) (x l).hi }
    let kept := fun l => if o.sub = 0 then lower l else upper l
    let spawned := fun l => if o.sub = 0 then upper l else lower l
    let won := fun (l : Nat) => r.won.any fun w => w.1 == l
    let put := fun (g' : Group) (l img : Nat) =>
      if half then g'.wv l o.d.toNat (BitVec.ofNat 32 img)
      else (g'.wv l o.d.toNat (BitVec.ofNat 32 img)).wv l (o.d.toNat + 1) (BitVec.ofNat 32 (img / 2 ^ 32))
    exec (if half then .ivbisIv16 o else .ivbis o) s = .next (putCtx r.s
      (help.foldl (fun g' l => if ivCheck (ivFmt half) [x l] = 0 then (put g' l (whole l)).wp l pr 0 else zeroLane dst [pr] g' l)
        (lanes.foldl (fun g' l => (put g' l (if won l then kept l else whole l)).wp l pr (if won l then 1 else 0)) g)) n
      ((spawnEff (c.shadow dst) (spawnQueue o) (spawnEntry c o) r.won fun l =>
        (if half then leBytes 4 (spawned l) ++ [0, 0, 0, 0] else leBytes 8 (spawned l)) ++
          (List.range 4).flatMap fun k => leBytes 4 (g.rv l (o.b.toNat + k)).toNat).advance 3).settle)
  )

/-- R362, R368: WRLANE with legal operands writes the scalar, or the pair, to D of the one lane that B names, if it is active; no other
lane and no other register changes; operands that are not legal, a lane number above 95 among them, are fault 6 of every active lane, and
a destination that the shadows do not hold is a group fault 49. -/
def Obligations.WrlaneWritesOneLane : Prop :=
  ∀ (o : LOp) (s : State) (g : Group) (n : Node) (c : Ctx),
    let wide := LOp.b64 o
    let b := (readScalar g n o.b.toNat).toNat
    Issues s g n c false
      { sr := (if o.a.toNat < 64 then wideDst wide o.a.toNat else []) ++ scalarUse o.b.toNat
        vr := wideDst wide o.d.toNat
        pr := []
        pdg := false
        extra := 0 } →
    (¬ (o.ak = true ∧ o.bk = true ∧ o.a.toNat < 64 ∧ laneIndexOk wide o.b.toNat = true ∧ (wide = true → o.a.toNat % 2 = 0) ∧ b ≤ 95) →
      exec (.wrlane o) s = .next (uniFault (countCall s g) g n c 6 (·.advance 2))) ∧
    (o.ak = true → o.bk = true → o.a.toNat < 64 → laneIndexOk wide o.b.toNat = true → (wide = true → o.a.toNat % 2 = 0) → b ≤ 95 →
      let ok := dstOk false g.nregs wide [0] o.d.toNat
      let tooMany := overShadow c (wideDst wide o.d.toNat)
      (c.active.getLsbD b = false → exec (.wrlane o) s = .next (stand s g g n (c.advance 2))) ∧
      (c.active.getLsbD b = true → ok = false → exec (.wrlane o) s = .next (uniFault (countCall s g) g n c 6 (·.advance 2))) ∧
      (c.active.getLsbD b = true → ok = true → tooMany = true → exec (.wrlane o) s = .next (groupFault (countCall s g) g n c 49)) ∧
      (c.active.getLsbD b = true → ok = true → tooMany = false →
        exec (.wrlane o) s = .next (stand s g
          (if wide then (g.wv b o.d.toNat (readS g n o.a.toNat)).wv b (o.d.toNat + 1) (readS g n (o.a.toNat + 1))
           else g.wv b o.d.toNat (readS g n o.a.toNat)) n ((c.shadow (wideDst wide o.d.toNat)).advance 2))))

/-! ### Other reads that go in flight, and trees -/

/-- What an instruction that puts one load in flight leaves: the load, with its registers and values, and nothing else of the machine's
memories, registers and effects. -/
def InFlight (s : State) (g : Group) (n : Node) (c : Ctx) (words : Nat) (writes : List (RegRef × Word))
    (rread : Option (Nat × Nat × List Word × Nat)) (o : Host.Outcome State Fault Refusal) : Prop :=
  ∃ (s' : State) (c' : Ctx) (l : Load), o = .next (putCtx s' { g with loads := g.loads ++ [l] } n c') ∧ l.node = n.ix ∧ l.ix = c.ix ∧
    l.writes = writes ∧ l.rread = rread ∧ s'.mem = s.mem ∧ s'.hostmem = s.hostmem ∧ s'.wkgs = s.wkgs ∧ s'.groups = s.groups ∧
    c'.pc = c.pc + 4 * words ∧ c'.ix = c.ix + 1 ∧ c'.effs = c.effs ∧ (c.active ≠ 0 → c'.active = c.active)

/-- R350, R374, R376: LDLIT of words that can be fetched, SEQRD of a completion word, and RREAD of a well-formed call record go in flight:
LDLIT will write the literal words to D of the scalars or of every active lane, SEQRD the word and its ERR, RREAD its three results once
its method has run. -/
def Obligations.LiteralAndEngineReadsGoInFlight : Prop :=
  ∀ (s : State) (g : Group) (n : Node) (c : Ctx),
    (∀ (o : LitOp) (ws : List Word) (x : Xlat),
      let k := if o.sub = 5 then 2 else 1
      let dst := (List.range k).map (o.d.toNat + ·)
      let a := relAddr c.pc o.offset
      Issues s g n c false { Use.none with sr := if o.u then dst else [], vr := if o.u then [] else dst } →
      (∀ b ∈ poolWords c o, wordHeld s g [] b = false) → dataOk o.u g.nregs k o.d.toNat = true → a % (4 * k) = 0 →
      let t := (poolWords c o).foldl (fun t b => seeWord t g [] b) (countCall s g)
      fetchMore t g [] a k = .ok ws → translate t g.core g.die g.part a .exec = .ok x → methodMayLoad t g a (4 * k) x.pa = true →
      (o.u || !overShadow c dst) = true →
      InFlight s g n c 2 (if o.u then (dst.zip ws).map fun w => (.s w.1, w.2)
        else (lanesOf c.active).flatMap fun l => (dst.zip ws).map fun w => (.v l w.1, w.2)) none (exec (.ldlit o) s)) ∧
    (∀ (o : LOp) (q : EngQ), Issues s g n c false { Use.none with sr := [o.d.toNat, o.d.toNat + 1] } → o.d.toNat % 2 = 0 →
      o.d.toNat ≤ 58 → acquireReady s g = true → engqFor s g o.sub.toNat = some q →
      InFlight s g n c 2 [(.s o.d.toNat, q.word), (.s (o.d.toNat + 1), if q.err then 1 else 0)] none (exec (.seqrd o) s)) ∧
    (∀ o : LOp, g.landing = none → Issues s g n c false
        { Use.none with sr := [o.d.toNat, o.d.toNat + 1, o.d.toNat + 2] ++ (List.range 12).map (o.a.toNat + ·) } →
      o.d.toNat % 2 = 0 → o.d.toNat + 2 ≤ 59 → callRecordOk g n o.a.toNat = true →
      InFlight s g n c 2 [(.s o.d.toNat, 0), (.s (o.d.toNat + 1), 0), (.s (o.d.toNat + 2), 0)]
        (some (callObj g n o.a.toNat, callMethod g n o.a.toNat, callArgs g n o.a.toNat, o.d.toNat)) (exec (.rread o) s))

/-- R253, R254, R379: TSTEP steps every selected lane whose node and feature can be read: at a leaf its value goes to the third register
and the predicate is T; at an inner node the feature is compared with the threshold, the pair moves by 16 times the side's offset, the
predicate is F, and the direction is folded into the path digest when the read returns. With no lane selected it passes, and while a
lane's reads are not ready nothing changes (R101). -/
def Obligations.TreeStepsFollowTheTree : Prop :=
  ∀ (o : LOp) (s : State) (g : Group) (n : Node) (c : Ctx) (b f : Nat → List Byte) (pa fpa : Nat → Nat),
    let d := o.d.toNat
    let pr := o.mod.toNat % 16
    let lanes := selected g o.ps.toNat o.pm.toNat c.active
    let node := fun l => pairOf (g.rv l d) (g.rv l (d + 1))
    let base := fun l => readSrc g n l (.int 3) o.srcA 0
    let so := lanes.any fun l => treeSo s g c l (node l) (base l)
    Issues s g n c false
      { sr := o.srcA.scalars (.int 3)
        vr := [d, d + 1, d + 2] ++ o.srcA.vectors (.int 3) [0]
        pr := [pr, o.ps.toNat]
        pdg := true
        extra := 0 } →
    d % 2 = 0 → d + 3 ≤ g.nregs → srcOk g.nregs (.int 3) [0] o.srcA = true →
    ((∃ l ∈ lanes, treeReady s g c so l (node l) (base l) = false) → exec (.tstep o) s = .next s) ∧
    (lanes = [] → exec (.tstep o) s = .next (stand s g g n (c.advance 2).settle)) ∧
    ((∀ l ∈ lanes, treeReady s g c so l (node l) (base l) = true) → lanes ≠ [] →
      let t := lanes.foldl (fun t l => treeSee t g c l (node l) (base l)) (countCall s g)
      let leaf := fun l => bit (field (b l) 6 1) 0
      (∀ l ∈ lanes, loadLane t g c l (node l) 16 true = .ok (b l) (pa l) ∧ field (b l) 7 1 = 0 ∧ field (b l) 6 1 < 8 ∧
        (leaf l = false → loadLane t g c l ((base l + 4 * field (b l) 4 2) % 2 ^ 64) 4 false = .ok (f l) (fpa l))) →
      overShadow c ((if lanes.any fun l => !leaf l then [d, d + 1] else []) ++ (if lanes.any leaf then [d + 2] else [])) = false →
      InFlight s g n c 2 (lanes.flatMap fun l =>
        let dir := treeDir (leNat (f l)) (field (b l) 0 4) (field (b l) 6 1)
        let next := trunc (node l + 16 * (if dir % 2 = 0 then sext (field (b l) 8 4) 32 else sext (field (b l) 12 4) 32)) 64
        if leaf l then [(.v l (d + 2), BitVec.ofNat 32 (field (b l) 0 4)), (.p l pr, 1)]
        else [(.v l d, BitVec.ofNat 32 next), (.v l (d + 1), BitVec.ofNat 32 (next / 2 ^ 32)), (.p l pr, 0),
          (.pdg l, BitVec.ofNat 32 c.pc ||| BitVec.ofNat 32 dir)]) none (exec (.tstep o) s))

/-- R385, R386: SAVESPLIT in a kind 2 trace of a group in SAVING is buffered for commit; LOADSPLIT in a kind 2 trace of a restore
fragment, once its reads are ready, holds the block's split image and s63 array as the pending tree, is buffered, and puts a load in flight
for which the terminator waits; while a read is not ready nothing changes. -/
def Obligations.SplitTreesAreCarried : Prop :=
  ∀ (s : State) (g : Group) (n : Node) (c : Ctx), g.landing = none → c.hdr.kind = 2 →
    Issues s g n c false { Use.none with sr := [regSavelo, regSavehi] } →
    (inSaving s g = true → exec .savesplit s = .next (stand s g g n ((c.buffer .savesplit []).advance 2))) ∧
    (∀ b pa, n.restored = true →
      let at_ := (List.range 144).map fun k => saveBlock g + 0x200 + 16 * k
      let so := at_.any fun a => loadKind s g a == some 0
      let t := at_.foldl (fun t a => seeLoad t g a 16 false) s
      ((∀ a ∈ at_, loadReady s g a 16 so false false = true) →
        joinGot (at_.map fun a => loadLane t g c uniLane a 16 false) = .ok b pa →
        ∃ (s' : State) (l : Load), exec .loadsplit s = .next (putCtx s'
            { g with pendingTree := some (takeAt b 0 1536, takeAt b 1536 768), loads := g.loads ++ [l] } n
            ((c.buffer .loadsplit []).advance 2)) ∧
          l.node = n.ix ∧ l.writes = [] ∧ s'.mem = s.mem ∧ s'.hostmem = s.hostmem ∧ s'.wkgs = s.wkgs ∧ s'.groups = s.groups) ∧
      ((∃ a ∈ at_, loadReady s g a 16 so false false = false) → exec .loadsplit s = .next s))

/-! ### What stops an instruction before it issues -/

/-- R177, R266, R284: words that no opcode takes raise code 48 in every active lane: outside methods and traces of kind 2 and 3 each
goes to the handler with ENTRY 5, OUTCOME 3, CODE 48 and the INDEX, and, as no lane is left, the trace's rest does not execute. R119,
R120, R177: past the trace's last instruction, and a terminator that stands anywhere but last, is a group fault 48. -/
def Obligations.UnallocatedWordsAndWrongLengthsFault : Prop :=
  (
  ∀ (why : DecodeError) (w : List Word) (s : State) (g : Group) (n : Node) (c : Ctx), Issues s g n c false Use.none →
    g.landing = none → c.hdr.kind ≠ 2 → c.hdr.kind ≠ 3 →
    exec (.unallocatedOpcode why w) s = .next (stand s g g n
      ((lanesOf c.active).foldl (fun c' l => c'.addFail { lane := l, dest := .handler, s63 := s63Of 5 3 48 c.ix, seq := none }) c).settle)
  ) ∧
  (
  ∀ (s : State) (g : Group) (n : Node) (c : Ctx) (isTerm : Bool) (u : Use), canIssue s g n = true → n.ctx = some c → c.term = none →
    c.emul = none → g.landing = none → (c.lastIx < c.ix ∨ (isTerm = true ∧ c.ix ≠ c.lastIx)) →
    precheck s g n isTerm u = .stop (groupFault s g n c 48)
  )

/-- R130, R131: an instruction that uses a scalar owned by an older fragment's open trace waits, and changes nothing; one that uses scalars
owned by younger fragments alone rolls their traces back first, whether it then issues or waits for a value. R131: a rolled-back trace
leaves nothing of itself: its lanes' registers, predicates and digests and the scalars it wrote are what they were, its loads are dropped,
and its fragment stands at the trace's start with OUTCOME 5 in s63. -/
def Obligations.TheOlderOwnerWins : Prop :=
  (
  ∀ (s : State) (g : Group) (n : Node) (c : Ctx) (u : Use), canIssue s g n = true → n.ctx = some c → c.term = none → c.emul = none →
    g.landing = none → c.ix ≤ c.lastIx →
    ((∃ m ∈ owners g n u.sr, m.rank < n.rank) → precheck s g n false u = .stop s) ∧
    ((∀ m ∈ owners g n u.sr, n.rank ≤ m.rank) → owners g n u.sr ≠ [] → ∀ g1,
      let t := (owners g n u.sr).foldl (fun t m => rollBack t g.uid m.ix) s
      t.group? g.uid = some g1 →
      (scoreboarded t g1 n c u = false → g1.flaws = [] → precheck s g n false u = .go t g1 n c) ∧
      (scoreboarded t g1 n c u = true → precheck s g n false u = .stop t))
  ) ∧
  (
  ∀ (s : State) (g : Group) (n : Node) (c : Ctx), s.group? g.uid = some g → g.node? n.ix = some n → n.ctx = some c →
    (∀ e ∈ c.effs, ∀ q a, e.op ≠ .spawn q a) → c.ticket = false →
    ∃ g' : Group, (rollBack s g.uid n.ix).groups = (s.setGroup g').groups ∧
      g'.v = takeLanes (· % 96) (n.mask ||| c.helpers) c.v0 g.v ∧ g'.p = takeLanes (· % 96) (n.mask ||| c.helpers) c.p0 g.p ∧
      g'.pdg = takeLanes id n.mask c.pdg0 g.pdg ∧
      g'.s = (c.owned.foldl (fun h o => h.setOwned o.1 o.2) g).s ∧ g'.loads = g.loads.filter (fun l => l.node != n.ix) ∧
      g'.nodes = (g.setNode { n with s63 := (c.s630 &&& 0xFFFF00FF) ||| 0x500, ctx := none, trace := c.addr }).nodes ∧
      (rollBack s g.uid n.ix).mem = s.mem ∧ (rollBack s g.uid n.ix).parts = s.parts
  )

/-- R293: TRAP takes fault 17, BRK fault 18, in each selected lane: outside methods and traces of kind 2 and 3 the lane goes to the
handler with ENTRY 5, OUTCOME 3, the code and the instruction's INDEX in s63, and the other lanes go on; in a trace of kind 2 or 3 either
is fatal to the group's cluster, with reason 1. R111, R113, R115, R177:
an instruction on lanes whose operands are illegal faults with its code in each selected active lane, which leaves for the handler, and
writes nothing there; a selected helper lane writes zero instead. -/
def Obligations.FaultsTakeTheHandler : Prop :=
  (
  ∀ (code : Nat) (o : LOp) (s : State) (g : Group) (n : Node) (c : Ctx) (i : Instr),
    (i = .trap o ∧ code = 17 ∨ i = .brk o ∧ code = 18) → Issues s g n c false (trapSpec code o).used → g.landing = none →
    let lanes := (selected g o.ps.toNat o.pm.toNat (c.active ||| c.helpers)).filter fun l => c.active.getLsbD l && !c.helpers.getLsbD l
    (c.hdr.kind ≠ 2 → c.hdr.kind ≠ 3 → exec i s = .next (stand s g g n
      ((lanes.foldl (fun c' l => c'.addFail { lane := l, dest := .handler, s63 := s63Of 5 3 code c.ix, seq := none }) c).advance 2).settle)) ∧
    (c.hdr.kind = 2 ∨ c.hdr.kind = 3 → lanes ≠ [] → exec i s = .next (addFatal (stand s g g n c) g 1 n.code))
  ) ∧
  (
  ∀ (i : Instr) (s : State) (g : Group) (n : Node) (c : Ctx) (d : LaneSpec), laneSpecOf s g.nregs i = some d →
    Issues s g n c false d.used → Handled g c → d.chk ≠ 0 →
    let c1 := d.engaged g n c
    let lanes := if d.uni then [] else d.lanes g n c
    let help := lanes.filter fun l => c1.helpers.getLsbD l
    (help = [] ∨ overShadow c1 d.dst = false) →
    let g1 := help.foldl (zeroLane d.dst d.pdst) g
    exec i s = .next (stand s g g1 n ((faulted s g1 (if help = [] then c1 else c1.shadow d.dst)
      ((if d.uni then lanesOf c1.active else lanes).map fun l => (l, d.chk))).advance d.words).settle)
  )

/-- R111, R112, R130, R160: the frame of every register-only instruction on lanes, whatever it ends in: no memory, no queue, no launch, no
other group changes, and of its own group only registers it names as written, predicates and scalars it uses, path digests, and its
fragment's node; counters, rings, horizons, the SFRQ, the grant and the special registers stay. -/
def Obligations.LaneInstructionsFrame : Prop :=
  ∀ (i : Instr) (s t : State) (g : Group) (n : Node) (c : Ctx) (d : LaneSpec), laneSpecOf s g.nregs i = some d →
    Issues s g n c false d.used → exec i s = .next t →
    t = { s with groups := t.groups, calls := t.calls, fatals := t.fatals } ∧
    (t.groups = s.groups ∨ ∃ (g' : Group) (n' : Node),
      t.groups = s.groups.map (fun y => if y.uid == g.uid then g' else y) ∧
      g' = { g with v := g'.v, p := g'.p, pdg := g'.pdg, s := g'.s, nodes := g'.nodes } ∧
      n'.ix = n.ix ∧ g'.nodes = (g.setNode n').nodes ∧
      (swf g.v = true → swf g'.v = true ∧ ∀ l r, l < 96 → r ∉ d.dst → sget g'.v (vkey l r) = sget g.v (vkey l r)) ∧
      (swf g.p = true → swf g'.p = true ∧ ∀ l q, l < 96 → q ∉ d.use.pr → sget g'.p (vkey l q) = sget g.p (vkey l q)) ∧
      (swf g.s = true → swf g'.s = true ∧ ∀ r, r ∉ d.use.sr → sget g'.s r = sget g.s r))

/-! ### What the integer, predicate and comparison instructions compute -/

/-- Two-source integer instructions on 32-bit words by their exact results, truncated (Table 13.1). -/
def int32Results : List ((LOp → Instr) × (Word → Word → Word)) :=
  [(.iadd, fun a b => a + b), (.isub, fun a b => a - b), (.imul, fun a b => a * b), (.and, fun a b => a &&& b),
   (.or, fun a b => a ||| b), (.xor, fun a b => a ^^^ b), (.andn, fun a b => a &&& ~~~b),
   (.imin, fun a b => if a.sle b then a else b), (.imax, fun a b => if a.sle b then b else a)]

/-- R275, R313, R316: the image that an integer instruction of type .i32 without saturation gives an element is the word that its
operation gives of its sources' words. R316: IADD, ISUB and IMUL with SAT clamp the exact result to the type's range, for every type: no
result lies outside it, and a result inside it is exact. -/
def Obligations.IntegerResults : Prop :=
  (
  ∀ x ∈ int32Results, ∀ (o : LOp) (g : Group) (n : Node) (l off : Nat), o.mod = 0 →
    ∃ (k : Comp) (w : Nat), compOf (x.1 o) = some (k, o, w) ∧ k.dst = .reg false ∧
      (k.elt o g n l off) = { code := 0, flags := 0, img :=
        (x.2 (BitVec.ofNat 32 (readSrc g n l (.int 0) o.srcA off)) (BitVec.ofNat 32 (readSrc g n l (.int 0) o.srcB off))).toNat }
  ) ∧
  (
  ∀ (o : LOp) (fm : Word) (a b : Nat), o.isSat = true →
    ∀ x ∈ [(kIadd o, intOf o.ity a + intOf o.ity b), (kIsub o, intOf o.ity a - intOf o.ity b), (kImul o, intOf o.ity a * intOf o.ity b)],
      (x.1.f fm a b 0 0).img = intImg o.ity (max (tyMin o.ity) (min x.2 (tyMax o.ity)))
  )

/-- R318: for .i32 without saturation a shift by 32 or more gives 0 (SHL, SHR) or the sign in every bit (SAR), a smaller one the shifted
word, and ROT turns by the count modulo 32. R320, R321, R322: ICMP gives T exactly where its relation holds of the two signed words, LEA
adds the index times 2^SUB to the pair modulo 2^64, and SEL takes A exactly where its predicate holds. -/
def Obligations.ShiftAndComparisonResults : Prop :=
  (
  ∀ (o : LOp) (fm : Word) (a : Word) (n : Nat), o.mod = 0 →
    ((kShl o).f fm a.toNat n 0 0).img = (if n < 32 then (a <<< n).toNat else 0) ∧
    ((kShr o).f fm a.toNat n 0 0).img = (if n < 32 then (a >>> n).toNat else 0) ∧
    ((kSar o).f fm a.toNat n 0 0).img = (a.sshiftRight (min n 31)).toNat ∧
    ((kRot o).f fm a.toNat n 0 0).img = (a.rotateLeft (n % 32)).toNat
  ) ∧
  (
  ∀ (o : LOp) (fm : Word) (a b : Word), o.mod = 0 →
    (∀ r ∈ [(0, decide (a.toInt = b.toInt)), (1, decide (a.toInt ≠ b.toInt)), (2, decide (a.toInt < b.toInt)),
        (3, decide (a.toInt ≤ b.toInt)), (4, decide (b.toInt < a.toInt)), (5, decide (b.toInt ≤ a.toInt))],
      o.sub.toNat = r.1 → ((kIcmp o).f fm a.toNat b.toNat 0 0).img = if r.2 then 1 else 0) ∧
    (∀ p : DWord, ((kLea o).f fm p.toNat b.toNat 0 0).img = (p + (b.signExtend 64) <<< o.sub.toNat).toNat) ∧
    ((kSel true).f fm a.toNat b.toNat 0 0).img = a.toNat ∧ ((kSel false).f fm a.toNat b.toNat 0 0).img = b.toNat
  )

/-- R115, R297, Table 12.3: the predicate connectives are Kleene's: exchanging T and F through NOT exchanges AND and OR, U is absorbed only
by the value that decides, and they agree with the two-valued ones on T and F. -/
def Obligations.PredicatesAreThreeValued : Prop :=
  (∀ a b : Pred, a ≠ 3 → b ≠ 3 → kleeneNot (kleeneAnd a b) = kleeneOr (kleeneNot a) (kleeneNot b) ∧
    (kleeneAnd a b = 2 ↔ (a = 2 ∨ b = 2) ∧ a ≠ 0 ∧ b ≠ 0) ∧ (kleeneOr a b = 2 ↔ (a = 2 ∨ b = 2) ∧ a ≠ 1 ∧ b ≠ 1) ∧
    (kleeneXor a b = 2 ↔ a = 2 ∨ b = 2)) ∧
  (∀ a b : Bool, kleeneAnd (if a then 1 else 0) (if b then 1 else 0) = (if a && b then 1 else 0) ∧
    kleeneOr (if a then 1 else 0) (if b then 1 else 0) = (if a || b then 1 else 0) ∧
    kleeneXor (if a then 1 else 0) (if b then 1 else 0) = (if a ^^ b then 1 else 0)) ∧
  (∀ (g : Group) (l r : Nat), g.rp l r ≠ 3 ∧ g.rp l 15 = 1 ∧ (g.wp l 15 0) = g)

/-- R205 to R207, R213, R325 to R327: a NaN operand gives the canonical NaN, and one that signals raises NV; a zero factor, either one,
masks what it multiplies in FMULZ, whose zero bears the sign of the product; FMIN and FMAX take the operand that is a number and order −0
below +0; numbers compare in exactly one way; FCLASS sets one bit; and rounding a value that the format holds gives that value and raises
nothing. -/
def Obligations.FloatResults : Prop :=
  ∀ f ∈ [fp32, fp16, bf16], ∀ (mode : Nat) (sat : Bool) (a b c : Nat),
    ((fdec f a).isNan = true ∨ (fdec f b).isNan = true →
      let fl := if (fdec f a).isSnan || (fdec f b).isSnan then flNV else 0
      fadd f mode sat a b = (f.nanImg, fl) ∧ fmul f mode sat a b = (f.nanImg, fl) ∧ (fma f mode sat a b c).1 = f.nanImg) ∧
    ((fdec f a).isZero = true ∨ (fdec f b).isZero = true → fmulz f mode sat a b =
      (if (a / f.signBit % 2 = 1) ↔ (b / f.signBit % 2 = 1) then 0 else f.signBit, 0)) ∧
    (∀ m, ((fdec f a).isNan = true → (fdec f b).isNan = false → (fminmax f m a b).1 = b % (2 * f.signBit)) ∧
      ((fdec f a).isNan = false → (fdec f b).isNan = true → (fminmax f m a b).1 = a % (2 * f.signBit)) ∧
      (fminmax f m a b).2 = (if (fdec f a).isSnan || (fdec f b).isSnan then flNV else 0)) ∧
    (∀ m, (fdec f a).isNan = true → (fdec f b).isNan = true → (fminmax f m a b).1 = f.nanImg) ∧
    ((fdec f a).isZero = true → (fdec f b).isZero = true → let z := fun x : Nat => x % (2 * f.signBit)
      (fminmax f false a b).1 = (if z a = f.signBit then f.signBit else z b) ∧ (fminmax f true a b).1 = (if z a = 0 then 0 else z b)) ∧
    ((fdec f a).isNan = false → (fdec f b).isNan = false → ((fdec f a).isZero && (fdec f b).isZero) = false →
      (fminmax f false a b).1 = (if (fcmp f 3 a b).1 then a else b) % (2 * f.signBit) ∧
      (fminmax f true a b).1 = (if (fcmp f 3 a b).1 then b else a) % (2 * f.signBit)) ∧
    ((fdec f a).isNan = false → (fdec f b).isNan = false →
      (fcmp f 0 a b).1 = (!(fcmp f 2 a b).1 && !(fcmp f 4 a b).1) ∧ ((fcmp f 2 a b).1 && (fcmp f 4 a b).1) = false ∧
      (fcmp f 3 a b).1 = ((fcmp f 2 a b).1 || (fcmp f 0 a b).1) ∧ (fcmp f 1 a b).1 = !(fcmp f 0 a b).1) ∧
    (∃ k < 10, fclass f a = 2 ^ k) ∧
    (∀ n m e, a < 2 * f.signBit → fdec f a = .fin n m e → m ≠ 0 →
      fround f mode sat { neg := n, m := m, e := e, tail := false } = (a, 0))

/-! ### Pilots -/

/-- Queue x of partition p, whose pilot operation issues, goes on as y at instruction pc: one more step is counted, the queue is put
back, and the visit counts the step. -/
def StepsOn (s : State) (p : Partition) (x y : Queue) (pc : Nat) (o : Host.Outcome State Fault Refusal) : Prop :=
  let z := y.count.goto pc
  z.pc < z.pilot.length → o = .next (visitStep (putQueue s p.part z) p.part x.q)

/-- The register and value of a pilot operation that computes (R66). -/
def pilotValue (x : Queue) : Instr → Option (BitVec 3 × DWord)
  | .ldi d imm => some (d, imm.signExtend 64)
  | .ldp d sz imm => some (d, BitVec.ofNat 64 (field x.packet imm.toNat (2 ^ sz.toNat)))
  | .pilotAdd d a b => some (d, x.reg a + x.reg b)
  | .pilotSub d a b => some (d, x.reg a - x.reg b)
  | .pilotAddi d a imm => some (d, x.reg a + imm.signExtend 64)
  | .pilotAnd d a b => some (d, x.reg a &&& x.reg b)
  | .pilotOr d a b => some (d, x.reg a ||| x.reg b)
  | .pilotXor d a b => some (d, x.reg a ^^^ x.reg b)
  | .pilotShl d a imm => some (d, x.reg a <<< imm.toNat)
  | .pilotShr d a imm => some (d, x.reg a >>> imm.toNat)
  | _ => none

/-- How many instructions a pilot branch skips (R66). -/
def pilotSkip (x : Queue) : Instr → Option Nat
  | .beq a b imm => some (if x.reg a = x.reg b then imm.toNat else 0)
  | .bne a b imm => some (if x.reg a ≠ x.reg b then imm.toNat else 0)
  | .bltu a b imm => some (if (x.reg a).toNat < (x.reg b).toNat then imm.toNat else 0)
  | .pilotFence => some 0
  | _ => none

/-- SIGWAIT's comparison of the bytes read with xB (R66). -/
def sigHolds (rel : BitVec 2) (v w : Nat) : Prop :=
  (rel = 0 ∧ v = w) ∨ (rel = 1 ∧ v ≠ w) ∨ (rel = 2 ∧ w ≤ v) ∨ (rel = 3 ∧ v < w)

/-- R66, R70, R71: what the pilot operations do that go on to the next instruction: registers, branches, the launch buffer, the queue's
window, signals to device and host memory, launches accepted and refused, loops and events. THE MODEL'S CHOICE (derived): that FENCE always
goes on at its own step, and that a SIGW is performed at its step, so that no FENCE waits for one, is log 19 (DESIGN CHOICE); R70 and
Table 3.4 speak of a FENCE that suspends. -/
def Obligations.PilotOperationsComplete : Prop :=
  ∀ (s : State) (p : Partition) (x : Queue), PilotAt s p x →
    (∀ i d v, pilotValue x i = some (d, v) → StepsOn s p x (x.setReg d v) (x.pc + 1) (exec i s)) ∧
    (∀ i k, pilotSkip x i = some k → StepsOn s p x x (x.pc + 1 + k) (exec i s)) ∧
    (∀ (sz : BitVec 3) (imm : BitVec 18), let n := 2 ^ sz.toNat
      let at_ := queueAt p x.q + 64 + imm.toNat
      (∀ d, parkedBlocks s at_ n false = false →
        let t := seeSpan s x.homeDie at_ n (some p.part) 0xFF
        badSpan t x.homeDie at_ n = false →
        StepsOn t p x (x.setReg d (BitVec.ofNat 64 (leNat (pread t at_ n)))) (x.pc + 1) (exec (.ldq d sz imm) s)) ∧
      (∀ a, parkedBlocks s at_ n true = false →
        StepsOn (hwWrite s x.homeDie at_ (leBytes n (x.reg a).toNat)) p x x (x.pc + 1) (exec (.stq a sz imm) s))) ∧
    (∀ a sz imm, StepsOn s p x { x with lb := putAt x.lb imm.toNat (leBytes (2 ^ sz.toNat) (x.reg a).toNat) } (x.pc + 1)
      (exec (.stl a sz imm) s)) ∧
    (∀ a b, (x.reg a).toNat % 8 = 0 →
      let u := seeWalk s (192 + x.homeDie) x.homeDie p.part (x.reg a).toNat
      (∀ r, walkHeld s (192 + x.homeDie) x.homeDie p.part (x.reg a).toNat = false →
        walkHeld u (192 + x.homeDie) x.homeDie p.part (x.reg a).toNat = false →
        xlate u x.homeDie p.part (x.reg a).toNat .write = .ok r → parkedBlocks u r.pa 8 true = false →
        reaches u x.homeDie r.pa = true →
        StepsOn (pwrite u r.pa (leBytes 8 (x.reg b).toNat)) p x x (x.pc + 1) (exec (.sigw a b false) s)) ∧
      (hostOk s (x.reg a).toNat 8 = true →
        StepsOn (hwrite s (x.reg a).toNat (leBytes 8 (x.reg b).toNat)) p x x (x.pc + 1) (exec (.sigw a b true) s)) ∧
      (∀ rel r, walkHeld s (192 + x.homeDie) x.homeDie p.part (x.reg a).toNat = false →
        walkHeld u (192 + x.homeDie) x.homeDie p.part (x.reg a).toNat = false →
        xlate u x.homeDie p.part (x.reg a).toNat .read = .ok r → parkedBlocks u r.pa 8 false = false → reaches u x.homeDie r.pa = true →
        let t := seeSpan u x.homeDie r.pa 8 (some p.part) 0xFF
        badSpan t x.homeDie r.pa 8 = false → sigHolds rel (leNat (pread t r.pa 8)) (x.reg b).toNat →
        StepsOn t p x x (x.pc + 1) (exec (.sigwait a b false rel) s)) ∧
      (∀ rel, hostOk s (x.reg a).toNat 8 = true → sigHolds rel (leNat (hread s (x.reg a).toNat 8)) (x.reg b).toNat →
        StepsOn s p x x (x.pc + 1) (exec (.sigwait a b true rel) s))) ∧
    (∀ d, let t := seeLaunch s p x.lb
      (∀ slot, launchCode t p x.lb = 0 → freeLaunchSlot t p.part = some slot →
        StepsOn (acceptLaunch t p slot x.lb).1 p x ({ x with lastser := p.nextSerial }.setReg d (p.nextSerial.setWidth 64)) (x.pc + 1)
          (exec (.pilotLaunch d) s)) ∧
      (launchCode t p x.lb ≠ 0 →
        StepsOn t p x (x.setReg d (BitVec.ofNat 64 (2 ^ 32 + launchCode t p x.lb))) (x.pc + 1) (exec (.pilotLaunch d) s))) ∧
    (∀ d a imm, let n := (x.reg a).toNat
      (n = 0 → StepsOn s p x x (x.pc + 1 + imm.toNat) (exec (.loop d a imm) s)) ∧
      (1 ≤ n → n ≤ 64 → StepsOn s p x ({ x with loops := (x.pc + 1, imm.toNat, 0, n, d.toNat) :: x.loops }.setReg d 0) (x.pc + 1)
        (exec (.loop d a imm) s))) ∧
    (∀ a, bufferFull s p.part = false →
      StepsOn (signal (pushEvent s p.part (eventEntry 4 0 (leBytes 4 x.q ++ leBytes 4 x.tag ++ leBytes 1 (field x.packet 0 1) ++
        List.replicate 7 0 ++ leBytes 8 (x.reg a).toNat ++ leBytes 4 x.head.toNat))) (vectorOf p.part + 2)) p x x (x.pc + 1)
        (exec (.emit a) s))

/-- The packet of queue x ends and the queue is faulted with a reason: HEAD moves past its slots, REASON is written, changed or not, and a
TYPE 3 event says so (R59, R63, Table 3.5). -/
def Faulted (s : State) (p : Partition) (x : Queue) (reason extra : Nat) : State :=
  let head := x.head + BitVec.ofNat 32 (field x.packet 1 1)
  let y := { x.endPacket with st := .faulted, reason := reason, byHost := fetchAssisted s p.part }
  endVisit (pushEvent (writeDesc (putQueue s p.part y) p.part y 41 1 reason) p.part
    (eventEntry 3 0 (leBytes 4 x.q ++ leBytes 4 reason ++ leBytes 4 head.toNat ++ leBytes 4 x.tag ++ List.replicate 12 0 ++
      leBytes 4 extra))) p.part x.q

/-- R66: outside a loop a pilot goes to the instruction named; at the end of a LOOP body it goes back to the body's start with the pass
number in xD, as often as xA said, and then on. R59, R63, R66, R68: DONE ends the packet; FAULT parks the queue with reason 7 and its
immediate, a misaligned SIGW or SIGWAIT with 8, LOOP of more than 64 passes with 6, the 513th step with 5, and each executed instruction
counts as one step, a suspended one once; LAUNCH without a free slot, EMIT to a full buffer and SIGWAIT whose comparison fails wait with
the step suspended; a device address that does not translate parks the queue at the step with reason 3, and one whose home cannot be
reached or whose bytes hold a data error with reason 9. THE MODEL'S CHOICES (derived): that SIGWAIT and SIGW park with reason 9 where a home
or a walk cannot be reached, and LDQ where its state block cannot be read, is logs 73 and 98; that an access waits suspended behind a parked
atomic of its line is R156 read for pilots (log 98). -/
def Obligations.PilotsStopAndRepeat : Prop :=
  (
  ∀ (x : Queue) (start len pass n d : Nat) (rest : List (Nat × Nat × Nat × Nat × Nat)),
    (∀ pc, x.loops = [] → x.goto pc = { x with pc := pc, suspended := false }) ∧
    (x.loops = (start, len, pass, n, d) :: rest → pass + 1 < n →
      x.goto (start + len) = { x with pc := start, suspended := false, loops := (start, len, pass + 1, n, d) :: rest,
                                      x := x.x.set d (BitVec.ofNat 64 (pass + 1)) }) ∧
    (x.loops = [(start, len, pass, n, d)] → n ≤ pass + 1 →
      x.goto (start + len) = { x with pc := start + len, suspended := false, loops := [] }) ∧
    (∀ pc, x.loops = (start, len, pass, n, d) :: rest → pc ≠ start + len → x.goto pc = { x with pc := pc, suspended := false })
  ) ∧
  (
  ∀ (s : State) (p : Partition) (x : Queue), PilotAt s p x →
    let waits := fun (t : State) => endVisit (putQueue t p.part { x.count with suspended := true }) p.part x.q
    let parks := fun (t : State) (reason : Nat) =>
      endVisit (parkQueue t p.part { x.count with suspended := true } reason x.tag 0) p.part x.q
    exec .done s = .next (endVisit (putQueue s p.part x.count.endPacket) p.part x.q) ∧
    (∀ imm, exec (.fault imm) s = .next (Faulted s p x.count 7 imm.toNat)) ∧
    (∀ a b host rel, (x.reg a).toNat % 8 ≠ 0 →
      exec (.sigw a b host) s = .next (Faulted s p x.count 8 0) ∧ exec (.sigwait a b host rel) s = .next (Faulted s p x.count 8 0)) ∧
    (∀ d a imm, 64 < (x.reg a).toNat → exec (.loop d a imm) s = .next (Faulted s p x.count 6 0)) ∧
    (512 ≤ x.steps → x.suspended = false → exec .pilotStepBudgetExhausted s = .next (Faulted s p x 5 0)) ∧
    (∀ die, (s.die die).running = true → (s.die die).tripped = false → (s.die die).visit = some (p.part, x.q) →
      s.part? p.part = some p → p.queue? x.q = some x → x.busy = true → x.st = .active →
      (512 ≤ x.steps → x.suspended = false → pilotFetch s die = some (p.part, x.q, .pilotStepBudgetExhausted)) ∧
      (∀ i, x.steps < 512 ∨ x.suspended = true → decodePilot (x.pilot.getD x.pc 0) = .ok i →
        pilotFetch s die = some (p.part, x.q, i))) ∧
    (x.suspended = false → x.count = { x with steps := x.steps + 1 }) ∧ (x.suspended = true → x.count = x) ∧
    (∀ d, let t := seeLaunch s p x.lb
      launchCode t p x.lb = 0 → freeLaunchSlot t p.part = none → exec (.pilotLaunch d) s = .next (waits t)) ∧
    (∀ a, bufferFull s p.part = true → exec (.emit a) s = .next (waits s)) ∧
    (∀ (sz : BitVec 3) (imm : BitVec 18), let n := 2 ^ sz.toNat
      let at_ := queueAt p x.q + 64 + imm.toNat
      (∀ d, parkedBlocks s at_ n false = true → exec (.ldq d sz imm) s = .next (waits s)) ∧
      (∀ d, parkedBlocks s at_ n false = false → badSpan (seeSpan s x.homeDie at_ n (some p.part) 0xFF) x.homeDie at_ n = true →
        exec (.ldq d sz imm) s = .next (parks (seeSpan s x.homeDie at_ n (some p.part) 0xFF) 9)) ∧
      (∀ a, parkedBlocks s at_ n true = true → exec (.stq a sz imm) s = .next (waits s))) ∧
    (∀ a b rel, (x.reg a).toNat % 8 = 0 → hostOk s (x.reg a).toNat 8 = true →
      ¬ sigHolds rel (leNat (hread s (x.reg a).toNat 8)) (x.reg b).toNat → exec (.sigwait a b true rel) s = .next (waits s)) ∧
    (∀ a b rel, (x.reg a).toNat % 8 = 0 → walkHeld s (192 + x.homeDie) x.homeDie p.part (x.reg a).toNat = false →
      let u := seeWalk s (192 + x.homeDie) x.homeDie p.part (x.reg a).toNat
      walkHeld u (192 + x.homeDie) x.homeDie p.part (x.reg a).toNat = false →
      (∀ e, xlate u x.homeDie p.part (x.reg a).toNat .read = .error e →
        exec (.sigwait a b false rel) s = .next (parks u (if faultCode e = 9 then 9 else 3))) ∧
      (∀ e, xlate u x.homeDie p.part (x.reg a).toNat .write = .error e →
        exec (.sigw a b false) s = .next (parks u (if faultCode e = 9 then 9 else 3))) ∧
      (∀ r, xlate u x.homeDie p.part (x.reg a).toNat .write = .ok r → parkedBlocks u r.pa 8 true = false →
        reaches u x.homeDie r.pa = false → exec (.sigw a b false) s = .next (parks u 9)) ∧
      (∀ r, xlate u x.homeDie p.part (x.reg a).toNat .read = .ok r → parkedBlocks u r.pa 8 false = false →
        let t := seeSpan u x.homeDie r.pa 8 (some p.part) 0xFF
        (reaches u x.homeDie r.pa = false → exec (.sigwait a b false rel) s = .next (parks u 9)) ∧
        (reaches u x.homeDie r.pa = true → badSpan t x.homeDie r.pa 8 = true → exec (.sigwait a b false rel) s = .next (parks t 9)) ∧
        (reaches u x.homeDie r.pa = true → badSpan t x.homeDie r.pa 8 = false →
          ¬ sigHolds rel (leNat (pread t r.pa 8)) (x.reg b).toNat →
          exec (.sigwait a b false rel) s = .next (waits t))))
  )

/-! ### The Ferry -/

/-- A command whose partition is not being torn down, and whose descriptor's own fields, argument and window pass (R37, R46, R413). -/
def Taken (s : State) (w : Nat) (d : FerryDesc) (place : Where) (used : Nat → Bool) : Prop :=
  dying s w = false ∧ descBad d = false ∧ argZero d used = true ∧ windowOk s w place = true

/-- R35, R41: a completion is 16 bytes in the window's ring, OP, STATUS, TAG and DETAIL, and CPLTAIL counts it; a window whose RUN has
been cleared halts; where the host does not take it, RUN is cleared and HALTED set; and a command that was being applied when a ring access
failed writes none, CPLTAIL keeps its value, and a window whose RUN has been cleared since halts all the same. -/
def Obligations.CompletionsAreWritten : Prop :=
  ∀ (s : State) (w status detail : Nat) (d : FerryDesc), s.memOk = true → w < s.windows.length →
    let x := s.win w
    let a := x.cplbase.toNat + 16 * (x.cpltail.toNat % x.cplsize.toNat)
    let t := complete s w d status detail
    let idle := { x with waiting := none, spans := [], mute := false }
    (x.mute = false → hostOk s a 16 = true →
      hread t a 16 = leBytes 1 d.op.toNat ++ leBytes 1 status ++ [0, 0] ++ leBytes 4 d.tag.toNat ++ leBytes 8 detail ∧
      t.win w = { idle with cpltail := x.cpltail + 1, halted := x.halted || !x.run } ∧ t.mem = s.mem ∧
      (∀ b, (b < a ∨ a + 16 ≤ b) → sget t.hostmem b = sget s.hostmem b) ∧
      (d.flags.getLsbD 0 = false → t.signalled = s.signalled ∧ t.pba = s.pba)) ∧
    (x.mute = false → hostOk s a 16 = false → (t.win w).run = false ∧ (t.win w).halted = true ∧ (t.win w).cpltail = x.cpltail ∧
      t.hostmem = s.hostmem) ∧
    (x.mute = true → t = s.setWin w { idle with halted := x.halted || !x.run })

/-- R36, R38 to R40, R46, R51, R52, R58, R142, R413: a command of a partition that is being torn down completes TORNDOWN; WRITE and READ
check their whole range, a range that does not translate completing XLATE with its lowest address, a sealed one SEALED, and then move one
aligned 8-byte unit at a time, WRITE from host to device and READ back, up to the first failing host line; a unit behind a parked atomic
waits, but the rest of its line goes at once where that is a WRITE that makes a held word good (R157); TAIL publishes packets within the
ring's size and writes the count to the descriptor; INVAL drops the range's translations and waits until those made are used; SEAL
waits for the range's writes, takes its digest and ends by marking its leaves; an OP of no meaning completes BADOP. Where no rule gives
DETAIL it is a free value (the model's choice, log entry 80); that TAIL completes RANGE where the descriptor of a queue never armed cannot
be read is the model's choice too (log entry 98). -/
def Obligations.FerryMovesAndSealsBytes : Prop :=
  ∀ (s : State) (w : Nat) (d : FerryDesc),
    let n := d.len.toNat
    (dying s w = true → (s.win w).waiting = none →
      ∀ i ∈ [Instr.ferryWrite w d, .ferryRead w d, .ferryTail w d, .ferryRearm w d, .ferryLaunch w d, .sealRange w d, .inval w d,
        .service w d, .ferryBadop w d], exec i s = .next (completeOpen s w d 8)) ∧
    (Taken s w d .all (fun _ => false) → (s.win w).waiting = none →
      ((n = 0 ∨ 2 ^ 24 < n) → exec (.ferryWrite w d) s = .next (completeOpen s w d 5) ∧
        exec (.ferryRead w d) s = .next (completeOpen s w d 5)) ∧
      (1 ≤ n → n ≤ 2 ^ 24 → let u := seePages s w d.daddr.toNat n
        (∀ a, ferrySpans u w true (pageSpans d.daddr.toNat n) = .error a → exec (.ferryWrite w d) s = .next (complete u w d 3 a)) ∧
        (∀ a, ferrySpans u w false (pageSpans d.daddr.toNat n) = .error a → exec (.ferryRead w d) s = .next (complete u w d 3 a)) ∧
        (∀ ps, ferrySpans u w true (pageSpans d.daddr.toNat n) = .ok ps →
          exec (.ferryWrite w d) s = .next (if ps.any fun p => sealedPa u p.1 then completeOpen u w d 4
            else u.setWin w { u.win w with waiting := some (d, 0), spans := ps })) ∧
        (∀ ps, ferrySpans u w false (pageSpans d.daddr.toNat n) = .ok ps →
          exec (.ferryRead w d) s = .next (u.setWin w { u.win w with waiting := some (d, 0), spans := ps })))) ∧
    (∀ (d0 : FerryDesc) (k pa m : Nat), (s.win w).waiting = some (d0, k) → unitAt (s.win w).spans k = some (pa, m) →
      let h := d.haddr.toNat + k
      let upTo := fun (m : Nat) (t : State) => if n ≤ k + m then completeOpen t w d 0 else waitCmd t w d (k + m)
      let after := upTo m
      (parkedBlocks s pa m true = true → (∀ l, lineAt (s.win w).spans k = some l → parkedBlocks s l.1 l.2 true = true) →
        exec (.ferryWrite w d) s = .next s) ∧
      (∀ l, parkedBlocks s pa m true = true → lineAt (s.win w).spans k = some l → parkedBlocks s l.1 l.2 true = false →
        hostOk s h l.2 = true → reaches s 0 l.1 = true →
        exec (.ferryWrite w d) s = .next (upTo l.2 (pwriteLong s l.1 (hread s h l.2)))) ∧
      (parkedBlocks s pa m true = false → hostOk s h m = false → exec (.ferryWrite w d) s = .next (completeOpen s w d 7)) ∧
      (parkedBlocks s pa m true = false → hostOk s h m = true → reaches s 0 pa = true →
        exec (.ferryWrite w d) s = .next (after (pwriteLong s pa (hread s h m)))) ∧
      (parkedBlocks s pa m false = true → exec (.ferryRead w d) s = .next s) ∧
      (parkedBlocks s pa m false = false → hostOk s h m = false → exec (.ferryRead w d) s = .next (completeOpen s w d 7)) ∧
      (parkedBlocks s pa m false = false → hostOk s h m = true →
        let t := seeSpan s 0 pa m (if w = mgmt then none else some w) 0xFF
        badSpan t 0 pa m = false → exec (.ferryRead w d) s = .next (after (hwrite t h (pread t pa m))))) ∧
    (∀ (p : Partition) (x : Queue), Taken s w d .parts (fun k => k < 2 || (4 ≤ k && k < 8)) → s.part? w = some p →
      p.queue? (argN d 0 2) = some x →
      let v := BitVec.ofNat 32 (argN d 4 4)
      let t := seeTail s p x
      (∀ head size, tailBase t p x = some (head, size) → (v - head).toNat ≤ size →
        exec (.ferryTail w d) s = .next (completeOpen (writeDesc (putQueue t w { x with tail := v }) w x 36 4 v.toNat) w d 0)) ∧
      (∀ head size, tailBase t p x = some (head, size) → size < (v - head).toNat →
        exec (.ferryTail w d) s = .next (completeOpen t w d 5)) ∧
      (tailBase t p x = none → exec (.ferryTail w d) s = .next (completeOpen t w d 5))) ∧
    (Taken s w d .all (fun k => k == 0 && w == mgmt) → (s.win w).waiting = none → (w = mgmt → argN d 0 1 ≤ 11) →
      let p := if w = mgmt then argN d 0 1 else w
      let ranges := invalRanges s p d.daddr.toNat n
      let t := { s with tlb := s.tlb.filter fun e => !tlbInRange p d.daddr.toNat n e }
      exec (.inval w d) s = .next (if translatedPending t p ranges
        then t.setWin w { t.win w with waiting := some (d, 0), spans := ranges } else completeOpen t w d 0)) ∧
    ((s.win w).waiting ≠ none →
      ((∀ p ∈ invalParts w d, translatedPending s p (s.win w).spans = false) →
        exec (.inval w d) s = .next (completeOpen s w d 0)) ∧
      ((∃ p ∈ invalParts w d, translatedPending s p (s.win w).spans = true) → exec (.inval w d) s = .next s)) ∧
    (∀ (p : Partition) (d0 : FerryDesc) (j : Nat), s.part? w = some p → j < 16 →
      let r := p.seals.getD j default
      ((s.win w).waiting = some (d0, j) → writeInRange s r.base (r.pages * 65536) = false →
        checkedInRange s r.base (r.pages * 65536) = false →
        let u := seeSpan s 0 r.base (r.pages * 65536) (some w) 0xFF
        badSpan u 0 r.base (r.pages * 65536) = false →
        exec (.sealRange w d) s = .next (waitCmd (dropL1Range
          (setSeal u w j { r with digest := sha256 (pread u r.base (r.pages * 65536)) }) r.base (r.pages * 65536)) w d (16 + j))) ∧
      ((s.win w).waiting = some (d0, 16 + j) → allApplied s p = true →
        exec (.sealRange w d) s = .next (complete (setSealedBits (setSeal s w j { r with st := .sealed }) p r.base r.pages
          d.daddr.toNat) w d 0 j))) ∧
    (dying s w = false → exec (.ferryBadop w d) s = .next (completeOpen s w d 1))

/-- R26, R45 to R47, R54, R55, R60, R71, R73: the commands that manage the machine: LAUNCH submits a record and completes with its
serial or its error code, REARM reloads a queue's descriptor and pilot, once no parked atomic holds up its reads, or gives the verifier's
code, SERVICE answers a request by its
ticket, BUDGET and MODESET set a partition's bandwidths and assist modes, THRESH an error threshold on every die, PCREATE makes a
partition from its record or gives the record's error code, and PDESTROY, once all is quiet, leaves no launch, workgroup, group or
translation of it. Free values where no rule gives DETAIL are the model's choice (log entry 80). -/
def Obligations.FerryManagesTheMachine : Prop :=
  ∀ (s : State) (w : Nat) (d : FerryDesc),
    (∀ p, Taken s w d .parts (fun _ => false) → (s.win w).waiting = none → hostOk s d.haddr.toNat 64 = true → s.part? w = some p →
      let r := hread s d.haddr.toNat 64
      let t := seeLaunch s p r
      (∀ slot, launchCode t p r = 0 → freeLaunchSlot t w = some slot →
        exec (.ferryLaunch w d) s = .next (complete (acceptLaunch t p slot r).1 w d 0 p.nextSerial.toNat)) ∧
      (launchCode t p r ≠ 0 → exec (.ferryLaunch w d) s = .next (complete t w d 9 (launchCode t p r)))) ∧
    (∀ p x, Taken s w d .parts (fun k => k < 2) → s.part? w = some p → p.queue? (argN d 0 2) = some x →
      let x1 := { x with rearmw := (x.rearmw + 1) % 2 ^ 32 }
      let s0 := putQueue s w x1
      let s1 := seeReload s0 p x1
      (x.st = .active → exec (.ferryRearm w d) s = .next (complete (putQueue s0 w { x1 with deferred := true }) w d 0 1)) ∧
      (x.st ≠ .active → reloadHeld s p x1 = false →
        (∀ c, reload s1 p x1 = .error c → exec (.ferryRearm w d) s = .next (complete s1 w d 9 c)) ∧
        (∀ y, reload s1 p x1 = .ok y → ∃ z : Queue, exec (.ferryRearm w d) s = .next (complete (putQueue s1 w z) w d 0 0) ∧
          z.st = .active ∧ z.retries = 0 ∧ z.desc = y.desc ∧ z.pilot = y.pilot ∧ z.head = y.head ∧ z.tail = x.tail ∧
          (z.busy = true → x.st = .fetchfault ∧ x.busy = true)))) ∧
    (∀ part about body, Taken s w d .all (fun k => k < 5) →
      let t : Word := BitVec.ofNat 32 (argN d 0 4)
      let answer := argN d 4 1
      (requestFor s w t = some (part, about, body) → answerFits (field body 0 1) answer = true → answer ≠ 2 →
        exec (.service w d) s = .next (completeOpen (answerRequest (dropRequest s part t) about body t answer
          (hread s d.haddr.toNat 864)) w d 0)) ∧
      (requestFor s w t = none → exec (.service w d) s = .next (completeOpen s w d 5))) ∧
    (∀ p, Taken s w d .mgmtOnly (fun k => k == 0 || 4 ≤ k) → argN d 28 4 < 64 → s.part? (argN d 0 1) = some p →
      exec (.budget w d) s = .next (completeOpen (s.setPart { p with
        budgets := (List.range 6).map (fun k => BitVec.ofNat 32 (argN d (4 + 4 * k) 4))
        borrow := argN d 28 4 }) w d 0)) ∧
    (∀ p, Taken s w d .mgmtOnly (fun k => k < 2) → argN d 1 1 < 64 → s.part? (argN d 0 1) = some p →
      exec (.modeset w d) s = .next (completeOpen (s.setPart { p with modes := argN d 1 1 }) w d 0)) ∧
    (Taken s w d .mgmtOnly (fun k => k == 0 || (4 ≤ k && k < 8)) → argN d 0 1 ≤ 13 →
      exec (.thresh w d) s = .next (completeOpen { s with dies := s.dies.map fun x => { x with
        thresholds := x.thresholds.set (argN d 0 1) (BitVec.ofNat 32 (argN d 4 4))
        counters := x.counters.set (argN d 0 1) 0 } } w d 0)) ∧
    (Taken s w d .mgmtOnly (fun _ => false) → hostOk s d.haddr.toNat 64 = true →
      let r := hread s d.haddr.toNat 64
      (partRecordCode r = 0 → (∀ q ∈ s.parts, q.part ≠ field r 0 1 ∧ q.clumask &&& field r 32 6 = 0) →
        exec (.pcreate w d) s = .next (completeOpen { s with parts := s.parts ++ [partNew r] } w d 0)) ∧
      (partRecordCode r = 0 → (∃ q ∈ s.parts, q.part = field r 0 1 ∨ q.clumask &&& field r 32 6 ≠ 0) →
        exec (.pcreate w d) s = .next (completeOpen s w d 6)) ∧
      (partRecordCode r ≠ 0 → exec (.pcreate w d) s = .next (complete s w d 9 (partRecordCode r)))) ∧
    (∀ p, Taken s w d .mgmtOnly (fun k => k == 0) → s.part? (argN d 0 1) = some p → (s.win w).waiting ≠ none →
      tornQuiet s (argN d 0 1) = true →
      let t := clearPartition s p
      exec (.pdestroy w d) s = .next (completeOpen t w d 0) ∧ t.part? p.part = none ∧ (∀ l ∈ t.launches, l.part ≠ p.part) ∧
      (∀ k ∈ t.wkgs, k.part ≠ p.part) ∧ (∀ g ∈ t.groups, g.part ≠ p.part) ∧ (∀ e ∈ t.tlb, e.part ≠ p.part))

/-! ### The host's registers -/

/-- R32, R34, R35, R43: a tail or head written within its ring's size is taken, one beyond it sets BADRING; a base or size is taken only
while RUN is 0 and only an allowed one, which sets the ring's head and tail to 0; RUN going to 1 clears HALTED, BADRING and EVLOST,
clearing it halts a window that applies no command; a write of 8 bytes to a window's page is that register's write; and the oldest
buffered event reaches the event ring with the window's second vector. R32, R34: a host read gives the registers, tails and heads with
bits 63:32 zero, WSTATE as its bits, the vector table and the pending bits; windows 12 to 14 and every other offset read as zero. -/
def Obligations.HostRegistersAreWritten : Prop :=
  ∀ (s : State) (w : Nat) (v : DWord),
    let x := s.win w
    let t : Word := v.setWidth 32
    let bad := s.setWin w { x with badring := true }
    (exec (.cmdtailWrite w v) s =
      .next (if (t - x.cmdhead).toNat ≤ x.cmdsize.toNat then s.setWin w { x with cmdtail := t } else bad)) ∧
    (exec (.cplheadWrite w v) s =
      .next (if (x.cpltail - t).toNat ≤ x.cplsize.toNat then s.setWin w { x with cplhead := t } else bad)) ∧
    (exec (.evheadWrite w v) s =
      .next (if (x.evtail - t).toNat ≤ x.evsize.toNat then s.setWin w { x with evhead := t } else bad)) ∧
    (∀ r, (x.run = true → exec (.ringBaseSizeWrite w r v) s = .next s) ∧
      (x.run = false → exec (.ringBaseSizeWrite w r v) s = .next (if ringValueOk r v then s.setWin w (setRing x r v) else bad))) ∧
    (x.run = false →
      exec (.wstateRunSet w) s = .next (s.setWin w { x with run := true, halted := false, badring := false, evlost := 0 })) ∧
    (x.run = true → exec (.wstateRunClear w) s = .next (s.setWin w { x with run := false, halted := x.waiting.isNone })) ∧
    (w < 12 → exec (.registerWrite 0 (4096 * w + 0x10) v) s = exec (.cmdtailWrite w v) s ∧
      exec (.registerWrite 0 (4096 * w + 0x38) v) s = exec (.cplheadWrite w v) s ∧
      exec (.registerWrite 0 (4096 * w + 0x58) v) s = exec (.evheadWrite w v) s) ∧
    (∀ off, off % 8 = 0 → off < 1024 → exec (.registerWrite 2 off v) s = .next (msixWrite s off v)) ∧
    (∀ e rest, x.events = e :: rest → (s.die 0).running = true → x.run = true → x.halted = false →
      (x.evtail - x.evhead).toNat < x.evsize.toNat →
      let a := x.evbase.toNat + 64 * (x.evtail.toNat % x.evsize.toNat)
      hostOk s a 64 = true →
      exec (.eventRingWrite w) s = .next (signal ((hwrite s a e).setWin w { x with events := rest, evtail := x.evtail + 1 })
        (vectorOf w + 1))) ∧
    (∀ page, (w < 12 ∧ page = w) ∨ (w = mgmt ∧ page = 15) →
      (∀ r ∈ [(0x00, x.cmdbase), (0x08, x.cmdsize), (0x10, x.cmdtail.setWidth 64), (0x18, x.cmdhead.setWidth 64), (0x20, x.cplbase),
          (0x28, x.cplsize), (0x30, x.cpltail.setWidth 64), (0x38, x.cplhead.setWidth 64), (0x40, x.evbase), (0x48, x.evsize),
          (0x50, x.evtail.setWidth 64), (0x58, x.evhead.setWidth 64),
          (0x60, BitVec.ofNat 64 (x.run.toNat + 2 * x.halted.toNat + 4 * x.badring.toNat + 2 ^ 16 * x.evlost))],
        registerRead s 0 (4096 * page + r.1) = r.2) ∧
      (∀ off, 0x68 ≤ off → off < 4096 → registerRead s 0 (4096 * page + off) = 0)) ∧
    (∀ off, 0xC000 ≤ off → off < 0xF000 → registerRead s 0 off = 0) ∧
    (∀ off, off % 8 = 0 → off < 1024 → registerRead s 2 off = BitVec.ofNat 64 (leNat (takeAt s.msix off 8))) ∧
    registerRead s 2 0x2000 = s.pba ∧
    (∀ bar off as, s.agenda = .hostRead bar off :: as → ∃ t, step s = .next t ∧ t.hostRead = registerRead s bar off)

/-! ### Reset, boot, the management cores and the links -/

/-- What the boot ROM of die k ends with at a package reset. -/
def bootOf (flash : BootFlash) (s : State) (k : Nat) : Boot :=
  bootDie (flash.dies.getD k default) k (s.die k).minSeq (s.die k).minFw

/-- R16, R20, R23, R24, R48: a reset of the package loses every partition, launch, group, queue and copy, and keeps what memory cells and
boot flash keep; the dies start when every boot is done and the records agree in DEVID and PLIM, with their records, minima and
measurements; none starts when one die's boot stops before its record; and the package reports every die that its boot stopped. THE MODEL'S
CHOICE (derived): that device memory and host memory keep their bytes over a reset of the package is log 5 (DESIGN CHOICE); the spec is
silent there, and R46 keeps contents only over PDESTROY. -/
def Obligations.ResetAndBoot : Prop :=
  ∀ (s : State) (flash : BootFlash),
    (∃ t, exec .supplyMonitorReset s = .next t ∧ t.parts = [] ∧ t.launches = [] ∧ t.wkgs = [] ∧ t.groups = [] ∧ t.pipe = [] ∧
      t.tlb = [] ∧ t.mem = s.mem ∧ t.hostmem = s.hostmem ∧
      (∀ k < s.dies.length, (t.die k).running = false ∧ (t.die k).minSeq = (s.die k).minSeq ∧ (t.die k).minFw = (s.die k).minFw)) ∧
    (∃ t, exec (.packageReset flash) s = .next t ∧ t.parts = [] ∧ t.launches = [] ∧ t.wkgs = [] ∧ t.groups = [] ∧ t.pipe = [] ∧
      t.tlb = [] ∧ t.mem = s.mem ∧ t.hostmem = s.hostmem ∧
      (∀ (r : Nat → List Byte) (m : Nat → List (List Byte)) (fw : Nat → Word),
        (∀ k < 4, bootOf flash s k = .done (r k) (m k) (fw k)) →
        (∀ k < 4, field (r k) 24 8 = field (r 0) 24 8 ∧ field (r k) 20 2 = field (r 0) 20 2) →
        ∀ k < 4, (t.die k).running = true ∧ (t.die k).config = takeAt (r k) 0 64 ∧ (t.die k).minFw = fw k ∧ (t.die k).measure = m k ∧
          (t.die k).minSeq = BitVec.ofNat 32 (field (r k) 8 4)) ∧
      ((∃ k < 4, bootOf flash s k = .stopped) → ∀ k < 4, (t.die k).running = false) ∧
      (∀ k < 4, k ∈ t.bootReport ↔ ∀ r m fw, bootOf flash s k ≠ .done r m fw))

/-- R11, R13, R19, R21, R22, R29, R31, R108: a running die's throttle level follows its power and temperature, and at 110 degrees it trips;
the scrubber goes on to its next line, unless an atomic is parked on it; a wrong self-test product fences its sub-array; the oldest flit of
a sender's replay buffer is delivered once when its check code is right, going on along its route where its die lies further, and retried
when it is not, at a die boundary and at a Causeway port in each direction; with every boundary up a pair's route goes east-west first and
then north-south; after a failed check and 16 failed retries of one flit a boundary retrains or goes down; the upstream link takes its
widths and rates. THE MODEL'S CHOICES (derived): that the scrub cursor walks a die's second-tier lines too is log 78 (R29 names HBM, the die
cache and bench), and what a replay buffer holds and where a forwarded flit stands is log 86 (DESIGN CHOICES both). -/
def Obligations.ManagementAndLinks : Prop :=
  ∀ s : State,
    (∀ die power temp, die < s.dies.length → (s.die die).running = true → (s.die die).tripped = false →
      let d := s.die die
      let l := nextLevel d.throttle power (field d.config 20 2)
      (temp < 110 → exec (.arbiterPeriodEnd die power temp) s =
        .next (s.setDie die { d with throttle := if 95 ≤ temp then max 4 l else l, periods := d.periods + 1 })) ∧
      (110 ≤ temp → ∃ t, exec (.arbiterPeriodEnd die power temp) s = .next t ∧ (t.die die).tripped = true ∧
        ∀ k, 12 * die ≤ k → k < 12 * die + 12 → k < 48 → t.fatals.any (fun f => f.clu == k) = true)) ∧
    (∀ die e, (s.die die).running = true → (s.die die).tripped = false →
      let d := s.die die
      let line := scrubLineAt die d.scrub
      (lineParked s line = true → exec (.scrubLine die e) s = .next s) ∧
      (lineParked s line = false → exec (.scrubLine die e) s = .next (seeLine
        (s.setDie die { d with scrub := (d.scrub + 1) % ((hbmDie + benchDie + d.cxlSize) / 64) }) line e none 0xFF))) ∧
    (∀ core sub product, (s.die (dieOfCore core)).running = true → sub < 4 → core < Config.cores → 4 * core + sub ∉ s.fenced →
      (product = Config.selfTestProduct → exec (.subarraySelfTest core sub product) s = .next s) ∧
      (product ≠ Config.selfTestProduct → ∃ t, exec (.subarraySelfTest core sub product) s = .next t ∧
        t.fenced = s.fenced ++ [4 * core + sub])) ∧
    (∀ b rev flit crc f rest, b < 4 → s.boundaries.length = 4 → flit.length = 64 →
      let x := s.boundaries.getD b default
      let dir := if rev then x.bwd else x.fwd
      let dest := if rev then (endsOf b).1 else (endsOf b).2
      let put := fun z : LinkDir => { s with boundaries := s.boundaries.set b (if rev then { x with bwd := z } else { x with fwd := z }) }
      let taken := put { sent := rest, recvd := dir.recvd ++ [f], retries := 0 }
      x.up = true → dir.retries ≤ 16 → dir.sent = f :: rest →
      (Config.crc32 flit ≠ crc → exec (.boundaryFlitReceive b rev flit crc) s = .next (put { dir with retries := dir.retries + 1 })) ∧
      (Config.crc32 flit = crc → flit = f.data →
        exec (.boundaryFlitReceive b rev flit crc) s = .next (if f.dst = dest then taken else forwardFlit taken dest f))) ∧
    (∀ a b, a < 4 → b < 4 → a ≠ b → (∀ k < 4, boundaryUp s k = true) →
      route s a b = some (if a / 2 = b / 2 ∨ a % 2 = b % 2 then [b] else [a / 2 * 2 + b % 2, b])) ∧
    (∀ b ok, b < s.boundaries.length → (s.boundaries.getD b default).up = true →
      (17 ≤ (s.boundaries.getD b default).fwd.retries ∨ 17 ≤ (s.boundaries.getD b default).bwd.retries) →
      ∃ t, exec (.boundaryRetrain b ok) s = .next t ∧ boundaryUp t b = ok ∧ (t.boundaries.getD b default).fwd.retries = 0 ∧
        (t.boundaries.getD b default).bwd.retries = 0) ∧
    (∀ port flit crc, (s.die (port / 4)).running = true → (s.die (port / 4)).tripped = false →
      bit (field (s.die (port / 4)).config 18 1) (port % 4) = true → flit.length = 256 →
      let x := s.ports.getD port default
      let put := fun (y : Port) => ({ s with ports := s.ports.set port y } : State)
      (∀ f rest, x.inbound.sent = f :: rest →
        (Config.crc32 flit ≠ crc → exec (.causewayFlitReceive port flit crc) s =
          .next (put { x with inbound := { x.inbound with retries := x.inbound.retries + 1 } })) ∧
        (Config.crc32 flit = crc → flit = f → exec (.causewayFlitReceive port flit crc) s =
          .next (put { x with inbound := { sent := rest, recvd := x.inbound.recvd ++ [f], retries := 0 } })) ∧
        (Config.crc32 flit = crc → flit ≠ f → exec (.causewayFlitReceive port flit crc) s = .next (put x))) ∧
      (∀ f rest as, x.outbound.sent = f :: rest → port < s.ports.length → s.agenda = .portPeerCheck port true :: as →
        ∃ t, step s = .next t ∧
          (t.ports.getD port default).outbound = { sent := rest, recvd := x.outbound.recvd ++ [f], retries := 0 })) ∧
    (∀ width rate, (width = 4 ∨ width = 8 ∨ width = 16) → (rate = 64 ∨ rate = 128) →
      exec (.upstreamLinkTraining width rate) s = .next { s with upWidth := width, upRate := rate })

/-- R49, R50: die 0's management core answers the SPDM requests of versions 1.2 and 1.3 with the versions, its capabilities, of what is
offered ECDSA P-256 and SHA-256, slot 0's digest and chain, the measurements that exist and signatures over the transcript, and every
other request with UnsupportedRequest. The bytes of the messages, the order of a connection and the other errors are the model's own
(PRESUMED, log entry 21). -/
def Obligations.SpdmIsAnswered : Prop :=
  ∀ (s : State) (r : SpdmReq), (s.die 0).running = true → (s.die 0).tripped = false →
    let d := s.die 0
    let v := spdmVersion s
    let answers := fun (x : Die) (a : List Byte) => .next ({ s.setDie 0 x with doe := a } : State)
    let error := fun (code : Byte) => .next ({ s with doe := [v, 0x7F, code, 0] } : State)
    let more := if r.version = 0x13 then 8 else 0
    let last := [Instr.spdmDigestsRequest r, .spdmCertificateRequest r, .spdmChallengeRequest r, .spdmMeasurementsRequest r]
    let certs := fun (code : Byte) (a : List Byte) => answers { d with spdmCerts := d.spdmCerts ++ spdmBytes code r ++ a, spdmMeas := [] } a
    (let a : List Byte := [0x10, 0x04, 0, 0, 0, 2, 0x00, 0x12, 0x00, 0x13]
     (r.version = 0x10 → exec (.spdmVersionRequest r) s =
       answers { d with spdm := [], spdmVca := spdmBytes 0x84 r ++ a, spdmCerts := [], spdmMeas := [] } a) ∧
     (r.version ≠ 0x10 → exec (.spdmVersionRequest r) s = error 0x41)) ∧
    (spdmPhase s ≠ 1 → exec (.spdmCapabilitiesRequest r) s = error 0x04) ∧
    (spdmPhase s ≠ 2 → exec (.spdmAlgorithmsRequest r) s = error 0x04) ∧
    (spdmPhase s ≠ 3 → ∀ i ∈ last, exec i s = error 0x04) ∧
    (spdmPhase s = 3 → r.version ≠ v → ∀ i ∈ last, exec i s = error 0x41) ∧
    (spdmPhase s = 1 → 16 ≤ r.body.length →
      (r.version = 0x12 ∨ r.version = 0x13 → ∃ a, exec (.spdmCapabilitiesRequest r) s =
          answers { d with spdm := [r.version], spdmVca := d.spdmVca ++ spdmBytes 0xE1 r ++ a } a ∧
        a.take 2 = [r.version, 0x61] ∧ takeAt a 8 4 = leBytes 4 0x16 ∧ a.length = 20) ∧
      (r.version ≠ 0x12 → r.version ≠ 0x13 → exec (.spdmCapabilitiesRequest r) s = error 0x41)) ∧
    (spdmPhase s = 2 → r.version = v → 28 ≤ r.body.length →
      let specs := r.body.getD 2 0 &&& 0x01
      let asym := r.body.getD 4 0 &&& 0x10
      let hash := r.body.getD 8 0 &&& 0x01
      let a := [r.version, 0x63, 0, 0, 36, 0, specs, 0, (if specs = 0 then 0 else 2), 0, 0, 0, asym, 0, 0, 0, hash, 0, 0, 0] ++
        List.replicate 16 0
      exec (.spdmAlgorithmsRequest r) s =
        answers { d with spdm := [r.version, asym, hash, specs], spdmVca := d.spdmVca ++ spdmBytes 0xE3 r ++ a } a) ∧
    (spdmPhase s = 3 → r.version = v →
      exec (.spdmDigestsRequest r) s = certs 0x81 ([v, 0x01, (if v = 0x13 then 1 else 0), 1] ++ sha256 d.cert) ∧
      (4 ≤ r.body.length →
        let off := field r.body 0 2
        (r.param1 &&& 0x0F ≠ 0 → exec (.spdmCertificateRequest r) s = error 0x01) ∧
        (r.param1 &&& 0x0F = 0 → off < d.cert.length → ¬ (v = 0x13 ∧ r.param2.getLsbD 0 = true) →
          let p := (d.cert.drop off).take (field r.body 2 2)
          exec (.spdmCertificateRequest r) s =
            certs 0x82 ([v, 0x02, 0, 0] ++ leBytes 2 p.length ++ leBytes 2 (d.cert.length - off - p.length) ++ p)) ∧
        (r.param1 &&& 0x0F = 0 → v = 0x13 → r.param2.getLsbD 0 = true →
          exec (.spdmCertificateRequest r) s = certs 0x82 ([v, 0x02, 0, 0] ++ leBytes 2 0 ++ leBytes 2 d.cert.length))) ∧
      (32 + more ≤ r.body.length → r.param1 = 0 → (r.param2 = 0 ∨ r.param2 = 1 ∨ r.param2 = 0xFF) → ∃ mine : List Byte,
        let a := [v, 0x03, 0, 1] ++ sha256 d.cert ++ mine ++ measurementSummary s r.param2 ++ [0, 0] ++ takeAt r.body 32 more
        mine.length = 32 ∧ exec (.spdmChallengeRequest r) s =
          .next ({ s.setDie 0 { d with spdmCerts := [], spdmMeas := [] } with
            tick := s.tick + 4
            doe := a ++ spdmSign v (ascii "responder-challenge_auth signing") (d.spdmVca ++ d.spdmCerts ++ spdmBytes 0x83 r ++ a) })) ∧
      (let signed := r.param1.getLsbD 0
       let own := if signed then 33 else 0
       let index := r.param2.toNat
       own + more ≤ r.body.length → index ≠ 0 → index ≠ 255 → (signed = true → r.body.getD 32 0 &&& 0x0F = 0) →
       (measurement s index = none → exec (.spdmMeasurementsRequest r) s = error 0x01) ∧
       (∀ body, measurement s index = some body → ∃ mine : List Byte,
         let block := leBytes 1 index ++ [1] ++ leBytes 2 35 ++ [measurementType index] ++ leBytes 2 32 ++ body
         let a := [v, 0x60, 0, 0, 1] ++ leBytes 3 block.length ++ block ++ mine ++ [0, 0] ++ takeAt r.body own more
         let said := d.spdmMeas ++ spdmBytes 0xE0 r ++ a
         mine.length = 32 ∧ exec (.spdmMeasurementsRequest r) s =
           .next ({ s.setDie 0 { d with spdmCerts := [], spdmMeas := if signed then [] else said } with
             tick := s.tick + 4
             doe := a ++ (if signed then spdmSign v (ascii "responder-measurements signing") (d.spdmVca ++ said) else []) })))) ∧
    (∀ code, exec (.spdmUnsupportedRequest code) s = .next ({ s with doe := [v, 0x7F, 0x07, code] }))

/-! ### The scheduler -/

/-- R59, R61 to R63, R74, R76 to R82, R90, R93, R94: the fetcher opens its next queue with work, starting the packet at HEAD; a queue parked
by a fetch fault in hardware mode is retried, active again once the retry succeeds, and as it was while the retry waits behind a parked
atomic; a launch that has room is placed whole, every group of every core of it at entry, and nothing else starts; a task queue's void slots
go and its ready slots start a group; a grid that has ended writes DONESIG and leaves. THE MODEL'S CHOICE (derived): that a failed retry
that meets another cause rewrites REASON, with no entry and no event, is log 93 (DESIGN CHOICE). -/
def Obligations.WorkIsScheduled : Prop :=
  ∀ s : State,
    (∀ die part x rest, (s.die die).running = true → (s.die die).tripped = false → (s.die die).visit = none →
      visitOrder s die = (part, x) :: rest →
      let s1 := s.setDie die { s.die die with lastQ := (part, x.q) }
      let opened := fun u : State => u.setDie die { u.die die with
        visit := some (part, x.q)
        visitSteps := 0 }
      let s3 := seePacket s1 part x
      (x.busy = true → exec (.fetcherVisit die) s = .next (opened s1)) ∧
      (∀ b, x.busy = false → x.deferred = false → packetAt s3 part x = .bytes b →
        exec (.fetcherVisit die) s = .next (opened (putQueue s3 part { x with
          busy := true
          packet := takeAt b 0 (64 * x.maxSlot)
          x := List.replicate 8 0
          lb := List.replicate 64 0
          pc := 0
          loops := []
          steps := 0
          suspended := false })))) ∧
    (∀ part q p x, s.part? part = some p → p.queue? q = some x → x.st = .fetchfault → x.byHost = false → x.retries < 16 →
      (retryMeets s p x = .goes → exec (.fetchFaultRetry part q) s = .next (putQueue s part { x with st := .active, retries := 0 })) ∧
      (retryMeets s p x = .waits → exec (.fetchFaultRetry part q) s = .next s) ∧
      (∀ reason, retryMeets s p x = .parks reason → exec (.fetchFaultRetry part q) s =
        .next (putQueue s part { x with retries := x.retries + 1, reason := reason }))) ∧
    (∀ part l, nextWaiting s part = some l → placeable s l = true → ∃ t, exec (.launchPlacement part) s = .next t ∧
      t.launches = (s.setLaunch { l with st := .placed }).launches ∧
      t.wkgs = s.wkgs ++ (coresOf l).mapIdx (fun i c =>
        { part := l.part, serial := l.serial, wkg := i, core := c, share := 4096 * l.fld 33 1, data := [], flaws := [], bars := [],
          st := .running, ended := [], saves := [] }) ∧
      let entry := fun (i c gid slot uid stamp : Nat) =>
        groupAtEntry l i gid c slot uid stamp (l.fld 0 8) (entryNode (maskOf (List.range 96)) (l.fld 0 8) (s63Of 0 0 0 0))
      (∀ g ∈ t.groups, g ∈ s.groups ∨ (l.bound = false ∧ ∃ i c gid slot uid stamp, (coresOf l)[i]? = some c ∧ gid < l.groups ∧
        g = entry i c gid slot uid stamp)) ∧
      (l.bound = false → ∀ i c gid, (coresOf l)[i]? = some c → gid < l.groups →
        ∃ slot uid stamp, slot < 48 ∧ slot % 4 = gid % 4 ∧ entry i c gid slot uid stamp ∈ t.groups)) ∧
    (∀ part serial l, s.launch? part serial = some l → l.st = .placed → gridEnded s l = true → gridQuiet s l = true →
      donesigBlocked s l = false →
      exec (.gridTermination part serial) s = .next (removeLaunch (unbind (writeDonesig s l) l) l) ∧
      (let u := seeWalk s (192 + tollhouseDie l) (tollhouseDie l) l.part (l.fld 16 8)
       ∀ r, l.fld 16 8 ≠ 0 → xlate u (tollhouseDie l) l.part (l.fld 16 8) .write = .ok r → reaches u (tollhouseDie l) r.pa = true →
        writeDonesig s l = pwrite u r.pa (leBytes 8 (l.fld 56 4 + if l.fatal then 2 ^ 32 else 0))) ∧
      ∀ k ∈ (removeLaunch (unbind (writeDonesig s l) l) l).launches, ¬ (k.part = part ∧ k.serial = serial)) ∧
    (∀ part q p tq l w gid b, s.part? part = some p → p.taskq? q = some tq → s.launch? part tq.serial = some l → l.st = .placed →
      tq.headc ≠ tq.tailc → nextPlace s l = some (w, gid) →
      let s0 := seeTasks s w.core part tq [tq.headc]
      let batch := fun s : State => takeBatch s w.core part tq (taskEntry b) (tq.tailc - tq.headc).toNat { tasks := [], next := tq.headc }
      readTask s0 w.core part tq tq.headc = some b →
      (taskState b = 3 → exec (.taskGather part q) s = .next (consumeTasks s0 w.core part tq (tq.headc + 1))) ∧
      (taskState b = 2 →
        let s1 := seeTasks s0 w.core part tq (countsTo tq.headc (batch s0).next)
        let x := batch s1
        exec (.taskGather part q) s = .next ((startGroup (l1DropAll (consumeTasks s1 w.core part tq x.next) w.core)
          (fun slot uid stamp => taskGroup l w gid slot uid stamp (taskEntry b) x tq.headc) w.core gid).setLaunch
            { l with lastTask := (w.core, gid) })))

/-- The record of Table 8.6 for a workgroup that a cluster's termination ends, with the number n. -/
def clusterRecord (f : Fatal) (w : Workgroup) (n : Nat) : List Byte :=
  leBytes 4 n ++ leBytes 1 (dieOfCore w.core) ++ leBytes 1 (cluOfCore w.core % 12) ++ leBytes 1 f.code ++ leBytes 1 f.reason ++
    leBytes 2 (if f.part = w.part ∧ f.serial = w.serial ∧ f.wkg = w.wkg then f.gid else 0xFFFF) ++ leBytes 2 w.wkg ++
    leBytes 4 w.serial.toNat ++ List.replicate 16 0

/-- R187 to R189, Table 8.6: a marked cluster's open traces are rolled back; while what its groups committed is not performed, nothing else
happens; then its mark goes, none of its workgroups and none of their groups remains, and every launch with a workgroup on it is marked
fatal. For each workgroup that ends one record is written at SAVEBASE + 0x4000 + 32 × (n mod 512), n being TERMCNT, TERMCNT at SAVEBASE +
0x3FF8 rises by one, and the event vector of the partition's window is signalled: stated of a cluster whose workgroups are of one partition,
hold no ring attachment and stand in no SAVING, whose log is readable and writable (an unreadable TERMCNT, and the fields of a home that
cannot be reached, are the model's choice, log entry 98), and whose error recovery is not host-assisted. -/
def Obligations.ClustersTerminate : Prop :=
  ∀ (s : State) (clu : Nat) (f : Fatal), s.fatals.find? (fun f => f.clu == clu) = some f →
    let s1 := (s.groups.filter fun g => g.landing.isNone && cluOfCore g.core == clu).foldl (fun s g => rollBackAll s g.uid) s
    let ws := s.wkgs.filter (onCluster clu)
    (clusterQuiet s1 clu = false → exec (.clusterTermination clu) s = .next s1) ∧
    (clusterQuiet s1 clu = true → ∃ t, exec (.clusterTermination clu) s = .next t ∧ (∀ x ∈ t.fatals, x.clu ≠ clu) ∧
      (∀ w ∈ t.wkgs, onCluster clu w = false) ∧
      (∀ g ∈ t.groups, ∀ w ∈ ws, inWkg w g = false) ∧
      ((∀ g ∈ s.groups, g.landing = none → cluOfCore g.core = clu → ∃ w ∈ ws, inWkg w g = true) →
        ∀ g ∈ t.groups, g.landing = none → cluOfCore g.core ≠ clu) ∧
      (∀ l ∈ t.launches, ∀ w ∈ ws, l.part = w.part → l.serial = w.serial → l.fatal = true) ∧
      (∀ (p : Partition) (n : Nat), s.memOk = true → s1.part? p.part = some p → p.part < 12 → f.stops = [] → s1.flaws = [] →
        ws.length ≤ 512 →
        (∀ w ∈ ws, w.part = p.part ∧ w.st ≠ .saving ∧ (∀ x ∈ w.saves, x.rings = []) ∧
          badSpan s1 (dieOfCore w.core) (p.savebase + 0x3FF8) 8 = false ∧
          (∀ a, p.savebase + 0x3FF8 ≤ a → a < p.savebase + 0x8000 → reaches s1 (dieOfCore w.core) a = true) ∧
          (∀ g ∈ s1.groups, inWkg w g = true → g.rings = [] ∧ ∀ m ∈ g.nodes, m.inTrace = false)) →
        (∀ a, p.savebase + 0x3FF8 ≤ a → a < p.savebase + 0x8000 → populated s1 a = true ∧ sealHolds s1 a = false) →
        n = leNat (pread s1 (p.savebase + 0x3FF8) 8) → n + ws.length < 2 ^ 64 →
        pread t (p.savebase + 0x3FF8) 8 = leBytes 8 (n + ws.length) ∧
        (∀ (j : Nat) (w : Workgroup), ws[j]? = some w →
          pread t (p.savebase + 0x4000 + 32 * ((n + j) % 512)) 32 = clusterRecord f w (n + j)) ∧
        ((s1.msix.getD (16 * (4 * p.part + 1) + 12) 0).getLsbD 0 = false →
          t.signalled = s1.signalled ++ List.replicate ws.length (4 * p.part + 1))))

/-! ### Traces -/

/-- R98, R99, R116, R120, R124, R126, R146, R158: a trace that ends at its terminator with all its lanes and nothing buffered leaves its
fragment at the successor with ENTRY 2; the stores that a trace holds enter the pipeline in program order and count in ST; a load's data,
free of errors, reaches its registers; the fragments that wait at a JOIN fuse into one; a spilled fragment takes an entry of the split
table, the youngest at rest giving way where none is free (which one that may be is the model's choice, log entry 88). -/
def Obligations.TracesCommitAndFuse : Prop :=
  ∀ (s : State) (uid ix : Nat) (g : Group) (n : Node), s.group? uid = some g → g.node? ix = some n →
    (∀ c target, n.ctx = some c → c.term = some (.fin target) → canIssue s g n = true → c.effs = [] → c.fails = [] → c.entered = none →
      c.arrival = none → c.active = n.mask → n.mask ≠ 0 → c.helpers = 0 → c.flow = none → c.hdr.mode = false → g.pend = false →
      (∀ l ∈ g.loads, l.node ≠ ix) →
      ∃ (t : State) (g' : Group) (n' : Node), exec (.traceCommit uid ix) s = .next t ∧ t.group? uid = some g' ∧ g'.node? ix = some n' ∧
        n'.st = .ready ∧ n'.trace = target ∧ n'.mask = n.mask ∧ n'.s63 = s63Of 2 0 0 0 ∧ n'.ctx = none ∧ t.mem = s.mem ∧
        t.pipe = s.pipe) ∧
    (∀ c target, n.ctx = some c → c.term = some (.fin target) → canIssue s g n = true → c.fails = [] → c.entered = none →
      c.arrival = none → c.active = n.mask → n.mask ≠ 0 → c.helpers = 0 → c.flow = none → c.hdr.mode = false → g.pend = false →
      g.landing = none → (∀ l ∈ g.loads, l.node ≠ ix) →
      (∀ e ∈ c.effs, (∃ sp w rel sc uni, e.op = .store sp w rel sc uni) ∧ e.elems ≠ [] ∧
        ∀ x ∈ e.elems, x.lane = uniLane ∨ c.active.getLsbD x.lane = true) →
      ∃ (t : State) (g' : Group) (n' : Node), exec (.traceCommit uid ix) s = .next t ∧ t.group? uid = some g' ∧ g'.node? ix = some n' ∧
        n'.st = .ready ∧ n'.trace = target ∧ n'.ctx = none ∧ t.mem = s.mem ∧ g'.st = g.st + BitVec.ofNat 32 c.effs.length ∧
        (t.pipe.map fun it => (it.group, it.eff.ix, it.eff.op, it.eff.elems.map fun x => (x.lane, x.addr, x.data))) =
          (s.pipe.map fun it => (it.group, it.eff.ix, it.eff.op, it.eff.elems.map fun x => (x.lane, x.addr, x.data))) ++
          c.effs.map fun e => (uid, e.ix, e.op, e.elems.map fun x => (x.lane, x.addr, x.data))) ∧
    (∀ c l, n.ctx = some c → (g.loads.find? fun y => y.id == l.id && y.rread.isNone) = some l → l.node = ix → l.iv = 0 →
      let t := l.spans.foldl (fun s sp => seeSpan s g.die sp.2.1 sp.2.2 (some g.part) g.coreNo) s
      ∀ g1, t.group? uid = some g1 → badLanes t g1 l = [] →
        let r := l.writes.foldl loadWrite ({ g1 with loads := g1.loads.filter (·.id != l.id) }, n, { c with ix := l.ix })
        exec (.loadDataReturn uid l.id .clean) s = .next (putCtx t r.1 r.2.1 { r.2.2 with ix := c.ix }.settle)) ∧
    (mayFuse g n = true → ∃ (t : State) (g' : Group), exec (.rejoinFusion uid ix) s = .next t ∧ t.group? uid = some g' ∧
      (∃ n' ∈ g'.nodes, n'.mask = (childrenOf g.nodes ix).foldl (fun m x => m ||| x.mask) 0 ∧ n'.s63 = s63Of 10 0 0 0 ∧
        n'.st = .ready ∧ ∃ m ∈ childrenOf g.nodes ix, n'.trace = m.next ∧ n'.rank = m.rank ∧
          ∀ k ∈ childrenOf g.nodes ix, m.rank ≤ k.rank)) ∧
    (n.tabled = false → n.st = .ready →
      (hasEntry s g = true → exec (.fragmentSpillMove uid ix) s = .next (s.setGroup (g.setNode { n with tabled := true }))) ∧
      (∀ m, hasEntry s g = false → youngestAtRest g = some m → exec (.fragmentSpillMove uid ix) s =
        .next (s.setGroup ((g.setNode { m with tabled := false }).setNode { n with tabled := true }))))

/-- R131, R172, R220, R228, R229, R305, R306, R308: a gangway latch votes on each joint operation that has an arrival from every member,
and opens where every member's fragments are whole: where arrivals differ or their words are not allowed all take the fault, else all commit
in one step, one after another; a barrier completes when its groups have arrived, and its generation advances; a push and a pop move one
slot and give T, a closed or broken ring F. THE MODEL'S READING (derived): that a header that cannot be read gives F is log 30 (DEDUCED);
R306 speaks of one that breaks Table 12.4. That an access waits behind a parked atomic is R156, and a LOGACK that cannot be read log 98. -/
def Obligations.SynchronisationsComplete : Prop :=
  ∀ s : State,
    (∀ uid gr k, s.group? uid = some gr →
      let ms := (List.range (gangCount gr.gang)).map fun i => arrivedOf s gr (gangBase gr.gang + i)
      let arr := ms.map fun ws => (arrivalsOf ws).take k
      let ops := (jointOps ms).take k
      let frs := (ms.flatMap fun ws => ws.filter fun w => arr.any fun a => a.any fun j => j.uid == w.2.1 && j.nix == w.2.2.1).foldl
        (fun acc w => insertArrived w acc) []
      opening (ms.map prefixCounts) = some k →
      (∀ js, (ops.find? fun js => voteCode js != 0) = some js →
        exec (.gangwayLatchOpen uid) s = .next (js.foldl (fun s j =>
          onTrace s j.uid j.nix fun s g n c => latchFault s g n c j.eff.ix (voteCode js)) s)) ∧
      ((∀ js ∈ ops, voteCode js = 0) →
        (∀ w ∈ frs, ∃ h n c, traceOf s w.2.1 w.2.2.1 = some (h, n, c) ∧ canIssue s h n = true ∧ commitHeld s h c = false) →
        logRoom s gr.die gr.part (frs.foldl (fun k w => k + dlogCount w.2.2.2) 0) = true →
        ∀ s0, frs.foldl (fun (t : Option State) w => t.bind fun s => claimEndx s w.2.1 w.2.2.1) (some s) = some s0 →
        exec (.gangwayLatchOpen uid) s = .next
          (let s1 := frs.foldl (fun s w => onTrace s w.2.1 w.2.2.1 fun s g n c => putCtx s g n { c with arrival := none }) s0
           let s2 := frs.foldl (fun s w => commitLanes (enterTraceLate (enterTrace (fun s g e => match jointFor ops w.2.1 w.2.2.1 e with
             | some js => postJoint js s g
             | none => s) s w.2.1 w.2.2.1) w.2.1 w.2.2.1) w.2.1 w.2.2.1) s1
           frs.foldl (fun s w => afterCommit s w.2.1 w.2.2.1) s2))) ∧
    (∀ uid gr js, s.group? uid = some gr →
      let ms := (List.range (gangCount gr.gang)).map fun i => arrivedOf s gr (gangBase gr.gang + i)
      opening (ms.map prefixCounts) = none → (jointOps ms).find? (fun js => voteCode js != 0) = some js →
      exec (.gangwayLatchOpen uid) s = .next (js.foldl (voteFault (voteCode js)) s)) ∧
    (∀ (b : BarrierRef) (g : Group) (rest : List Group), expectedOf s b = g :: rest →
      let x := barOf s g b.cluster b.num
      barDone s b x (g :: rest) = true →
      exec (.barrierComplete b) s = .next ((waitersAt b (g :: rest)).foldl (fun s w => completeSync s w.1 w.2)
        ((g :: rest).foldl (fun s h => acquire s h (if b.cluster then 2 else 1))
          (putBar s g b.cluster { x with
            gen := x.gen + 1
            arrived := [] })))) ∧
    (∀ uid nix gr nd bench ring va pd mark, ringWaiter s uid nix = some (gr, nd) → nd.sync = some (.push bench ring va pd mark) →
      let x : Spot := { bench := bench, addr := ring }
      let t := seeSpot s gr x 64
      let h : RingHdr := spotRead t gr x 64
      releasedTo s uid gr.core mark (ringScope bench) = true → spotParked s gr x 64 = false →
      ((spotBad t gr x 64 = true ∨ RingHdr.ok h = false ∨ bit (RingHdr.flags h) 1 = true) →
        exec (.ringPush uid nix) s = .next (ringStatus t gr nd pd 0)) ∧
      (spotBad t gr x 64 = false → RingHdr.ok h = true → bit (RingHdr.flags h) 1 = false →
        (RingHdr.tailc h - RingHdr.headc h).toNat < 2 ^ RingHdr.logslots h →
        (bench = true → vaHeld t gr.core gr.die gr.part (ring + RingHdr.slotAt h (RingHdr.tailc h)) (4 * RingHdr.words h) .write = false) →
        exec (.ringPush uid nix) s = .next (ringStatus (spotWrite
          (spotWrite t gr { x with addr := ring + RingHdr.slotAt h (RingHdr.tailc h) } (pushSlot gr nd va (RingHdr.words h))) gr
          { x with addr := ring + 4 } (leBytes 4 (RingHdr.tailc h + 1).toNat)) gr nd pd 1))) ∧
    (∀ uid nix gr nd bench ring va pd, ringWaiter s uid nix = some (gr, nd) → nd.sync = some (.pop bench ring va pd) →
      let x : Spot := { bench := bench, addr := ring }
      let t := seeSpot s gr x 64
      let h : RingHdr := spotRead t gr x 64
      let slot : Spot := { x with addr := ring + RingHdr.slotAt h (RingHdr.headc h) }
      let size := 4 * RingHdr.words h
      acquireReady s gr = true → countsMade s gr = true → spotParked s gr x 64 = false →
      ((spotBad t gr x 64 = true ∨ RingHdr.ok h = false) → exec (.ringPop uid nix) s = .next (ringStatus t gr nd pd 0)) ∧
      (spotBad t gr x 64 = false → RingHdr.ok h = true → RingHdr.tailc h = RingHdr.headc h → bit (RingHdr.flags h) 0 = true →
        exec (.ringPop uid nix) s = .next (ringStatus (acquire t gr (ringScope bench)) gr nd pd 0)) ∧
      (spotBad t gr x 64 = false → RingHdr.ok h = true → RingHdr.tailc h ≠ RingHdr.headc h → spotParked t gr slot size = false →
        let u := seeSpot t gr slot size
        spotBad u gr slot size = false →
        exec (.ringPop uid nix) s = .next (ringStatus
          (spotWrite (acquire u gr (ringScope bench)) gr x (leBytes 4 (RingHdr.headc h + 1).toNat))
          (popSlot gr nd va (spotRead u gr slot size) (RingHdr.words h)) nd pd 1)))

/-! ### Committed effects -/

/-- R125, R181, R182: a posted effect whose elements all translate is accepted with their physical addresses and the strongest of their
kinds; one whose only element is refused leaves memory as it is and a record of Table 8.3 in its group's SFRQ, with the code of what refused
it, 1 to 4. THE MODEL'S CHOICES (derived): that an element whose home cannot be reached is refused too, with a record of code 9, is log 89
(DESIGN CHOICE), and one whose walk cannot be read, log 98; Table 8.3 lists codes 1 to 4. -/
def Obligations.PostedEffectsAreChecked : Prop :=
  ∀ (s : State) (id : Nat) (it : Item), s.item? id = some it → checkReady s it = true → it.refused = [] →
    let u := seeItem s it fun x => x.st == .fresh
    (∀ f : Elem → Xlat, it.eff.elems ≠ [] → (∀ x ∈ it.eff.elems, x.st = .fresh ∧ checkElem u it x = .ok (f x)) →
      let elems := it.eff.elems.map fun x => { x with
        st := ElemSt.checked
        pa := (f x).pa }
      exec (.postedStoreCheck id) s = .next (tidy (u.setItem { it with
        eff := { it.eff with elems := elems }
        kind := strongest ((if it.kind = 3 then [] else [it.kind]) ++ it.eff.elems.map fun x => (f x).ord) }))) ∧
    (∀ x e g, it.eff.elems = [x] → x.st = .fresh → checkElem u it x = .error e → x.lane ≠ uniLane → s.group? it.group = some g →
      (∀ p, s.part? it.part = some p → p.assisted 0 = false) →
      (faultCode e ∈ [1, 2, 3, 4] ∨ faultCode e = 9) ∧ ∃ (t : State) (g' : Group), exec (.postedStoreCheck id) s = .next t ∧ t.group? it.group = some g' ∧ t.mem = s.mem ∧
        g'.pend = true ∧ (g.sfrq.length < 8 → g'.lost = g.lost ∧ g'.sfrq = g.sfrq ++
          [leBytes 8 x.addr ++ leBytes 1 1 ++ leBytes 1 x.lane ++ leBytes 1 it.eff.ix ++ leBytes 1 (faultCode e) ++
            leBytes 4 it.trace]) ∧
        (8 ≤ g.sfrq.length → g'.sfrq = g.sfrq ∧ g'.lost = min 255 (g.lost + 1)))

/-- R87, R91, R92, R146, R159, R255, R357, R358: an accepted element whose turn it is is performed: a store's bytes stand at its address,
in scratchpad or global memory; a RELEASE counts for its launch; a spawned slot becomes ready; a digest record stands in its log; an atomic
reads, computes and writes in one step; LDA's bytes reach scratchpad; a ring's count is made behind the group's FENCEs and earlier counts,
and behind an atomic parked on its header. THE MODEL'S CHOICE (derived): that the count of QOPEN and QCLOSE is an effect in the order of the
group's effects is log 90 (DESIGN CHOICE). -/
def Obligations.AcceptedElementsArePerformed : Prop :=
  ∀ (s : State) (id k : Nat) (it : Item) (x : Elem), s.item? id = some it → it.elem? k = some x → x.st = .checked →
    (∀ w rel sc uni, it.eff.op = .store .global w rel sc uni → elemReady s it k x = true →
      parkedBlocks s x.pa x.data.length true = false → reaches s it.die x.pa = true → s.memOk = true →
      exec (.storePerformed id k) s = .next (resolve (writeGlobal s it x) it k x .done) ∧
      pread (writeGlobal s it x) x.pa x.data.length = x.data) ∧
    (∀ w rel sc uni a, it.eff.op = .store .scratch w rel sc uni → elemReady s it k x = true →
      scratchAt s it.asGroup x.addr x.data.length = some a →
      exec (.storePerformed id k) s = .next (resolve (s.setWkg (a.1.put a.2 x.data)) it k x .done) ∧
      (a.1.put a.2 x.data).data = swrite a.1.data a.2 x.data) ∧
    (∀ n, it.eff.op = .dlog n → logReady s it x = true →
      exec (.storePerformed id k) s = .next (resolve (writeLog s it x) it k x .done)) ∧
    (∀ l, it.eff.op = .release → releaseReady s it = true → s.launch? it.part it.serial = some l →
      ∃ t, exec (.storePerformed id k) s = .next t ∧ ∀ l' ∈ t.launches, l'.part = it.part → l'.serial = it.serial →
        l'.release = min (2 ^ 32 - 1) (l.release + 1)) ∧
    (∀ attach cons bench addr, it.eff.op = .ring attach cons bench addr → it.eff.elems = [x] →
      (countReady s it { bench := bench, addr := addr } = true →
        exec (.storePerformed id k) s = .next (resolve (ringCount s it.asGroup cons bench addr attach it.id) it 0 x .done)) ∧
      (countReady s it { bench := bench, addr := addr } = false → exec (.storePerformed id k) s = .next s)) ∧
    (∀ q entry, it.eff.op = .spawn q entry → releaseReady s it = true → taskHeld s it q x = false →
      exec (.storePerformed id k) s = .next (resolve (readySlot s it q entry x) it k x .done)) ∧
    (∀ kind sub ty x4 acq rel sc d peer mf, it.eff.op = .atomic kind sub ty x4 acq rel sc d peer → elemReady s it k x = true →
      let n := if x4 then 16 else atomBytes ty
      (kind = .atoms →
        let t := seeOffset s it.asGroup x.addr (atomBytes ty)
        ((scratchAt t it.asGroup x.addr (atomBytes ty)).bind fun w => w.1.badWord w.2 (atomBytes ty)) = none →
        exec (.deferredAtomicPerform id k mf) s = .next (resolve (atomAcquire (updateScratch t it x) it) it k x .done)) ∧
      (kind ≠ .atoms → kind ≠ .sred → parkedBlocks s x.pa n false = false → reaches s it.die x.pa = true →
        let t := seeSpan s it.die x.pa n (some it.part) (it.core % 48)
        (parkCause t x.pa n mf = none →
          exec (.deferredAtomicPerform id k mf) s = .next (resolve (atomAcquire (updateGlobal t it x) it) it k x .done)) ∧
        (∀ c, parkCause t x.pa n mf = some c →
          exec (.deferredAtomicPerform id k mf) s = .next (park t it k x c)))) ∧
    (∀ w, it.eff.op = .lda w → ldaReady s it k x w = true →
      let t := seeSpan s it.die x.pa w (some it.part) (it.core % 48)
      badSpan t it.die x.pa w = false →
      exec (.ldaElementWrite id k .clean) s = .next (resolve (writeScratch t it.asGroup x.b (pread t x.pa w)) it k x .done))

/-- R156, R168, R360: a parked atomic is repaired by the management core, or asks for service with CLASS 3, and once repaired takes effect;
SRED's elements merge in a window of their die, equal pairs combining, and the pair is applied at its home at once; a peer's element is
translated in its partition and applied, or parked where its word is bad. -/
def Obligations.ParkedAndMergedAtomics : Prop :=
  ∀ s : State,
    (∀ die k p it, (s.die die).parked[k]? = some p → s.item? p.id = some it → p.stage = 0 →
      (p.assisted = false → exec (.atomicRepair die k) s = .next (setParked s die { p with stage := 2 })) ∧
      (p.assisted = true → ∀ x, it.elem? p.elem = some x →
        exec (.atomicRepair die k) s = .next (raiseService (setParked s die { p with stage := 1 }) it.part (it.id * 128 + p.elem)
          { class_ := 3, access := 2, cause := p.cause, who := whoIs s it.group, addr := x.pa / 64 * 64, count := 1,
            serial := it.serial }).1)) ∧
    (∀ die k p it x kind sub ty x4 acq rel sc d peer, (s.die die).parked[k]? = some p → s.item? p.id = some it →
      p.stage = 2 ∨ (p.cause = 3 ∧ p.assisted = false) →
      it.elem? p.elem = some x → it.eff.op = .atomic kind sub ty x4 acq rel sc d peer → reaches s it.die x.pa = true →
      badSpan s die x.pa (if x4 then 16 else atomBytes ty) = false →
      exec (.atomicReplay die k) s = .next (resolve (atomAcquire (updateGlobal (dropParked s die p) it x) it) it p.elem x .done)) ∧
    (∀ id k it x sub ty x4 acq rel sc d, s.item? id = some it → it.elem? k = some x → x.st = .checked →
      it.eff.op = .atomic .sred sub ty x4 acq rel sc d none →
      let die := it.die
      (∀ m mf, (s.merge.find? fun m => m.from_.contains (id, k)) = some m → parkedBlocks s m.addr (atomBytes ty) false = false →
        let t := seeSpan s die m.addr (atomBytes ty) (some it.part) (it.core % 48)
        parkCause t m.addr (atomBytes ty) mf = none → exec (.sredElementApply id k (.applies mf)) s = .next (applyPair t m)) ∧
      ((s.merge.find? fun m => m.from_.contains (id, k)) = none → itemReady s it = true →
        (∀ mf, elemFirst s it k x = true →
          exec (.sredElementApply id k (.applies mf)) s = .next (performAtomic s it k x (atomBytes ty) mf)) ∧
        (∀ m, (s.merge.find? fun m => m.die == die && m.addr == x.pa && m.sub == sub && m.ty == ty) = some m →
          elemFirstBut s m.from_ it k x = true →
          exec (.sredElementApply id k .joins) s = .next { s with merge := s.merge.map fun y =>
            if y == m then { m with value := atomNew sub ty m.value x.b 0, from_ := m.from_ ++ [(id, k)] } else y }) ∧
        ((∀ m ∈ s.merge, ¬ (m.die = die ∧ m.addr = x.pa ∧ m.sub = sub ∧ m.ty = ty)) → elemFirst s it k x = true →
          (s.merge.filter fun m => m.die == die).length < 512 →
          exec (.sredElementApply id k .joins) s = .next { s with merge := s.merge ++
            [{ die := die, addr := x.pa, sub := sub, ty := ty, value := x.b, from_ := [(id, k)] }] }))) ∧
    (∀ part die (addr : DWord) (op ty : BitVec 3) (value : DWord) r, (s.die die).running = true → (s.die die).tripped = false →
      addr.toNat % atomBytes ty.toNat = 0 → op.toNat ≤ 2 → ty.toNat ≤ 5 → walkHeld s (192 + die) die part addr.toNat = false →
      let s0 := seeWalk s (192 + die) die part addr.toNat
      xlate s0 die part addr.toNat .write = .ok r →
      let n := atomBytes ty.toNat
      let t := seeSpan s0 die r.pa n (some part) 0xFF
      let v := value.toNat % 2 ^ (8 * n)
      reaches s0 die r.pa = true → parkedBlocks s0 r.pa n false = false →
      (parkCause t r.pa n none = none → exec (.sredPeerElement part die addr op ty value) s =
        .next (pwrite t r.pa (leBytes n (atomNew op.toNat ty.toNat (leNat (pread t r.pa n)) v 0)))) ∧
      (∀ cause x, parkCause t r.pa n none = some cause →
        (peerItem part die addr.toNat r.pa op.toNat ty.toNat v).eff.elems = [x] →
        exec (.sredPeerElement part die addr op ty value) s =
          .next (parkPeer t (peerItem part die addr.toNat r.pa op.toNat ty.toNat v) x cause)))

/-! ### Engines -/

/-- Entry e is first in queue r of an engine that runs, no parked atomic holds it up, its chain holds, what precedes it is performed, and
the engine has taken it: its bytes hold the OP (R150, R152, R170). -/
structure EntryAt (s : State) (r : QueueRef) (op : Nat) (e : EngEntry) (q : EngQ) : Prop where
  queue : engq? s r = some q
  first : q.entries.head? = some e
  up : (s.die (queueDie r)).running = true
  free : regionHeld s (engFor s r e) (entryRegion r e, 64) = false
  chain : e.broken = false
  released : entryReleased s e = true
  taken : e.taken.isEmpty = false
  op : field e.taken 12 1 = op

/-- The engine activities that work on queue r. -/
def Serves (s : State) (r : QueueRef) (i : Instr) : Prop :=
  (∃ k, (queueOwner s .mq k = some r ∧ i = .mmaEntry k) ∨ (queueOwner s .lq k = some r ∧ i = .layoutEntry k) ∨
    (queueOwner s .cq k = some r ∧ i ∈ [.copyEntry k .clean, .gatherEntry k, .scatterEntry k])) ∨ i = .qfenceEntry r ∨
  (r.kind = .kq ∧ (i = .collPeerTimeout r.part r.unit ∨ ∃ peers, i = .collEntry r.part r.unit peers))

/-- R151, R153, R171, R219, R234, R235, R242, R243, R412: each engine does what the body of the entry it has taken says: an MMA promotes
every cell period by period and then completes; QFENCE holds its queue until what its bytes name is complete; COLL completes when every
contribution has arrived, or with REASON 7 when a neighbour makes no progress. R150 to R152, R226: an engine reads an entry once, and
completes it unread where its bytes cannot be read or its sequence is not the one posted, which breaks the chain; completing an entry
takes it from its queue and puts its sequence and whether it failed into the completion word; after a broken chain every entry ends with
STATUS 4, and an OP of no meaning with STATUS 5 and REASON 1. THE MODEL'S READINGS (derived): that a LAYOUT, COPY, GATHER, SCATTER or COLL
reads its source, writes its destination and completes in one step is log 38 (DEDUCED); the status of an entry that cannot be read is log 94
(DEDUCED). -/
def Obligations.EngineEntriesAreDone : Prop :=
  (
  ∀ (s : State) (r : QueueRef) (e : EngEntry) (q : EngQ),
    let x := engFor s r e
    let b := e.taken
    (∀ core m fa fb, queueOwner s .mq core = some r → EntryAt s r 1 e q → mmaBodyCheck b = none → m = mmaOf b →
      aFmt (m.fmt % 256) = some fa → bFmt (bits m.fmt 15 8) = some fb →
      let t := seeTile (seeTile s x 96 m.ksl fa m.aexp m.apl) x (16 * m.gcnt) m.ksl fb m.bexp m.bpl
      let ta := readTile t x 96 m.ksl fa m.aexp m.apl
      let tb := readTile t x (16 * m.gcnt) m.ksl fb m.bexp m.bpl
      (e.done < ceilDiv m.ksl m.p → ta.2 = 0 → tb.2 = 0 → workingArrays t r.unit ≠ 0 → exec (.mmaEntry core) s =
        .next (setFirst (promote m e (bits m.fmt 23 16 == 1 && e.done == 0) (periodAcc ta.1 tb.1 m.ksl m.p e.done) t) r
          { e with done := e.done + 1 })) ∧
      (ceilDiv m.ksl m.p ≤ e.done → exec (.mmaEntry core) s = .next (finishEntry s r e 0 0))) ∧
    (∀ core p, queueOwner s .mq core = some r → EntryAt s r 1 e q → mmaBodyCheck b = some p →
      exec (.mmaEntry core) s = .next (runPlan s x r e p)) ∧
    (∀ clu, queueOwner s .lq clu = some r → EntryAt s r 1 e q →
      exec (.layoutEntry clu) s = .next (runPlan s x r e (layoutPlan s x b))) ∧
    (∀ core, queueOwner s .cq core = some r →
      (EntryAt s r 1 e q → exec (.copyEntry core .clean) s = .next (runPlan s x r e (copyPlan s x b))) ∧
      (EntryAt s r 2 e q → exec (.gatherEntry core) s = .next (runPlan s x r e (gatherPlan s x b))) ∧
      (EntryAt s r 3 e q → exec (.scatterEntry core) s = .next (runPlan s x r e (scatterPlan s x b)))) ∧
    (EntryAt s r 0x0F e q → bits (field b 17 1) 7 4 = 0 → leNat (takeAt b 18 46) = 0 →
      exec (.qfenceEntry r) s = .next (if (e.waits.filter fun w => bit (field b 17 1) (queueBit w.1.kind)).all (entryDone s)
        then finishEntry s r e 0 0 else s)) ∧
    (∀ m g peers rows, r.kind = .kq → EntryAt s r 1 e q → collChecked s x b = .inr (m, g) →
      let others := peers.filter fun p => p.rank != GroupRec.rank g && p.rank < GroupRec.nrank g
      let u := countColl s r.part (GroupRec.gid g)
      let fails := fun reason : Nat => ({ st := 5, reason := reason, reads := [m.record], writes := [] } : Plan)
      (collLinked s g = true → (∃ p ∈ others, peerMatches m g p = false) → planBlocked s x (fails 6) = false →
        exec (.collEntry r.part r.unit peers) s = .next (runPlan u x r e (fails 6))) ∧
      (collLinked s g = true → (∀ p ∈ others, peerMatches m g p = true) → contributions s x m g others = some rows →
        let out := collResult m g rows
        let plan : Plan := { st := statusesOf out, reason := 0, reads := m.record ::
          (if m.ctype = 2 && GroupRec.rank g != m.root then [] else [(m.src, m.len)]), writes := runWrites m.dst 0 out }
        planBlocked s x plan = false → exec (.collEntry r.part r.unit peers) s = .next (runPlan u x r e plan)) ∧
      (planBlocked s x (fails 7) = false → exec (.collPeerTimeout r.part r.unit) s = .next (runPlan u x r e (fails 7))))
  ) ∧
  (
  ∀ (s : State) (r : QueueRef) (e : EngEntry) (q : EngQ),
    (∀ st reason, engq? s r = some q → ∃ q', engq? (finishEntry s r e st reason) r = some q' ∧ q'.word = e.seq ∧ q'.err = (st != 0) ∧
      q'.entries = q.entries.tail ∧ q'.nextSeq = q.nextSeq) ∧
    (∀ i, Serves s r i → engq? s r = some q → q.entries.head? = some e → (s.die (queueDie r)).running = true →
      regionHeld s (engFor s r e) (entryRegion r e, 64) = false →
      (e.broken = true → exec i s = .next (finishEntry s r e 4 0)) ∧
      (e.broken = false → entryReleased s e = true → e.taken = [] →
        let t := seeRegion s (engFor s r e) (entryRegion r e, 64)
        let bs := readRegion t (engFor s r e) (entryRegion r e) 64
        (statusesOf bs ≠ 0 → exec i s = .next (finishEntry t r e (statusesOf bs) 0)) ∧
        (statusesOf bs = 0 → field (dataOf bs) 8 4 = e.seq.toNat → exec i s = .next (setFirst t r { e with taken := dataOf bs })) ∧
        (statusesOf bs = 0 → field (dataOf bs) 8 4 ≠ e.seq.toNat →
          exec i s = .next (finishEntry (breakChain t r) r { e with broken := true } 4 0))) ∧
      (∀ op, EntryAt s r op e q → knownOp r.kind op = false → exec i s = .next (finishEntry s r e 5 1)))
  )

/-! ### Pre-emption -/

/-- R194 to R202: a request that reaches a core stops its workgroup; when the allowance is over a trace is rolled back; once every fragment
of the workgroup stands at a boundary all its groups are frozen, and the group's lanes enter the handler with ENTRY 7; YIELD saves the
group and it leaves its core; a saved launch comes back on cores that have room. THE MODEL'S CHOICE (derived): that the cores of a restored
launch are sought from a place that a free value gives is log 33 (DESIGN CHOICE). -/
def Obligations.GroupsAreSavedAndRestored : Prop :=
  ∀ s : State,
    (∀ part serial core l w, s.launch? part serial = some l → l.preempting ≠ none →
      (s.wkgs.find? fun w => w.part == part && w.serial == serial && w.core == core && w.st == .running) = some w →
      exec (.preemptRequestArrival part serial core) s =
        .next (wkgMaybeEnd (s.setWkg { w with st := .stopping }) part serial w.wkg)) ∧
    (∀ uid ix g n c, traceOf s uid ix = some (g, n, c) → wkgIn s g .stopping = true → c.entered = none →
      exec (.preemptAllowanceExpiry uid ix) s = .next (rollBack s uid ix)) ∧
    (∀ uid g w l, s.group? uid = some g → s.wkg? g.part g.serial g.wkg = some w → s.launch? g.part g.serial = some l →
      ((w.st = .stopping ∧ atBoundary s w = true) ∨ w.st = .saving) → g.yield = .no → g.landing = none →
      (∀ n ∈ g.nodes, n.saver = false) → (w.st = .saving → ∀ n ∈ g.nodes, n.frozen = true) → leafLanes g ≠ 0 →
      ∃ (t : State) (g' : Group), exec (.preemptHandlerStart uid) s = .next t ∧ t.group? uid = some g' ∧
        (∃ n ∈ g'.nodes, n.saver = true ∧ n.mask = leafLanes g ∧ n.s63 = s63Of 7 0 0 0 ∧
          n.trace = l.preempting.getD (l.fld 8 8) ∧ n.st = .ready) ∧ (∀ n ∈ g'.nodes, n.saver = true ∨ n.frozen = true) ∧
        (w.st = .stopping → ∀ h ∈ t.groups, inWkg w h = true → h.uid ≠ uid → ∀ n ∈ h.nodes, n.frozen = true)) ∧
    (∀ uid g ls, s.group? uid = some g → g.yield = .waiting → yieldReady s g = true → saveHeld s g = false →
      let u := seeSave s g
      saveSpans u g (saveLines g) = .ok ls →
      (∀ x ∈ ls, parkedBlocks u x.1 64 true = false) → (∀ x ∈ ls, reaches u g.die x.1 = true) →
      let s1 := ls.foldl (fun s x => if reaches s g.die x.1 then pwrite s x.1 x.2 else s) u
      exec (.yieldSave uid) s = .next (saveGroup s1 g) ∧ (saveGroup s1 g).group? uid = none) ∧
    (∀ uid g e, s.group? uid = some g → g.yield = .waiting → yieldReady s g = true → saveHeld s g = false →
      saveSpans (seeSave s g) g (saveLines g) = .error e → exec (.yieldSave uid) s = .next (addFatal (seeSave s g) g 1 64)) ∧
    (∀ part serial p l as t, s.part? part = some p → (s.launches.find? fun l => l.part == part && launchSaved s l) = some l →
      l.serial = serial → (∀ k, nextWaiting s part = some k → placeable s k = false) →
      let s1 := { s with tick := s.tick + 1 }
      let cores := ((List.range 48).filter (bit p.clumask)).flatMap fun k => (List.range 4).map fun c => 4 * k + c
      let k := (Config.freeValue s.tick).toNat % (cores.length + 1)
      let ws := s1.wkgs.filter fun w => w.part == part && w.serial == serial
      assignCores (fitsCore s1 l ws) (cores.drop k ++ cores.take k) ws [] = some as →
      (∀ a ∈ as, ∀ x ∈ a.1.saves, blockHeld s1 a.2 part x.addr = false) →
      as.foldl (fun (acc : Option State) a => match acc with
        | some t => restoreWkg p l t a.1 a.2
        | none => none) (some s1) = some t →
      exec (.launchRestore part serial) s = .next (t.setLaunch { l with preempting := none }))

/-! ### Emulation and replayed objects -/

/-- R191, R283: IVDIV and IVSQRT of `.iv16` are emulated: where the operands are legal and no selected lane faults, the fragment is parked
with the instruction's words and lanes and the registers as they stand, at the instruction, with no register changed. R190 to R193: the next
element of an emulated instruction goes to the lowest free frame, which the management core computes or a request of CLASS 4 carries; a
ready frame's results reach its lanes, and after the last element the fragment goes on. THE MODEL'S READING (derived): that the frame taken
is the lowest free one is log 47 (DEDUCED); R191 says a free slot. -/
def Obligations.LaterInstructionsAreEmulated : Prop :=
  (
  ∀ (i : Instr) (k : Comp) (o : LOp) (s : State) (g : Group) (n : Node) (c : Ctx), emulated i = some (k, o) →
    Issues s g n c false (k.spec o (lenWords o.w2) 0).used → k.check o g.nregs = 0 → c.active ≠ 0 →
    let lanes := selected g o.ps.toNat o.pm.toNat (c.active ||| c.helpers)
    lanes ≠ [] → overShadow c (k.dstRegs o) = false → (∀ l ∈ lanes, (k.lane o g n c l).code = 0) →
    exec i s = .next (stand s g g n { c.shadow (k.dstRegs o) with
      emul := some { insn := insnWords i, instr := i, lanes := maskOf lanes, next := 0, done := 0, v := g.v, s := g.s,
                     fmode := g.fmode } })
  ) ∧
  (
  ∀ (s : State) (uid ix : Nat) (e : Emulating), emulating s uid ix = some e → canIssue s e.g e.n = true →
    (∀ slot off, freeSlot (s.die e.g.die) = some slot → (e.o.offs e.k.paired)[e.m.next]? = some off →
      let s2 := putCtx (pwriteLong s (frameAt e.g.die slot) (frameBytes e.m e.k e.o e.g e.n (whoOf e.g) e.m.next off)) e.g e.n
        { e.c with emul := some { e.m with next := e.m.next + 1 } }
      let f : Frame := { slot := slot, g := uid, n := ix, elem := e.m.next, ready := false, ticket := none }
      let req : SvcReq :=
        { class_ := 4, access := 4, cause := 0, who := whoOf e.g, addr := frameAt e.g.die slot, count := (lanesOf e.m.lanes).length,
          serial := e.g.serial }
      let r := raiseService s2 e.g.part uid req
      exec (.emulationFrame uid ix) s = .next (if formatAssisted s e.g.part then addFrame r.1 e.g.die { f with ticket := some r.2 }
        else computeFrame (addFrame s2 e.g.die f) e.g.die f)) ∧
    (∀ f off, nextFrame s e = some f → (e.o.offs e.k.paired)[e.m.done]? = some off → f.ready = true →
      let outs := (lanesOf (e.m.lanes &&& (e.c.active ||| e.c.helpers))).map fun l => (l, frameLane s e (frameAt e.g.die f.slot) off l)
      let r := outs.foldl (applyOut e.m.fmode) ((e.g, e.n, e.c), [])
      let next := fun c : Ctx => if (e.o.offs e.k.paired).length ≤ e.m.done + 1 then { c with emul := none }.advance (lenWords e.o.w2)
        else { c with emul := some { e.m with done := e.m.done + 1 } }
      exec (.emulationResultWrite uid ix) s =
        .next (endEmul (faultLanes (freeFrame s e.g.die f) r.1.1 r.1.2.1 r.1.2.2 r.2 next) uid ix))
  )

/-- R245 to R252, R375, R376: a call's request takes the object's next position once its release is performed and the home has room; a die
applies the next position it has not applied, by running its method or rejecting it with reason 7, as it does one that took its position
while the record was not LIVE, whatever the record says now, or with reason 4 and code 9 where its entry cannot be read; a call that has
ended leaves its outcome, its writes undone where it was rejected; an RREAD's method runs once the die has applied the group's horizon, its
result returns, and the group's horizon rises. THE MODEL'S READING (derived): that an entry that cannot be read gives reason 4 with code 9
is log 48 (DEDUCED). -/
def Obligations.CallsAreReplayed : Prop :=
  ∀ s : State,
    (∀ uid ix h o, requestOf s uid ix = some h → recordHeld s h.part h.obj = false →
      let s1 := trim (meetObj s h.part h.obj) h.part h.obj
      obj? s1 h.part h.obj = some o → objectHeld s1 h.part o = false →
      let u := seeObject s1 h.part o
      releasedTo u uid h.core h.mark 4 = true →
      (∀ g, u.group? uid = some g → horizonReady u g h.obj = true) → sealHold u h.part = false →
      entryHeld u h.part o o.next = false → hasRoom u h.part o = true → homeServes u o h.core = true →
      exec (.manifestAppend uid ix) s = .next (appendCall u h o)) ∧
    (∀ part d obj o, (s.die d).running = true → (s.die d).tripped = false → landingGroup s part d = none → obj? s part obj = some o →
      let pos := o.applied.getD d 0 + 1
      let s1 := seeVa s o.home part (o.entryVa pos) 64
      let b := readEntry s1 part o pos
      let m := field b 11 1
      let s2 := seeMethod s1 part d o m
      pos ∈ o.entries → readWaits s part d o = false → homeServes s o (48 * d) = true → objectHeld s part o = false →
      (pos ∈ o.unwritten → exec (.landingApply part d obj) s = .next (recordOutcome s part d o.obj pos 7 0 0)) ∧
      (pos ∉ o.unwritten → entryHeld s part o pos = false → methodHeld s part d o m = false →
      ((manifestOk s1 part o = true ∧ entryBad s1 part o pos = true) →
        exec (.landingApply part d obj) s = .next (recordOutcome s1 part d o.obj pos 4 9 0)) ∧
      (¬ (manifestOk s1 part o = true ∧ entryBad s1 part o pos = true) →
        (∀ a, methodStart s2 part d o m false = some a → exec (.landingApply part d obj) s =
          .next (startCall s2 part d o m pos ((List.range 10).map fun i => BitVec.ofNat 32 (field b (24 + 4 * i) 4)) none a)) ∧
        (methodStart s2 part d o m false = none →
          exec (.landingApply part d obj) s = .next (recordOutcome s2 part d o.obj pos 7 0 0))))) ∧
    (∀ part d obj g c l, (s.die d).running = true → (s.die d).tripped = false → landingGroup s part d = some g →
      (s.calls.find? fun c => c.g == g.uid) = some c → g.landing = some l → c.caller = none → l.obj = obj → callEnded g c = true →
      (∀ o, obj? s part obj = some o → entryHeld s part o l.pos = false) →
      exec (.landingApply part d obj) s = .next (recordOutcome
        (dropCall (if c.reason = 0 then s else undoCall s g.uid) g) g.part l.die l.obj l.pos c.reason c.code c.result)) ∧
    (∀ uid id gr l r o g1, (s.calls.find? fun c => c.caller == some (uid, id)) = none → s.group? uid = some gr →
      (gr.loads.find? fun x => x.id == id) = some l → l.rread = some r → l.answered = none → recordHeld s gr.part r.1 = false →
      let s1 := meetObj s gr.part r.1
      obj? s1 gr.part r.1 = some o → s1.group? uid = some g1 → (s1.die g1.die).running = true → (s1.die g1.die).tripped = false →
      landingGroup s1 g1.part g1.die = none → seqReached (o.applied.getD g1.die 0) (horizonOf g1 r.1) = true →
      horizonReady s1 g1 r.1 = true → objectHeld s1 g1.part o = false → methodHeld s1 g1.part g1.die o r.2.1 = false →
      exec (.rreadMethodRun uid id) s = .next (startRead (seeMethod s1 g1.part g1.die o r.2.1) g1 id r o)) ∧
    (∀ uid id gr l r pos, (s.calls.find? fun c => c.caller == some (uid, id)) = none → s.group? uid = some gr →
      (gr.loads.find? fun x => x.id == id) = some l → l.rread = some r → l.answered = some pos → horizonReady s gr r.1 = true →
      exec (.rreadMethodRun uid id) s = .next (s.setGroup (raiseHorizon
        { gr with loads := gr.loads.map fun x => if x.id == l.id then { x with rread := none } else x } r.1 pos))) ∧
    (∀ uid id c lg gr l r, (s.calls.find? fun c => c.caller == some (uid, id)) = some c → s.group? c.g = some lg →
      callerGone s c = false → callEnded lg c = true → s.group? uid = some gr → lg.landing = some l →
      (gr.loads.find? fun x => x.id == id).bind (·.rread) = some r →
      exec (.rreadMethodRun uid id) s = .next (answerRead
        (dropCall (if c.reason = 0 then s else undoCall s lg.uid) lg) uid id l.obj r.2.2.2 c.reason c.code c.result))
end

