-- ==== Sys2Proof/Laws/Codec.lean ====
section
/-! SUPPORT. Fields of packed words: what a layout packs, the same layout unpacks. -/
namespace Sys2Proof

/-! ### Fields of an appended vector -/

theorem app_lo {m n : Nat} (a : BitVec m) (b : BitVec n) (lo k : Nat) (h : lo + k ≤ n) :
    (a ++ b).extractLsb' lo k = b.extractLsb' lo k := by
  ext i hi
  simp only [BitVec.getElem_extractLsb', BitVec.getLsbD_append]
  rw [if_pos (by omega)]
theorem app_hi {m n : Nat} (a : BitVec m) (b : BitVec n) (lo k : Nat) (h : n ≤ lo) :
    (a ++ b).extractLsb' lo k = a.extractLsb' (lo - n) k := by
  ext i hi
  simp only [BitVec.getElem_extractLsb', BitVec.getLsbD_append]
  rw [if_neg (by omega)]; congr 1; omega
theorem app_all {n : Nat} (a : BitVec n) : a.extractLsb' 0 n = a := by ext i hi; simp
theorem bit_lo {m n : Nat} (a : BitVec m) (b : BitVec n) (i : Nat) (h : i < n) : (a ++ b).getLsbD i = b.getLsbD i := by
  rw [BitVec.getLsbD_append, if_pos h]
theorem bit_hi {m n : Nat} (a : BitVec m) (b : BitVec n) (i : Nat) (h : n ≤ i) : (a ++ b).getLsbD i = a.getLsbD (i - n) := by
  rw [BitVec.getLsbD_append, if_neg (by omega)]
theorem bit_bool (b : Bool) : (BitVec.ofBool b).getLsbD 0 = b := by cases b <;> rfl

/-- A word is its bytes in memory order (R4, R258). -/
theorem wordOfBytes_wordBytes (w : Word) :
    wordOfBytes (w.extractLsb' 0 8) (w.extractLsb' 8 8) (w.extractLsb' 16 8) (w.extractLsb' 24 8) = w := by
  apply BitVec.eq_of_getLsbD_eq
  intro i hi
  unfold wordOfBytes
  by_cases h0 : i < 8
  · refine (bit_lo _ _ _ h0).trans ?_; simp [h0]
  refine (bit_hi _ _ _ (by omega)).trans ?_
  by_cases h1 : i < 16
  · refine (bit_lo _ _ _ (by omega)).trans ?_
    have : i - 8 < 8 := by omega
    have e : 8 + (i - 8) = i := by omega
    simp [this, e]
  refine (bit_hi _ _ _ (by omega)).trans ?_
  by_cases h2 : i < 24
  · refine (bit_lo _ _ _ (by omega)).trans ?_
    have : i - 8 - 8 < 8 := by omega
    have e : 16 + (i - 8 - 8) = i := by omega
    simp [this, e]
  refine (bit_hi _ _ _ (by omega)).trans ?_
  have : i - 8 - 8 - 8 < 8 := by omega
  have e : 24 + (i - 8 - 8 - 8) = i := by omega
  simp [this, e]

/-! ### The layouts, field by field -/

theorem packW0_sub (len : BitVec 2) (op : Byte) (u : Bool) (d a : BitVec 9) (sub : BitVec 3) : fld (packW0 len op u d a sub) 0 3 = sub :=
    (app_lo _ _ _ _ (by decide)).trans <| app_all _
theorem packW0_a (len : BitVec 2) (op : Byte) (u : Bool) (d a : BitVec 9) (sub : BitVec 3) : fld (packW0 len op u d a sub) 3 9 = a :=
    (app_hi _ _ _ _ (by decide)).trans <| (app_lo _ _ _ _ (by decide)).trans <| app_all _
theorem packW0_d (len : BitVec 2) (op : Byte) (u : Bool) (d a : BitVec 9) (sub : BitVec 3) : fld (packW0 len op u d a sub) 12 9 = d :=
    (app_hi _ _ _ _ (by decide)).trans <| (app_hi _ _ _ _ (by decide)).trans <| (app_lo _ _ _ _ (by decide)).trans <| app_all _
theorem packW0_u (len : BitVec 2) (op : Byte) (u : Bool) (d a : BitVec 9) (sub : BitVec 3) : fbit (packW0 len op u d a sub) 21 = u :=
    (bit_hi _ _ _ (by decide)).trans <| (bit_hi _ _ _ (by decide)).trans <| (bit_hi _ _ _ (by decide)).trans <|
    (bit_lo _ _ _ (by decide)).trans <| bit_bool _
theorem packW0_op (len : BitVec 2) (op : Byte) (u : Bool) (d a : BitVec 9) (sub : BitVec 3) : fld (packW0 len op u d a sub) 22 8 = op :=
    (app_hi _ _ _ _ (by decide)).trans <| (app_hi _ _ _ _ (by decide)).trans <| (app_hi _ _ _ _ (by decide)).trans <|
    (app_hi _ _ _ _ (by decide)).trans <| (app_lo _ _ _ _ (by decide)).trans <| app_all _
theorem packW0_len (len : BitVec 2) (op : Byte) (u : Bool) (d a : BitVec 9) (sub : BitVec 3) : fld (packW0 len op u d a sub) 30 2 = len :=
    (app_hi _ _ _ _ (by decide)).trans <| (app_hi _ _ _ _ (by decide)).trans <| (app_hi _ _ _ _ (by decide)).trans <|
    (app_hi _ _ _ _ (by decide)).trans <| (app_hi _ _ _ _ (by decide)).trans <| app_all _
theorem lop_mod (o : LOp) : fld (o.word1) 0 6 = o.mod :=
    (app_lo _ _ _ _ (by decide)).trans <| app_all _
theorem lop_bk (o : LOp) : fbit (o.word1) 6 = o.bk :=
    (bit_hi _ _ _ (by decide)).trans <| (bit_lo _ _ _ (by decide)).trans <| bit_bool _
theorem lop_ak (o : LOp) : fbit (o.word1) 7 = o.ak :=
    (bit_hi _ _ _ (by decide)).trans <| (bit_hi _ _ _ (by decide)).trans <| (bit_lo _ _ _ (by decide)).trans <| bit_bool _
theorem lop_pm (o : LOp) : fld (o.word1) 8 2 = o.pm :=
    (app_hi _ _ _ _ (by decide)).trans <| (app_hi _ _ _ _ (by decide)).trans <| (app_hi _ _ _ _ (by decide)).trans <|
    (app_lo _ _ _ _ (by decide)).trans <| app_all _
theorem lop_ps (o : LOp) : fld (o.word1) 10 4 = o.ps :=
    (app_hi _ _ _ _ (by decide)).trans <| (app_hi _ _ _ _ (by decide)).trans <| (app_hi _ _ _ _ (by decide)).trans <|
    (app_hi _ _ _ _ (by decide)).trans <| (app_lo _ _ _ _ (by decide)).trans <| app_all _
theorem lop_bs (o : LOp) : fld (o.word1) 14 5 = o.bs :=
    (app_hi _ _ _ _ (by decide)).trans <| (app_hi _ _ _ _ (by decide)).trans <| (app_hi _ _ _ _ (by decide)).trans <|
    (app_hi _ _ _ _ (by decide)).trans <| (app_hi _ _ _ _ (by decide)).trans <| (app_lo _ _ _ _ (by decide)).trans <| app_all _
theorem lop_bh (o : LOp) : fld (o.word1) 19 2 = o.bh :=
    (app_hi _ _ _ _ (by decide)).trans <| (app_hi _ _ _ _ (by decide)).trans <| (app_hi _ _ _ _ (by decide)).trans <|
    (app_hi _ _ _ _ (by decide)).trans <| (app_hi _ _ _ _ (by decide)).trans <| (app_hi _ _ _ _ (by decide)).trans <|
    (app_lo _ _ _ _ (by decide)).trans <| app_all _
theorem lop_bw (o : LOp) : fld (o.word1) 21 2 = o.bw :=
    (app_hi _ _ _ _ (by decide)).trans <| (app_hi _ _ _ _ (by decide)).trans <| (app_hi _ _ _ _ (by decide)).trans <|
    (app_hi _ _ _ _ (by decide)).trans <| (app_hi _ _ _ _ (by decide)).trans <| (app_hi _ _ _ _ (by decide)).trans <|
    (app_hi _ _ _ _ (by decide)).trans <| (app_lo _ _ _ _ (by decide)).trans <| app_all _
theorem lop_b (o : LOp) : fld (o.word1) 23 9 = o.b :=
    (app_hi _ _ _ _ (by decide)).trans <| (app_hi _ _ _ _ (by decide)).trans <| (app_hi _ _ _ _ (by decide)).trans <|
    (app_hi _ _ _ _ (by decide)).trans <| (app_hi _ _ _ _ (by decide)).trans <| (app_hi _ _ _ _ (by decide)).trans <|
    (app_hi _ _ _ _ (by decide)).trans <| (app_hi _ _ _ _ (by decide)).trans <| app_all _
theorem ctl_kind (o : CtlOp) : fld (o.word1) 0 2 = o.kind :=
    (app_lo _ _ _ _ (by decide)).trans <| app_all _
theorem ctl_sense (o : CtlOp) : fld (o.word1) 2 2 = o.sense :=
    (app_hi _ _ _ _ (by decide)).trans <| (app_lo _ _ _ _ (by decide)).trans <| app_all _
theorem ctl_pred (o : CtlOp) : fld (o.word1) 4 4 = o.pred :=
    (app_hi _ _ _ _ (by decide)).trans <| (app_hi _ _ _ _ (by decide)).trans <| (app_lo _ _ _ _ (by decide)).trans <| app_all _
theorem ctl_offset (o : CtlOp) : fld (o.word1) 8 24 = o.offset :=
    (app_hi _ _ _ _ (by decide)).trans <| (app_hi _ _ _ _ (by decide)).trans <| (app_hi _ _ _ _ (by decide)).trans <| app_all _
theorem mem_mark (o : MemOp) : fld (o.word1) 0 2 = o.mark :=
    (app_lo _ _ _ _ (by decide)).trans <| app_all _
theorem mem_scope (o : MemOp) : fld (o.word1) 2 3 = o.scope :=
    (app_hi _ _ _ _ (by decide)).trans <| (app_lo _ _ _ _ (by decide)).trans <| app_all _
theorem mem_nt (o : MemOp) : fbit (o.word1) 5 = o.nt :=
    (bit_hi _ _ _ (by decide)).trans <| (bit_hi _ _ _ (by decide)).trans <| (bit_lo _ _ _ (by decide)).trans <| bit_bool _
theorem mem_bk (o : MemOp) : fbit (o.word1) 6 = o.bk :=
    (bit_hi _ _ _ (by decide)).trans <| (bit_hi _ _ _ (by decide)).trans <| (bit_hi _ _ _ (by decide)).trans <|
    (bit_lo _ _ _ (by decide)).trans <| bit_bool _
theorem mem_ak (o : MemOp) : fbit (o.word1) 7 = o.ak :=
    (bit_hi _ _ _ (by decide)).trans <| (bit_hi _ _ _ (by decide)).trans <| (bit_hi _ _ _ (by decide)).trans <|
    (bit_hi _ _ _ (by decide)).trans <| (bit_lo _ _ _ (by decide)).trans <| bit_bool _
theorem mem_pm (o : MemOp) : fld (o.word1) 8 2 = o.pm :=
    (app_hi _ _ _ _ (by decide)).trans <| (app_hi _ _ _ _ (by decide)).trans <| (app_hi _ _ _ _ (by decide)).trans <|
    (app_hi _ _ _ _ (by decide)).trans <| (app_hi _ _ _ _ (by decide)).trans <| (app_lo _ _ _ _ (by decide)).trans <| app_all _
theorem mem_ps (o : MemOp) : fld (o.word1) 10 4 = o.ps :=
    (app_hi _ _ _ _ (by decide)).trans <| (app_hi _ _ _ _ (by decide)).trans <| (app_hi _ _ _ _ (by decide)).trans <|
    (app_hi _ _ _ _ (by decide)).trans <| (app_hi _ _ _ _ (by decide)).trans <| (app_hi _ _ _ _ (by decide)).trans <|
    (app_lo _ _ _ _ (by decide)).trans <| app_all _
theorem mem_zero (o : MemOp) : fld (o.word1) 14 9 = o.zero :=
    (app_hi _ _ _ _ (by decide)).trans <| (app_hi _ _ _ _ (by decide)).trans <| (app_hi _ _ _ _ (by decide)).trans <|
    (app_hi _ _ _ _ (by decide)).trans <| (app_hi _ _ _ _ (by decide)).trans <| (app_hi _ _ _ _ (by decide)).trans <|
    (app_hi _ _ _ _ (by decide)).trans <| (app_lo _ _ _ _ (by decide)).trans <| app_all _
theorem mem_b (o : MemOp) : fld (o.word1) 23 9 = o.b :=
    (app_hi _ _ _ _ (by decide)).trans <| (app_hi _ _ _ _ (by decide)).trans <| (app_hi _ _ _ _ (by decide)).trans <|
    (app_hi _ _ _ _ (by decide)).trans <| (app_hi _ _ _ _ (by decide)).trans <| (app_hi _ _ _ _ (by decide)).trans <|
    (app_hi _ _ _ _ (by decide)).trans <| (app_hi _ _ _ _ (by decide)).trans <| app_all _
theorem atom_low (o : AtomOp) : fld (o.word1) 0 2 = o.low :=
    (app_lo _ _ _ _ (by decide)).trans <| app_all _
theorem atom_x4 (o : AtomOp) : fbit (o.word1) 2 = o.x4 :=
    (bit_hi _ _ _ (by decide)).trans <| (bit_lo _ _ _ (by decide)).trans <| bit_bool _
theorem atom_ty (o : AtomOp) : fld (o.word1) 3 3 = o.ty :=
    (app_hi _ _ _ _ (by decide)).trans <| (app_hi _ _ _ _ (by decide)).trans <| (app_lo _ _ _ _ (by decide)).trans <| app_all _
theorem atom_bk (o : AtomOp) : fbit (o.word1) 6 = o.bk :=
    (bit_hi _ _ _ (by decide)).trans <| (bit_hi _ _ _ (by decide)).trans <| (bit_hi _ _ _ (by decide)).trans <|
    (bit_lo _ _ _ (by decide)).trans <| bit_bool _
theorem atom_ak (o : AtomOp) : fbit (o.word1) 7 = o.ak :=
    (bit_hi _ _ _ (by decide)).trans <| (bit_hi _ _ _ (by decide)).trans <| (bit_hi _ _ _ (by decide)).trans <|
    (bit_hi _ _ _ (by decide)).trans <| (bit_lo _ _ _ (by decide)).trans <| bit_bool _
theorem atom_pm (o : AtomOp) : fld (o.word1) 8 2 = o.pm :=
    (app_hi _ _ _ _ (by decide)).trans <| (app_hi _ _ _ _ (by decide)).trans <| (app_hi _ _ _ _ (by decide)).trans <|
    (app_hi _ _ _ _ (by decide)).trans <| (app_hi _ _ _ _ (by decide)).trans <| (app_lo _ _ _ _ (by decide)).trans <| app_all _
theorem atom_ps (o : AtomOp) : fld (o.word1) 10 4 = o.ps :=
    (app_hi _ _ _ _ (by decide)).trans <| (app_hi _ _ _ _ (by decide)).trans <| (app_hi _ _ _ _ (by decide)).trans <|
    (app_hi _ _ _ _ (by decide)).trans <| (app_hi _ _ _ _ (by decide)).trans <| (app_hi _ _ _ _ (by decide)).trans <|
    (app_lo _ _ _ _ (by decide)).trans <| app_all _
theorem atom_zero (o : AtomOp) : fld (o.word1) 14 4 = o.zero :=
    (app_hi _ _ _ _ (by decide)).trans <| (app_hi _ _ _ _ (by decide)).trans <| (app_hi _ _ _ _ (by decide)).trans <|
    (app_hi _ _ _ _ (by decide)).trans <| (app_hi _ _ _ _ (by decide)).trans <| (app_hi _ _ _ _ (by decide)).trans <|
    (app_hi _ _ _ _ (by decide)).trans <| (app_lo _ _ _ _ (by decide)).trans <| app_all _
theorem atom_mark (o : AtomOp) : fld (o.word1) 18 2 = o.mark :=
    (app_hi _ _ _ _ (by decide)).trans <| (app_hi _ _ _ _ (by decide)).trans <| (app_hi _ _ _ _ (by decide)).trans <|
    (app_hi _ _ _ _ (by decide)).trans <| (app_hi _ _ _ _ (by decide)).trans <| (app_hi _ _ _ _ (by decide)).trans <|
    (app_hi _ _ _ _ (by decide)).trans <| (app_hi _ _ _ _ (by decide)).trans <| (app_lo _ _ _ _ (by decide)).trans <| app_all _
theorem atom_scope (o : AtomOp) : fld (o.word1) 20 3 = o.scope :=
    (app_hi _ _ _ _ (by decide)).trans <| (app_hi _ _ _ _ (by decide)).trans <| (app_hi _ _ _ _ (by decide)).trans <|
    (app_hi _ _ _ _ (by decide)).trans <| (app_hi _ _ _ _ (by decide)).trans <| (app_hi _ _ _ _ (by decide)).trans <|
    (app_hi _ _ _ _ (by decide)).trans <| (app_hi _ _ _ _ (by decide)).trans <| (app_hi _ _ _ _ (by decide)).trans <|
    (app_lo _ _ _ _ (by decide)).trans <| app_all _
theorem atom_b (o : AtomOp) : fld (o.word1) 23 9 = o.b :=
    (app_hi _ _ _ _ (by decide)).trans <| (app_hi _ _ _ _ (by decide)).trans <| (app_hi _ _ _ _ (by decide)).trans <|
    (app_hi _ _ _ _ (by decide)).trans <| (app_hi _ _ _ _ (by decide)).trans <| (app_hi _ _ _ _ (by decide)).trans <|
    (app_hi _ _ _ _ (by decide)).trans <| (app_hi _ _ _ _ (by decide)).trans <| (app_hi _ _ _ _ (by decide)).trans <|
    (app_hi _ _ _ _ (by decide)).trans <| app_all _
theorem trace0_nshadow (h : TraceHdr) : fld (h.word0) 0 6 = h.nshadow :=
    (app_lo _ _ _ _ (by decide)).trans <| app_all _
theorem trace0_nstore (h : TraceHdr) : fld (h.word0) 6 5 = h.nstore :=
    (app_hi _ _ _ _ (by decide)).trans <| (app_lo _ _ _ _ (by decide)).trans <| app_all _
theorem trace0_nlen (h : TraceHdr) : fld (h.word0) 11 8 = h.nlen :=
    (app_hi _ _ _ _ (by decide)).trans <| (app_hi _ _ _ _ (by decide)).trans <| (app_lo _ _ _ _ (by decide)).trans <| app_all _
theorem trace0_mode (h : TraceHdr) : fbit (h.word0) 19 = h.mode :=
    (bit_hi _ _ _ (by decide)).trans <| (bit_hi _ _ _ (by decide)).trans <| (bit_hi _ _ _ (by decide)).trans <|
    (bit_lo _ _ _ (by decide)).trans <| bit_bool _
theorem trace0_kind (h : TraceHdr) : fld (h.word0) 20 2 = h.kind :=
    (app_hi _ _ _ _ (by decide)).trans <| (app_hi _ _ _ _ (by decide)).trans <| (app_hi _ _ _ _ (by decide)).trans <|
    (app_hi _ _ _ _ (by decide)).trans <| (app_lo _ _ _ _ (by decide)).trans <| app_all _
theorem trace1_park (h : TraceHdr) : fld (h.word1) 0 12 = h.park :=
    (app_lo _ _ _ _ (by decide)).trans <| app_all _
theorem trace1_rejoin (h : TraceHdr) : fld (h.word1) 12 12 = h.rejoin :=
    (app_hi _ _ _ _ (by decide)).trans <| (app_lo _ _ _ _ (by decide)).trans <| app_all _
theorem trace1_zero (h : TraceHdr) : fbit (h.word1) 24 = h.zero :=
    (bit_hi _ _ _ (by decide)).trans <| (bit_hi _ _ _ (by decide)).trans <| (bit_lo _ _ _ (by decide)).trans <| bit_bool _
theorem trace1_nspawn (h : TraceHdr) : fbit (h.word1) 25 = h.nspawn :=
    (bit_hi _ _ _ (by decide)).trans <| (bit_hi _ _ _ (by decide)).trans <| (bit_hi _ _ _ (by decide)).trans <|
    (bit_lo _ _ _ (by decide)).trans <| bit_bool _
theorem trace1_npost (h : TraceHdr) : fld (h.word1) 26 3 = h.npost :=
    (app_hi _ _ _ _ (by decide)).trans <| (app_hi _ _ _ _ (by decide)).trans <| (app_hi _ _ _ _ (by decide)).trans <|
    (app_hi _ _ _ _ (by decide)).trans <| (app_lo _ _ _ _ (by decide)).trans <| app_all _
theorem trace1_natom (h : TraceHdr) : fld (h.word1) 29 3 = h.natom :=
    (app_hi _ _ _ _ (by decide)).trans <| (app_hi _ _ _ _ (by decide)).trans <| (app_hi _ _ _ _ (by decide)).trans <|
    (app_hi _ _ _ _ (by decide)).trans <| (app_hi _ _ _ _ (by decide)).trans <| app_all _
theorem wait_tl (c : WaitCounts) : fld (c.word1) 0 8 = c.tl :=
    (app_lo _ _ _ _ (by decide)).trans <| app_all _
theorem wait_cp (c : WaitCounts) : fld (c.word1) 8 8 = c.cp :=
    (app_hi _ _ _ _ (by decide)).trans <| (app_lo _ _ _ _ (by decide)).trans <| app_all _
theorem wait_st (c : WaitCounts) : fld (c.word1) 16 8 = c.st :=
    (app_hi _ _ _ _ (by decide)).trans <| (app_hi _ _ _ _ (by decide)).trans <| (app_lo _ _ _ _ (by decide)).trans <| app_all _
theorem wait_ld (c : WaitCounts) : fld (c.word1) 24 8 = c.ld :=
    (app_hi _ _ _ _ (by decide)).trans <| (app_hi _ _ _ _ (by decide)).trans <| (app_hi _ _ _ _ (by decide)).trans <| app_all _
theorem sop_x (op : BitVec 7) (o : SOp) : fbit (o.word op) 0 = o.x :=
    (bit_lo _ _ _ (by decide)).trans <| bit_bool _
theorem sop_b (op : BitVec 7) (o : SOp) : fld (o.word op) 1 7 = o.b :=
    (app_hi _ _ _ _ (by decide)).trans <| (app_lo _ _ _ _ (by decide)).trans <| app_all _
theorem sop_a (op : BitVec 7) (o : SOp) : fld (o.word op) 8 7 = o.a :=
    (app_hi _ _ _ _ (by decide)).trans <| (app_hi _ _ _ _ (by decide)).trans <| (app_lo _ _ _ _ (by decide)).trans <| app_all _
theorem sop_d (op : BitVec 7) (o : SOp) : fld (o.word op) 15 7 = o.d :=
    (app_hi _ _ _ _ (by decide)).trans <| (app_hi _ _ _ _ (by decide)).trans <| (app_hi _ _ _ _ (by decide)).trans <|
    (app_lo _ _ _ _ (by decide)).trans <| app_all _
theorem sop_u (op : BitVec 7) (o : SOp) : fbit (o.word op) 22 = o.u :=
    (bit_hi _ _ _ (by decide)).trans <| (bit_hi _ _ _ (by decide)).trans <| (bit_hi _ _ _ (by decide)).trans <|
    (bit_hi _ _ _ (by decide)).trans <| (bit_lo _ _ _ (by decide)).trans <| bit_bool _
theorem sop_op (op : BitVec 7) (o : SOp) : fld (o.word op) 23 7 = op :=
    (app_hi _ _ _ _ (by decide)).trans <| (app_hi _ _ _ _ (by decide)).trans <| (app_hi _ _ _ _ (by decide)).trans <|
    (app_hi _ _ _ _ (by decide)).trans <| (app_hi _ _ _ _ (by decide)).trans <| (app_lo _ _ _ _ (by decide)).trans <| app_all _
theorem pilot_imm (opc : BitVec 5) (d a b : BitVec 3) (imm : BitVec 18) : fld (packPilot opc d a b imm) 0 18 = imm :=
    (app_lo _ _ _ _ (by decide)).trans <| app_all _
theorem pilot_b (opc : BitVec 5) (d a b : BitVec 3) (imm : BitVec 18) : fld (packPilot opc d a b imm) 18 3 = b :=
    (app_hi _ _ _ _ (by decide)).trans <| (app_lo _ _ _ _ (by decide)).trans <| app_all _
theorem pilot_a (opc : BitVec 5) (d a b : BitVec 3) (imm : BitVec 18) : fld (packPilot opc d a b imm) 21 3 = a :=
    (app_hi _ _ _ _ (by decide)).trans <| (app_hi _ _ _ _ (by decide)).trans <| (app_lo _ _ _ _ (by decide)).trans <| app_all _
theorem pilot_d (opc : BitVec 5) (d a b : BitVec 3) (imm : BitVec 18) : fld (packPilot opc d a b imm) 24 3 = d :=
    (app_hi _ _ _ _ (by decide)).trans <| (app_hi _ _ _ _ (by decide)).trans <| (app_hi _ _ _ _ (by decide)).trans <|
    (app_lo _ _ _ _ (by decide)).trans <| app_all _
theorem pilot_opc (opc : BitVec 5) (d a b : BitVec 3) (imm : BitVec 18) : fld (packPilot opc d a b imm) 27 5 = opc :=
    (app_hi _ _ _ _ (by decide)).trans <| (app_hi _ _ _ _ (by decide)).trans <| (app_hi _ _ _ _ (by decide)).trans <|
    (app_hi _ _ _ _ (by decide)).trans <| app_all _

theorem trace0_op (h : TraceHdr) : fld h.word0 22 8 = 0 :=
    (app_hi _ _ _ _ (by decide)).trans <| (app_hi _ _ _ _ (by decide)).trans <| (app_hi _ _ _ _ (by decide)).trans <|
    (app_hi _ _ _ _ (by decide)).trans <| (app_hi _ _ _ _ (by decide)).trans <| (app_lo _ _ _ _ (by decide)).trans <| app_all _
theorem trace0_len (h : TraceHdr) : fld h.word0 30 2 = 1 :=
    (app_hi _ _ _ _ (by decide)).trans <| (app_hi _ _ _ _ (by decide)).trans <| (app_hi _ _ _ _ (by decide)).trans <|
    (app_hi _ _ _ _ (by decide)).trans <| (app_hi _ _ _ _ (by decide)).trans <| (app_hi _ _ _ _ (by decide)).trans <| app_all _
theorem sop_len (op : BitVec 7) (o : SOp) : fld (o.word op) 30 2 = 0 :=
    (app_hi _ _ _ _ (by decide)).trans <| (app_hi _ _ _ _ (by decide)).trans <| (app_hi _ _ _ _ (by decide)).trans <|
    (app_hi _ _ _ _ (by decide)).trans <| (app_hi _ _ _ _ (by decide)).trans <| (app_hi _ _ _ _ (by decide)).trans <| app_all _

/-! ### Whole layouts -/

/-- The L-form layout gives back its operands (R262). -/
theorem unpackL_pack (len : BitVec 2) (op : Byte) (o : LOp) :
    unpackL (packW0 len op o.u o.d o.a o.sub) o.word1 o.w2 = o := by
  unfold unpackL
  rw [packW0_u, packW0_d, packW0_a, packW0_sub, lop_b, lop_bw, lop_bh, lop_bs, lop_ps, lop_pm, lop_ak, lop_bk, lop_mod]
/-- The control layout (R269). -/
theorem unpackCtl_pack (len : BitVec 2) (op : Byte) (o : CtlOp) :
    unpackCtl (packW0 len op o.u o.d o.a o.sub) o.word1 o.w2 = o := by
  unfold unpackCtl
  rw [packW0_u, packW0_d, packW0_a, packW0_sub, ctl_offset, ctl_pred, ctl_sense, ctl_kind]
/-- The memory layout (R344). -/
theorem unpackMem_pack (len : BitVec 2) (op : Byte) (o : MemOp) :
    unpackMem (packW0 len op o.u o.d o.a o.sub) o.word1 o.w2 = o := by
  unfold unpackMem
  rw [packW0_u, packW0_d, packW0_a, packW0_sub, mem_b, mem_zero, mem_ps, mem_pm, mem_ak, mem_bk, mem_nt, mem_scope, mem_mark]
/-- The atomic layout (R355). -/
theorem unpackAtom_pack (len : BitVec 2) (op : Byte) (o : AtomOp) :
    unpackAtom (packW0 len op o.u o.d o.a o.sub) o.word1 o.w2 = o := by
  unfold unpackAtom
  rw [packW0_u, packW0_d, packW0_a, packW0_sub, atom_b, atom_scope, atom_mark, atom_zero, atom_ps, atom_pm, atom_ak, atom_bk,
    atom_ty, atom_x4, atom_low]
/-- The trace header (R287). -/
theorem unpackTrace_pack (h : TraceHdr) : unpackTrace h.word0 h.word1 = h := by
  unfold unpackTrace
  rw [trace0_kind, trace0_mode, trace0_nlen, trace0_nstore, trace0_nshadow, trace1_natom, trace1_npost, trace1_nspawn, trace1_zero,
    trace1_rejoin, trace1_park]
/-- WAITC's counts (R300). -/
theorem unpackWait_pack (c : WaitCounts) : unpackWait c.word1 = c := by
  unfold unpackWait
  rw [wait_ld, wait_st, wait_cp, wait_tl]
/-- The S-form (R259). -/
theorem unpackS_pack (op : BitVec 7) (o : SOp) : unpackS (o.word op) = o := by
  unfold unpackS
  rw [sop_u, sop_d, sop_a, sop_b, sop_x]

/-! ### Decoding what was packed -/

theorem decode_one (w : Word) (rest : List Byte) (h : fld w 30 2 = 0) :
    decode (wordBytes w ++ rest) = (decodeShort w).map (·, rest) := by
  simp only [wordBytes, wordBytes.fldB, List.cons_append, List.nil_append, decode, wordOfBytes_wordBytes, h]
  rfl
theorem decode_two (w0 w1 : Word) (rest : List Byte) (h : fld w0 30 2 = 1) :
    decode (wordBytes w0 ++ (wordBytes w1 ++ rest)) = (decodeLong w0 w1 none).map (·, rest) := by
  simp only [wordBytes, wordBytes.fldB, List.cons_append, List.nil_append, decode, wordOfBytes_wordBytes, h]
  rfl
theorem decode_three (w0 w1 w2 : Word) (rest : List Byte) (h : fld w0 30 2 = 2) :
    decode (wordBytes w0 ++ (wordBytes w1 ++ (wordBytes w2 ++ rest))) = (decodeLong w0 w1 (some w2)).map (·, rest) := by
  simp only [wordBytes, wordBytes.fldB, List.cons_append, List.nil_append, decode, wordOfBytes_wordBytes, h]
  rfl

/-- Words of the L- or X-form are read as one instruction. -/
theorem decode_long (op : Byte) (u : Bool) (d a : BitVec 9) (sub : BitVec 3) (w1 : Word) (w2 : Option Word) (rest : List Byte) :
    decode ((packW0 (lenOf w2) op u d a sub :: w1 :: w2.toList).flatMap wordBytes ++ rest) =
      (decodeLong (packW0 (lenOf w2) op u d a sub) w1 w2).map (·, rest) := by
  cases w2 with
  | none =>
    simp only [Option.toList, List.flatMap_cons, List.flatMap_nil, List.append_nil, List.append_assoc]
    exact decode_two _ _ _ (packW0_len ..)
  | some w =>
    simp only [Option.toList, List.flatMap_cons, List.flatMap_nil, List.append_nil, List.append_assoc]
    exact decode_three _ _ _ _ (packW0_len ..)

/-- The opcode of packed words selects the map's entry. -/
theorem decodeLong_pack (len : BitVec 2) (op : Byte) (u : Bool) (d a : BitVec 9) (sub : BitVec 3) (w1 : Word) (w2 : Option Word) :
    decodeLong (packW0 len op u d a sub) w1 w2 =
      match lInstr op.toNat (packW0 len op u d a sub) w1 w2 with
      | some r => checked r
      | none =>
        match plainInstr op.toNat (unpackL (packW0 len op u d a sub) w1 w2) with
        | some r => checked r
        | none => .error (.unallocated op.toNat) := by
  unfold decodeLong; rw [packW0_op] <;> rfl

/-- An opcode of the plain L-form layout decodes to what its map gives for the operands. -/
theorem decode_plain (op : Byte) (o : LOp) (i : Instr) (rest : List Byte) (hl : ∀ w0 w1 w2, lInstr op.toNat w0 w1 w2 = none)
    (hp : plainInstr op.toNat o = some (some i)) (hw : i.wf = true) : decode ((encL op o).flatMap wordBytes ++ rest) = .ok (i, rest) := by
  unfold encL
  rw [decode_long, decodeLong_pack, hl, unpackL_pack]
  simp only [hp, checked, hw, if_true]; rfl

/-- An opcode of another layout decodes to what its map gives for the words. -/
theorem decode_other (op : Byte) (u : Bool) (d a : BitVec 9) (sub : BitVec 3) (w1 : Word) (w2 : Option Word) (i : Instr)
    (rest : List Byte) (hp : lInstr op.toNat (packW0 (lenOf w2) op u d a sub) w1 w2 = some (some i)) (hw : i.wf = true) :
    decode ((packW0 (lenOf w2) op u d a sub :: w1 :: w2.toList).flatMap wordBytes ++ rest) = .ok (i, rest) := by
  rw [decode_long, decodeLong_pack, hp]
  simp only [checked, hw, if_true]; rfl

/-- The control layout. -/
theorem decode_ctl (op : Byte) (o : CtlOp) (i : Instr) (rest : List Byte)
    (hp : ∀ w0 w1 w2, unpackCtl w0 w1 w2 = o → lInstr op.toNat w0 w1 w2 = some (some i)) (hw : i.wf = true) :
    decode ((encC op o).flatMap wordBytes ++ rest) = .ok (i, rest) :=
  decode_other _ _ _ _ _ _ _ _ _ (hp _ _ _ (unpackCtl_pack _ _ o)) hw
/-- The memory layout. -/
theorem decode_mem (op : Byte) (o : MemOp) (i : Instr) (rest : List Byte)
    (hp : ∀ w0 w1 w2, unpackMem w0 w1 w2 = o → lInstr op.toNat w0 w1 w2 = some (some i)) (hw : i.wf = true) :
    decode ((encM op o).flatMap wordBytes ++ rest) = .ok (i, rest) :=
  decode_other _ _ _ _ _ _ _ _ _ (hp _ _ _ (unpackMem_pack _ _ o)) hw
/-- The atomic layout. -/
theorem decode_atom (op : Byte) (o : AtomOp) (i : Instr) (rest : List Byte)
    (hp : ∀ w0 w1 w2, unpackAtom w0 w1 w2 = o → lInstr op.toNat w0 w1 w2 = some (some i)) (hw : i.wf = true) :
    decode ((encA op o).flatMap wordBytes ++ rest) = .ok (i, rest) :=
  decode_other _ _ _ _ _ _ _ _ _ (hp _ _ _ (unpackAtom_pack _ _ o)) hw

/-- The S-form. -/
theorem decode_s (op : BitVec 7) (o : SOp) (i : Instr) (rest : List Byte) (h0 : op.toNat ≠ 0) (hp : sInstr op.toNat o = some i)
    (hw : i.wf = true) : decode (([o.word op]).flatMap wordBytes ++ rest) = .ok (i, rest) := by
  simp only [List.flatMap_cons, List.flatMap_nil, List.append_nil]
  rw [decode_one _ _ (sop_len op o)]
  unfold decodeShort
  simp only [sop_op, h0, if_false, unpackS_pack, hp, hw, if_true]; rfl

/-- A pilot word decodes to the operation that its fields give. -/
theorem decode_pilot (opc : BitVec 5) (d a b : BitVec 3) (imm : BitVec 18) (i : Instr) (h : opc.toNat < 0x18)
    (hp : pilotInstr opc.toNat d a b imm = some i) (hw : i.wf = true) : decodePilot (packPilot opc d a b imm) = .ok i := by
  unfold decodePilot
  simp only [pilot_opc, pilot_d, pilot_a, pilot_b, pilot_imm, hp, hw, if_true]
  rw [if_neg (by omega)]

end Sys2Proof
end

