-- ==== Sys2Proof/Laws/State.lean ====
section
/-! SUPPORT. One lemma per field per update of the state and of its parts, each true by `rfl`. -/
namespace Sys2Proof.Machine

/-! ### `State.setDie` changes `dies` alone -/
@[simp] theorem State.setDie_cycles (s : State) (d : Nat) (x : Die) : (s.setDie d x).cycles = s.cycles := rfl
@[simp] theorem State.setDie_bootReport (s : State) (d : Nat) (x : Die) : (s.setDie d x).bootReport = s.bootReport := rfl
@[simp] theorem State.setDie_boundaries (s : State) (d : Nat) (x : Die) : (s.setDie d x).boundaries = s.boundaries := rfl
@[simp] theorem State.setDie_ports (s : State) (d : Nat) (x : Die) : (s.setDie d x).ports = s.ports := rfl
@[simp] theorem State.setDie_upWidth (s : State) (d : Nat) (x : Die) : (s.setDie d x).upWidth = s.upWidth := rfl
@[simp] theorem State.setDie_upRate (s : State) (d : Nat) (x : Die) : (s.setDie d x).upRate = s.upRate := rfl
@[simp] theorem State.setDie_windows (s : State) (d : Nat) (x : Die) : (s.setDie d x).windows = s.windows := rfl
@[simp] theorem State.setDie_msix (s : State) (d : Nat) (x : Die) : (s.setDie d x).msix = s.msix := rfl
@[simp] theorem State.setDie_pba (s : State) (d : Nat) (x : Die) : (s.setDie d x).pba = s.pba := rfl
@[simp] theorem State.setDie_signalled (s : State) (d : Nat) (x : Die) : (s.setDie d x).signalled = s.signalled := rfl
@[simp] theorem State.setDie_doe (s : State) (d : Nat) (x : Die) : (s.setDie d x).doe = s.doe := rfl
@[simp] theorem State.setDie_hostRead (s : State) (d : Nat) (x : Die) : (s.setDie d x).hostRead = s.hostRead := rfl
@[simp] theorem State.setDie_hostmem (s : State) (d : Nat) (x : Die) : (s.setDie d x).hostmem = s.hostmem := rfl
@[simp] theorem State.setDie_hostfail (s : State) (d : Nat) (x : Die) : (s.setDie d x).hostfail = s.hostfail := rfl
@[simp] theorem State.setDie_mem (s : State) (d : Nat) (x : Die) : (s.setDie d x).mem = s.mem := rfl
@[simp] theorem State.setDie_flaws (s : State) (d : Nat) (x : Die) : (s.setDie d x).flaws = s.flaws := rfl
@[simp] theorem State.setDie_parts (s : State) (d : Nat) (x : Die) : (s.setDie d x).parts = s.parts := rfl
@[simp] theorem State.setDie_launches (s : State) (d : Nat) (x : Die) : (s.setDie d x).launches = s.launches := rfl
@[simp] theorem State.setDie_wkgs (s : State) (d : Nat) (x : Die) : (s.setDie d x).wkgs = s.wkgs := rfl
@[simp] theorem State.setDie_remains (s : State) (d : Nat) (x : Die) : (s.setDie d x).remains = s.remains := rfl
@[simp] theorem State.setDie_groups (s : State) (d : Nat) (x : Die) : (s.setDie d x).groups = s.groups := rfl
@[simp] theorem State.setDie_pipe (s : State) (d : Nat) (x : Die) : (s.setDie d x).pipe = s.pipe := rfl
@[simp] theorem State.setDie_tlb (s : State) (d : Nat) (x : Die) : (s.setDie d x).tlb = s.tlb := rfl
@[simp] theorem State.setDie_l1 (s : State) (d : Nat) (x : Die) : (s.setDie d x).l1 = s.l1 := rfl
@[simp] theorem State.setDie_icache (s : State) (d : Nat) (x : Die) : (s.setDie d x).icache = s.icache := rfl
@[simp] theorem State.setDie_fenced (s : State) (d : Nat) (x : Die) : (s.setDie d x).fenced = s.fenced := rfl
@[simp] theorem State.setDie_merge (s : State) (d : Nat) (x : Die) : (s.setDie d x).merge = s.merge := rfl
@[simp] theorem State.setDie_fatals (s : State) (d : Nat) (x : Die) : (s.setDie d x).fatals = s.fatals := rfl
@[simp] theorem State.setDie_journal (s : State) (d : Nat) (x : Die) : (s.setDie d x).journal = s.journal := rfl
@[simp] theorem State.setDie_calls (s : State) (d : Nat) (x : Die) : (s.setDie d x).calls = s.calls := rfl
@[simp] theorem State.setDie_nextId (s : State) (d : Nat) (x : Die) : (s.setDie d x).nextId = s.nextId := rfl
@[simp] theorem State.setDie_stampNext (s : State) (d : Nat) (x : Die) : (s.setDie d x).stampNext = s.stampNext := rfl
@[simp] theorem State.setDie_cur (s : State) (d : Nat) (x : Die) : (s.setDie d x).cur = s.cur := rfl
@[simp] theorem State.setDie_agenda (s : State) (d : Nat) (x : Die) : (s.setDie d x).agenda = s.agenda := rfl
@[simp] theorem State.setDie_tick (s : State) (d : Nat) (x : Die) : (s.setDie d x).tick = s.tick := rfl

/-! ### `State.setWin` changes `windows` alone -/
@[simp] theorem State.setWin_dies (s : State) (w : Nat) (x : Window) : (s.setWin w x).dies = s.dies := rfl
@[simp] theorem State.setWin_cycles (s : State) (w : Nat) (x : Window) : (s.setWin w x).cycles = s.cycles := rfl
@[simp] theorem State.setWin_bootReport (s : State) (w : Nat) (x : Window) : (s.setWin w x).bootReport = s.bootReport := rfl
@[simp] theorem State.setWin_boundaries (s : State) (w : Nat) (x : Window) : (s.setWin w x).boundaries = s.boundaries := rfl
@[simp] theorem State.setWin_ports (s : State) (w : Nat) (x : Window) : (s.setWin w x).ports = s.ports := rfl
@[simp] theorem State.setWin_upWidth (s : State) (w : Nat) (x : Window) : (s.setWin w x).upWidth = s.upWidth := rfl
@[simp] theorem State.setWin_upRate (s : State) (w : Nat) (x : Window) : (s.setWin w x).upRate = s.upRate := rfl
@[simp] theorem State.setWin_msix (s : State) (w : Nat) (x : Window) : (s.setWin w x).msix = s.msix := rfl
@[simp] theorem State.setWin_pba (s : State) (w : Nat) (x : Window) : (s.setWin w x).pba = s.pba := rfl
@[simp] theorem State.setWin_signalled (s : State) (w : Nat) (x : Window) : (s.setWin w x).signalled = s.signalled := rfl
@[simp] theorem State.setWin_doe (s : State) (w : Nat) (x : Window) : (s.setWin w x).doe = s.doe := rfl
@[simp] theorem State.setWin_hostRead (s : State) (w : Nat) (x : Window) : (s.setWin w x).hostRead = s.hostRead := rfl
@[simp] theorem State.setWin_hostmem (s : State) (w : Nat) (x : Window) : (s.setWin w x).hostmem = s.hostmem := rfl
@[simp] theorem State.setWin_hostfail (s : State) (w : Nat) (x : Window) : (s.setWin w x).hostfail = s.hostfail := rfl
@[simp] theorem State.setWin_mem (s : State) (w : Nat) (x : Window) : (s.setWin w x).mem = s.mem := rfl
@[simp] theorem State.setWin_flaws (s : State) (w : Nat) (x : Window) : (s.setWin w x).flaws = s.flaws := rfl
@[simp] theorem State.setWin_parts (s : State) (w : Nat) (x : Window) : (s.setWin w x).parts = s.parts := rfl
@[simp] theorem State.setWin_launches (s : State) (w : Nat) (x : Window) : (s.setWin w x).launches = s.launches := rfl
@[simp] theorem State.setWin_wkgs (s : State) (w : Nat) (x : Window) : (s.setWin w x).wkgs = s.wkgs := rfl
@[simp] theorem State.setWin_remains (s : State) (w : Nat) (x : Window) : (s.setWin w x).remains = s.remains := rfl
@[simp] theorem State.setWin_groups (s : State) (w : Nat) (x : Window) : (s.setWin w x).groups = s.groups := rfl
@[simp] theorem State.setWin_pipe (s : State) (w : Nat) (x : Window) : (s.setWin w x).pipe = s.pipe := rfl
@[simp] theorem State.setWin_tlb (s : State) (w : Nat) (x : Window) : (s.setWin w x).tlb = s.tlb := rfl
@[simp] theorem State.setWin_l1 (s : State) (w : Nat) (x : Window) : (s.setWin w x).l1 = s.l1 := rfl
@[simp] theorem State.setWin_icache (s : State) (w : Nat) (x : Window) : (s.setWin w x).icache = s.icache := rfl
@[simp] theorem State.setWin_fenced (s : State) (w : Nat) (x : Window) : (s.setWin w x).fenced = s.fenced := rfl
@[simp] theorem State.setWin_merge (s : State) (w : Nat) (x : Window) : (s.setWin w x).merge = s.merge := rfl
@[simp] theorem State.setWin_fatals (s : State) (w : Nat) (x : Window) : (s.setWin w x).fatals = s.fatals := rfl
@[simp] theorem State.setWin_journal (s : State) (w : Nat) (x : Window) : (s.setWin w x).journal = s.journal := rfl
@[simp] theorem State.setWin_calls (s : State) (w : Nat) (x : Window) : (s.setWin w x).calls = s.calls := rfl
@[simp] theorem State.setWin_nextId (s : State) (w : Nat) (x : Window) : (s.setWin w x).nextId = s.nextId := rfl
@[simp] theorem State.setWin_stampNext (s : State) (w : Nat) (x : Window) : (s.setWin w x).stampNext = s.stampNext := rfl
@[simp] theorem State.setWin_cur (s : State) (w : Nat) (x : Window) : (s.setWin w x).cur = s.cur := rfl
@[simp] theorem State.setWin_agenda (s : State) (w : Nat) (x : Window) : (s.setWin w x).agenda = s.agenda := rfl
@[simp] theorem State.setWin_tick (s : State) (w : Nat) (x : Window) : (s.setWin w x).tick = s.tick := rfl

/-! ### `State.setGroup` changes `groups` alone -/
@[simp] theorem State.setGroup_dies (s : State) (x : Group) : (s.setGroup x).dies = s.dies := rfl
@[simp] theorem State.setGroup_cycles (s : State) (x : Group) : (s.setGroup x).cycles = s.cycles := rfl
@[simp] theorem State.setGroup_bootReport (s : State) (x : Group) : (s.setGroup x).bootReport = s.bootReport := rfl
@[simp] theorem State.setGroup_boundaries (s : State) (x : Group) : (s.setGroup x).boundaries = s.boundaries := rfl
@[simp] theorem State.setGroup_ports (s : State) (x : Group) : (s.setGroup x).ports = s.ports := rfl
@[simp] theorem State.setGroup_upWidth (s : State) (x : Group) : (s.setGroup x).upWidth = s.upWidth := rfl
@[simp] theorem State.setGroup_upRate (s : State) (x : Group) : (s.setGroup x).upRate = s.upRate := rfl
@[simp] theorem State.setGroup_windows (s : State) (x : Group) : (s.setGroup x).windows = s.windows := rfl
@[simp] theorem State.setGroup_msix (s : State) (x : Group) : (s.setGroup x).msix = s.msix := rfl
@[simp] theorem State.setGroup_pba (s : State) (x : Group) : (s.setGroup x).pba = s.pba := rfl
@[simp] theorem State.setGroup_signalled (s : State) (x : Group) : (s.setGroup x).signalled = s.signalled := rfl
@[simp] theorem State.setGroup_doe (s : State) (x : Group) : (s.setGroup x).doe = s.doe := rfl
@[simp] theorem State.setGroup_hostRead (s : State) (x : Group) : (s.setGroup x).hostRead = s.hostRead := rfl
@[simp] theorem State.setGroup_hostmem (s : State) (x : Group) : (s.setGroup x).hostmem = s.hostmem := rfl
@[simp] theorem State.setGroup_hostfail (s : State) (x : Group) : (s.setGroup x).hostfail = s.hostfail := rfl
@[simp] theorem State.setGroup_mem (s : State) (x : Group) : (s.setGroup x).mem = s.mem := rfl
@[simp] theorem State.setGroup_flaws (s : State) (x : Group) : (s.setGroup x).flaws = s.flaws := rfl
@[simp] theorem State.setGroup_parts (s : State) (x : Group) : (s.setGroup x).parts = s.parts := rfl
@[simp] theorem State.setGroup_launches (s : State) (x : Group) : (s.setGroup x).launches = s.launches := rfl
@[simp] theorem State.setGroup_wkgs (s : State) (x : Group) : (s.setGroup x).wkgs = s.wkgs := rfl
@[simp] theorem State.setGroup_remains (s : State) (x : Group) : (s.setGroup x).remains = s.remains := rfl
@[simp] theorem State.setGroup_pipe (s : State) (x : Group) : (s.setGroup x).pipe = s.pipe := rfl
@[simp] theorem State.setGroup_tlb (s : State) (x : Group) : (s.setGroup x).tlb = s.tlb := rfl
@[simp] theorem State.setGroup_l1 (s : State) (x : Group) : (s.setGroup x).l1 = s.l1 := rfl
@[simp] theorem State.setGroup_icache (s : State) (x : Group) : (s.setGroup x).icache = s.icache := rfl
@[simp] theorem State.setGroup_fenced (s : State) (x : Group) : (s.setGroup x).fenced = s.fenced := rfl
@[simp] theorem State.setGroup_merge (s : State) (x : Group) : (s.setGroup x).merge = s.merge := rfl
@[simp] theorem State.setGroup_fatals (s : State) (x : Group) : (s.setGroup x).fatals = s.fatals := rfl
@[simp] theorem State.setGroup_journal (s : State) (x : Group) : (s.setGroup x).journal = s.journal := rfl
@[simp] theorem State.setGroup_calls (s : State) (x : Group) : (s.setGroup x).calls = s.calls := rfl
@[simp] theorem State.setGroup_nextId (s : State) (x : Group) : (s.setGroup x).nextId = s.nextId := rfl
@[simp] theorem State.setGroup_stampNext (s : State) (x : Group) : (s.setGroup x).stampNext = s.stampNext := rfl
@[simp] theorem State.setGroup_cur (s : State) (x : Group) : (s.setGroup x).cur = s.cur := rfl
@[simp] theorem State.setGroup_agenda (s : State) (x : Group) : (s.setGroup x).agenda = s.agenda := rfl
@[simp] theorem State.setGroup_tick (s : State) (x : Group) : (s.setGroup x).tick = s.tick := rfl

/-! ### `State.setPart` changes `parts` alone -/
@[simp] theorem State.setPart_dies (s : State) (x : Partition) : (s.setPart x).dies = s.dies := rfl
@[simp] theorem State.setPart_cycles (s : State) (x : Partition) : (s.setPart x).cycles = s.cycles := rfl
@[simp] theorem State.setPart_bootReport (s : State) (x : Partition) : (s.setPart x).bootReport = s.bootReport := rfl
@[simp] theorem State.setPart_boundaries (s : State) (x : Partition) : (s.setPart x).boundaries = s.boundaries := rfl
@[simp] theorem State.setPart_ports (s : State) (x : Partition) : (s.setPart x).ports = s.ports := rfl
@[simp] theorem State.setPart_upWidth (s : State) (x : Partition) : (s.setPart x).upWidth = s.upWidth := rfl
@[simp] theorem State.setPart_upRate (s : State) (x : Partition) : (s.setPart x).upRate = s.upRate := rfl
@[simp] theorem State.setPart_windows (s : State) (x : Partition) : (s.setPart x).windows = s.windows := rfl
@[simp] theorem State.setPart_msix (s : State) (x : Partition) : (s.setPart x).msix = s.msix := rfl
@[simp] theorem State.setPart_pba (s : State) (x : Partition) : (s.setPart x).pba = s.pba := rfl
@[simp] theorem State.setPart_signalled (s : State) (x : Partition) : (s.setPart x).signalled = s.signalled := rfl
@[simp] theorem State.setPart_doe (s : State) (x : Partition) : (s.setPart x).doe = s.doe := rfl
@[simp] theorem State.setPart_hostRead (s : State) (x : Partition) : (s.setPart x).hostRead = s.hostRead := rfl
@[simp] theorem State.setPart_hostmem (s : State) (x : Partition) : (s.setPart x).hostmem = s.hostmem := rfl
@[simp] theorem State.setPart_hostfail (s : State) (x : Partition) : (s.setPart x).hostfail = s.hostfail := rfl
@[simp] theorem State.setPart_mem (s : State) (x : Partition) : (s.setPart x).mem = s.mem := rfl
@[simp] theorem State.setPart_flaws (s : State) (x : Partition) : (s.setPart x).flaws = s.flaws := rfl
@[simp] theorem State.setPart_launches (s : State) (x : Partition) : (s.setPart x).launches = s.launches := rfl
@[simp] theorem State.setPart_wkgs (s : State) (x : Partition) : (s.setPart x).wkgs = s.wkgs := rfl
@[simp] theorem State.setPart_remains (s : State) (x : Partition) : (s.setPart x).remains = s.remains := rfl
@[simp] theorem State.setPart_groups (s : State) (x : Partition) : (s.setPart x).groups = s.groups := rfl
@[simp] theorem State.setPart_pipe (s : State) (x : Partition) : (s.setPart x).pipe = s.pipe := rfl
@[simp] theorem State.setPart_tlb (s : State) (x : Partition) : (s.setPart x).tlb = s.tlb := rfl
@[simp] theorem State.setPart_l1 (s : State) (x : Partition) : (s.setPart x).l1 = s.l1 := rfl
@[simp] theorem State.setPart_icache (s : State) (x : Partition) : (s.setPart x).icache = s.icache := rfl
@[simp] theorem State.setPart_fenced (s : State) (x : Partition) : (s.setPart x).fenced = s.fenced := rfl
@[simp] theorem State.setPart_merge (s : State) (x : Partition) : (s.setPart x).merge = s.merge := rfl
@[simp] theorem State.setPart_fatals (s : State) (x : Partition) : (s.setPart x).fatals = s.fatals := rfl
@[simp] theorem State.setPart_journal (s : State) (x : Partition) : (s.setPart x).journal = s.journal := rfl
@[simp] theorem State.setPart_calls (s : State) (x : Partition) : (s.setPart x).calls = s.calls := rfl
@[simp] theorem State.setPart_nextId (s : State) (x : Partition) : (s.setPart x).nextId = s.nextId := rfl
@[simp] theorem State.setPart_stampNext (s : State) (x : Partition) : (s.setPart x).stampNext = s.stampNext := rfl
@[simp] theorem State.setPart_cur (s : State) (x : Partition) : (s.setPart x).cur = s.cur := rfl
@[simp] theorem State.setPart_agenda (s : State) (x : Partition) : (s.setPart x).agenda = s.agenda := rfl
@[simp] theorem State.setPart_tick (s : State) (x : Partition) : (s.setPart x).tick = s.tick := rfl

/-! ### `State.setLaunch` changes `launches` alone -/
@[simp] theorem State.setLaunch_dies (s : State) (x : Launch) : (s.setLaunch x).dies = s.dies := rfl
@[simp] theorem State.setLaunch_cycles (s : State) (x : Launch) : (s.setLaunch x).cycles = s.cycles := rfl
@[simp] theorem State.setLaunch_bootReport (s : State) (x : Launch) : (s.setLaunch x).bootReport = s.bootReport := rfl
@[simp] theorem State.setLaunch_boundaries (s : State) (x : Launch) : (s.setLaunch x).boundaries = s.boundaries := rfl
@[simp] theorem State.setLaunch_ports (s : State) (x : Launch) : (s.setLaunch x).ports = s.ports := rfl
@[simp] theorem State.setLaunch_upWidth (s : State) (x : Launch) : (s.setLaunch x).upWidth = s.upWidth := rfl
@[simp] theorem State.setLaunch_upRate (s : State) (x : Launch) : (s.setLaunch x).upRate = s.upRate := rfl
@[simp] theorem State.setLaunch_windows (s : State) (x : Launch) : (s.setLaunch x).windows = s.windows := rfl
@[simp] theorem State.setLaunch_msix (s : State) (x : Launch) : (s.setLaunch x).msix = s.msix := rfl
@[simp] theorem State.setLaunch_pba (s : State) (x : Launch) : (s.setLaunch x).pba = s.pba := rfl
@[simp] theorem State.setLaunch_signalled (s : State) (x : Launch) : (s.setLaunch x).signalled = s.signalled := rfl
@[simp] theorem State.setLaunch_doe (s : State) (x : Launch) : (s.setLaunch x).doe = s.doe := rfl
@[simp] theorem State.setLaunch_hostRead (s : State) (x : Launch) : (s.setLaunch x).hostRead = s.hostRead := rfl
@[simp] theorem State.setLaunch_hostmem (s : State) (x : Launch) : (s.setLaunch x).hostmem = s.hostmem := rfl
@[simp] theorem State.setLaunch_hostfail (s : State) (x : Launch) : (s.setLaunch x).hostfail = s.hostfail := rfl
@[simp] theorem State.setLaunch_mem (s : State) (x : Launch) : (s.setLaunch x).mem = s.mem := rfl
@[simp] theorem State.setLaunch_flaws (s : State) (x : Launch) : (s.setLaunch x).flaws = s.flaws := rfl
@[simp] theorem State.setLaunch_parts (s : State) (x : Launch) : (s.setLaunch x).parts = s.parts := rfl
@[simp] theorem State.setLaunch_wkgs (s : State) (x : Launch) : (s.setLaunch x).wkgs = s.wkgs := rfl
@[simp] theorem State.setLaunch_remains (s : State) (x : Launch) : (s.setLaunch x).remains = s.remains := rfl
@[simp] theorem State.setLaunch_groups (s : State) (x : Launch) : (s.setLaunch x).groups = s.groups := rfl
@[simp] theorem State.setLaunch_pipe (s : State) (x : Launch) : (s.setLaunch x).pipe = s.pipe := rfl
@[simp] theorem State.setLaunch_tlb (s : State) (x : Launch) : (s.setLaunch x).tlb = s.tlb := rfl
@[simp] theorem State.setLaunch_l1 (s : State) (x : Launch) : (s.setLaunch x).l1 = s.l1 := rfl
@[simp] theorem State.setLaunch_icache (s : State) (x : Launch) : (s.setLaunch x).icache = s.icache := rfl
@[simp] theorem State.setLaunch_fenced (s : State) (x : Launch) : (s.setLaunch x).fenced = s.fenced := rfl
@[simp] theorem State.setLaunch_merge (s : State) (x : Launch) : (s.setLaunch x).merge = s.merge := rfl
@[simp] theorem State.setLaunch_fatals (s : State) (x : Launch) : (s.setLaunch x).fatals = s.fatals := rfl
@[simp] theorem State.setLaunch_journal (s : State) (x : Launch) : (s.setLaunch x).journal = s.journal := rfl
@[simp] theorem State.setLaunch_calls (s : State) (x : Launch) : (s.setLaunch x).calls = s.calls := rfl
@[simp] theorem State.setLaunch_nextId (s : State) (x : Launch) : (s.setLaunch x).nextId = s.nextId := rfl
@[simp] theorem State.setLaunch_stampNext (s : State) (x : Launch) : (s.setLaunch x).stampNext = s.stampNext := rfl
@[simp] theorem State.setLaunch_cur (s : State) (x : Launch) : (s.setLaunch x).cur = s.cur := rfl
@[simp] theorem State.setLaunch_agenda (s : State) (x : Launch) : (s.setLaunch x).agenda = s.agenda := rfl
@[simp] theorem State.setLaunch_tick (s : State) (x : Launch) : (s.setLaunch x).tick = s.tick := rfl

/-! ### `State.setWkg` changes `wkgs` alone -/
@[simp] theorem State.setWkg_dies (s : State) (x : Workgroup) : (s.setWkg x).dies = s.dies := rfl
@[simp] theorem State.setWkg_cycles (s : State) (x : Workgroup) : (s.setWkg x).cycles = s.cycles := rfl
@[simp] theorem State.setWkg_bootReport (s : State) (x : Workgroup) : (s.setWkg x).bootReport = s.bootReport := rfl
@[simp] theorem State.setWkg_boundaries (s : State) (x : Workgroup) : (s.setWkg x).boundaries = s.boundaries := rfl
@[simp] theorem State.setWkg_ports (s : State) (x : Workgroup) : (s.setWkg x).ports = s.ports := rfl
@[simp] theorem State.setWkg_upWidth (s : State) (x : Workgroup) : (s.setWkg x).upWidth = s.upWidth := rfl
@[simp] theorem State.setWkg_upRate (s : State) (x : Workgroup) : (s.setWkg x).upRate = s.upRate := rfl
@[simp] theorem State.setWkg_windows (s : State) (x : Workgroup) : (s.setWkg x).windows = s.windows := rfl
@[simp] theorem State.setWkg_msix (s : State) (x : Workgroup) : (s.setWkg x).msix = s.msix := rfl
@[simp] theorem State.setWkg_pba (s : State) (x : Workgroup) : (s.setWkg x).pba = s.pba := rfl
@[simp] theorem State.setWkg_signalled (s : State) (x : Workgroup) : (s.setWkg x).signalled = s.signalled := rfl
@[simp] theorem State.setWkg_doe (s : State) (x : Workgroup) : (s.setWkg x).doe = s.doe := rfl
@[simp] theorem State.setWkg_hostRead (s : State) (x : Workgroup) : (s.setWkg x).hostRead = s.hostRead := rfl
@[simp] theorem State.setWkg_hostmem (s : State) (x : Workgroup) : (s.setWkg x).hostmem = s.hostmem := rfl
@[simp] theorem State.setWkg_hostfail (s : State) (x : Workgroup) : (s.setWkg x).hostfail = s.hostfail := rfl
@[simp] theorem State.setWkg_mem (s : State) (x : Workgroup) : (s.setWkg x).mem = s.mem := rfl
@[simp] theorem State.setWkg_flaws (s : State) (x : Workgroup) : (s.setWkg x).flaws = s.flaws := rfl
@[simp] theorem State.setWkg_parts (s : State) (x : Workgroup) : (s.setWkg x).parts = s.parts := rfl
@[simp] theorem State.setWkg_launches (s : State) (x : Workgroup) : (s.setWkg x).launches = s.launches := rfl
@[simp] theorem State.setWkg_remains (s : State) (x : Workgroup) : (s.setWkg x).remains = s.remains := rfl
@[simp] theorem State.setWkg_groups (s : State) (x : Workgroup) : (s.setWkg x).groups = s.groups := rfl
@[simp] theorem State.setWkg_pipe (s : State) (x : Workgroup) : (s.setWkg x).pipe = s.pipe := rfl
@[simp] theorem State.setWkg_tlb (s : State) (x : Workgroup) : (s.setWkg x).tlb = s.tlb := rfl
@[simp] theorem State.setWkg_l1 (s : State) (x : Workgroup) : (s.setWkg x).l1 = s.l1 := rfl
@[simp] theorem State.setWkg_icache (s : State) (x : Workgroup) : (s.setWkg x).icache = s.icache := rfl
@[simp] theorem State.setWkg_fenced (s : State) (x : Workgroup) : (s.setWkg x).fenced = s.fenced := rfl
@[simp] theorem State.setWkg_merge (s : State) (x : Workgroup) : (s.setWkg x).merge = s.merge := rfl
@[simp] theorem State.setWkg_fatals (s : State) (x : Workgroup) : (s.setWkg x).fatals = s.fatals := rfl
@[simp] theorem State.setWkg_journal (s : State) (x : Workgroup) : (s.setWkg x).journal = s.journal := rfl
@[simp] theorem State.setWkg_calls (s : State) (x : Workgroup) : (s.setWkg x).calls = s.calls := rfl
@[simp] theorem State.setWkg_nextId (s : State) (x : Workgroup) : (s.setWkg x).nextId = s.nextId := rfl
@[simp] theorem State.setWkg_stampNext (s : State) (x : Workgroup) : (s.setWkg x).stampNext = s.stampNext := rfl
@[simp] theorem State.setWkg_cur (s : State) (x : Workgroup) : (s.setWkg x).cur = s.cur := rfl
@[simp] theorem State.setWkg_agenda (s : State) (x : Workgroup) : (s.setWkg x).agenda = s.agenda := rfl
@[simp] theorem State.setWkg_tick (s : State) (x : Workgroup) : (s.setWkg x).tick = s.tick := rfl

/-! ### `State.setItem` changes `pipe` alone -/
@[simp] theorem State.setItem_dies (s : State) (x : Item) : (s.setItem x).dies = s.dies := rfl
@[simp] theorem State.setItem_cycles (s : State) (x : Item) : (s.setItem x).cycles = s.cycles := rfl
@[simp] theorem State.setItem_bootReport (s : State) (x : Item) : (s.setItem x).bootReport = s.bootReport := rfl
@[simp] theorem State.setItem_boundaries (s : State) (x : Item) : (s.setItem x).boundaries = s.boundaries := rfl
@[simp] theorem State.setItem_ports (s : State) (x : Item) : (s.setItem x).ports = s.ports := rfl
@[simp] theorem State.setItem_upWidth (s : State) (x : Item) : (s.setItem x).upWidth = s.upWidth := rfl
@[simp] theorem State.setItem_upRate (s : State) (x : Item) : (s.setItem x).upRate = s.upRate := rfl
@[simp] theorem State.setItem_windows (s : State) (x : Item) : (s.setItem x).windows = s.windows := rfl
@[simp] theorem State.setItem_msix (s : State) (x : Item) : (s.setItem x).msix = s.msix := rfl
@[simp] theorem State.setItem_pba (s : State) (x : Item) : (s.setItem x).pba = s.pba := rfl
@[simp] theorem State.setItem_signalled (s : State) (x : Item) : (s.setItem x).signalled = s.signalled := rfl
@[simp] theorem State.setItem_doe (s : State) (x : Item) : (s.setItem x).doe = s.doe := rfl
@[simp] theorem State.setItem_hostRead (s : State) (x : Item) : (s.setItem x).hostRead = s.hostRead := rfl
@[simp] theorem State.setItem_hostmem (s : State) (x : Item) : (s.setItem x).hostmem = s.hostmem := rfl
@[simp] theorem State.setItem_hostfail (s : State) (x : Item) : (s.setItem x).hostfail = s.hostfail := rfl
@[simp] theorem State.setItem_mem (s : State) (x : Item) : (s.setItem x).mem = s.mem := rfl
@[simp] theorem State.setItem_flaws (s : State) (x : Item) : (s.setItem x).flaws = s.flaws := rfl
@[simp] theorem State.setItem_parts (s : State) (x : Item) : (s.setItem x).parts = s.parts := rfl
@[simp] theorem State.setItem_launches (s : State) (x : Item) : (s.setItem x).launches = s.launches := rfl
@[simp] theorem State.setItem_wkgs (s : State) (x : Item) : (s.setItem x).wkgs = s.wkgs := rfl
@[simp] theorem State.setItem_remains (s : State) (x : Item) : (s.setItem x).remains = s.remains := rfl
@[simp] theorem State.setItem_groups (s : State) (x : Item) : (s.setItem x).groups = s.groups := rfl
@[simp] theorem State.setItem_tlb (s : State) (x : Item) : (s.setItem x).tlb = s.tlb := rfl
@[simp] theorem State.setItem_l1 (s : State) (x : Item) : (s.setItem x).l1 = s.l1 := rfl
@[simp] theorem State.setItem_icache (s : State) (x : Item) : (s.setItem x).icache = s.icache := rfl
@[simp] theorem State.setItem_fenced (s : State) (x : Item) : (s.setItem x).fenced = s.fenced := rfl
@[simp] theorem State.setItem_merge (s : State) (x : Item) : (s.setItem x).merge = s.merge := rfl
@[simp] theorem State.setItem_fatals (s : State) (x : Item) : (s.setItem x).fatals = s.fatals := rfl
@[simp] theorem State.setItem_journal (s : State) (x : Item) : (s.setItem x).journal = s.journal := rfl
@[simp] theorem State.setItem_calls (s : State) (x : Item) : (s.setItem x).calls = s.calls := rfl
@[simp] theorem State.setItem_nextId (s : State) (x : Item) : (s.setItem x).nextId = s.nextId := rfl
@[simp] theorem State.setItem_stampNext (s : State) (x : Item) : (s.setItem x).stampNext = s.stampNext := rfl
@[simp] theorem State.setItem_cur (s : State) (x : Item) : (s.setItem x).cur = s.cur := rfl
@[simp] theorem State.setItem_agenda (s : State) (x : Item) : (s.setItem x).agenda = s.agenda := rfl
@[simp] theorem State.setItem_tick (s : State) (x : Item) : (s.setItem x).tick = s.tick := rfl

/-! ### `Group.setNode` changes `nodes` alone -/
@[simp] theorem Group.setNode_uid (g : Group) (x : Node) : (g.setNode x).uid = g.uid := rfl
@[simp] theorem Group.setNode_part (g : Group) (x : Node) : (g.setNode x).part = g.part := rfl
@[simp] theorem Group.setNode_serial (g : Group) (x : Node) : (g.setNode x).serial = g.serial := rfl
@[simp] theorem Group.setNode_wkg (g : Group) (x : Node) : (g.setNode x).wkg = g.wkg := rfl
@[simp] theorem Group.setNode_gid (g : Group) (x : Node) : (g.setNode x).gid = g.gid := rfl
@[simp] theorem Group.setNode_core (g : Group) (x : Node) : (g.setNode x).core = g.core := rfl
@[simp] theorem Group.setNode_slot (g : Group) (x : Node) : (g.setNode x).slot = g.slot := rfl
@[simp] theorem Group.setNode_landing (g : Group) (x : Node) : (g.setNode x).landing = g.landing := rfl
@[simp] theorem Group.setNode_nregs (g : Group) (x : Node) : (g.setNode x).nregs = g.nregs := rfl
@[simp] theorem Group.setNode_base (g : Group) (x : Node) : (g.setNode x).base = g.base := rfl
@[simp] theorem Group.setNode_stamp (g : Group) (x : Node) : (g.setNode x).stamp = g.stamp := rfl
@[simp] theorem Group.setNode_v (g : Group) (x : Node) : (g.setNode x).v = g.v := rfl
@[simp] theorem Group.setNode_p (g : Group) (x : Node) : (g.setNode x).p = g.p := rfl
@[simp] theorem Group.setNode_pdg (g : Group) (x : Node) : (g.setNode x).pdg = g.pdg := rfl
@[simp] theorem Group.setNode_flaws (g : Group) (x : Node) : (g.setNode x).flaws = g.flaws := rfl
@[simp] theorem Group.setNode_dataSeqs (g : Group) (x : Node) : (g.setNode x).dataSeqs = g.dataSeqs := rfl
@[simp] theorem Group.setNode_rstack (g : Group) (x : Node) : (g.setNode x).rstack = g.rstack := rfl
@[simp] theorem Group.setNode_rdepth (g : Group) (x : Node) : (g.setNode x).rdepth = g.rdepth := rfl
@[simp] theorem Group.setNode_s (g : Group) (x : Node) : (g.setNode x).s = g.s := rfl
@[simp] theorem Group.setNode_ld (g : Group) (x : Node) : (g.setNode x).ld = g.ld := rfl
@[simp] theorem Group.setNode_st (g : Group) (x : Node) : (g.setNode x).st = g.st := rfl
@[simp] theorem Group.setNode_cp (g : Group) (x : Node) : (g.setNode x).cp = g.cp := rfl
@[simp] theorem Group.setNode_tl (g : Group) (x : Node) : (g.setNode x).tl = g.tl := rfl
@[simp] theorem Group.setNode_fmode (g : Group) (x : Node) : (g.setNode x).fmode = g.fmode := rfl
@[simp] theorem Group.setNode_fstat (g : Group) (x : Node) : (g.setNode x).fstat = g.fstat := rfl
@[simp] theorem Group.setNode_gang (g : Group) (x : Node) : (g.setNode x).gang = g.gang := rfl
@[simp] theorem Group.setNode_ldaerr (g : Group) (x : Node) : (g.setNode x).ldaerr = g.ldaerr := rfl
@[simp] theorem Group.setNode_savelo (g : Group) (x : Node) : (g.setNode x).savelo = g.savelo := rfl
@[simp] theorem Group.setNode_savehi (g : Group) (x : Node) : (g.setNode x).savehi = g.savehi := rfl
@[simp] theorem Group.setNode_cycleh (g : Group) (x : Node) : (g.setNode x).cycleh = g.cycleh := rfl
@[simp] theorem Group.setNode_preempt (g : Group) (x : Node) : (g.setNode x).preempt = g.preempt := rfl
@[simp] theorem Group.setNode_sfrq (g : Group) (x : Node) : (g.setNode x).sfrq = g.sfrq := rfl
@[simp] theorem Group.setNode_pend (g : Group) (x : Node) : (g.setNode x).pend = g.pend := rfl
@[simp] theorem Group.setNode_lost (g : Group) (x : Node) : (g.setNode x).lost = g.lost := rfl
@[simp] theorem Group.setNode_grant (g : Group) (x : Node) : (g.setNode x).grant = g.grant := rfl
@[simp] theorem Group.setNode_rings (g : Group) (x : Node) : (g.setNode x).rings = g.rings := rfl
@[simp] theorem Group.setNode_horizons (g : Group) (x : Node) : (g.setNode x).horizons = g.horizons := rfl
@[simp] theorem Group.setNode_loads (g : Group) (x : Node) : (g.setNode x).loads = g.loads := rfl
@[simp] theorem Group.setNode_pendingTree (g : Group) (x : Node) : (g.setNode x).pendingTree = g.pendingTree := rfl
@[simp] theorem Group.setNode_loadsplit (g : Group) (x : Node) : (g.setNode x).loadsplit = g.loadsplit := rfl
@[simp] theorem Group.setNode_yield (g : Group) (x : Node) : (g.setNode x).yield = g.yield := rfl
@[simp] theorem Group.setNode_restoring (g : Group) (x : Node) : (g.setNode x).restoring = g.restoring := rfl

/-! ### `Group.wv` changes `v` alone -/
@[simp] theorem Group.wv_uid (g : Group) (l : Nat) (r : Nat) (x : Word) : (g.wv l r x).uid = g.uid := rfl
@[simp] theorem Group.wv_part (g : Group) (l : Nat) (r : Nat) (x : Word) : (g.wv l r x).part = g.part := rfl
@[simp] theorem Group.wv_serial (g : Group) (l : Nat) (r : Nat) (x : Word) : (g.wv l r x).serial = g.serial := rfl
@[simp] theorem Group.wv_wkg (g : Group) (l : Nat) (r : Nat) (x : Word) : (g.wv l r x).wkg = g.wkg := rfl
@[simp] theorem Group.wv_gid (g : Group) (l : Nat) (r : Nat) (x : Word) : (g.wv l r x).gid = g.gid := rfl
@[simp] theorem Group.wv_core (g : Group) (l : Nat) (r : Nat) (x : Word) : (g.wv l r x).core = g.core := rfl
@[simp] theorem Group.wv_slot (g : Group) (l : Nat) (r : Nat) (x : Word) : (g.wv l r x).slot = g.slot := rfl
@[simp] theorem Group.wv_landing (g : Group) (l : Nat) (r : Nat) (x : Word) : (g.wv l r x).landing = g.landing := rfl
@[simp] theorem Group.wv_nregs (g : Group) (l : Nat) (r : Nat) (x : Word) : (g.wv l r x).nregs = g.nregs := rfl
@[simp] theorem Group.wv_base (g : Group) (l : Nat) (r : Nat) (x : Word) : (g.wv l r x).base = g.base := rfl
@[simp] theorem Group.wv_stamp (g : Group) (l : Nat) (r : Nat) (x : Word) : (g.wv l r x).stamp = g.stamp := rfl
@[simp] theorem Group.wv_p (g : Group) (l : Nat) (r : Nat) (x : Word) : (g.wv l r x).p = g.p := rfl
@[simp] theorem Group.wv_pdg (g : Group) (l : Nat) (r : Nat) (x : Word) : (g.wv l r x).pdg = g.pdg := rfl
@[simp] theorem Group.wv_flaws (g : Group) (l r : Nat) (x : Word) : (g.wv l r x).flaws = g.mend (.v l r) := rfl
@[simp] theorem Group.wv_dataSeqs (g : Group) (l : Nat) (r : Nat) (x : Word) : (g.wv l r x).dataSeqs = g.dataSeqs := rfl
@[simp] theorem Group.wv_rstack (g : Group) (l : Nat) (r : Nat) (x : Word) : (g.wv l r x).rstack = g.rstack := rfl
@[simp] theorem Group.wv_rdepth (g : Group) (l : Nat) (r : Nat) (x : Word) : (g.wv l r x).rdepth = g.rdepth := rfl
@[simp] theorem Group.wv_s (g : Group) (l : Nat) (r : Nat) (x : Word) : (g.wv l r x).s = g.s := rfl
@[simp] theorem Group.wv_nodes (g : Group) (l : Nat) (r : Nat) (x : Word) : (g.wv l r x).nodes = g.nodes := rfl
@[simp] theorem Group.wv_ld (g : Group) (l : Nat) (r : Nat) (x : Word) : (g.wv l r x).ld = g.ld := rfl
@[simp] theorem Group.wv_st (g : Group) (l : Nat) (r : Nat) (x : Word) : (g.wv l r x).st = g.st := rfl
@[simp] theorem Group.wv_cp (g : Group) (l : Nat) (r : Nat) (x : Word) : (g.wv l r x).cp = g.cp := rfl
@[simp] theorem Group.wv_tl (g : Group) (l : Nat) (r : Nat) (x : Word) : (g.wv l r x).tl = g.tl := rfl
@[simp] theorem Group.wv_fmode (g : Group) (l : Nat) (r : Nat) (x : Word) : (g.wv l r x).fmode = g.fmode := rfl
@[simp] theorem Group.wv_fstat (g : Group) (l : Nat) (r : Nat) (x : Word) : (g.wv l r x).fstat = g.fstat := rfl
@[simp] theorem Group.wv_gang (g : Group) (l : Nat) (r : Nat) (x : Word) : (g.wv l r x).gang = g.gang := rfl
@[simp] theorem Group.wv_ldaerr (g : Group) (l : Nat) (r : Nat) (x : Word) : (g.wv l r x).ldaerr = g.ldaerr := rfl
@[simp] theorem Group.wv_savelo (g : Group) (l : Nat) (r : Nat) (x : Word) : (g.wv l r x).savelo = g.savelo := rfl
@[simp] theorem Group.wv_savehi (g : Group) (l : Nat) (r : Nat) (x : Word) : (g.wv l r x).savehi = g.savehi := rfl
@[simp] theorem Group.wv_cycleh (g : Group) (l : Nat) (r : Nat) (x : Word) : (g.wv l r x).cycleh = g.cycleh := rfl
@[simp] theorem Group.wv_preempt (g : Group) (l : Nat) (r : Nat) (x : Word) : (g.wv l r x).preempt = g.preempt := rfl
@[simp] theorem Group.wv_sfrq (g : Group) (l : Nat) (r : Nat) (x : Word) : (g.wv l r x).sfrq = g.sfrq := rfl
@[simp] theorem Group.wv_pend (g : Group) (l : Nat) (r : Nat) (x : Word) : (g.wv l r x).pend = g.pend := rfl
@[simp] theorem Group.wv_lost (g : Group) (l : Nat) (r : Nat) (x : Word) : (g.wv l r x).lost = g.lost := rfl
@[simp] theorem Group.wv_grant (g : Group) (l : Nat) (r : Nat) (x : Word) : (g.wv l r x).grant = g.grant := rfl
@[simp] theorem Group.wv_rings (g : Group) (l : Nat) (r : Nat) (x : Word) : (g.wv l r x).rings = g.rings := rfl
@[simp] theorem Group.wv_horizons (g : Group) (l : Nat) (r : Nat) (x : Word) : (g.wv l r x).horizons = g.horizons := rfl
@[simp] theorem Group.wv_loads (g : Group) (l : Nat) (r : Nat) (x : Word) : (g.wv l r x).loads = g.loads := rfl
@[simp] theorem Group.wv_pendingTree (g : Group) (l : Nat) (r : Nat) (x : Word) : (g.wv l r x).pendingTree = g.pendingTree := rfl
@[simp] theorem Group.wv_loadsplit (g : Group) (l : Nat) (r : Nat) (x : Word) : (g.wv l r x).loadsplit = g.loadsplit := rfl
@[simp] theorem Group.wv_yield (g : Group) (l : Nat) (r : Nat) (x : Word) : (g.wv l r x).yield = g.yield := rfl
@[simp] theorem Group.wv_restoring (g : Group) (l : Nat) (r : Nat) (x : Word) : (g.wv l r x).restoring = g.restoring := rfl

/-! ### `Group.wpdg` changes `pdg` alone -/
@[simp] theorem Group.wpdg_uid (g : Group) (l : Nat) (x : DWord) : (g.wpdg l x).uid = g.uid := rfl
@[simp] theorem Group.wpdg_part (g : Group) (l : Nat) (x : DWord) : (g.wpdg l x).part = g.part := rfl
@[simp] theorem Group.wpdg_serial (g : Group) (l : Nat) (x : DWord) : (g.wpdg l x).serial = g.serial := rfl
@[simp] theorem Group.wpdg_wkg (g : Group) (l : Nat) (x : DWord) : (g.wpdg l x).wkg = g.wkg := rfl
@[simp] theorem Group.wpdg_gid (g : Group) (l : Nat) (x : DWord) : (g.wpdg l x).gid = g.gid := rfl
@[simp] theorem Group.wpdg_core (g : Group) (l : Nat) (x : DWord) : (g.wpdg l x).core = g.core := rfl
@[simp] theorem Group.wpdg_slot (g : Group) (l : Nat) (x : DWord) : (g.wpdg l x).slot = g.slot := rfl
@[simp] theorem Group.wpdg_landing (g : Group) (l : Nat) (x : DWord) : (g.wpdg l x).landing = g.landing := rfl
@[simp] theorem Group.wpdg_nregs (g : Group) (l : Nat) (x : DWord) : (g.wpdg l x).nregs = g.nregs := rfl
@[simp] theorem Group.wpdg_base (g : Group) (l : Nat) (x : DWord) : (g.wpdg l x).base = g.base := rfl
@[simp] theorem Group.wpdg_stamp (g : Group) (l : Nat) (x : DWord) : (g.wpdg l x).stamp = g.stamp := rfl
@[simp] theorem Group.wpdg_v (g : Group) (l : Nat) (x : DWord) : (g.wpdg l x).v = g.v := rfl
@[simp] theorem Group.wpdg_p (g : Group) (l : Nat) (x : DWord) : (g.wpdg l x).p = g.p := rfl
@[simp] theorem Group.wpdg_flaws (g : Group) (l : Nat) (x : DWord) : (g.wpdg l x).flaws = g.flaws := rfl
@[simp] theorem Group.wpdg_dataSeqs (g : Group) (l : Nat) (x : DWord) : (g.wpdg l x).dataSeqs = g.dataSeqs := rfl
@[simp] theorem Group.wpdg_rstack (g : Group) (l : Nat) (x : DWord) : (g.wpdg l x).rstack = g.rstack := rfl
@[simp] theorem Group.wpdg_rdepth (g : Group) (l : Nat) (x : DWord) : (g.wpdg l x).rdepth = g.rdepth := rfl
@[simp] theorem Group.wpdg_s (g : Group) (l : Nat) (x : DWord) : (g.wpdg l x).s = g.s := rfl
@[simp] theorem Group.wpdg_nodes (g : Group) (l : Nat) (x : DWord) : (g.wpdg l x).nodes = g.nodes := rfl
@[simp] theorem Group.wpdg_ld (g : Group) (l : Nat) (x : DWord) : (g.wpdg l x).ld = g.ld := rfl
@[simp] theorem Group.wpdg_st (g : Group) (l : Nat) (x : DWord) : (g.wpdg l x).st = g.st := rfl
@[simp] theorem Group.wpdg_cp (g : Group) (l : Nat) (x : DWord) : (g.wpdg l x).cp = g.cp := rfl
@[simp] theorem Group.wpdg_tl (g : Group) (l : Nat) (x : DWord) : (g.wpdg l x).tl = g.tl := rfl
@[simp] theorem Group.wpdg_fmode (g : Group) (l : Nat) (x : DWord) : (g.wpdg l x).fmode = g.fmode := rfl
@[simp] theorem Group.wpdg_fstat (g : Group) (l : Nat) (x : DWord) : (g.wpdg l x).fstat = g.fstat := rfl
@[simp] theorem Group.wpdg_gang (g : Group) (l : Nat) (x : DWord) : (g.wpdg l x).gang = g.gang := rfl
@[simp] theorem Group.wpdg_ldaerr (g : Group) (l : Nat) (x : DWord) : (g.wpdg l x).ldaerr = g.ldaerr := rfl
@[simp] theorem Group.wpdg_savelo (g : Group) (l : Nat) (x : DWord) : (g.wpdg l x).savelo = g.savelo := rfl
@[simp] theorem Group.wpdg_savehi (g : Group) (l : Nat) (x : DWord) : (g.wpdg l x).savehi = g.savehi := rfl
@[simp] theorem Group.wpdg_cycleh (g : Group) (l : Nat) (x : DWord) : (g.wpdg l x).cycleh = g.cycleh := rfl
@[simp] theorem Group.wpdg_preempt (g : Group) (l : Nat) (x : DWord) : (g.wpdg l x).preempt = g.preempt := rfl
@[simp] theorem Group.wpdg_sfrq (g : Group) (l : Nat) (x : DWord) : (g.wpdg l x).sfrq = g.sfrq := rfl
@[simp] theorem Group.wpdg_pend (g : Group) (l : Nat) (x : DWord) : (g.wpdg l x).pend = g.pend := rfl
@[simp] theorem Group.wpdg_lost (g : Group) (l : Nat) (x : DWord) : (g.wpdg l x).lost = g.lost := rfl
@[simp] theorem Group.wpdg_grant (g : Group) (l : Nat) (x : DWord) : (g.wpdg l x).grant = g.grant := rfl
@[simp] theorem Group.wpdg_rings (g : Group) (l : Nat) (x : DWord) : (g.wpdg l x).rings = g.rings := rfl
@[simp] theorem Group.wpdg_horizons (g : Group) (l : Nat) (x : DWord) : (g.wpdg l x).horizons = g.horizons := rfl
@[simp] theorem Group.wpdg_loads (g : Group) (l : Nat) (x : DWord) : (g.wpdg l x).loads = g.loads := rfl
@[simp] theorem Group.wpdg_pendingTree (g : Group) (l : Nat) (x : DWord) : (g.wpdg l x).pendingTree = g.pendingTree := rfl
@[simp] theorem Group.wpdg_loadsplit (g : Group) (l : Nat) (x : DWord) : (g.wpdg l x).loadsplit = g.loadsplit := rfl
@[simp] theorem Group.wpdg_yield (g : Group) (l : Nat) (x : DWord) : (g.wpdg l x).yield = g.yield := rfl
@[simp] theorem Group.wpdg_restoring (g : Group) (l : Nat) (x : DWord) : (g.wpdg l x).restoring = g.restoring := rfl

/-! ### `Group.wp` changes `p` alone -/
@[simp] theorem Group.wp_uid (g : Group) (l r : Nat) (x : Pred) : (g.wp l r x).uid = g.uid := by
  unfold Group.wp; split <;> rfl
@[simp] theorem Group.wp_part (g : Group) (l r : Nat) (x : Pred) : (g.wp l r x).part = g.part := by
  unfold Group.wp; split <;> rfl
@[simp] theorem Group.wp_serial (g : Group) (l r : Nat) (x : Pred) : (g.wp l r x).serial = g.serial := by
  unfold Group.wp; split <;> rfl
@[simp] theorem Group.wp_wkg (g : Group) (l r : Nat) (x : Pred) : (g.wp l r x).wkg = g.wkg := by
  unfold Group.wp; split <;> rfl
@[simp] theorem Group.wp_gid (g : Group) (l r : Nat) (x : Pred) : (g.wp l r x).gid = g.gid := by
  unfold Group.wp; split <;> rfl
@[simp] theorem Group.wp_core (g : Group) (l r : Nat) (x : Pred) : (g.wp l r x).core = g.core := by
  unfold Group.wp; split <;> rfl
@[simp] theorem Group.wp_slot (g : Group) (l r : Nat) (x : Pred) : (g.wp l r x).slot = g.slot := by
  unfold Group.wp; split <;> rfl
@[simp] theorem Group.wp_landing (g : Group) (l r : Nat) (x : Pred) : (g.wp l r x).landing = g.landing := by
  unfold Group.wp; split <;> rfl
@[simp] theorem Group.wp_nregs (g : Group) (l r : Nat) (x : Pred) : (g.wp l r x).nregs = g.nregs := by
  unfold Group.wp; split <;> rfl
@[simp] theorem Group.wp_base (g : Group) (l r : Nat) (x : Pred) : (g.wp l r x).base = g.base := by
  unfold Group.wp; split <;> rfl
@[simp] theorem Group.wp_stamp (g : Group) (l r : Nat) (x : Pred) : (g.wp l r x).stamp = g.stamp := by
  unfold Group.wp; split <;> rfl
@[simp] theorem Group.wp_v (g : Group) (l r : Nat) (x : Pred) : (g.wp l r x).v = g.v := by
  unfold Group.wp; split <;> rfl
@[simp] theorem Group.wp_pdg (g : Group) (l r : Nat) (x : Pred) : (g.wp l r x).pdg = g.pdg := by
  unfold Group.wp; split <;> rfl
@[simp] theorem Group.wp_flaws (g : Group) (l r : Nat) (x : Pred) : (g.wp l r x).flaws = g.flaws := by
  unfold Group.wp; split <;> rfl
@[simp] theorem Group.wp_dataSeqs (g : Group) (l r : Nat) (x : Pred) : (g.wp l r x).dataSeqs = g.dataSeqs := by
  unfold Group.wp; split <;> rfl
@[simp] theorem Group.wp_rstack (g : Group) (l r : Nat) (x : Pred) : (g.wp l r x).rstack = g.rstack := by
  unfold Group.wp; split <;> rfl
@[simp] theorem Group.wp_rdepth (g : Group) (l r : Nat) (x : Pred) : (g.wp l r x).rdepth = g.rdepth := by
  unfold Group.wp; split <;> rfl
@[simp] theorem Group.wp_s (g : Group) (l r : Nat) (x : Pred) : (g.wp l r x).s = g.s := by
  unfold Group.wp; split <;> rfl
@[simp] theorem Group.wp_nodes (g : Group) (l r : Nat) (x : Pred) : (g.wp l r x).nodes = g.nodes := by
  unfold Group.wp; split <;> rfl
@[simp] theorem Group.wp_ld (g : Group) (l r : Nat) (x : Pred) : (g.wp l r x).ld = g.ld := by
  unfold Group.wp; split <;> rfl
@[simp] theorem Group.wp_st (g : Group) (l r : Nat) (x : Pred) : (g.wp l r x).st = g.st := by
  unfold Group.wp; split <;> rfl
@[simp] theorem Group.wp_cp (g : Group) (l r : Nat) (x : Pred) : (g.wp l r x).cp = g.cp := by
  unfold Group.wp; split <;> rfl
@[simp] theorem Group.wp_tl (g : Group) (l r : Nat) (x : Pred) : (g.wp l r x).tl = g.tl := by
  unfold Group.wp; split <;> rfl
@[simp] theorem Group.wp_fmode (g : Group) (l r : Nat) (x : Pred) : (g.wp l r x).fmode = g.fmode := by
  unfold Group.wp; split <;> rfl
@[simp] theorem Group.wp_fstat (g : Group) (l r : Nat) (x : Pred) : (g.wp l r x).fstat = g.fstat := by
  unfold Group.wp; split <;> rfl
@[simp] theorem Group.wp_gang (g : Group) (l r : Nat) (x : Pred) : (g.wp l r x).gang = g.gang := by
  unfold Group.wp; split <;> rfl
@[simp] theorem Group.wp_ldaerr (g : Group) (l r : Nat) (x : Pred) : (g.wp l r x).ldaerr = g.ldaerr := by
  unfold Group.wp; split <;> rfl
@[simp] theorem Group.wp_savelo (g : Group) (l r : Nat) (x : Pred) : (g.wp l r x).savelo = g.savelo := by
  unfold Group.wp; split <;> rfl
@[simp] theorem Group.wp_savehi (g : Group) (l r : Nat) (x : Pred) : (g.wp l r x).savehi = g.savehi := by
  unfold Group.wp; split <;> rfl
@[simp] theorem Group.wp_cycleh (g : Group) (l r : Nat) (x : Pred) : (g.wp l r x).cycleh = g.cycleh := by
  unfold Group.wp; split <;> rfl
@[simp] theorem Group.wp_preempt (g : Group) (l r : Nat) (x : Pred) : (g.wp l r x).preempt = g.preempt := by
  unfold Group.wp; split <;> rfl
@[simp] theorem Group.wp_sfrq (g : Group) (l r : Nat) (x : Pred) : (g.wp l r x).sfrq = g.sfrq := by
  unfold Group.wp; split <;> rfl
@[simp] theorem Group.wp_pend (g : Group) (l r : Nat) (x : Pred) : (g.wp l r x).pend = g.pend := by
  unfold Group.wp; split <;> rfl
@[simp] theorem Group.wp_lost (g : Group) (l r : Nat) (x : Pred) : (g.wp l r x).lost = g.lost := by
  unfold Group.wp; split <;> rfl
@[simp] theorem Group.wp_grant (g : Group) (l r : Nat) (x : Pred) : (g.wp l r x).grant = g.grant := by
  unfold Group.wp; split <;> rfl
@[simp] theorem Group.wp_rings (g : Group) (l r : Nat) (x : Pred) : (g.wp l r x).rings = g.rings := by
  unfold Group.wp; split <;> rfl
@[simp] theorem Group.wp_horizons (g : Group) (l r : Nat) (x : Pred) : (g.wp l r x).horizons = g.horizons := by
  unfold Group.wp; split <;> rfl
@[simp] theorem Group.wp_loads (g : Group) (l r : Nat) (x : Pred) : (g.wp l r x).loads = g.loads := by
  unfold Group.wp; split <;> rfl
@[simp] theorem Group.wp_pendingTree (g : Group) (l r : Nat) (x : Pred) : (g.wp l r x).pendingTree = g.pendingTree := by
  unfold Group.wp; split <;> rfl
@[simp] theorem Group.wp_loadsplit (g : Group) (l r : Nat) (x : Pred) : (g.wp l r x).loadsplit = g.loadsplit := by
  unfold Group.wp; split <;> rfl
@[simp] theorem Group.wp_yield (g : Group) (l r : Nat) (x : Pred) : (g.wp l r x).yield = g.yield := by
  unfold Group.wp; split <;> rfl
@[simp] theorem Group.wp_restoring (g : Group) (l r : Nat) (x : Pred) : (g.wp l r x).restoring = g.restoring := by
  unfold Group.wp; split <;> rfl

/-! ### `Partition.setQueue` changes `queues` alone -/
@[simp] theorem Partition.setQueue_part (p : Partition) (x : Queue) : (p.setQueue x).part = p.part := rfl
@[simp] theorem Partition.setQueue_root (p : Partition) (x : Queue) : (p.setQueue x).root = p.root := rfl
@[simp] theorem Partition.setQueue_clumask (p : Partition) (x : Queue) : (p.setQueue x).clumask = p.clumask := rfl
@[simp] theorem Partition.setQueue_savebase (p : Partition) (x : Queue) : (p.setQueue x).savebase = p.savebase := rfl
@[simp] theorem Partition.setQueue_logbase (p : Partition) (x : Queue) : (p.setQueue x).logbase = p.logbase := rfl
@[simp] theorem Partition.setQueue_logsize (p : Partition) (x : Queue) : (p.setQueue x).logsize = p.logsize := rfl
@[simp] theorem Partition.setQueue_pkey (p : Partition) (x : Queue) : (p.setQueue x).pkey = p.pkey := rfl
@[simp] theorem Partition.setQueue_modes (p : Partition) (x : Queue) : (p.setQueue x).modes = p.modes := rfl
@[simp] theorem Partition.setQueue_nextSerial (p : Partition) (x : Queue) : (p.setQueue x).nextSerial = p.nextSerial := rfl
@[simp] theorem Partition.setQueue_assigned (p : Partition) (x : Queue) : (p.setQueue x).assigned = p.assigned := rfl
@[simp] theorem Partition.setQueue_nextTicket (p : Partition) (x : Queue) : (p.setQueue x).nextTicket = p.nextTicket := rfl
@[simp] theorem Partition.setQueue_requests (p : Partition) (x : Queue) : (p.setQueue x).requests = p.requests := rfl
@[simp] theorem Partition.setQueue_taskqs (p : Partition) (x : Queue) : (p.setQueue x).taskqs = p.taskqs := rfl
@[simp] theorem Partition.setQueue_seals (p : Partition) (x : Queue) : (p.setQueue x).seals = p.seals := rfl
@[simp] theorem Partition.setQueue_budgets (p : Partition) (x : Queue) : (p.setQueue x).budgets = p.budgets := rfl
@[simp] theorem Partition.setQueue_borrow (p : Partition) (x : Queue) : (p.setQueue x).borrow = p.borrow := rfl
@[simp] theorem Partition.setQueue_digestH (p : Partition) (x : Queue) : (p.setQueue x).digestH = p.digestH := rfl
@[simp] theorem Partition.setQueue_digestN (p : Partition) (x : Queue) : (p.setQueue x).digestN = p.digestN := rfl
@[simp] theorem Partition.setQueue_objs (p : Partition) (x : Queue) : (p.setQueue x).objs = p.objs := rfl
@[simp] theorem Partition.setQueue_homeWaits (p : Partition) (x : Queue) : (p.setQueue x).homeWaits = p.homeWaits := rfl
@[simp] theorem Partition.setQueue_engqs (p : Partition) (x : Queue) : (p.setQueue x).engqs = p.engqs := rfl
@[simp] theorem Partition.setQueue_colls (p : Partition) (x : Queue) : (p.setQueue x).colls = p.colls := rfl

/-! ### `Partition.setTaskq` changes `taskqs` alone -/
@[simp] theorem Partition.setTaskq_part (p : Partition) (x : TaskQ) : (p.setTaskq x).part = p.part := rfl
@[simp] theorem Partition.setTaskq_root (p : Partition) (x : TaskQ) : (p.setTaskq x).root = p.root := rfl
@[simp] theorem Partition.setTaskq_clumask (p : Partition) (x : TaskQ) : (p.setTaskq x).clumask = p.clumask := rfl
@[simp] theorem Partition.setTaskq_savebase (p : Partition) (x : TaskQ) : (p.setTaskq x).savebase = p.savebase := rfl
@[simp] theorem Partition.setTaskq_logbase (p : Partition) (x : TaskQ) : (p.setTaskq x).logbase = p.logbase := rfl
@[simp] theorem Partition.setTaskq_logsize (p : Partition) (x : TaskQ) : (p.setTaskq x).logsize = p.logsize := rfl
@[simp] theorem Partition.setTaskq_pkey (p : Partition) (x : TaskQ) : (p.setTaskq x).pkey = p.pkey := rfl
@[simp] theorem Partition.setTaskq_modes (p : Partition) (x : TaskQ) : (p.setTaskq x).modes = p.modes := rfl
@[simp] theorem Partition.setTaskq_nextSerial (p : Partition) (x : TaskQ) : (p.setTaskq x).nextSerial = p.nextSerial := rfl
@[simp] theorem Partition.setTaskq_assigned (p : Partition) (x : TaskQ) : (p.setTaskq x).assigned = p.assigned := rfl
@[simp] theorem Partition.setTaskq_nextTicket (p : Partition) (x : TaskQ) : (p.setTaskq x).nextTicket = p.nextTicket := rfl
@[simp] theorem Partition.setTaskq_requests (p : Partition) (x : TaskQ) : (p.setTaskq x).requests = p.requests := rfl
@[simp] theorem Partition.setTaskq_queues (p : Partition) (x : TaskQ) : (p.setTaskq x).queues = p.queues := rfl
@[simp] theorem Partition.setTaskq_seals (p : Partition) (x : TaskQ) : (p.setTaskq x).seals = p.seals := rfl
@[simp] theorem Partition.setTaskq_budgets (p : Partition) (x : TaskQ) : (p.setTaskq x).budgets = p.budgets := rfl
@[simp] theorem Partition.setTaskq_borrow (p : Partition) (x : TaskQ) : (p.setTaskq x).borrow = p.borrow := rfl
@[simp] theorem Partition.setTaskq_digestH (p : Partition) (x : TaskQ) : (p.setTaskq x).digestH = p.digestH := rfl
@[simp] theorem Partition.setTaskq_digestN (p : Partition) (x : TaskQ) : (p.setTaskq x).digestN = p.digestN := rfl
@[simp] theorem Partition.setTaskq_objs (p : Partition) (x : TaskQ) : (p.setTaskq x).objs = p.objs := rfl
@[simp] theorem Partition.setTaskq_homeWaits (p : Partition) (x : TaskQ) : (p.setTaskq x).homeWaits = p.homeWaits := rfl
@[simp] theorem Partition.setTaskq_engqs (p : Partition) (x : TaskQ) : (p.setTaskq x).engqs = p.engqs := rfl
@[simp] theorem Partition.setTaskq_colls (p : Partition) (x : TaskQ) : (p.setTaskq x).colls = p.colls := rfl

/-! ### `Partition.setEngq` changes `engqs` alone -/
@[simp] theorem Partition.setEngq_part (p : Partition) (x : EngQ) : (p.setEngq x).part = p.part := rfl
@[simp] theorem Partition.setEngq_root (p : Partition) (x : EngQ) : (p.setEngq x).root = p.root := rfl
@[simp] theorem Partition.setEngq_clumask (p : Partition) (x : EngQ) : (p.setEngq x).clumask = p.clumask := rfl
@[simp] theorem Partition.setEngq_savebase (p : Partition) (x : EngQ) : (p.setEngq x).savebase = p.savebase := rfl
@[simp] theorem Partition.setEngq_logbase (p : Partition) (x : EngQ) : (p.setEngq x).logbase = p.logbase := rfl
@[simp] theorem Partition.setEngq_logsize (p : Partition) (x : EngQ) : (p.setEngq x).logsize = p.logsize := rfl
@[simp] theorem Partition.setEngq_pkey (p : Partition) (x : EngQ) : (p.setEngq x).pkey = p.pkey := rfl
@[simp] theorem Partition.setEngq_modes (p : Partition) (x : EngQ) : (p.setEngq x).modes = p.modes := rfl
@[simp] theorem Partition.setEngq_nextSerial (p : Partition) (x : EngQ) : (p.setEngq x).nextSerial = p.nextSerial := rfl
@[simp] theorem Partition.setEngq_assigned (p : Partition) (x : EngQ) : (p.setEngq x).assigned = p.assigned := rfl
@[simp] theorem Partition.setEngq_nextTicket (p : Partition) (x : EngQ) : (p.setEngq x).nextTicket = p.nextTicket := rfl
@[simp] theorem Partition.setEngq_requests (p : Partition) (x : EngQ) : (p.setEngq x).requests = p.requests := rfl
@[simp] theorem Partition.setEngq_queues (p : Partition) (x : EngQ) : (p.setEngq x).queues = p.queues := rfl
@[simp] theorem Partition.setEngq_taskqs (p : Partition) (x : EngQ) : (p.setEngq x).taskqs = p.taskqs := rfl
@[simp] theorem Partition.setEngq_seals (p : Partition) (x : EngQ) : (p.setEngq x).seals = p.seals := rfl
@[simp] theorem Partition.setEngq_budgets (p : Partition) (x : EngQ) : (p.setEngq x).budgets = p.budgets := rfl
@[simp] theorem Partition.setEngq_borrow (p : Partition) (x : EngQ) : (p.setEngq x).borrow = p.borrow := rfl
@[simp] theorem Partition.setEngq_digestH (p : Partition) (x : EngQ) : (p.setEngq x).digestH = p.digestH := rfl
@[simp] theorem Partition.setEngq_digestN (p : Partition) (x : EngQ) : (p.setEngq x).digestN = p.digestN := rfl
@[simp] theorem Partition.setEngq_objs (p : Partition) (x : EngQ) : (p.setEngq x).objs = p.objs := rfl
@[simp] theorem Partition.setEngq_homeWaits (p : Partition) (x : EngQ) : (p.setEngq x).homeWaits = p.homeWaits := rfl
@[simp] theorem Partition.setEngq_colls (p : Partition) (x : EngQ) : (p.setEngq x).colls = p.colls := rfl

end Sys2Proof.Machine
end

