-- ==== Sys2Proof/Laws/Issue.lean ====
section
/-! SUPPORT. Issue: what the checks before an instruction answer, and what the shared operations do once they pass. -/
namespace Sys2Proof.Machine

variable {s : State} {g : Group} {n : Node} {c : Ctx} {isTerm : Bool} {u : Use}

/-- An instruction that issues passes every check and nothing has changed. -/
theorem precheck_issues (h : Issues s g n c isTerm u) : precheck s g n isTerm u = .go s g n c := by
  obtain ⟨hframe, hcan, hctx, hgo, hcnt, hlen, hboard, hown, hclean⟩ := h
  have hg : s.group? g.uid = some g := by
    unfold curFrame at hframe
    split at hframe <;> try contradiction
    split at hframe <;> try contradiction
    rename_i gr hgr
    split at hframe <;> try contradiction
    split at hframe <;> try contradiction
    obtain ⟨rfl, -⟩ := Prod.mk.inj (Option.some.inj hframe)
    have hk := List.find?_some hgr
    rw [beq_iff_eq] at hk
    rw [hk]; exact hgr
  rw [List.isEmpty_iff] at hown
  unfold precheck
  simp [hcan, hctx, hgo, hcnt, hlen, hown, hg, hboard, regCheck, hclean]

/-- A core instruction that issues has its effect, outside methods or where a method may execute it. -/
theorem coreOp_issues (h : Issues s g n c isTerm u) (k : Nat) (hm : k = 0 ∨ g.landing = none)
    (f : State → Group → Node → Ctx → State) : coreOp isTerm u k f s = .next (f (countCall s g) g n c) := by
  unfold coreOp
  rw [h.frame]
  simp only [precheck_issues h]
  rcases hm with rfl | hm
  · simp
  · simp [hm]

/-- A waiting instruction that issues and is ready has its effect. -/
theorem waitOp_issues (h : Issues s g n c isTerm u) (k : Nat) (hm : k = 0 ∨ g.landing = none)
    (ready : State → Group → Node → Ctx → Bool) (hr : ready s g n c = true) (f : State → Group → Node → Ctx → State) :
    waitOp isTerm u k ready f s = .next (f (countCall s g) g n c) := by
  unfold waitOp
  rw [h.frame]
  simp only [precheck_issues h, hr, if_true]
  rcases hm with rfl | hm
  · simp
  · simp [hm]

/-- A waiting instruction that is not ready changes nothing. -/
theorem waitOp_waits (h : Issues s g n c isTerm u) (k : Nat) (hm : k = 0 ∨ g.landing = none)
    (ready : State → Group → Node → Ctx → Bool) (hr : ready s g n c = false) (f : State → Group → Node → Ctx → State) :
    waitOp isTerm u k ready f s = .next s := by
  unfold waitOp
  rw [h.frame]
  simp only [precheck_issues h, hr]
  rcases hm with rfl | hm
  · simp
  · simp [hm]

/-- A lane that is not active takes no fault. -/
theorem takeFault_idle (c : Ctx) (a : Bool) (l f k : Nat) (h : c.active.getLsbD l = false) : c.takeFault a l f k = c := by
  unfold Ctx.takeFault
  split <;> simp [Ctx.addFail, h]

/-- A fault leaves no lane active that was not. -/
theorem takeFault_active (c : Ctx) (a : Bool) (l f k m : Nat) (h : c.active.getLsbD m = false) :
    (c.takeFault a l f k).active.getLsbD m = false := by
  unfold Ctx.takeFault
  split <;> simp only [Ctx.addFail] <;> split <;> simp [h]

/-- Only active lanes take faults, so it does not matter whether the others are listed. -/
theorem takeFaults_active (act : LaneMask) (a : Bool) (fs : List (Nat × Nat)) (c : Ctx)
    (h : ∀ l, act.getLsbD l = false → c.active.getLsbD l = false) :
    (fs.filter fun f => act.getLsbD f.1).foldl (fun c f => c.takeFault a f.1 f.2 c.ix) c =
      fs.foldl (fun c f => c.takeFault a f.1 f.2 c.ix) c := by
  induction fs generalizing c with
  | nil => rfl
  | cons f rest ih =>
    by_cases hf : act.getLsbD f.1 = true
    · simp only [List.filter_cons, hf, if_true, List.foldl_cons]
      exact ih _ fun l hl => takeFault_active _ _ _ _ _ _ (h l hl)
    · simp only [List.filter_cons, hf, List.foldl_cons]
      rw [takeFault_idle _ _ _ _ _ (h _ (by simpa using hf))]
      exact ih _ h

/-- Faults of a trace that the handler serves: the lanes leave, the others stand at `next`. -/
theorem faultLanes_handled (h : Handled g c) (fs : List (Nat × Nat)) (next : Ctx → Ctx) :
    faultLanes s g n c fs next = putCtx s g n (next (faulted s g c fs)).settle := by
  obtain ⟨hl, h2, h3⟩ := h
  unfold faultLanes faulted
  rw [← takeFaults_active c.active (pageAssisted s g) fs c fun _ h => h]
  cases fs.filter fun f => c.active.getLsbD f.1 with
  | nil => rfl
  | cons f rest =>
    dsimp only
    rw [if_neg (by simp [hl]), if_neg (by rintro ⟨h | h, -⟩ <;> contradiction)]

/-- Outside a landing call nothing is counted. -/
theorem countCall_core (hg : g.landing = none) : countCall s g = s := by simp [countCall, hg]

/-- With no faulting lane the fragment goes on. -/
@[simp] theorem faultLanes_nil (next : Ctx → Ctx) : faultLanes s g n c [] next = putCtx s g n (next c).settle := rfl

/-- Applying results that neither fault nor trap collects no fault. -/
theorem applyOut_ok (fm : Word) (st : (Group × Node × Ctx) × List (Nat × Nat)) (x : Nat × LaneOut) (h : x.2.trap fm = 0) :
    (applyOut fm st x).2 = st.2 := by
  unfold applyOut; simp [h]

theorem foldl_applyOut_ok (fm : Word) (l : List (Nat × LaneOut)) (st : (Group × Node × Ctx) × List (Nat × Nat))
    (h : ∀ x ∈ l, x.2.trap fm = 0) : (l.foldl (applyOut fm) st).2 = st.2 := by
  induction l generalizing st with
  | nil => rfl
  | cons y ys ih =>
    rw [List.foldl_cons, ih _ (fun x hx => h x (List.mem_cons_of_mem y hx))]
    exact applyOut_ok fm st y (h y List.mem_cons_self)

/-- A lane instruction that issues and runs without a fault writes its lanes' results, and the fragment goes on. -/
theorem laneOp_runs (d : LaneSpec) (h : Issues s g n c false d.used) (hm : d.noMethod = false ∨ g.landing = none)
    (hr : d.runs g n c = true) :
    ∃ g' n' c', written g n (d.ctx g n c) (d.outs g n c) = (g', n', c') ∧
      laneOp d s = .next (stand s g g' n' (c'.advance d.words).settle) := by
  obtain ⟨g', n', c', hw⟩ : ∃ g' n' c', written g n (d.ctx g n c) (d.outs g n c) = (g', n', c') := ⟨_, _, _, rfl⟩
  refine ⟨g', n', c', hw, ?_⟩
  simp only [LaneSpec.runs, Bool.and_eq_true, beq_iff_eq, List.all_eq_true] at hr
  obtain ⟨⟨hchk, hsh⟩, htr⟩ := hr
  have hstep : laneStep s g n d = laneEffect (countCall s g) g n c d := by
    unfold laneStep
    rw [precheck_issues h]
    rcases hm with hm | hm <;> simp [hm]
  have hfs := foldl_applyOut_ok g.fmode (d.outs g n c) ((g, n, d.ctx g n c), []) htr
  have hfst : (List.foldl (applyOut g.fmode) ((g, n, d.ctx g n c), []) (d.outs g n c)).1 = (g', n', c') := hw
  unfold laneOp
  rw [h.frame]
  simp only [hstep]
  unfold laneEffect
  simp only [hchk, ne_eq, not_true, if_false, h.clean, List.isEmpty_nil, if_true]
  change Host.Outcome.next _ = _
  cases huni : d.uni with
  | true =>
    simp only [if_true, List.isEmpty_nil, Bool.not_true, Bool.false_and, Bool.false_eq_true, if_false]
    have hctx : (if d.quad then c.engage g n else c) = d.ctx g n c := by simp [LaneSpec.ctx, LaneSpec.engaged, huni]
    have houts : ([uniLane].map fun l => (l, d.body g n (d.ctx g n c) 0)) = d.outs g n c := by
      simp [LaneSpec.outs, LaneSpec.lanes, huni]
    rw [hctx, houts, hfs, hfst]
    rfl
  | false =>
    have hlanes : d.lanes g n c = selected g d.ps d.pm
        (if d.noHelpers then (d.engaged g n c).active else (d.engaged g n c).active ||| (d.engaged g n c).helpers) := by
      simp [LaneSpec.lanes, huni]
    have heng : (if d.quad then c.engage g n else c) = d.engaged g n c := rfl
    simp only [Bool.false_eq_true, if_false, heng]
    rw [← hlanes, if_neg]
    · have hctx : (if (d.lanes g n c).isEmpty then d.engaged g n c else (d.engaged g n c).shadow d.dst) = d.ctx g n c := by
        simp [LaneSpec.ctx, huni]
      have houts : ((d.lanes g n c).map fun l => (l, d.body g n (d.ctx g n c) l)) = d.outs g n c := by
        simp [LaneSpec.outs, huni]
      rw [hctx, houts, hfs, hfst]
      rfl
    · simp only [huni, Bool.false_or, Bool.or_eq_true, Bool.not_eq_true'] at hsh
      rcases hsh with hsh | hsh <;> simp [hsh]

/-- A commit that writes where the pipeline holds no store changes nothing first. -/
theorem landOwn_idle {s : State} (h : s.pipe = []) (g : Group) (x : Spot) (n mark : Nat) : landOwn s g x n mark = s := by
  cases s; simp_all [landOwn]

end Sys2Proof.Machine
end

