-- ==== Sys2Proof/Laws/Sparse.lean ====
section
/-! SUPPORT. Sparse stores: reading after writing, and the canonical form, which every operation keeps. -/
namespace Sys2Proof.Machine

variable {w : Nat}

theorem sget_of_lt (m : Sparse w) (lo a : Nat) (h : swfFrom lo m = true) (ha : a < lo) : sget m a = 0 := by
  cases m with
  | nil => rfl
  | cons e m =>
    obtain ⟨k, v⟩ := e
    simp only [swfFrom, Bool.and_eq_true, decide_eq_true_eq] at h
    simp only [sget]
    rw [if_pos (by omega)]

theorem swfFrom_mono (m : Sparse w) (lo lo' : Nat) (h : swfFrom lo m = true) (hl : lo' ≤ lo) : swfFrom lo' m = true := by
  cases m with
  | nil => rfl
  | cons e m =>
    obtain ⟨k, v⟩ := e
    simp only [swfFrom, Bool.and_eq_true, decide_eq_true_eq] at h ⊢
    exact ⟨⟨by omega, h.1.2⟩, h.2⟩

/-- A write keeps the canonical form above a bound that the key respects. -/
theorem sset_wfFrom (m : Sparse w) (lo a : Nat) (x : BitVec w) (h : swfFrom lo m = true) (ha : lo ≤ a) :
    swfFrom lo (sset m a x) = true := by
  induction m generalizing lo with
  | nil =>
    simp only [sset]
    split
    · rfl
    · rename_i hx
      simp only [swfFrom, Bool.and_eq_true, decide_eq_true_eq, bne_iff_ne, ne_eq, and_true]
      exact ⟨ha, hx⟩
  | cons e m ih =>
    obtain ⟨k, v⟩ := e
    have h' := h
    simp only [swfFrom, Bool.and_eq_true, decide_eq_true_eq, bne_iff_ne, ne_eq] at h
    simp only [sset]
    split
    · rename_i hlt
      split
      · exact h'
      · rename_i hx
        simp only [swfFrom, Bool.and_eq_true, decide_eq_true_eq, bne_iff_ne, ne_eq]
        exact ⟨⟨ha, hx⟩, ⟨by omega, h.1.2⟩, h.2⟩
    · split
      · rename_i hlt heq
        subst heq
        split
        · exact swfFrom_mono m _ _ h.2 (by omega)
        · rename_i hx
          simp only [swfFrom, Bool.and_eq_true, decide_eq_true_eq, bne_iff_ne, ne_eq]
          exact ⟨⟨ha, hx⟩, h.2⟩
      · simp only [swfFrom, Bool.and_eq_true, decide_eq_true_eq, bne_iff_ne, ne_eq]
        exact ⟨h.1, ih _ h.2 (by omega)⟩

/-- A write keeps the canonical form. -/
theorem sset_wf (m : Sparse w) (a : Nat) (x : BitVec w) (h : swf m = true) : swf (sset m a x) = true :=
  sset_wfFrom m 0 a x h (Nat.zero_le a)

/-- A write of several keys keeps the canonical form. -/
theorem swrite_wf (m : Sparse w) (a : Nat) (xs : List (BitVec w)) (h : swf m = true) : swf (swrite m a xs) = true := by
  induction xs generalizing m a with
  | nil => exact h
  | cons x xs ih => exact ih _ _ (sset_wf m a x h)

theorem sget_sset_from (m : Sparse w) (lo a b : Nat) (x : BitVec w) (h : swfFrom lo m = true) :
    sget (sset m a x) b = if b = a then x else sget m b := by
  induction m generalizing lo with
  | nil =>
    simp only [sset, sget]
    split
    · rename_i hx; subst hx; simp [sget]
    · simp only [sget]
      by_cases hb : b = a
      · subst hb; simp
      · simp only [hb, if_false]; split <;> rfl
  | cons e m ih =>
    obtain ⟨k, v⟩ := e
    simp only [swfFrom, Bool.and_eq_true, decide_eq_true_eq] at h
    simp only [sset]
    split
    · rename_i hlt
      by_cases hb : b = a
      · subst hb
        split
        · rename_i hx; subst hx; simp [sget, hlt]
        · simp [sget]
      · split
        · rfl
        · rw [sget, if_neg hb]
          split
          · rename_i hba
            rw [sget, if_pos (by omega)]
          · rfl
    · split
      · rename_i hn heq
        subst heq
        by_cases hb : b = a
        · subst hb
          split
          · rename_i hx; subst hx
            simp only [if_true]
            exact sget_of_lt m (b + 1) b h.2 (by omega)
          · simp [sget]
        · simp only [hb, if_false]
          split
          · by_cases hlt : b < a
            · rw [sget_of_lt m (a + 1) b h.2 (by omega), sget, if_pos hlt]
            · rw [sget, if_neg hlt, if_neg hb]
          · simp only [sget, hb, if_false]
      · rename_i hn hne
        simp only [sget]
        have := ih _ h.2
        by_cases hb : b = a
        · subst hb; rw [if_neg (by omega), if_neg (by omega), this, if_pos rfl, if_pos rfl]
        · rw [this]; simp only [hb, if_false]

/-- Reading one key after writing one key. -/
theorem sget_sset (m : Sparse w) (a b : Nat) (x : BitVec w) (h : swf m = true) :
    sget (sset m a x) b = if b = a then x else sget m b := sget_sset_from m 0 a b x h

/-- Reading one key after writing consecutive keys. -/
theorem sget_swrite (m : Sparse w) (a b : Nat) (xs : List (BitVec w)) (h : swf m = true) :
    sget (swrite m a xs) b = if a ≤ b ∧ b < a + xs.length then xs.getD (b - a) 0 else sget m b := by
  induction xs generalizing m a with
  | nil => simp only [swrite, List.length_nil, Nat.add_zero]; rw [if_neg (by omega)]
  | cons x xs ih =>
    rw [swrite, ih _ _ (sset_wf m a x h), sget_sset _ _ _ _ h, List.length_cons]
    by_cases h1 : a + 1 ≤ b ∧ b < a + 1 + xs.length
    · rw [if_pos h1, if_pos (by omega)]
      obtain ⟨j, hj⟩ : ∃ j, b - a = j + 1 := ⟨b - a - 1, by omega⟩
      rw [hj, List.getD_cons_succ]
      congr 1; omega
    · rw [if_neg h1]
      by_cases h2 : b = a
      · subst h2; rw [if_pos rfl, if_pos (by omega), Nat.sub_self, List.getD_cons_zero]
      · rw [if_neg h2, if_neg (by omega)]

/-- A write leaves every other key alone. -/
theorem sget_swrite_other (m : Sparse w) (a b : Nat) (xs : List (BitVec w)) (h : swf m = true)
    (hb : b < a ∨ a + xs.length ≤ b) : sget (swrite m a xs) b = sget m b := by
  rw [sget_swrite m a b xs h, if_neg (by omega)]

theorem sread_length (m : Sparse w) (a n : Nat) : (sread m a n).length = n := by simp [sread]

/-- Reading back what was written. -/
theorem sread_swrite (m : Sparse w) (a : Nat) (xs : List (BitVec w)) (h : swf m = true) :
    sread (swrite m a xs) a xs.length = xs := by
  apply List.ext_getElem (by simp [sread])
  intro i h1 h2
  simp only [sread, List.getElem_map, List.getElem_range]
  rw [sget_swrite m a _ xs h, if_pos (by omega), Nat.add_sub_cancel_left]
  simp [List.getD, h2]

end Sys2Proof.Machine
end

