-- ==== Sys2Proof/Laws/Memory.lean ====
section
/-! SUPPORT. Device memory, the host's memory and scratchpad shares: each operation's effect once, and the canonical form kept. -/
namespace Sys2Proof.Machine

/-- Clearing bad-word bits changes no byte. -/
@[simp] theorem enterWaiting_mem (s : State) (die : Nat) : (enterWaiting s die).mem = s.mem := by
  unfold enterWaiting; simp only; split
  · rfl
  · split <;> rfl
@[simp] theorem healWords_mem (s : State) (pa n : Nat) : (healWords s pa n).mem = s.mem := by
  unfold healWords; simp only; split <;> simp
@[simp] theorem enterWaiting_hostmem (s : State) (die : Nat) : (enterWaiting s die).hostmem = s.hostmem := by
  unfold enterWaiting; simp only; split
  · rfl
  · split <;> rfl
@[simp] theorem healWords_hostmem (s : State) (pa n : Nat) : (healWords s pa n).hostmem = s.hostmem := by
  unfold healWords; simp only; split <;> simp
@[simp] theorem enterWaiting_wkgs (s : State) (die : Nat) : (enterWaiting s die).wkgs = s.wkgs := by
  unfold enterWaiting; simp only; split
  · rfl
  · split <;> rfl
@[simp] theorem healWords_wkgs (s : State) (pa n : Nat) : (healWords s pa n).wkgs = s.wkgs := by
  unfold healWords; simp only; split <;> simp
@[simp] theorem enterWaiting_remains (s : State) (die : Nat) : (enterWaiting s die).remains = s.remains := by
  unfold enterWaiting; simp only; split
  · rfl
  · split <;> rfl
@[simp] theorem healWords_remains (s : State) (pa n : Nat) : (healWords s pa n).remains = s.remains := by
  unfold healWords; simp only; split <;> simp

/-- A write to device memory writes those bytes. -/
@[simp] theorem pwrite_mem (s : State) (pa : Nat) (d : List Byte) : (pwrite s pa d).mem = swrite s.mem pa d := by simp [pwrite]
@[simp] theorem pwrite_hostmem (s : State) (pa : Nat) (d : List Byte) : (pwrite s pa d).hostmem = s.hostmem := by simp [pwrite]
@[simp] theorem pwrite_wkgs (s : State) (pa : Nat) (d : List Byte) : (pwrite s pa d).wkgs = s.wkgs := by simp [pwrite]
@[simp] theorem pwrite_remains (s : State) (pa : Nat) (d : List Byte) : (pwrite s pa d).remains = s.remains := by simp [pwrite]

/-- A fold whose every step keeps a component keeps it. -/
theorem foldl_keeps {α β γ : Type} (p : α → γ) (f : α → β → α) (hf : ∀ a b, p (f a b) = p a) (l : List β) (a : α) :
    p (l.foldl f a) = p a := by
  induction l generalizing a with
  | nil => rfl
  | cons x xs ih => rw [List.foldl_cons, ih, hf]

/-- A fold whose every step keeps a property keeps it. -/
theorem foldl_inv {α β : Type} (P : α → Prop) (f : α → β → α) (hf : ∀ a b, P a → P (f a b)) (l : List β) (a : α) (h : P a) :
    P (l.foldl f a) := by
  induction l generalizing a with
  | nil => exact h
  | cons x xs ih => exact ih _ (hf _ _ h)

@[simp] theorem pwriteLong_mem (s : State) (pa : Nat) (d : List Byte) : (pwriteLong s pa d).mem = swrite s.mem pa d := by
  unfold pwriteLong
  rw [foldl_keeps State.mem]
  intro a b; simp only; split <;> simp
@[simp] theorem pwriteLong_hostmem (s : State) (pa : Nat) (d : List Byte) : (pwriteLong s pa d).hostmem = s.hostmem := by
  unfold pwriteLong
  rw [foldl_keeps State.hostmem]
  intro a b; simp only; split <;> simp
@[simp] theorem pwriteLong_wkgs (s : State) (pa : Nat) (d : List Byte) : (pwriteLong s pa d).wkgs = s.wkgs := by
  unfold pwriteLong
  rw [foldl_keeps State.wkgs]
  intro a b; simp only; split <;> simp
@[simp] theorem pwriteLong_remains (s : State) (pa : Nat) (d : List Byte) : (pwriteLong s pa d).remains = s.remains := by
  unfold pwriteLong
  rw [foldl_keeps State.remains]
  intro a b; simp only; split <;> simp

@[simp] theorem hwrite_hostmem (s : State) (a : Nat) (d : List Byte) : (hwrite s a d).hostmem = swrite s.hostmem a d := rfl
@[simp] theorem hwrite_mem (s : State) (a : Nat) (d : List Byte) : (hwrite s a d).mem = s.mem := rfl
@[simp] theorem hwrite_wkgs (s : State) (a : Nat) (d : List Byte) : (hwrite s a d).wkgs = s.wkgs := rfl
@[simp] theorem hwrite_remains (s : State) (a : Nat) (d : List Byte) : (hwrite s a d).remains = s.remains := rfl

/-- Reading bytes of device memory after writing them gives them. -/
theorem pread_pwrite (s : State) (pa : Nat) (d : List Byte) (h : Memory.wf s.mem = true) :
    pread (pwrite s pa d) pa d.length = d := by
  unfold pread; rw [pwrite_mem]; exact sread_swrite s.mem pa d h

/-- A write leaves every other byte of device memory alone. -/
theorem pwrite_other (s : State) (pa b : Nat) (d : List Byte) (h : Memory.wf s.mem = true) (hb : b < pa ∨ pa + d.length ≤ b) :
    sget (pwrite s pa d).mem b = sget s.mem b := by
  rw [pwrite_mem]; exact sget_swrite_other s.mem pa b d h hb

/-! ### The canonical form -/

theorem pwrite_wf (s : State) (pa : Nat) (d : List Byte) (h : Memory.wf s.mem = true) : Memory.wf (pwrite s pa d).mem = true := by
  rw [pwrite_mem]; exact swrite_wf s.mem pa d h
theorem pwriteLong_wf (s : State) (pa : Nat) (d : List Byte) (h : Memory.wf s.mem = true) :
    Memory.wf (pwriteLong s pa d).mem = true := by rw [pwriteLong_mem]; exact swrite_wf s.mem pa d h
theorem hwrite_wf (s : State) (a : Nat) (d : List Byte) (h : Memory.wf s.hostmem = true) : Memory.wf (hwrite s a d).hostmem = true :=
  swrite_wf s.hostmem a d h

/-- A state whose memories are those of a state with canonical memories. -/
theorem memOk_of_eq {s t : State} (h : s.memOk = true) (h1 : t.mem = s.mem) (h2 : t.hostmem = s.hostmem) (h3 : t.wkgs = s.wkgs)
    (h4 : t.remains = s.remains) : t.memOk = true := by
  unfold State.memOk at *; rw [h1, h2, h3, h4]; exact h

theorem memOk_mem {s : State} (h : s.memOk = true) : Memory.wf s.mem = true := by
  simp only [State.memOk, Bool.and_eq_true] at h; exact h.1.1.1
theorem memOk_hostmem {s : State} (h : s.memOk = true) : Memory.wf s.hostmem = true := by
  simp only [State.memOk, Bool.and_eq_true] at h; exact h.1.1.2

/-- Every memory operation keeps all memories canonical. -/
theorem pwrite_memOk (s : State) (pa : Nat) (d : List Byte) (h : s.memOk = true) : (pwrite s pa d).memOk = true := by
  have h1 := pwrite_wf s pa d (memOk_mem h)
  simp only [State.memOk, Bool.and_eq_true, pwrite_hostmem, pwrite_wkgs, pwrite_remains] at *
  exact ⟨⟨⟨h1, h.1.1.2⟩, h.1.2⟩, h.2⟩
theorem pwriteLong_memOk (s : State) (pa : Nat) (d : List Byte) (h : s.memOk = true) : (pwriteLong s pa d).memOk = true := by
  have h1 := pwriteLong_wf s pa d (memOk_mem h)
  simp only [State.memOk, Bool.and_eq_true, pwriteLong_hostmem, pwriteLong_wkgs, pwriteLong_remains] at *
  exact ⟨⟨⟨h1, h.1.1.2⟩, h.1.2⟩, h.2⟩
theorem hwrite_memOk (s : State) (a : Nat) (d : List Byte) (h : s.memOk = true) : (hwrite s a d).memOk = true := by
  have h1 := hwrite_wf s a d (memOk_hostmem h)
  simp only [State.memOk, Bool.and_eq_true, hwrite_mem, hwrite_wkgs, hwrite_remains] at *
  exact ⟨⟨⟨h.1.1.1, h1⟩, h.1.2⟩, h.2⟩
/-! ### What a reader meets changes no memory -/

/-- The four memories that `State.memOk` speaks of. -/
abbrev State.memories (s : State) : Sparse 8 × Sparse 8 × List Workgroup × List Remains := (s.mem, s.hostmem, s.wkgs, s.remains)

theorem memOk_memories {s t : State} (h : s.memOk = true) (e : t.memories = s.memories) : t.memOk = true := by
  simp only [State.memories, Prod.mk.injEq] at e
  exact memOk_of_eq h e.1 e.2.1 e.2.2.1 e.2.2.2

theorem pushRecord_memories (s : State) (w : Nat) (e : List Byte) : (pushRecord s w e).memories = s.memories := by
  unfold pushRecord pushEvent; simp only; split <;> simp
theorem writeErr_memories (s : State) (r : ErrRec) : (writeErr s r).memories = s.memories := by
  unfold writeErr writeErrTo
  simp only [↓reduceIte]
  rw [pushRecord_memories]
  split
  · rw [pushRecord_memories]; simp
  · simp
theorem markPart_memories (s : State) (part reason : Nat) : (markPart s part reason).memories = s.memories := by
  unfold markPart
  split
  · unfold markClusters
    exact foldl_keeps State.memories _ (fun a b => by unfold markCluster; split <;> rfl) _ _
  · rfl
theorem enterHeld_memories (s : State) (line : Nat) (mask : Byte) (seq : Word) (part : Option Nat) :
    (enterHeld s line mask seq part).memories = s.memories := by
  unfold enterHeld
  simp only
  split
  · rfl
  · split
    · rfl
    · split
      · rw [markPart_memories]
      · rw [writeErr_memories]
theorem countCorrected_memories (s : State) (die hop synd addr : Nat) (part : Option Nat) (core : Nat) :
    (countCorrected s die hop synd addr part core).memories = s.memories := by
  unfold countCorrected
  simp only
  split
  · rfl
  · split
    · rw [writeErr_memories]; rfl
    · rfl
theorem seeFlaw_memories (s : State) (line : Nat) (part : Option Nat) (core : Nat) : (seeFlaw s line part core).memories = s.memories := by
  unfold seeFlaw
  simp only
  split
  · rw [countCorrected_memories]
  · rw [enterHeld_memories, writeErr_memories]
  · rfl
theorem seeSpan_memories (s : State) (die pa n : Nat) (part : Option Nat) (core : Nat) :
    (seeSpan s die pa n part core).memories = s.memories := by
  unfold seeSpan
  split
  · rfl
  · exact foldl_keeps State.memories _ (fun a b => seeFlaw_memories a b part core) _ _
/-- A walk changes no memory. -/
theorem seeWalk_memories (s : State) (core die part va : Nat) : (seeWalk s core die part va).memories = s.memories := by
  unfold seeWalk
  split
  · rfl
  · exact foldl_keeps State.memories _ (fun a b => seeSpan_memories a die b 8 _ _) _ _

/-- Where no check code shows an error, looking at one changes nothing. -/
theorem seeSpan_clean {s : State} (h : s.flaws = []) (die pa n : Nat) (part : Option Nat) (core : Nat) :
    seeSpan s die pa n part core = s := by simp [seeSpan, h]
theorem seeWalk_clean {s : State} (h : s.flaws = []) (core die part va : Nat) : seeWalk s core die part va = s := by simp [seeWalk, h]
theorem seeVaOf_clean {s : State} (h : s.flaws = []) (core die part va n : Nat) (need : Need) :
    seeVaOf s core die part va n need = s := by simp [seeVaOf, h]
theorem seeVaOf_memories (s : State) (core die part va n : Nat) (need : Need) :
    (seeVaOf s core die part va n need).memories = s.memories := by
  unfold seeVaOf
  simp only
  split
  · rfl
  · split
    · rw [seeSpan_memories, seeWalk_memories]
    · rw [seeWalk_memories]

/-- A write of the hardware's own stores its bytes or changes nothing. -/
theorem hwWrite_memOk (s : State) (die pa : Nat) (d : List Byte) (h : s.memOk = true) : (hwWrite s die pa d).memOk = true := by
  unfold hwWrite
  split
  · exact pwriteLong_memOk _ _ _ h
  · exact h

theorem writeVa_memOk (s : State) (core die part va : Nat) (d : List Byte) (h : s.memOk = true) :
    (writeVa s core die part va d).memOk = true := by
  have hs := memOk_memories h (seeWalk_memories s core die part va)
  unfold writeVa
  simp only
  split
  · split
    · exact pwrite_memOk _ _ _ hs
    · exact hs
  · exact hs
theorem setSlotState_memOk (s : State) (g : Group) (q : TaskQ) (c : Word) (st : Nat) (h : s.memOk = true) :
    (setSlotState s g q c st).memOk = true := by
  unfold setSlotState; split
  · exact writeVa_memOk _ _ _ _ _ _ h
  · exact memOk_memories h (seeWalk_memories ..)

/-- Storing a share with a canonical memory. -/
theorem setWkg_memOk (s : State) (x : Workgroup) (h : s.memOk = true) (hx : Memory.wf x.data = true) : (s.setWkg x).memOk = true := by
  simp only [State.memOk, Bool.and_eq_true, State.setWkg_mem, State.setWkg_hostmem, State.setWkg_remains] at *
  refine ⟨⟨h.1.1, ?_⟩, h.2⟩
  simp only [State.setWkg, List.all_map, List.all_eq_true] at *
  intro w hw
  simp only [Function.comp]
  split
  · exact hx
  · exact h.1.2 w hw

/-- The reset state lists nothing. -/
theorem reset_memOk : State.reset.memOk = true := by decide

end Sys2Proof.Machine
end

