-- ==== Sys2Proof/Laws/PerInstr.lean ====
section
/-! SUPPORT. Statements made for every constructor of Instr. RoundTrip: the words that encode writes for a well-formed instruction are
read back as that instruction (R65, R258, R284), whatever follows them. -/
namespace Sys2Proof.Laws.RoundTrip

/-- What RoundTrip says of one instruction: a pilot operation's word through the pilot decoder, any other instruction's bytes through the
core decoder; an event has no words. -/
def Statement (i : Instr) : Prop :=
  i.wf = true →
    (pilotOf i = true → ∃ w, encode i = [w] ∧ decodePilot w = .ok i) ∧
    (pilotOf i = false → encode i ≠ [] → ∀ rest, decode (encodeBytes i ++ rest) = .ok (i, rest))

theorem of_event {i : Instr} (hp : pilotOf i = false) (he : encode i = []) : Statement i :=
  fun _ => ⟨fun h => absurd (hp.symm.trans h) Bool.false_ne_true, fun _ h => absurd he h⟩

theorem of_core {i : Instr} (hp : pilotOf i = false) (h : i.wf = true → ∀ rest, decode (encodeBytes i ++ rest) = .ok (i, rest)) :
    Statement i :=
  fun hw => ⟨fun hq => absurd (hp.symm.trans hq) Bool.false_ne_true, fun _ _ => h hw⟩

theorem of_pilot {i : Instr} {w : Word} (hp : pilotOf i = true) (he : encode i = [w]) (h : i.wf = true → decodePilot w = .ok i) :
    Statement i :=
  fun hw => ⟨fun _ => ⟨w, he, h hw⟩, fun hq => absurd (hp.symm.trans hq) (fun e => Bool.noConfusion e)⟩

theorem of_plain {i : Instr} (op : Byte) (o : LOp) (hp : pilotOf i = false) (he : encode i = encL op o)
    (hl : ∀ w0 w1 w2, lInstr op.toNat w0 w1 w2 = none) (hi : i.wf = true → plainInstr op.toNat o = some (some i)) : Statement i :=
  of_core hp fun hw rest => by unfold encodeBytes; rw [he]; exact decode_plain op o i rest hl (hi hw) hw

theorem ferryWrite (w : Nat) (d : FerryDesc) : Statement (Instr.ferryWrite w d) := of_event rfl rfl
theorem ferryRead (w : Nat) (d : FerryDesc) : Statement (Instr.ferryRead w d) := of_event rfl rfl
theorem ferryTail (w : Nat) (d : FerryDesc) : Statement (Instr.ferryTail w d) := of_event rfl rfl
theorem ferryRearm (w : Nat) (d : FerryDesc) : Statement (Instr.ferryRearm w d) := of_event rfl rfl
theorem ferryLaunch (w : Nat) (d : FerryDesc) : Statement (Instr.ferryLaunch w d) := of_event rfl rfl
theorem sealRange (w : Nat) (d : FerryDesc) : Statement (Instr.sealRange w d) := of_event rfl rfl
theorem inval (w : Nat) (d : FerryDesc) : Statement (Instr.inval w d) := of_event rfl rfl
theorem service (w : Nat) (d : FerryDesc) : Statement (Instr.service w d) := of_event rfl rfl
theorem budget (w : Nat) (d : FerryDesc) : Statement (Instr.budget w d) := of_event rfl rfl
theorem modeset (w : Nat) (d : FerryDesc) : Statement (Instr.modeset w d) := of_event rfl rfl
theorem thresh (w : Nat) (d : FerryDesc) : Statement (Instr.thresh w d) := of_event rfl rfl
theorem pcreate (w : Nat) (d : FerryDesc) : Statement (Instr.pcreate w d) := of_event rfl rfl
theorem pdestroy (w : Nat) (d : FerryDesc) : Statement (Instr.pdestroy w d) := of_event rfl rfl
theorem ferryBadop (w : Nat) (d : FerryDesc) : Statement (Instr.ferryBadop w d) := of_event rfl rfl
theorem ldp (d : BitVec 3) (sz : BitVec 3) (imm : BitVec 18) : Statement (Instr.ldp d sz imm) := of_pilot rfl rfl (decode_pilot 0x00 d 0 sz imm _ (by decide) rfl)
theorem ldq (d : BitVec 3) (sz : BitVec 3) (imm : BitVec 18) : Statement (Instr.ldq d sz imm) := of_pilot rfl rfl (decode_pilot 0x01 d 0 sz imm _ (by decide) rfl)
theorem stq (a : BitVec 3) (sz : BitVec 3) (imm : BitVec 18) : Statement (Instr.stq a sz imm) := of_pilot rfl rfl (decode_pilot 0x02 0 a sz imm _ (by decide) rfl)
theorem ldi (d : BitVec 3) (imm : BitVec 18) : Statement (Instr.ldi d imm) := of_pilot rfl rfl (decode_pilot 0x03 d 0 0 imm _ (by decide) rfl)
theorem pilotAdd (d a b : BitVec 3) : Statement (Instr.pilotAdd d a b) := of_pilot rfl rfl (decode_pilot 0x04 d a b 0 _ (by decide) rfl)
theorem pilotSub (d a b : BitVec 3) : Statement (Instr.pilotSub d a b) := of_pilot rfl rfl (decode_pilot 0x05 d a b 0 _ (by decide) rfl)
theorem pilotAddi (d a : BitVec 3) (imm : BitVec 18) : Statement (Instr.pilotAddi d a imm) := of_pilot rfl rfl (decode_pilot 0x06 d a 0 imm _ (by decide) rfl)
theorem pilotAnd (d a b : BitVec 3) : Statement (Instr.pilotAnd d a b) := of_pilot rfl rfl (decode_pilot 0x07 d a b 0 _ (by decide) rfl)
theorem pilotOr (d a b : BitVec 3) : Statement (Instr.pilotOr d a b) := of_pilot rfl rfl (decode_pilot 0x08 d a b 0 _ (by decide) rfl)
theorem pilotXor (d a b : BitVec 3) : Statement (Instr.pilotXor d a b) := of_pilot rfl rfl (decode_pilot 0x09 d a b 0 _ (by decide) rfl)
theorem pilotShl (d a : BitVec 3) (imm : BitVec 18) : Statement (Instr.pilotShl d a imm) := of_pilot rfl rfl (decode_pilot 0x0A d a 0 imm _ (by decide) rfl)
theorem pilotShr (d a : BitVec 3) (imm : BitVec 18) : Statement (Instr.pilotShr d a imm) := of_pilot rfl rfl (decode_pilot 0x0B d a 0 imm _ (by decide) rfl)
theorem beq (a b : BitVec 3) (imm : BitVec 18) : Statement (Instr.beq a b imm) := of_pilot rfl rfl (decode_pilot 0x0C 0 a b imm _ (by decide) rfl)
theorem bne (a b : BitVec 3) (imm : BitVec 18) : Statement (Instr.bne a b imm) := of_pilot rfl rfl (decode_pilot 0x0D 0 a b imm _ (by decide) rfl)
theorem bltu (a b : BitVec 3) (imm : BitVec 18) : Statement (Instr.bltu a b imm) := of_pilot rfl rfl (decode_pilot 0x0E 0 a b imm _ (by decide) rfl)
theorem loop (d a : BitVec 3) (imm : BitVec 18) : Statement (Instr.loop d a imm) := of_pilot rfl rfl (decode_pilot 0x0F d a 0 imm _ (by decide) rfl)
theorem stl (a : BitVec 3) (sz : BitVec 3) (imm : BitVec 18) : Statement (Instr.stl a sz imm) := of_pilot rfl rfl (decode_pilot 0x10 0 a sz imm _ (by decide) rfl)
theorem pilotLaunch (d : BitVec 3) : Statement (Instr.pilotLaunch d) := of_pilot rfl rfl (decode_pilot 0x11 d 0 0 0 _ (by decide) rfl)
theorem emit (a : BitVec 3) : Statement (Instr.emit a) := of_pilot rfl rfl (decode_pilot 0x15 0 a 0 0 _ (by decide) rfl)
theorem fault (imm : BitVec 18) : Statement (Instr.fault imm) := of_pilot rfl rfl (decode_pilot 0x17 0 0 0 imm _ (by decide) rfl)
theorem unallocatedOpcode (why : DecodeError) (w : List Word) : Statement (Instr.unallocatedOpcode why w) := of_event rfl rfl
theorem iaddS (o : SOp) : Statement (Instr.iaddS o) :=
  of_core rfl fun hw rest => decode_s 0x01 o _ rest (by decide) rfl hw
theorem isubS (o : SOp) : Statement (Instr.isubS o) :=
  of_core rfl fun hw rest => decode_s 0x02 o _ rest (by decide) rfl hw
theorem imulS (o : SOp) : Statement (Instr.imulS o) :=
  of_core rfl fun hw rest => decode_s 0x03 o _ rest (by decide) rfl hw
theorem imulhS (o : SOp) : Statement (Instr.imulhS o) :=
  of_core rfl fun hw rest => decode_s 0x04 o _ rest (by decide) rfl hw
theorem iminS (o : SOp) : Statement (Instr.iminS o) :=
  of_core rfl fun hw rest => decode_s 0x05 o _ rest (by decide) rfl hw
theorem imaxS (o : SOp) : Statement (Instr.imaxS o) :=
  of_core rfl fun hw rest => decode_s 0x06 o _ rest (by decide) rfl hw
theorem iabsS (o : SOp) : Statement (Instr.iabsS o) :=
  of_core rfl fun hw rest => decode_s 0x07 o _ rest (by decide) rfl hw
theorem inegS (o : SOp) : Statement (Instr.inegS o) :=
  of_core rfl fun hw rest => decode_s 0x08 o _ rest (by decide) rfl hw
theorem andS (o : SOp) : Statement (Instr.andS o) :=
  of_core rfl fun hw rest => decode_s 0x09 o _ rest (by decide) rfl hw
theorem orS (o : SOp) : Statement (Instr.orS o) :=
  of_core rfl fun hw rest => decode_s 0x0A o _ rest (by decide) rfl hw
theorem xorS (o : SOp) : Statement (Instr.xorS o) :=
  of_core rfl fun hw rest => decode_s 0x0B o _ rest (by decide) rfl hw
theorem andnS (o : SOp) : Statement (Instr.andnS o) :=
  of_core rfl fun hw rest => decode_s 0x0C o _ rest (by decide) rfl hw
theorem notS (o : SOp) : Statement (Instr.notS o) :=
  of_core rfl fun hw rest => decode_s 0x0D o _ rest (by decide) rfl hw
theorem shlS (o : SOp) : Statement (Instr.shlS o) :=
  of_core rfl fun hw rest => decode_s 0x0E o _ rest (by decide) rfl hw
theorem shrS (o : SOp) : Statement (Instr.shrS o) :=
  of_core rfl fun hw rest => decode_s 0x0F o _ rest (by decide) rfl hw
theorem sarS (o : SOp) : Statement (Instr.sarS o) :=
  of_core rfl fun hw rest => decode_s 0x10 o _ rest (by decide) rfl hw
theorem rotS (o : SOp) : Statement (Instr.rotS o) :=
  of_core rfl fun hw rest => decode_s 0x11 o _ rest (by decide) rfl hw
theorem popcS (o : SOp) : Statement (Instr.popcS o) :=
  of_core rfl fun hw rest => decode_s 0x12 o _ rest (by decide) rfl hw
theorem clzS (o : SOp) : Statement (Instr.clzS o) :=
  of_core rfl fun hw rest => decode_s 0x13 o _ rest (by decide) rfl hw
theorem brevS (o : SOp) : Statement (Instr.brevS o) :=
  of_core rfl fun hw rest => decode_s 0x14 o _ rest (by decide) rfl hw
theorem movS (o : SOp) : Statement (Instr.movS o) :=
  of_core rfl fun hw rest => decode_s 0x15 o _ rest (by decide) rfl hw
theorem faddS (o : SOp) : Statement (Instr.faddS o) :=
  of_core rfl fun hw rest => decode_s 0x20 o _ rest (by decide) rfl hw
theorem fsubS (o : SOp) : Statement (Instr.fsubS o) :=
  of_core rfl fun hw rest => decode_s 0x21 o _ rest (by decide) rfl hw
theorem fmulS (o : SOp) : Statement (Instr.fmulS o) :=
  of_core rfl fun hw rest => decode_s 0x22 o _ rest (by decide) rfl hw
theorem fmulzS (o : SOp) : Statement (Instr.fmulzS o) :=
  of_core rfl fun hw rest => decode_s 0x23 o _ rest (by decide) rfl hw
theorem fminS (o : SOp) : Statement (Instr.fminS o) :=
  of_core rfl fun hw rest => decode_s 0x24 o _ rest (by decide) rfl hw
theorem fmaxS (o : SOp) : Statement (Instr.fmaxS o) :=
  of_core rfl fun hw rest => decode_s 0x25 o _ rest (by decide) rfl hw
theorem frcpS (o : SOp) : Statement (Instr.frcpS o) :=
  of_core rfl fun hw rest => decode_s 0x26 o _ rest (by decide) rfl hw
theorem frsqS (o : SOp) : Statement (Instr.frsqS o) :=
  of_core rfl fun hw rest => decode_s 0x27 o _ rest (by decide) rfl hw
theorem fsqrtS (o : SOp) : Statement (Instr.fsqrtS o) :=
  of_core rfl fun hw rest => decode_s 0x28 o _ rest (by decide) rfl hw
theorem fexp2S (o : SOp) : Statement (Instr.fexp2S o) :=
  of_core rfl fun hw rest => decode_s 0x29 o _ rest (by decide) rfl hw
theorem flog2S (o : SOp) : Statement (Instr.flog2S o) :=
  of_core rfl fun hw rest => decode_s 0x2A o _ rest (by decide) rfl hw
theorem fsinS (o : SOp) : Statement (Instr.fsinS o) :=
  of_core rfl fun hw rest => decode_s 0x2B o _ rest (by decide) rfl hw
theorem fcosS (o : SOp) : Statement (Instr.fcosS o) :=
  of_core rfl fun hw rest => decode_s 0x2C o _ rest (by decide) rfl hw
theorem ftanhS (o : SOp) : Statement (Instr.ftanhS o) :=
  of_core rfl fun hw rest => decode_s 0x2D o _ rest (by decide) rfl hw
theorem endTrace (o : CtlOp) : Statement (Instr.endTrace o) :=
  of_core rfl fun hw rest => decode_ctl 0x01 o _ rest (fun _ _ _ h => h ▸ rfl) hw
theorem endx (o : LOp) : Statement (Instr.endx o) := of_plain 0x02 o rfl rfl (fun _ _ _ => rfl) (fun _ => rfl)
theorem join (o : CtlOp) : Statement (Instr.join o) :=
  of_core rfl fun hw rest => decode_ctl 0x03 o _ rest (fun _ _ _ h => h ▸ rfl) hw
theorem guard (o : CtlOp) : Statement (Instr.guard o) :=
  of_core rfl fun hw rest => decode_ctl 0x05 o _ rest (fun _ _ _ h => h ▸ rfl) hw
theorem guardc (o : CtlOp) : Statement (Instr.guardc o) :=
  of_core rfl fun hw rest => decode_ctl 0x06 o _ rest (fun _ _ _ h => h ▸ rfl) hw
theorem callt (o : CtlOp) : Statement (Instr.callt o) :=
  of_core rfl fun hw rest => decode_ctl 0x07 o _ rest (fun _ _ _ h => h ▸ rfl) hw
theorem trap (o : LOp) : Statement (Instr.trap o) := of_plain 0x09 o rfl rfl (fun _ _ _ => rfl) (fun _ => rfl)
theorem brk (o : LOp) : Statement (Instr.brk o) := of_plain 0x0A o rfl rfl (fun _ _ _ => rfl) (fun _ => rfl)
theorem plogic (o : LOp) : Statement (Instr.plogic o) := of_plain 0x10 o rfl rfl (fun _ _ _ => rfl) (fun _ => rfl)
theorem pnot (o : LOp) : Statement (Instr.pnot o) := of_plain 0x11 o rfl rfl (fun _ _ _ => rfl) (fun _ => rfl)
theorem pmov (o : LOp) : Statement (Instr.pmov o) := of_plain 0x12 o rfl rfl (fun _ _ _ => rfl) (fun _ => rfl)
theorem pvote (o : LOp) : Statement (Instr.pvote o) := of_plain 0x13 o rfl rfl (fun _ _ _ => rfl) (fun _ => rfl)
theorem ptov (o : LOp) : Statement (Instr.ptov o) := of_plain 0x14 o rfl rfl (fun _ _ _ => rfl) (fun _ => rfl)
theorem vtop (o : LOp) : Statement (Instr.vtop o) := of_plain 0x15 o rfl rfl (fun _ _ _ => rfl) (fun _ => rfl)
theorem pforce (o : LOp) : Statement (Instr.pforce o) := of_plain 0x16 o rfl rfl (fun _ _ _ => rfl) (fun _ => rfl)
theorem waitp (o : LOp) : Statement (Instr.waitp o) := of_plain 0x18 o rfl rfl (fun _ _ _ => rfl) (fun _ => rfl)
theorem waitseq (o : LOp) : Statement (Instr.waitseq o) := of_plain 0x19 o rfl rfl (fun _ _ _ => rfl) (fun _ => rfl)
theorem bar (o : CtlOp) : Statement (Instr.bar o) :=
  of_core rfl fun hw rest => decode_ctl 0x1A o _ rest (fun _ _ _ h => h ▸ rfl) hw
theorem cbar (o : CtlOp) : Statement (Instr.cbar o) :=
  of_core rfl fun hw rest => decode_ctl 0x1B o _ rest (fun _ _ _ h => h ▸ rfl) hw
theorem fence (o : LOp) : Statement (Instr.fence o) := of_plain 0x1C o rfl rfl (fun _ _ _ => rfl) (fun _ => rfl)
theorem qfence (o : LOp) : Statement (Instr.qfence o) := of_plain 0x1D o rfl rfl (fun _ _ _ => rfl) (fun _ => rfl)
theorem qopen (o : LOp) : Statement (Instr.qopen o) := of_plain 0x1E o rfl rfl (fun _ _ _ => rfl) (fun _ => rfl)
theorem qclose (o : LOp) : Statement (Instr.qclose o) := of_plain 0x1F o rfl rfl (fun _ _ _ => rfl) (fun _ => rfl)
theorem pushq (o : CtlOp) : Statement (Instr.pushq o) :=
  of_core rfl fun hw rest => decode_ctl 0x20 o _ rest (fun _ _ _ h => h ▸ rfl) hw
theorem popq (o : CtlOp) : Statement (Instr.popq o) :=
  of_core rfl fun hw rest => decode_ctl 0x21 o _ rest (fun _ _ _ h => h ▸ rfl) hw
theorem qstat (o : LOp) : Statement (Instr.qstat o) := of_plain 0x22 o rfl rfl (fun _ _ _ => rfl) (fun _ => rfl)
theorem ticket (o : LOp) : Statement (Instr.ticket o) := of_plain 0x25 o rfl rfl (fun _ _ _ => rfl) (fun _ => rfl)
theorem spawn (o : LOp) : Statement (Instr.spawn o) := of_plain 0x26 o rfl rfl (fun _ _ _ => rfl) (fun _ => rfl)
theorem iadd (o : LOp) : Statement (Instr.iadd o) := of_plain 0x30 o rfl rfl (fun _ _ _ => rfl) (fun _ => rfl)
theorem isub (o : LOp) : Statement (Instr.isub o) := of_plain 0x31 o rfl rfl (fun _ _ _ => rfl) (fun _ => rfl)
theorem iaddc (o : LOp) : Statement (Instr.iaddc o) := of_plain 0x32 o rfl rfl (fun _ _ _ => rfl) (fun _ => rfl)
theorem imul (o : LOp) : Statement (Instr.imul o) := of_plain 0x33 o rfl rfl (fun _ _ _ => rfl) (fun _ => rfl)
theorem imulh (o : LOp) : Statement (Instr.imulh o) := of_plain 0x34 o rfl rfl (fun _ _ _ => rfl) (fun _ => rfl)
theorem imad (o : LOp) : Statement (Instr.imad o) := of_plain 0x35 o rfl rfl (fun _ _ _ => rfl) (fun _ => rfl)
theorem imin (o : LOp) : Statement (Instr.imin o) := of_plain 0x36 o rfl rfl (fun _ _ _ => rfl) (fun _ => rfl)
theorem imax (o : LOp) : Statement (Instr.imax o) := of_plain 0x37 o rfl rfl (fun _ _ _ => rfl) (fun _ => rfl)
theorem iabs (o : LOp) : Statement (Instr.iabs o) := of_plain 0x38 o rfl rfl (fun _ _ _ => rfl) (fun _ => rfl)
theorem ineg (o : LOp) : Statement (Instr.ineg o) := of_plain 0x39 o rfl rfl (fun _ _ _ => rfl) (fun _ => rfl)
theorem and (o : LOp) : Statement (Instr.and o) := of_plain 0x3A o rfl rfl (fun _ _ _ => rfl) (fun _ => rfl)
theorem or (o : LOp) : Statement (Instr.or o) := of_plain 0x3B o rfl rfl (fun _ _ _ => rfl) (fun _ => rfl)
theorem xor (o : LOp) : Statement (Instr.xor o) := of_plain 0x3C o rfl rfl (fun _ _ _ => rfl) (fun _ => rfl)
theorem andn (o : LOp) : Statement (Instr.andn o) := of_plain 0x3D o rfl rfl (fun _ _ _ => rfl) (fun _ => rfl)
theorem not (o : LOp) : Statement (Instr.not o) := of_plain 0x3E o rfl rfl (fun _ _ _ => rfl) (fun _ => rfl)
theorem shl (o : LOp) : Statement (Instr.shl o) := of_plain 0x3F o rfl rfl (fun _ _ _ => rfl) (fun _ => rfl)
theorem shr (o : LOp) : Statement (Instr.shr o) := of_plain 0x40 o rfl rfl (fun _ _ _ => rfl) (fun _ => rfl)
theorem sar (o : LOp) : Statement (Instr.sar o) := of_plain 0x41 o rfl rfl (fun _ _ _ => rfl) (fun _ => rfl)
theorem rot (o : LOp) : Statement (Instr.rot o) := of_plain 0x42 o rfl rfl (fun _ _ _ => rfl) (fun _ => rfl)
theorem bfe (o : LOp) : Statement (Instr.bfe o) := of_plain 0x43 o rfl rfl (fun _ _ _ => rfl) (fun _ => rfl)
theorem bfi (o : LOp) : Statement (Instr.bfi o) := of_plain 0x44 o rfl rfl (fun _ _ _ => rfl) (fun _ => rfl)
theorem popc (o : LOp) : Statement (Instr.popc o) := of_plain 0x45 o rfl rfl (fun _ _ _ => rfl) (fun _ => rfl)
theorem clz (o : LOp) : Statement (Instr.clz o) := of_plain 0x46 o rfl rfl (fun _ _ _ => rfl) (fun _ => rfl)
theorem brev (o : LOp) : Statement (Instr.brev o) := of_plain 0x47 o rfl rfl (fun _ _ _ => rfl) (fun _ => rfl)
theorem icmp (o : LOp) : Statement (Instr.icmp o) := of_plain 0x48 o rfl rfl (fun _ _ _ => rfl) (fun _ => rfl)
theorem sel (o : LOp) : Statement (Instr.sel o) := of_plain 0x49 o rfl rfl (fun _ _ _ => rfl) (fun _ => rfl)
theorem lea (o : LOp) : Statement (Instr.lea o) := of_plain 0x4A o rfl rfl (fun _ _ _ => rfl) (fun _ => rfl)
theorem mov (o : LOp) : Statement (Instr.mov o) := of_plain 0x4B o rfl rfl (fun _ _ _ => rfl) (fun _ => rfl)
theorem movi (o : LOp) : Statement (Instr.movi o) := of_plain 0x4C o rfl rfl (fun _ _ _ => rfl) (fun _ => rfl)
theorem fadd (o : LOp) : Statement (Instr.fadd o) := of_plain 0x50 o rfl rfl (fun _ _ _ => rfl) (fun _ => rfl)
theorem fsub (o : LOp) : Statement (Instr.fsub o) := of_plain 0x51 o rfl rfl (fun _ _ _ => rfl) (fun _ => rfl)
theorem fmul (o : LOp) : Statement (Instr.fmul o) := of_plain 0x52 o rfl rfl (fun _ _ _ => rfl) (fun _ => rfl)
theorem fmulz (o : LOp) : Statement (Instr.fmulz o) := of_plain 0x53 o rfl rfl (fun _ _ _ => rfl) (fun _ => rfl)
theorem fma (o : LOp) : Statement (Instr.fma o) := of_plain 0x54 o rfl rfl (fun _ _ _ => rfl) (fun _ => rfl)
theorem fmaz (o : LOp) : Statement (Instr.fmaz o) := of_plain 0x55 o rfl rfl (fun _ _ _ => rfl) (fun _ => rfl)
theorem fmin (o : LOp) : Statement (Instr.fmin o) := of_plain 0x56 o rfl rfl (fun _ _ _ => rfl) (fun _ => rfl)
theorem fmax (o : LOp) : Statement (Instr.fmax o) := of_plain 0x57 o rfl rfl (fun _ _ _ => rfl) (fun _ => rfl)
theorem fcmp (o : LOp) : Statement (Instr.fcmp o) := of_plain 0x58 o rfl rfl (fun _ _ _ => rfl) (fun _ => rfl)
theorem fclass (o : LOp) : Statement (Instr.fclass o) := of_plain 0x59 o rfl rfl (fun _ _ _ => rfl) (fun _ => rfl)
theorem frnd (o : LOp) : Statement (Instr.frnd o) := of_plain 0x5A o rfl rfl (fun _ _ _ => rfl) (fun _ => rfl)
theorem fscale (o : LOp) : Statement (Instr.fscale o) := of_plain 0x5B o rfl rfl (fun _ _ _ => rfl) (fun _ => rfl)
theorem frcp (o : LOp) : Statement (Instr.frcp o) := of_plain 0x5C o rfl rfl (fun _ _ _ => rfl) (fun _ => rfl)
theorem frsq (o : LOp) : Statement (Instr.frsq o) := of_plain 0x5D o rfl rfl (fun _ _ _ => rfl) (fun _ => rfl)
theorem fsqrt (o : LOp) : Statement (Instr.fsqrt o) := of_plain 0x5E o rfl rfl (fun _ _ _ => rfl) (fun _ => rfl)
theorem fexp2 (o : LOp) : Statement (Instr.fexp2 o) := of_plain 0x5F o rfl rfl (fun _ _ _ => rfl) (fun _ => rfl)
theorem flog2 (o : LOp) : Statement (Instr.flog2 o) := of_plain 0x60 o rfl rfl (fun _ _ _ => rfl) (fun _ => rfl)
theorem fsin (o : LOp) : Statement (Instr.fsin o) := of_plain 0x61 o rfl rfl (fun _ _ _ => rfl) (fun _ => rfl)
theorem fcos (o : LOp) : Statement (Instr.fcos o) := of_plain 0x62 o rfl rfl (fun _ _ _ => rfl) (fun _ => rfl)
theorem ftanh (o : LOp) : Statement (Instr.ftanh o) := of_plain 0x63 o rfl rfl (fun _ _ _ => rfl) (fun _ => rfl)
theorem cvt (o : LOp) : Statement (Instr.cvt o) := of_plain 0x68 o rfl rfl (fun _ _ _ => rfl) (fun _ => rfl)
theorem pack (o : LOp) : Statement (Instr.pack o) := of_plain 0x69 o rfl rfl (fun _ _ _ => rfl) (fun _ => rfl)
theorem unpack (o : LOp) : Statement (Instr.unpack o) := of_plain 0x6A o rfl rfl (fun _ _ _ => rfl) (fun _ => rfl)
theorem dot4 (o : LOp) : Statement (Instr.dot4 o) := of_plain 0x6B o rfl rfl (fun _ _ _ => rfl) (fun _ => rfl)
theorem dot8 (o : LOp) : Statement (Instr.dot8 o) := of_plain 0x6C o rfl rfl (fun _ _ _ => rfl) (fun _ => rfl)
theorem bscale (o : LOp) : Statement (Instr.bscale o) := of_plain 0x6D o rfl rfl (fun _ _ _ => rfl) (fun _ => rfl)
theorem ivmake (o : LOp) : Statement (Instr.ivmake o) := of_plain 0x70 o rfl rfl (fun _ _ _ => rfl) (fun _ => rfl)
theorem ivadd (o : LOp) : Statement (Instr.ivadd o) := of_plain 0x71 o rfl rfl (fun _ _ _ => rfl) (fun _ => rfl)
theorem ivsub (o : LOp) : Statement (Instr.ivsub o) := of_plain 0x72 o rfl rfl (fun _ _ _ => rfl) (fun _ => rfl)
theorem ivmul (o : LOp) : Statement (Instr.ivmul o) := of_plain 0x73 o rfl rfl (fun _ _ _ => rfl) (fun _ => rfl)
theorem ivdiv (o : LOp) : Statement (Instr.ivdiv o) := of_plain 0x74 o rfl rfl (fun _ _ _ => rfl) (fun _ => rfl)
theorem ivsqr (o : LOp) : Statement (Instr.ivsqr o) := of_plain 0x75 o rfl rfl (fun _ _ _ => rfl) (fun _ => rfl)
theorem ivsqrt (o : LOp) : Statement (Instr.ivsqrt o) := of_plain 0x76 o rfl rfl (fun _ _ _ => rfl) (fun _ => rfl)
theorem ivhull (o : LOp) : Statement (Instr.ivhull o) := of_plain 0x77 o rfl rfl (fun _ _ _ => rfl) (fun _ => rfl)
theorem ivisect (o : LOp) : Statement (Instr.ivisect o) := of_plain 0x78 o rfl rfl (fun _ _ _ => rfl) (fun _ => rfl)
theorem ivmid (o : LOp) : Statement (Instr.ivmid o) := of_plain 0x79 o rfl rfl (fun _ _ _ => rfl) (fun _ => rfl)
theorem ivwid (o : LOp) : Statement (Instr.ivwid o) := of_plain 0x7A o rfl rfl (fun _ _ _ => rfl) (fun _ => rfl)
theorem ivcmp (o : LOp) : Statement (Instr.ivcmp o) := of_plain 0x7B o rfl rfl (fun _ _ _ => rfl) (fun _ => rfl)
theorem ivsplit (o : LOp) : Statement (Instr.ivsplit o) := of_plain 0x7C o rfl rfl (fun _ _ _ => rfl) (fun _ => rfl)
theorem ivbis (o : LOp) : Statement (Instr.ivbis o) := of_plain 0x7D o rfl rfl (fun _ _ _ => rfl) (fun _ => rfl)
theorem ivld (o : MemOp) : Statement (Instr.ivld o) :=
  of_core rfl fun hw rest => decode_mem 0x7E o _ rest (fun _ _ _ h => h ▸ rfl) hw
theorem ivst (o : MemOp) : Statement (Instr.ivst o) :=
  of_core rfl fun hw rest => decode_mem 0x7F o _ rest (fun _ _ _ h => h ▸ rfl) hw
theorem ivmakeIv16 (o : LOp) : Statement (Instr.ivmakeIv16 o) := of_plain 0x80 o rfl rfl (fun _ _ _ => rfl) (fun _ => rfl)
theorem ivaddIv16 (o : LOp) : Statement (Instr.ivaddIv16 o) := of_plain 0x81 o rfl rfl (fun _ _ _ => rfl) (fun _ => rfl)
theorem ivsubIv16 (o : LOp) : Statement (Instr.ivsubIv16 o) := of_plain 0x82 o rfl rfl (fun _ _ _ => rfl) (fun _ => rfl)
theorem ivmulIv16 (o : LOp) : Statement (Instr.ivmulIv16 o) := of_plain 0x83 o rfl rfl (fun _ _ _ => rfl) (fun _ => rfl)
theorem ivdivIv16 (o : LOp) : Statement (Instr.ivdivIv16 o) := of_plain 0x84 o rfl rfl (fun _ _ _ => rfl) (fun _ => rfl)
theorem ivsqrIv16 (o : LOp) : Statement (Instr.ivsqrIv16 o) := of_plain 0x85 o rfl rfl (fun _ _ _ => rfl) (fun _ => rfl)
theorem ivsqrtIv16 (o : LOp) : Statement (Instr.ivsqrtIv16 o) := of_plain 0x86 o rfl rfl (fun _ _ _ => rfl) (fun _ => rfl)
theorem ivhullIv16 (o : LOp) : Statement (Instr.ivhullIv16 o) := of_plain 0x87 o rfl rfl (fun _ _ _ => rfl) (fun _ => rfl)
theorem ivisectIv16 (o : LOp) : Statement (Instr.ivisectIv16 o) := of_plain 0x88 o rfl rfl (fun _ _ _ => rfl) (fun _ => rfl)
theorem ivmidIv16 (o : LOp) : Statement (Instr.ivmidIv16 o) := of_plain 0x89 o rfl rfl (fun _ _ _ => rfl) (fun _ => rfl)
theorem ivwidIv16 (o : LOp) : Statement (Instr.ivwidIv16 o) := of_plain 0x8A o rfl rfl (fun _ _ _ => rfl) (fun _ => rfl)
theorem ivcmpIv16 (o : LOp) : Statement (Instr.ivcmpIv16 o) := of_plain 0x8B o rfl rfl (fun _ _ _ => rfl) (fun _ => rfl)
theorem ivsplitIv16 (o : LOp) : Statement (Instr.ivsplitIv16 o) := of_plain 0x8C o rfl rfl (fun _ _ _ => rfl) (fun _ => rfl)
theorem ivbisIv16 (o : LOp) : Statement (Instr.ivbisIv16 o) := of_plain 0x8D o rfl rfl (fun _ _ _ => rfl) (fun _ => rfl)
theorem ivldIv16 (o : MemOp) : Statement (Instr.ivldIv16 o) :=
  of_core rfl fun hw rest => decode_mem 0x8E o _ rest (fun _ _ _ h => h ▸ rfl) hw
theorem ivstIv16 (o : MemOp) : Statement (Instr.ivstIv16 o) :=
  of_core rfl fun hw rest => decode_mem 0x8F o _ rest (fun _ _ _ h => h ▸ rfl) hw
theorem shfl (o : LOp) : Statement (Instr.shfl o) := of_plain 0x90 o rfl rfl (fun _ _ _ => rfl) (fun _ => rfl)
theorem qswap (o : LOp) : Statement (Instr.qswap o) := of_plain 0x91 o rfl rfl (fun _ _ _ => rfl) (fun _ => rfl)
theorem qbcast (o : LOp) : Statement (Instr.qbcast o) := of_plain 0x92 o rfl rfl (fun _ _ _ => rfl) (fun _ => rfl)
theorem matchLanes (o : LOp) : Statement (Instr.matchLanes o) := of_plain 0x93 o rfl rfl (fun _ _ _ => rfl) (fun _ => rfl)
theorem redux (o : LOp) : Statement (Instr.redux o) := of_plain 0x94 o rfl rfl (fun _ _ _ => rfl) (fun _ => rfl)
theorem scan (o : LOp) : Statement (Instr.scan o) := of_plain 0x95 o rfl rfl (fun _ _ _ => rfl) (fun _ => rfl)
theorem rdlane (o : LOp) : Statement (Instr.rdlane o) := of_plain 0x96 o rfl rfl (fun _ _ _ => rfl) (fun _ => rfl)
theorem wrlane (o : LOp) : Statement (Instr.wrlane o) := of_plain 0x97 o rfl rfl (fun _ _ _ => rfl) (fun _ => rfl)
theorem ld (o : MemOp) : Statement (Instr.ld o) :=
  of_core rfl fun hw rest => decode_mem 0xA0 o _ rest (fun _ _ _ h => h ▸ rfl) hw
theorem st (o : MemOp) : Statement (Instr.st o) :=
  of_core rfl fun hw rest => decode_mem 0xA1 o _ rest (fun _ _ _ h => h ▸ rfl) hw
theorem ldu (o : MemOp) : Statement (Instr.ldu o) :=
  of_core rfl fun hw rest => decode_mem 0xA2 o _ rest (fun _ _ _ h => h ▸ rfl) hw
theorem stu (o : MemOp) : Statement (Instr.stu o) :=
  of_core rfl fun hw rest => decode_mem 0xA3 o _ rest (fun _ _ _ h => h ▸ rfl) hw
theorem lds (o : MemOp) : Statement (Instr.lds o) :=
  of_core rfl fun hw rest => decode_mem 0xA4 o _ rest (fun _ _ _ h => h ▸ rfl) hw
theorem sts (o : MemOp) : Statement (Instr.sts o) :=
  of_core rfl fun hw rest => decode_mem 0xA5 o _ rest (fun _ _ _ h => h ▸ rfl) hw
theorem lda (o : MemOp) : Statement (Instr.lda o) :=
  of_core rfl fun hw rest => decode_mem 0xA6 o _ rest (fun _ _ _ h => h ▸ rfl) hw
theorem pref (o : MemOp) : Statement (Instr.pref o) :=
  of_core rfl fun hw rest => decode_mem 0xA8 o _ rest (fun _ _ _ h => h ▸ rfl) hw
theorem cctl (o : MemOp) : Statement (Instr.cctl o) :=
  of_core rfl fun hw rest => decode_mem 0xAA o _ rest (fun _ _ _ h => h ▸ rfl) hw
theorem icinv (o : LOp) : Statement (Instr.icinv o) := of_plain 0xAB o rfl rfl (fun _ _ _ => rfl) (fun _ => rfl)
theorem atom (o : AtomOp) : Statement (Instr.atom o) :=
  of_core rfl fun hw rest => decode_atom 0xAC o _ rest (fun _ _ _ h => h ▸ rfl) hw
theorem atoms (o : AtomOp) : Statement (Instr.atoms o) :=
  of_core rfl fun hw rest => decode_atom 0xAD o _ rest (fun _ _ _ h => h ▸ rfl) hw
theorem red (o : AtomOp) : Statement (Instr.red o) :=
  of_core rfl fun hw rest => decode_atom 0xAE o _ rest (fun _ _ _ h => h ▸ rfl) hw
theorem sred (o : AtomOp) : Statement (Instr.sred o) :=
  of_core rfl fun hw rest => decode_atom 0xAF o _ rest (fun _ _ _ h => h ▸ rfl) hw
theorem bop (o : AtomOp) : Statement (Instr.bop o) :=
  of_core rfl fun hw rest => decode_atom 0xB0 o _ rest (fun _ _ _ h => h ▸ rfl) hw
theorem gang (o : LOp) : Statement (Instr.gang o) := of_plain 0xB8 o rfl rfl (fun _ _ _ => rfl) (fun _ => rfl)
theorem mma (o : LOp) : Statement (Instr.mma o) := of_plain 0xB9 o rfl rfl (fun _ _ _ => rfl) (fun _ => rfl)
theorem layout (o : LOp) : Statement (Instr.layout o) := of_plain 0xBA o rfl rfl (fun _ _ _ => rfl) (fun _ => rfl)
theorem copy (o : LOp) : Statement (Instr.copy o) := of_plain 0xBB o rfl rfl (fun _ _ _ => rfl) (fun _ => rfl)
theorem gather (o : LOp) : Statement (Instr.gather o) := of_plain 0xBC o rfl rfl (fun _ _ _ => rfl) (fun _ => rfl)
theorem scatter (o : LOp) : Statement (Instr.scatter o) := of_plain 0xBD o rfl rfl (fun _ _ _ => rfl) (fun _ => rfl)
theorem coll (o : LOp) : Statement (Instr.coll o) := of_plain 0xBE o rfl rfl (fun _ _ _ => rfl) (fun _ => rfl)
theorem seqrd (o : LOp) : Statement (Instr.seqrd o) := of_plain 0xBF o rfl rfl (fun _ _ _ => rfl) (fun _ => rfl)
theorem rcall (o : CtlOp) : Statement (Instr.rcall o) :=
  of_core rfl fun hw rest => decode_ctl 0xC0 o _ rest (fun _ _ _ h => h ▸ rfl) hw
theorem rread (o : LOp) : Statement (Instr.rread o) := of_plain 0xC1 o rfl rfl (fun _ _ _ => rfl) (fun _ => rfl)
theorem rsync (o : LOp) : Statement (Instr.rsync o) := of_plain 0xC2 o rfl rfl (fun _ _ _ => rfl) (fun _ => rfl)
theorem rret (o : LOp) : Statement (Instr.rret o) := of_plain 0xC3 o rfl rfl (fun _ _ _ => rfl) (fun _ => rfl)
theorem tstep (o : LOp) : Statement (Instr.tstep o) := of_plain 0xC4 o rfl rfl (fun _ _ _ => rfl) (fun _ => rfl)
theorem pdgset (o : LOp) : Statement (Instr.pdgset o) := of_plain 0xC5 o rfl rfl (fun _ _ _ => rfl) (fun _ => rfl)
theorem pdgrd (o : LOp) : Statement (Instr.pdgrd o) := of_plain 0xC6 o rfl rfl (fun _ _ _ => rfl) (fun _ => rfl)
theorem dlog (o : LOp) : Statement (Instr.dlog o) := of_plain 0xC7 o rfl rfl (fun _ _ _ => rfl) (fun _ => rfl)
theorem hintKeep (o : LOp) : Statement (Instr.hintKeep o) := of_plain 0xF0 o rfl rfl (fun _ _ _ => rfl) (fun _ => rfl)
theorem hintStream (o : LOp) : Statement (Instr.hintStream o) := of_plain 0xF1 o rfl rfl (fun _ _ _ => rfl) (fun _ => rfl)
theorem hintOcc (o : LOp) : Statement (Instr.hintOcc o) := of_plain 0xF2 o rfl rfl (fun _ _ _ => rfl) (fun _ => rfl)
theorem hintThr (o : LOp) : Statement (Instr.hintThr o) := of_plain 0xF3 o rfl rfl (fun _ _ _ => rfl) (fun _ => rfl)
theorem packageReset (flash : BootFlash) : Statement (Instr.packageReset flash) := of_event rfl rfl
theorem boundaryFlitReceive (b : Nat) (rev : Bool) (flit : List Byte) (crc : Word) : Statement (Instr.boundaryFlitReceive b rev flit crc) := of_event rfl rfl
theorem boundaryRetrain (b : Nat) (ok : Bool) : Statement (Instr.boundaryRetrain b ok) := of_event rfl rfl
theorem causewayFlitReceive (port : Nat) (flit : List Byte) (crc : Word) : Statement (Instr.causewayFlitReceive port flit crc) := of_event rfl rfl
theorem arbiterPeriodEnd (die power temp : Nat) : Statement (Instr.arbiterPeriodEnd die power temp) := of_event rfl rfl
theorem scrubLine (die : Nat) (e : LineError) : Statement (Instr.scrubLine die e) := of_event rfl rfl
theorem subarraySelfTest (core sub : Nat) (product : List Byte) : Statement (Instr.subarraySelfTest core sub product) := of_event rfl rfl
theorem spdmAlgorithmsRequest (r : SpdmReq) : Statement (Instr.spdmAlgorithmsRequest r) := of_event rfl rfl
theorem spdmCertificateRequest (r : SpdmReq) : Statement (Instr.spdmCertificateRequest r) := of_event rfl rfl
theorem spdmChallengeRequest (r : SpdmReq) : Statement (Instr.spdmChallengeRequest r) := of_event rfl rfl
theorem spdmMeasurementsRequest (r : SpdmReq) : Statement (Instr.spdmMeasurementsRequest r) := of_event rfl rfl
theorem spdmUnsupportedRequest (code : Byte) : Statement (Instr.spdmUnsupportedRequest code) := of_event rfl rfl
theorem cmdtailWrite (w : Nat) (v : DWord) : Statement (Instr.cmdtailWrite w v) := of_event rfl rfl
theorem cplheadWrite (w : Nat) (v : DWord) : Statement (Instr.cplheadWrite w v) := of_event rfl rfl
theorem evheadWrite (w : Nat) (v : DWord) : Statement (Instr.evheadWrite w v) := of_event rfl rfl
theorem ringBaseSizeWrite (w : Nat) (r : RingReg) (v : DWord) : Statement (Instr.ringBaseSizeWrite w r v) := of_event rfl rfl
theorem wstateRunSet (w : Nat) : Statement (Instr.wstateRunSet w) := of_event rfl rfl
theorem wstateRunClear (w : Nat) : Statement (Instr.wstateRunClear w) := of_event rfl rfl
theorem registerWrite (bar off : Nat) (v : DWord) : Statement (Instr.registerWrite bar off v) := of_event rfl rfl
theorem eventRingWrite (w : Nat) : Statement (Instr.eventRingWrite w) := of_event rfl rfl
theorem fetcherVisit (die : Nat) : Statement (Instr.fetcherVisit die) := of_event rfl rfl
theorem fetchFaultRetry (part q : Nat) : Statement (Instr.fetchFaultRetry part q) := of_event rfl rfl
theorem launchPlacement (part : Nat) : Statement (Instr.launchPlacement part) := of_event rfl rfl
theorem gridTermination (part : Nat) (serial : Word) : Statement (Instr.gridTermination part serial) := of_event rfl rfl
theorem taskGather (part q : Nat) : Statement (Instr.taskGather part q) := of_event rfl rfl
theorem traceCommit (g n : Nat) : Statement (Instr.traceCommit g n) := of_event rfl rfl
theorem rejoinFusion (g n : Nat) : Statement (Instr.rejoinFusion g n) := of_event rfl rfl
theorem fragmentSpillMove (g n : Nat) : Statement (Instr.fragmentSpillMove g n) := of_event rfl rfl
theorem loadDataReturn (g id : Nat) (e : LineError) : Statement (Instr.loadDataReturn g id e) := of_event rfl rfl
theorem postedStoreCheck (id : Nat) : Statement (Instr.postedStoreCheck id) := of_event rfl rfl
theorem storePerformed (id elem : Nat) : Statement (Instr.storePerformed id elem) := of_event rfl rfl
theorem deferredAtomicPerform (id elem : Nat) (mf : Option MemFault) : Statement (Instr.deferredAtomicPerform id elem mf) := of_event rfl rfl
theorem atomicRepair (die id : Nat) : Statement (Instr.atomicRepair die id) := of_event rfl rfl
theorem atomicReplay (die id : Nat) : Statement (Instr.atomicReplay die id) := of_event rfl rfl
theorem sredElementApply (id elem : Nat) (turn : SredTurn) : Statement (Instr.sredElementApply id elem turn) := of_event rfl rfl
theorem sredPeerElement (part die : Nat) (addr : DWord) (op : BitVec 3) (ty : BitVec 3) (value : DWord) : Statement (Instr.sredPeerElement part die addr op ty value) := of_event rfl rfl
theorem ldaElementWrite (id elem : Nat) (e : LineError) : Statement (Instr.ldaElementWrite id elem e) := of_event rfl rfl
theorem mmaEntry (core : Nat) : Statement (Instr.mmaEntry core) := of_event rfl rfl
theorem layoutEntry (clu : Nat) : Statement (Instr.layoutEntry clu) := of_event rfl rfl
theorem copyEntry (core : Nat) (e : LineError) : Statement (Instr.copyEntry core e) := of_event rfl rfl
theorem gatherEntry (core : Nat) : Statement (Instr.gatherEntry core) := of_event rfl rfl
theorem scatterEntry (core : Nat) : Statement (Instr.scatterEntry core) := of_event rfl rfl
theorem collEntry (part die : Nat) (peers : List PeerContribution) : Statement (Instr.collEntry part die peers) := of_event rfl rfl
theorem collPeerTimeout (part die : Nat) : Statement (Instr.collPeerTimeout part die) := of_event rfl rfl
theorem qfenceEntry (q : QueueRef) : Statement (Instr.qfenceEntry q) := of_event rfl rfl
theorem gangwayLatchOpen (g : Nat) : Statement (Instr.gangwayLatchOpen g) := of_event rfl rfl
theorem barrierComplete (b : BarrierRef) : Statement (Instr.barrierComplete b) := of_event rfl rfl
theorem ringPush (g n : Nat) : Statement (Instr.ringPush g n) := of_event rfl rfl
theorem ringPop (g n : Nat) : Statement (Instr.ringPop g n) := of_event rfl rfl
theorem preemptRequestArrival (part : Nat) (serial : Word) (core : Nat) : Statement (Instr.preemptRequestArrival part serial core) := of_event rfl rfl
theorem preemptAllowanceExpiry (g n : Nat) : Statement (Instr.preemptAllowanceExpiry g n) := of_event rfl rfl
theorem preemptHandlerStart (g : Nat) : Statement (Instr.preemptHandlerStart g) := of_event rfl rfl
theorem yieldSave (g : Nat) : Statement (Instr.yieldSave g) := of_event rfl rfl
theorem launchRestore (part : Nat) (serial : Word) : Statement (Instr.launchRestore part serial) := of_event rfl rfl
theorem clusterTermination (clu : Nat) : Statement (Instr.clusterTermination clu) := of_event rfl rfl
theorem emulationFrame (g n : Nat) : Statement (Instr.emulationFrame g n) := of_event rfl rfl
theorem emulationResultWrite (g n : Nat) : Statement (Instr.emulationResultWrite g n) := of_event rfl rfl
theorem manifestAppend (g n : Nat) : Statement (Instr.manifestAppend g n) := of_event rfl rfl
theorem landingApply (part die obj : Nat) : Statement (Instr.landingApply part die obj) := of_event rfl rfl
theorem rreadMethodRun (g id : Nat) : Statement (Instr.rreadMethodRun g id) := of_event rfl rfl
theorem upstreamLinkTraining (width rate : Nat) : Statement (Instr.upstreamLinkTraining width rate) := of_event rfl rfl
theorem supplyMonitorReset : Statement (Instr.supplyMonitorReset) := of_event rfl rfl
theorem spdmVersionRequest (r : SpdmReq) : Statement (Instr.spdmVersionRequest r) := of_event rfl rfl
theorem spdmCapabilitiesRequest (r : SpdmReq) : Statement (Instr.spdmCapabilitiesRequest r) := of_event rfl rfl
theorem spdmDigestsRequest (r : SpdmReq) : Statement (Instr.spdmDigestsRequest r) := of_event rfl rfl
theorem pilotStepBudgetExhausted : Statement (Instr.pilotStepBudgetExhausted) := of_event rfl rfl
theorem pilotFence : Statement (Instr.pilotFence) := of_pilot rfl rfl (decode_pilot 0x14 0 0 0 0 _ (by decide) rfl)
theorem done : Statement (Instr.done) := of_pilot rfl rfl (decode_pilot 0x16 0 0 0 0 _ (by decide) rfl)
theorem exit : Statement (Instr.exit) := of_plain 0x04 LOp.blank rfl rfl (fun _ _ _ => rfl) (fun _ => rfl)
theorem rett : Statement (Instr.rett) := of_plain 0x08 LOp.blank rfl rfl (fun _ _ _ => rfl) (fun _ => rfl)
theorem kill : Statement (Instr.kill) := of_plain 0x0B LOp.blank rfl rfl (fun _ _ _ => rfl) (fun _ => rfl)
theorem yield : Statement (Instr.yield) := of_plain 0x0C LOp.blank rfl rfl (fun _ _ _ => rfl) (fun _ => rfl)
theorem resume : Statement (Instr.resume) := of_plain 0x0D LOp.blank rfl rfl (fun _ _ _ => rfl) (fun _ => rfl)
theorem nopLong : Statement (Instr.nopLong) := of_plain 0x0E LOp.blank rfl rfl (fun _ _ _ => rfl) (fun _ => rfl)
theorem gate : Statement (Instr.gate) := of_plain 0x23 LOp.blank rfl rfl (fun _ _ _ => rfl) (fun _ => rfl)
theorem release : Statement (Instr.release) := of_plain 0x24 LOp.blank rfl rfl (fun _ _ _ => rfl) (fun _ => rfl)
theorem drain : Statement (Instr.drain) := of_plain 0xA9 LOp.blank rfl rfl (fun _ _ _ => rfl) (fun _ => rfl)
theorem savesplit : Statement (Instr.savesplit) := of_plain 0xCA LOp.blankU rfl rfl (fun _ _ _ => rfl) (fun _ => rfl)
theorem loadsplit : Statement (Instr.loadsplit) := of_plain 0xCB LOp.blankU rfl rfl (fun _ _ _ => rfl) (fun _ => rfl)
theorem nop : Statement Instr.nop := of_core rfl fun _ rest => by
  show decode ([0].flatMap wordBytes ++ rest) = _
  simp only [List.flatMap_cons, List.flatMap_nil, List.append_nil]
  rw [decode_one _ _ (by decide)]; rfl
theorem trace (h : TraceHdr) : Statement (Instr.trace h) := of_core rfl fun hw rest => by
  show decode ((wordBytes h.word0 ++ (wordBytes h.word1 ++ [])) ++ rest) = _
  rw [List.append_nil, List.append_assoc, decode_two _ _ _ (trace0_len h)]
  unfold decodeLong
  rw [trace0_op]
  show (checked (some (Instr.trace (unpackTrace h.word0 h.word1)))).map _ = _
  rw [unpackTrace_pack]
  simp only [checked, hw, if_true]; rfl
theorem waitc (c : WaitCounts) : Statement (Instr.waitc c) := of_core rfl fun hw rest => by
  refine decode_other 0x17 false 0 0 0 c.word1 none _ _ ?_ hw
  show some (some (Instr.waitc (unpackWait c.word1))) = _
  rw [unpackWait_pack]
theorem ldlit (o : LitOp) : Statement (Instr.ldlit o) := of_core rfl fun hw rest => by
  refine decode_other 0xA7 o.u o.d 0 o.sub (o.offset ++ (0 : Byte)) none _ _ ?_ hw
  have h8 : fld (o.offset ++ (0 : Byte)) 0 8 = 0 := (app_lo _ _ 0 8 (by decide)).trans (by decide)
  have ho : fld (o.offset ++ (0 : Byte)) 8 24 = o.offset := (app_hi _ _ 8 24 (by decide)).trans (app_all _)
  have hu : unpackLit (packW0 (lenOf none) 0xA7 o.u o.d 0 o.sub) (o.offset ++ (0 : Byte)) = o := by
    unfold unpackLit; rw [packW0_u, packW0_d, packW0_sub, ho]
  show some (if (true && fld _ 3 9 == 0 && fld _ 0 8 == 0) = true then some (Instr.ldlit _) else none) = _
  rw [hu, h8, packW0_a]; rfl
theorem sigw (a b : BitVec 3) (host : Bool) : Statement (Instr.sigw a b host) :=
  of_pilot rfl rfl (decode_pilot 0x12 0 a b _ _ (by decide) (by cases host <;> rfl))
theorem sigwait (a b : BitVec 3) (host : Bool) (rel : BitVec 2) : Statement (Instr.sigwait a b host rel) := by
  refine of_pilot rfl rfl (decode_pilot 0x13 0 a b _ _ (by decide) ?_)
  have h : ∀ (x : Bool) (r : BitVec 2), (if x then 4 else 0 : BitVec 18).toNat ≤ 4 ∧
      ((if x then 4 else 0 : BitVec 18) + r.setWidth 18).toNat < 8 ∧
      ((if x then 4 else 0 : BitVec 18) + r.setWidth 18).getLsbD 2 = x ∧
      ((if x then 4 else 0 : BitVec 18) + r.setWidth 18).extractLsb' 0 2 = r := by decide
  obtain ⟨-, h1, h2, h3⟩ := h host rel
  show (if (0 : BitVec 3) = 0 ∧ _ then some (Instr.sigwait a b _ _) else none) = _
  rw [if_pos ⟨rfl, h1⟩, h2, h3]

/-- The special register's number is among a SYSWR's well-formedness checks. -/
theorem number_of_wf {p : Bool} {a n : BitVec 9} (h : (p && a == n) = true) : a = n := by
  simp only [Bool.and_eq_true, beq_iff_eq] at h; exact h.2

theorem sysrd (o : LOp) : Statement (Instr.sysrd o) := of_plain 0xC8 o rfl rfl (fun _ _ _ => rfl) fun h => by
  have h' : (o.wfSysrd && o.a != 0x15) = true := h
  simp only [Bool.and_eq_true, bne_iff_ne] at h'
  show some (some (if o.a = 0x15 then Instr.sysrdCycle o else .sysrd o)) = _
  rw [if_neg h'.2]
theorem sysrdCycle (o : LOp) : Statement (Instr.sysrdCycle o) := of_plain 0xC8 o rfl rfl (fun _ _ _ => rfl) fun h => by
  show some (some (if o.a = 0x15 then Instr.sysrdCycle o else .sysrd o)) = _
  rw [if_pos (number_of_wf (p := o.wfSysrd) h)]
theorem syswrFstat (o : LOp) : Statement (Instr.syswrFstat o) := of_plain 0xC9 o rfl rfl (fun _ _ _ => rfl) fun h => by
  have ha : o.a = 0x0A := number_of_wf (p := o.wfSyswr) h
  show some (some (syswrInstr o)) = _
  simp [syswrInstr, ha]
theorem syswrPreempt (o : LOp) : Statement (Instr.syswrPreempt o) := of_plain 0xC9 o rfl rfl (fun _ _ _ => rfl) fun h => by
  have ha : o.a = 0x17 := number_of_wf (p := o.wfSyswr) h
  show some (some (syswrInstr o)) = _
  simp [syswrInstr, ha]
theorem syswrSavelo (o : LOp) : Statement (Instr.syswrSavelo o) := of_plain 0xC9 o rfl rfl (fun _ _ _ => rfl) fun h => by
  have ha : o.a = 0x18 := number_of_wf (p := o.wfSyswr) h
  show some (some (syswrInstr o)) = _
  simp [syswrInstr, ha]
theorem syswrSavehi (o : LOp) : Statement (Instr.syswrSavehi o) := of_plain 0xC9 o rfl rfl (fun _ _ _ => rfl) fun h => by
  have ha : o.a = 0x19 := number_of_wf (p := o.wfSyswr) h
  show some (some (syswrInstr o)) = _
  simp [syswrInstr, ha]
theorem syswrLdaerr (o : LOp) : Statement (Instr.syswrLdaerr o) := of_plain 0xC9 o rfl rfl (fun _ _ _ => rfl) fun h => by
  have ha : o.a = 0x1A := number_of_wf (p := o.wfSyswr) h
  show some (some (syswrInstr o)) = _
  simp [syswrInstr, ha]
theorem syswrSfrqPop (o : LOp) : Statement (Instr.syswrSfrqPop o) := of_plain 0xC9 o rfl rfl (fun _ _ _ => rfl) fun h => by
  have h' : (o.wfSyswr && o.a == 0x0C && !o.clearsLost) = true := h
  simp only [Bool.and_eq_true, beq_iff_eq, Bool.not_eq_true'] at h'
  show some (some (syswrInstr o)) = _
  simp [syswrInstr, h'.1.2, h'.2]
theorem syswrSfrqClearLost (o : LOp) : Statement (Instr.syswrSfrqClearLost o) :=
  of_plain 0xC9 o rfl rfl (fun _ _ _ => rfl) fun h => by
  have h' : (o.wfSyswr && o.a == 0x0C && o.clearsLost) = true := h
  simp only [Bool.and_eq_true, beq_iff_eq] at h'
  show some (some (syswrInstr o)) = _
  simp [syswrInstr, h'.1.2, h'.2]
theorem syswrFmode (o : LOp) : Statement (Instr.syswrFmode o) := of_plain 0xC9 o rfl rfl (fun _ _ _ => rfl) fun h => by
  have h' : (o.wfSyswr && !([0x0A, 0x0C, 0x17, 0x18, 0x19, 0x1A].contains o.a.toNat)) = true := h
  simp only [Bool.and_eq_true, Bool.not_eq_true', List.contains_eq_mem, decide_eq_false_iff_not, List.mem_cons, not_or] at h'
  obtain ⟨-, h1, h2, h3, h4, h5, h6, -⟩ := h'
  have ne : ∀ {n : BitVec 9}, o.a.toNat ≠ n.toNat → o.a ≠ n := fun h e => h (congrArg _ e)
  show some (some (syswrInstr o)) = _
  unfold syswrInstr
  rw [if_neg (ne (n := 0x0A) h1), if_neg (ne (n := 0x0C) h2), if_neg (ne (n := 0x17) h3), if_neg (ne (n := 0x18) h4), if_neg (ne (n := 0x19) h5), if_neg (ne (n := 0x1A) h6)]
theorem hintUnimplemented (k : BitVec 4) (o : LOp) : Statement (Instr.hintUnimplemented k o) := by
  have key : ∀ j : BitVec 4, 4 ≤ j.toNat →
      (∀ w0 w1 w2, lInstr ((0xF : BitVec 4) ++ j : Byte).toNat w0 w1 w2 = none) ∧
      plainInstr ((0xF : BitVec 4) ++ j : Byte).toNat o = some (some (.hintUnimplemented j o)) := by
    intro j h
    have hj : ∀ x : BitVec 4, 4 ≤ x.toNat → x = 4 ∨ x = 5 ∨ x = 6 ∨ x = 7 ∨ x = 8 ∨ x = 9 ∨ x = 10 ∨ x = 11 ∨ x = 12 ∨
      x = 13 ∨ x = 14 ∨ x = 15 := by decide
    rcases hj j h with rfl | rfl | rfl | rfl | rfl | rfl | rfl | rfl | rfl | rfl | rfl | rfl <;>
      exact ⟨fun _ _ _ => rfl, rfl⟩
  exact of_core rfl fun hw rest =>
    decode_plain _ o _ rest (key k (of_decide_eq_true hw)).1 (key k (of_decide_eq_true hw)).2 hw

end Sys2Proof.Laws.RoundTrip
end

