-- ==== Sys2Proof/Laws/Pilot.lean ====
section
/-! SUPPORT. What a pilot step does once its queue is known, and what a Ferry command does once its descriptor passes. -/
namespace Sys2Proof.Machine

/-- An operation of a queue that is at its step is that operation's effect. -/
theorem pilotOp_runs {f : State → Partition → Queue → State} {s : State} {p : Partition} {x : Queue} (h : PilotAt s p x) :
    pilotOp f s = .next (f s p x) := by
  unfold PilotAt at h; simp only [pilotOp, h]

/-- A step that stays inside its pilot puts the queue back and counts the visit's step. -/
theorem completeStep_runs (s : State) (p : Partition) (y : Queue) (pc : Nat)
    (h : (y.count.goto pc).pc < (y.count.goto pc).pilot.length) :
    completeStep s p y pc = visitStep (putQueue s p.part (y.count.goto pc)) p.part y.q := if_pos h

/-- A register write completes at the next instruction. -/
theorem pilotReg_runs {d : BitVec 3} {f : State → Partition → Queue → DWord} {s : State} {p : Partition} {x : Queue}
    (h : PilotAt s p x) : pilotReg d f s = .next (completeStep s p (x.setReg d (f s p x)) (x.pc + 1)) := pilotOp_runs h

@[simp] theorem Queue.count_q (x : Queue) : x.count.q = x.q := by unfold Queue.count; split <;> rfl
@[simp] theorem Queue.count_loops (x : Queue) : x.count.loops = x.loops := by unfold Queue.count; split <;> rfl
@[simp] theorem Queue.count_pilot (x : Queue) : x.count.pilot = x.pilot := by unfold Queue.count; split <;> rfl
@[simp] theorem Queue.count_head (x : Queue) : x.count.head = x.head := by unfold Queue.count; split <;> rfl
@[simp] theorem Queue.count_packet (x : Queue) : x.count.packet = x.packet := by unfold Queue.count; split <;> rfl
@[simp] theorem Queue.count_tag (x : Queue) : x.count.tag = x.tag := by unfold Queue.count Queue.tag; split <;> rfl

/-- A completion whose DETAIL is free is one whose DETAIL is the next free value. -/
theorem completeOpen_eq (s : State) (w : Nat) (d : FerryDesc) (status : Nat) :
    completeOpen s w d status = complete { s with tick := s.tick + 1 } w d status (Config.freeValue s.tick).toNat := rfl

/-- A command of a window whose partition is being destroyed completes TORNDOWN. -/
theorem ferryCmd_torndown {w : Nat} {d : FerryDesc} {place : Where} {used : Nat → Bool} {bad : Bool} {go : State → State} {s : State}
    (h : dying s w = true) : ferryCmd w d place used bad go s = .next (completeOpen s w d 8) := by
  simp [ferryCmd, h]

/-- A command whose descriptor, argument and window pass does what its rule says. -/
theorem ferryCmd_runs {w : Nat} {d : FerryDesc} {place : Where} {used : Nat → Bool} {bad : Bool} {go : State → State} {s : State}
    (h0 : dying s w = false) (h1 : descBad d = false) (h2 : argZero d used = true) (h3 : windowOk s w place = true) (h4 : bad = false) :
    ferryCmd w d place used bad go s = .next (go s) := by
  simp [ferryCmd, h0, h1, h2, h3, h4]

/-- A command whose own fields or argument are wrong completes BADOP. -/
theorem ferryCmd_badop {w : Nat} {d : FerryDesc} {place : Where} {used : Nat → Bool} {bad : Bool} {go : State → State} {s : State}
    (h0 : dying s w = false) (h : descBad d = true ∨ argZero d used = false ∨ bad = true) :
    ferryCmd w d place used bad go s = .next (completeOpen s w d 1) := by
  rcases h with h | h | h <;> simp [ferryCmd, h0, h]

/-- A command in a window that does not take it completes WINDOW. -/
theorem ferryCmd_window {w : Nat} {d : FerryDesc} {place : Where} {used : Nat → Bool} {go : State → State} {s : State}
    (h0 : dying s w = false) (h1 : descBad d = false) (h2 : argZero d used = true) (h3 : windowOk s w place = false) :
    ferryCmd w d place used false go s = .next (completeOpen s w d 2) := by
  simp [ferryCmd, h0, h1, h2, h3]

end Sys2Proof.Machine
end

