-- ==== Sys2Proof/Tests/Witness.lean ====
section
/-! SUPPORT. For every statement with hypotheses, a concrete state and operands that meet them together. -/
open Sys2Proof Sys2Proof.Machine
namespace Sys2Proof.Tests
set_option Elab.async false

/-- A machine in which one fragment of one group is in an open trace. -/
def base : State := State.reset.placeCore 32 0
def baseG : Group := (base.group? 0).getD default
def baseN : Node := (baseG.node? 0).getD default
def baseC : Ctx := { (baseN.ctx.getD default) with active := 1 }

/-- The machine with its group, node and context changed, and that fragment issuing. -/
structure Place where
  g : Group
  n : Node
  c : Ctx
  s : State

def placeWith (fs : State → State) (fg : Group → Group) (fn : Node → Node) (fc : Ctx → Ctx) : Place :=
  let c := fc baseC
  let n := { fn { baseN with mask := 1 } with ctx := some c }
  let g := (fg baseG).setNode n
  { g := g, n := n, c := c, s := { fs (base.setGroup g) with cur := .frag 0 0 } }

def plain : Place := placeWith id id id id
def atEnd : Place := placeWith id id id fun c => { c with ix := c.lastIx }

def issuesB (p : Place) (t : Bool) (u : Use) : Bool :=
  decide (curFrame p.s = some (p.g, p.n)) && canIssue p.s p.g p.n && decide (p.n.ctx = some p.c) &&
    !(p.c.term.isSome || p.c.emul.isSome) && !(p.g.landing.isSome && p.s.calls.any fun k => k.g == p.g.uid && 65536 ≤ k.count) &&
    !(decide (p.c.lastIx < p.c.ix) || (t && p.c.ix != p.c.lastIx)) && !(scoreboarded p.s p.g p.n p.c u) &&
    (owners p.g p.n u.sr).isEmpty && decide (p.g.flaws = [])

theorem issues_of {p : Place} {t : Bool} {u : Use} (h : issuesB p t u = true) : Issues p.s p.g p.n p.c t u := by
  simp only [issuesB, Bool.and_eq_true, Bool.not_eq_true', decide_eq_true_eq] at h
  obtain ⟨⟨⟨⟨⟨⟨⟨⟨h1, h2⟩, h3⟩, h4⟩, h5⟩, h6⟩, h7⟩, h8⟩, h9⟩ := h
  exact ⟨h1, h2, h3, h4, h5, h6, h7, h8, h9⟩

theorem ok_of {α β : Type} {x : Except α β} {b : β} (h : x.toOption = some b) : x = .ok b := by
  cases x <;> simp_all [Except.toOption]
theorem some_ok {α β : Type} {x : Except α β} (h : x.toOption.isSome = true) : ∃ b, x = .ok b := by
  cases x <;> simp_all [Except.toOption]
def errOf {α β : Type} : Except α β → Option α
  | .ok _ => none
  | .error a => some a
theorem error_of {α β : Type} {x : Except α β} {a : α} (h : errOf x = some a) : x = .error a := by
  cases x <;> simp_all [errOf]

theorem some_err {α β : Type} {x : Except α β} (h : (errOf x).isSome = true) : ∃ a, x = .error a := by
  cases x <;> simp_all [errOf]
def isNext : Host.Outcome State Fault Refusal → Bool
  | .next _ => true
  | _ => false
theorem some_with {α : Type} {x : Option α} {P : α → Prop} [DecidablePred P] (h : (x.map fun a => decide (P a)) = some true) :
    ∃ a, x = some a ∧ P a := by
  cases x <;> simp_all
theorem all_of {α : Type} {l : List α} {P : α → Prop} [DecidablePred P] (h : (l.all fun a => decide (P a)) = true) : ∀ a ∈ l, P a := by
  simpa using h
theorem next_of {x : Host.Outcome State Fault Refusal} (h : isNext x = true) : ∃ t, x = .next t := by
  cases x <;> simp_all [isNext]

def addOp : LOp := { LOp.blank with d := 3, a := 1, b := 2 }

/-! ### Encoding, steps, memory -/

theorem witness_DecodeOfEncode :
    ((Instr.iadd addOp).wf = true ∧ encode (.iadd addOp) ≠ [] ∧ pilotOf (.iadd addOp) = false) ∧
    ((Instr.pilotAdd 3 1 2).wf = true ∧ pilotOf (.pilotAdd 3 1 2) = true ∧ encode (.pilotAdd 3 1 2) = [0x23280000]) := by decide +kernel

theorem witness_EncodeOfDecode : (∃ i r, decode [0, 0, 0, 0, 7] = .ok (i, r)) ∧ ∃ i, decodePilot 0x23280000 = .ok i :=
  ⟨⟨.nop, [7], rfl⟩, some_ok (by decide +kernel)⟩

/-- The machine about to issue a NOP of an open trace. -/
def fetching : Place := placeWith (fun s => { s with agenda := [.issue 0 0] }) id id id

/-- The machine about to issue the first instruction of a trace, which is a NOP too. -/
def atEntry : Place :=
  let n := { baseN with mask := 1, ctx := none }
  let g := baseG.setNode n
  { g := g, n := n, c := baseC, s := { base.setGroup g with agenda := [.issue 0 0] } }

/-- The line of the trace at its program counter, fetched as all ones. -/
def fetchedLine : Fetches := [(fetching.c.pc / 64 * 64, List.replicate 64 0xFF)]

theorem witness_StepRunsTheDecodedInstruction :
    (fetching.s.agenda = .issue 0 0 :: [] ∧ fetching.s.group? 0 = some fetching.g ∧ fetching.g.node? 0 = some fetching.n ∧
      fetching.n.leaf = true ∧ canIssue fetching.s fetching.g fetching.n = true ∧ fetching.n.ctx = some fetching.c ∧
      fetching.c.term = none ∧ fetching.c.emul = none ∧ fetching.c.ix ≤ fetching.c.lastIx) ∧
    (let t := { fetching.s with agenda := [], tick := fetching.s.tick + 1 }
     wordsHeld t fetching.g fetching.c.fetched fetching.c.pc = false ∧
     fetchWords (seeWords t fetching.g fetching.c.fetched fetching.c.pc) fetching.g fetching.c.fetched fetching.c.pc = .ok [0] ∧
     fetching.s.flaws = []) ∧
    (atEntry.s.agenda = .issue 0 0 :: [] ∧ atEntry.s.group? 0 = some atEntry.g ∧ atEntry.g.node? 0 = some atEntry.n ∧
      atEntry.n.leaf = true ∧ canIssue atEntry.s atEntry.g atEntry.n = true ∧ atEntry.n.ctx = none ∧ atEntry.n.trace % 4 = 0) ∧
    (let t := { atEntry.s with agenda := [], tick := atEntry.s.tick + 1 }
     wordsHeld t atEntry.g [] atEntry.n.trace = false ∧
     fetchWords (seeWords t atEntry.g [] atEntry.n.trace) atEntry.g [] atEntry.n.trace = .ok [0] ∧ atEntry.s.flaws = []) ∧
    decode (bytesOf [0]) = .ok (.nop, []) :=
  ⟨by decide +kernel, ⟨by decide +kernel, ok_of (by decide +kernel), by decide +kernel⟩, by decide +kernel,
    ⟨by decide +kernel, ok_of (by decide +kernel), by decide +kernel⟩, rfl⟩

theorem witness_FetchReadsMemory : (plain.s.icache = [] ∧ (∀ k < 3, ∀ e ∈ ([] : Fetches), e.1 ≠ (0x10008 + 4 * k) / 64 * 64)) ∧
    ((∀ e ∈ fetchedLine, e.1 = fetching.c.pc / 64 * 64 → e.2 = List.replicate 64 0xFF) ∧
      (∃ e ∈ fetchedLine, e.1 = fetching.c.pc / 64 * 64)) ∧
    ∀ k < 3, ∃ x, translate plain.s 0 0 0 (0x10008 + 4 * k) .exec = .ok x ∧
    x.pa = 0x40008 + 4 * k ∧ badSpan plain.s 0 (0x40008 + 4 * k) 4 = false := by
  refine ⟨by decide +kernel, by decide +kernel, fun k hk => ?_⟩
  match k, hk with
  | 0, _ => exact ⟨_, rfl, by decide +kernel, by decide +kernel⟩
  | 1, _ => exact ⟨_, rfl, by decide +kernel, by decide +kernel⟩
  | 2, _ => exact ⟨_, rfl, by decide +kernel, by decide +kernel⟩

/-- Die 0 about to serve a queue whose pilot is one word. -/
def piloted (w : Word) : State := State.reset.placePilot w.toNat

def pilotedP : Partition := ((piloted 0x23280000).part? 0).getD default
def pilotedX : Queue := (pilotedP.queue? 0).getD default

theorem witness_StepRunsPilotsAndEvents :
    (let s := piloted 0x23280000
     (s.agenda = .pilot 0 :: [] ∧ (s.die 0).running = true ∧ (s.die 0).tripped = false ∧
       (s.die 0).visit = some (pilotedP.part, pilotedX.q) ∧ s.part? pilotedP.part = some pilotedP ∧
       pilotedP.queue? pilotedX.q = some pilotedX ∧ pilotedX.busy = true ∧ pilotedX.st = .active ∧ pilotedX.steps < 512) ∧
      decodePilot (pilotedX.pilot.getD pilotedX.pc 0) = .ok (.pilotAdd 3 1 2)) ∧
    ({ State.reset with agenda := [.event .supplyMonitorReset] }.agenda = .event .supplyMonitorReset :: [] ∧
      isEvent .supplyMonitorReset = true) ∧
    { State.reset with agenda := [.event .nop] }.agenda = .event .nop :: [] ∧ isEvent .nop = false :=
  ⟨⟨by decide +kernel, ok_of (by decide +kernel)⟩, ⟨rfl, rfl⟩, rfl, rfl⟩

theorem witness_EveryStepKeepsMemoryCanonical : ({ fetching.s with cur := .none }).memOk = true ∧ fetching.s.mem ≠ [] ∧
    fetching.s.agenda ≠ [] ∧ ({ fetching.s with cur := .none }).cur = .none ∧
    ∃ t, step { fetching.s with cur := .none } = .next t :=
  ⟨by decide +kernel, by decide +kernel, by decide +kernel, rfl, _, rfl⟩

theorem witness_MemoryReadsBackWhatWasWritten : plain.s.memOk = true ∧ 0x40000 % 64 = 0 ∧ 7 < 8 ∧ 4 ≤ plain.s.dies.length ∧
    0x40038 % 64 + (List.replicate 8 (0 : Byte)).length ≤ 64 ∧
    (badWords { plain.s with flaws := [{ line := 0x40000, err := .bad 0 0x80 0, waits := none }] } 0x40000).getLsbD 7 = true := by
  decide +kernel

/-- R140 to R142, R411 at the edges: the last address in range, the first beyond it; a mapped page; one that is not mapped. -/
theorem witness_TranslationIsChecked : 2 ^ 55 ≤ 2 ^ 55 ∧ ¬ 2 ^ 55 ≤ 2 ^ 55 - 1 ∧
    (∃ e, translate plain.s 0 0 0 (2 ^ 55 - 1) .read = .error e) ∧ (∃ x, translate plain.s 0 0 0 0x1FFFF .write = .ok x) ∧
    (∃ x, translate plain.s 0 0 0 0x10000 .read = .ok x) ∧ (∃ x, translate plain.s 0 0 0 0x10000 .exec = .ok x) ∧
    (2 ^ 55 - 1 < 2 ^ 55 ∧ (2 ^ 55 - 1) % 4 ≠ 0) ∧
    ∃ bs pa, loadLane plain.s plain.g plain.c 0 0x10100 4 false = .ok bs pa :=
  ⟨by decide, by decide, ⟨_, rfl⟩, ⟨_, rfl⟩, ⟨_, rfl⟩, ⟨_, rfl⟩, by decide, _, _, rfl⟩

/-! ### Lane instructions, special registers, buffered effects -/

theorem witness_LaneInstructionsComplete : ∃ d, laneSpecOf plain.s plain.g.nregs (.iadd addOp) = some d ∧
    Issues plain.s plain.g plain.n plain.c false d.used ∧ (d.noMethod = false ∨ plain.g.landing = none) ∧ d.runs plain.g plain.n plain.c = true :=
  ⟨_, rfl, issues_of (by decide +kernel), by decide +kernel, by decide +kernel⟩

theorem witness_ElementResults : compOf (.iadd addOp) = some (kIadd addOp, addOp, 2) ∧ addOp.u = false ∧
    Issues plain.s plain.g plain.n plain.c false ((kIadd addOp).spec addOp 2 plain.g.nregs).used ∧
    ((kIadd addOp).spec addOp 2 plain.g.nregs).runs plain.g plain.n plain.c = true :=
  ⟨rfl, rfl, issues_of (by decide +kernel), by decide +kernel⟩

/-- SYSWR of a literal. -/
def sysOp (reg : BitVec 9) (v : Word) : LOp := { LOp.blank with u := true, a := reg, w2 := some v }
def cycleOp : LOp := { LOp.blank with d := 3, a := 0x15 }

theorem witness_SpecialRegisterReadsAndWrites :
    (plain.g.landing = none ∧ ((sysOp 9 3).w2.isSome || scalarOk (sysOp 9 3).b.toNat) = true ∧
      (∀ x ∈ syswrAtCommit, Issues plain.s plain.g plain.n plain.c false { Use.none with sr := [] } ∧
        syswrVal plain.g plain.n (sysOp 9 3) &&& x.2.2 = 0) ∧
      (∀ x ∈ syswrAtCommit, x.2.2 ≠ 0 → syswrVal plain.g plain.n (sysOp 9 0xFFFFFFFF) &&& x.2.2 ≠ 0) ∧
      (∀ x ∈ [((9 : BitVec 9), regFmode, (0xFFFFE0FC : Word), (3 : Word)), (0x18, regSavelo, 0x00000FFF, 0x1000), (0x19, regSavehi, 0xFF800000, 3)],
        Issues plain.s plain.g plain.n plain.c false { Use.none with sr := x.2.1 :: [] } ∧
        (sysOp x.1 x.2.2.2).a.toNat = (if x.2.1 = regFmode then 9 else if x.2.1 = regSavelo then 0x18 else 0x19) ∧
        syswrVal plain.g plain.n (sysOp x.1 x.2.2.2) &&& x.2.2.1 = 0 ∧
        syswrVal plain.g plain.n (sysOp x.1 0xFFFFFFFF) &&& x.2.2.1 ≠ 0)) ∧
    (Issues plain.s plain.g plain.n plain.c false (cycleSpec cycleOp plain.s).used ∧ plain.g.landing = none ∧
      sysrdOk cycleOp plain.g.nregs = true ∧ cycleOp.a = 0x15 ∧ selectsAny cycleOp plain.g plain.c = true ∧
      (cycleSpec cycleOp plain.s).runs plain.g plain.n plain.c = true) :=
  ⟨⟨by decide +kernel, by decide +kernel, fun x hx => ⟨issues_of (by decide +kernel),
      (by decide +kernel : ∀ x ∈ syswrAtCommit, syswrVal plain.g plain.n (sysOp 9 3) &&& x.2.2 = 0) x hx⟩, by decide +kernel,
      fun x hx => ⟨issues_of ((by decide +kernel : ∀ x ∈ [((9 : BitVec 9), regFmode, (0xFFFFE0FC : Word), (3 : Word)),
        (0x18, regSavelo, 0x00000FFF, 0x1000), (0x19, regSavehi, 0xFF800000, 3)],
          issuesB plain false { Use.none with sr := x.2.1 :: [] } = true) x hx), by revert x; decide +kernel⟩⟩,
    issues_of (by decide +kernel), by decide +kernel⟩

/-- A group whose registers hold addresses: s2:s3 and v2:v3 of lane 0 one in the mapped page, s6:s7 one in a mapped bench page, s4 and s30
a scratchpad address, where a ring's header stands; its pipeline is empty. -/
def addressed (fc : Ctx → Ctx) : Place := placeWith
  (fun s => { s with
    mem := swrite s.mem 0x30010 (leBytes 8 0x1000000052F)
    dies := s.dies.map fun d => { d with config := putAt d.config 18 [0xFF] }
    launches := s.launches.map fun l => { l with record := putAt l.record 30 [0x10] }
    wkgs := s.wkgs.map fun w => { w with data := swrite w.data 0x200 (putAt (putAt (List.replicate 64 0) 8 [1, 0, 1, 0]) 13 [3, 4]) }
    parts := s.parts.map fun p => { p with seals := p.seals.map fun r => { r with st := .sealed } } })
  (fun g => { (g.wv 0 2 0x10100).wv 0 4 0x200 with
    s := sset (sset (sset (sset g.s 2 0x10100) 4 0x200) 6 0x20000) 30 0x200
    gang := 1
    rings := [(false, false, scratchName g 0x200), (true, false, scratchName g 0x200)] }) id fc

/-- GANG of one group, GROUPID 0. -/
def gangWord : Word := 0
/-- DLOG of v2:v3 and v4:v5 under register 15. -/
def dlogOp : LOp := { LOp.blank with a := 2, b := 4, mod := 15 }

theorem witness_OrderingRingAndRecordEffectsAreBuffered :
    let p := addressed id
    let m := addressed fun c => { c with hdr := { c.hdr with kind := 1 } }
    let o : LOp := { LOp.blank with u := true, a := 2, b := 65 }
    let r : LOp := { LOp.blank with u := true, a := 4 }
    (Issues p.s p.g p.n p.c false Use.none ∧ p.g.landing = none ∧
      Issues p.s p.g p.n p.c false { Use.none with sr := pairUse o.a.toNat ++ scalarUse o.b.toNat } ∧
      pairOk o.a.toNat = true ∧ scalarOk o.b.toNat = true ∧ (readScalar p.g p.n o.b.toNat).toNat ≤ 2 ^ 24 ∧ readPair p.g p.n o.a.toNat < 2 ^ 55 ∧
      gangOk p.s p.g gangWord = true ∧ Issues p.s p.g p.n p.c false { Use.none with sr := scalarUse 64 } ∧ scalarOk 64 = true ∧
      gangOk p.s p.g (readScalar p.g p.n 64) = true) ∧
    (Issues p.s p.g p.n p.c false { Use.none with sr := ringUse false r.a.toNat } ∧ ringRegOk false r.a.toNat = true ∧
      headerReady p.s p.g (ringSpot p.g p.n false r.a.toNat) = true ∧
      (∃ h pa, ringCheck (seeSpot (countCall p.s p.g) p.g (ringSpot p.g p.n false r.a.toNat) 64) p.g p.c (ringSpot p.g p.n false r.a.toNat) = .ok h pa) ∧
      ((attachments p.g).contains (false, false, (ringSpot p.g p.n false r.a.toNat).addr) || decide ((attachments p.g).length < 8)) = true ∧
      decide ((attachments plain.g).length < 8) = true ∧
      Issues m.s m.g m.n m.c false { Use.none with sr := pairUse 2 } ∧ m.c.hdr.kind = 1 ∧ pairOk 2 = true ∧
      sealSet p.s p.g (dlogOp.mod.toNat % 16) = true ∧ postCount p.c < p.c.hdr.npost.toNat ∧
      srcOk p.g.nregs (.int 3) [0] dlogOp.srcA = true ∧ srcOk p.g.nregs (.int 3) [0] dlogOp.srcB = true ∧
      Issues p.s p.g p.n p.c false { sr := [], vr := [2, 3, 4, 5], pr := [dlogOp.ps.toNat], pdg := true, extra := 0 }) :=
  ⟨⟨issues_of (by decide +kernel), by decide +kernel, issues_of (by decide +kernel), by decide +kernel, by decide +kernel, by decide +kernel,
      by decide +kernel, by decide +kernel, issues_of (by decide +kernel), by decide +kernel, by decide +kernel⟩,
    issues_of (by decide +kernel), by decide +kernel, by decide +kernel, ⟨_, _, rfl⟩, by decide +kernel, by decide +kernel, issues_of (by decide +kernel),
    by decide +kernel, by decide +kernel, by decide +kernel, by decide +kernel, by decide +kernel, by decide +kernel,
    issues_of (by decide +kernel)⟩

/-! ### Memory instructions -/

/-- A 32-bit access at v2:v3 plus v9; the scratchpad one at v4; the uniform one at s2:s3 plus s9. -/
def memOp : MemOp :=
  { u := false, d := 8, a := 2, sub := 4, b := 9, zero := 0, ps := 15, pm := 0, ak := false, bk := false, nt := false, scope := 0, mark := 0,
    w2 := none }
def scratchOp : MemOp := { memOp with a := 4 }
def uniOp : MemOp := { memOp with u := true }
def ivOp : MemOp := { memOp with sub := 0 }

/-- The hypotheses of a store's statement, by the instruction, its form and its operands. -/
def StoreMet (p : Place) (x : (MemOp → Instr) × (MemOp → MemForm)) (o : MemOp) : Prop :=
  Issues p.s p.g p.n p.c false (memUse o (x.2 o)) ∧ memChk o (x.2 o) p.g.nregs true = true ∧ memLanes p.g p.c o ≠ [] ∧
  (∀ l ∈ memLanes p.g p.c o, storeCode (countCall p.s p.g) p.g (x.2 o) (memAddr p.g p.n o (x.2 o).scratch l) = 0) ∧
  ∀ l ∈ (if o.u then lanesOf p.c.active else memLanes p.g p.c o), storeEntries p.c l < p.c.hdr.nstore.toNat

theorem witness_StoresAreBuffered : ∀ x ∈ storeForms.zip [memOp, uniOp, scratchOp, ivOp, ivOp], StoreMet (addressed id) x.1 x.2 := by
  simp only [storeForms, List.zip_cons_cons, List.zip_nil_right, List.forall_mem_cons]
  refine ⟨⟨issues_of (by decide +kernel), by decide +kernel⟩, ⟨issues_of (by decide +kernel), by decide +kernel⟩,
    ⟨issues_of (by decide +kernel), by decide +kernel⟩, ⟨issues_of (by decide +kernel), by decide +kernel⟩,
    ⟨issues_of (by decide +kernel), by decide +kernel⟩, by simp⟩

def gotOk : Got → Bool
  | .ok _ _ => true
  | _ => false
def gotBytes : Got → List Byte
  | .ok b _ => b
  | _ => []
def gotPa : Got → Nat
  | .ok _ a => a
  | _ => 0
theorem got_of {x : Got} (h : gotOk x = true) : x = .ok (gotBytes x) (gotPa x) := by
  cases x <;> simp_all [gotOk, gotBytes, gotPa]

/-- What a lane of a load gets. -/
def loadHere (p : Place) (x : (MemOp → Instr) × (MemOp → MemForm)) (o : MemOp) (l : Nat) : Got :=
  loadValue (loadView o (x.2 o) (countCall p.s p.g) p.g p.n p.c) p.g p.n p.c o (x.2 o) (loadHome o (x.2 o) (countCall p.s p.g) p.g p.n p.c) l

/-- The same of a load's. -/
def LoadMet (p : Place) (x : (MemOp → Instr) × (MemOp → MemForm)) (o : MemOp) : Prop :=
  Issues p.s p.g p.n p.c false (loadUse o (x.2 o)) ∧ loadsReady o (x.2 o) p.s p.g p.n p.c = true ∧ memChk o (x.2 o) p.g.nregs true = true ∧
  memLanes p.g p.c o ≠ [] ∧
  (∀ l ∈ memLanes p.g p.c o, loadHere p x o l =
    .ok (gotBytes (loadHere p x o l)) (gotPa (loadHere p x o l))) ∧
  (o.u || !overShadow p.c ((List.range (x.2 o).regs).map (o.d.toNat + ·))) = true

theorem witness_LoadsGoInFlight : ∀ x ∈ loadForms.zip [memOp, uniOp, scratchOp, ivOp, ivOp], LoadMet (addressed id) x.1 x.2 := by
  simp only [loadForms, List.zip_cons_cons, List.zip_nil_right, List.forall_mem_cons]
  refine ⟨⟨issues_of (by decide +kernel), by decide +kernel⟩, ⟨issues_of (by decide +kernel), by decide +kernel⟩,
    ⟨issues_of (by decide +kernel), by decide +kernel⟩, ⟨issues_of (by decide +kernel), by decide +kernel⟩,
    ⟨issues_of (by decide +kernel), by decide +kernel⟩, by simp⟩

/-- An addition of .n32 at v2:v3, at v4 in scratchpad. -/
def addAtom : AtomOp :=
  { u := false, d := 8, a := 2, sub := 0, b := 6, scope := 0, mark := 0, zero := 0, ps := 15, pm := 0, ak := false, bk := false, ty := 1,
    x4 := false, low := 0, w2 := none }

def AtomMet (p : Place) (x : (AtomOp → Instr) × (AtomOp → AtomForm)) (o : AtomOp) : Prop :=
  Issues p.s p.g p.n p.c false (atomUse o (x.2 o)) ∧ atomChk (countCall p.s p.g) o (x.2 o) p.g.nregs = true ∧
  selected p.g o.ps.toNat o.pm.toNat p.c.active ≠ [] ∧
  (∀ l ∈ selected p.g o.ps.toNat o.pm.toNat p.c.active, atomCode (countCall p.s p.g) p.g (x.2 o) (atomAddr p.g p.n o (x.2 o) l)
    (readSrc p.g p.n l (addrKd ((x.2 o).kind == .atoms)) (atomSrcA o) 0) = 0) ∧
  (∀ l ∈ selected p.g o.ps.toNat o.pm.toNat p.c.active, atomEntries p.c l < p.c.hdr.natom.toNat) ∧
  overShadow p.c (if (x.2 o).returns then (if wideTy o.ty.toNat then [o.d.toNat, o.d.toNat + 1] else [o.d.toNat]) else []) = false

theorem witness_AtomicsAreDeferred : ∀ x ∈ atomForms.zip
    [addAtom, { addAtom with a := 4 }, { addAtom with d := 0 }, { addAtom with a := 2, ak := true }, { addAtom with d := 0, ty := 0, sub := 2 }],
    AtomMet (addressed id) x.1 x.2 := by
  simp only [atomForms, List.zip_cons_cons, List.zip_nil_right, List.forall_mem_cons]
  refine ⟨⟨issues_of (by decide +kernel), by decide +kernel⟩, ⟨issues_of (by decide +kernel), by decide +kernel⟩,
    ⟨issues_of (by decide +kernel), by decide +kernel⟩, ⟨issues_of (by decide +kernel), by decide +kernel⟩,
    ⟨issues_of (by decide +kernel), by decide +kernel⟩, by simp⟩

/-- LDA of 4 bytes to the scratchpad address that v8 holds. -/
def ldaM : MemForm := { scratch := false, bytes := 4, regs := 1, signed := false, iv := 0 }

theorem witness_AsyncLoadsArePosted : let p := addressed id
    Issues p.s p.g p.n p.c false (memUse memOp ldaM) ∧ p.g.landing = none ∧ memChk memOp ldaM p.g.nregs true = true ∧
    postCount p.c < p.c.hdr.npost.toNat ∧
    ∃ pa : Nat → Nat, ∀ l ∈ memLanes p.g p.c memOp, ldaCheck p.s p.g (memAddr p.g p.n memOp false l) (p.g.rv l 8).toNat 4 = .ok (pa l) :=
  ⟨issues_of (by decide +kernel), by decide +kernel, by decide +kernel, by decide +kernel, fun _ => 0x40100,
    fun l hl => ok_of ((by decide +kernel : ∀ l ∈ memLanes (addressed id).g (addressed id).c memOp,
      (ldaCheck (addressed id).s (addressed id).g (memAddr (addressed id).g (addressed id).n memOp false l) ((addressed id).g.rv l 8).toNat 4).toOption
        = some 0x40100) l hl)⟩

theorem witness_HintsOnlyPass : let p := addressed id
    let o : LOp := { LOp.blank with u := true, d := 63 }
    Issues p.s p.g p.n p.c false Use.none ∧
    Issues p.s p.g p.n p.c false (memUse memOp { scratch := false, bytes := 1, regs := 0, signed := false, iv := 0 }) ∧
    (o.u = true ∧ o.d.toNat < 64 ∧ Issues p.s p.g p.n p.c false { Use.none with sr := [o.d.toNat] }) ∧
    (LOp.blank.u && decide (LOp.blank.d.toNat < 64)) = false :=
  ⟨issues_of (by decide +kernel), issues_of (by decide +kernel), ⟨by decide, by decide, issues_of (by decide +kernel)⟩, by decide⟩

/-! ### Posts and control flow -/

/-- A post whose entry stands at s4, or at s6:s7 for COLL, with the twelve scalars from s30. -/
def postOp (a : BitVec 9) : LOp := { LOp.blank with u := true, d := 20, a := a, b := 30 }

def PostMet (p : Place) (f : PostForm) (o : LOp) : Prop :=
  Issues p.s p.g p.n p.c false { Use.none with sr := o.d.toNat :: ringUse f.bench o.a.toNat ++ (List.range 12).map (o.b.toNat + ·) } ∧
  o.d.toNat < 60 ∧ o.b.toNat ≤ 52 ∧ ringRegOk f.bench o.a.toNat = true ∧
  spotCheck p.s p.g (ringSpot p.g p.n f.bench o.a.toNat) 64 64 (if f.bench then .update else .read) = 0

theorem witness_PostsAreCaptured : let p := addressed id
    let mma : LOp := { LOp.blank with a := 8, b := 30, bk := true, d := 12, w2 := some 21 }
    p.g.landing = none ∧ postCount p.c < p.c.hdr.npost.toNat ∧
    (∀ x ∈ postForms, PostMet p x.2 (postOp (if x.2.bench then 6 else 4))) ∧
    (∀ bench ∈ [false, true], Issues p.s p.g p.n p.c false { Use.none with sr := 20 :: ringUse bench (if bench then 6 else 4) } ∧
      ringRegOk bench (if bench then 6 else 4) = true ∧
      spotCheck p.s p.g (ringSpot p.g p.n bench (if bench then 6 else 4)) 64 64 (if bench then .update else .read) = 0) ∧
    Issues p.s p.g p.n p.c false { sr := 21 :: (List.range 6).map (30 + ·), vr := [8], pr := [], pdg := false, extra := 0 } ∧
    mma.b.toNat ≤ 58 ∧ mma.a.toNat < p.g.nregs ∧ dstOk false p.g.nregs false (mma.offs false) mma.d.toNat = true ∧ p.g.gang ≠ 0 ∧
    spotCheck p.s p.g { bench := false, addr := (((List.range 6).map fun i => readS p.g p.n (30 + i)).getD 0 0).toNat } 64 64 .read = 0 ∧
    bits (((List.range 6).map fun i => readS p.g p.n (30 + i)).getD 5 0).toNat 31 24 = 0 := by
  refine ⟨by decide +kernel, by decide +kernel, ?_, ?_, issues_of (by decide +kernel), by decide +kernel⟩
  · intro x hx
    have hb : ∀ f ∈ [false, true], issuesB (addressed id) false
        { Use.none with sr := 20 :: ringUse f (if f then 6 else 4) ++ (List.range 12).map (30 + ·) } = true ∧
        ringRegOk f (if f then 6 else 4) = true ∧
        spotCheck (addressed id).s (addressed id).g (ringSpot (addressed id).g (addressed id).n f (if f then 6 else 4)) 64 64
          (if f then .update else .read) = 0 := by decide +kernel
    cases h : x.2.bench
    · obtain ⟨h1, h2, h3⟩ := hb false (by simp)
      unfold PostMet; rw [h]; exact ⟨issues_of h1, by decide, by decide, h2, h3⟩
    · obtain ⟨h1, h2, h3⟩ := hb true (by simp)
      unfold PostMet; rw [h]; exact ⟨issues_of h1, by decide, by decide, h2, h3⟩
  · intro b hb
    cases b
    · exact ⟨issues_of (by decide +kernel), by decide +kernel⟩
    · exact ⟨issues_of (by decide +kernel), by decide +kernel⟩

/-- The same group at its trace's last instruction. -/
def atTerm : Place := addressed fun c => { c with ix := c.lastIx }

def ctlOp (d a sub : Nat) : CtlOp :=
  { u := false, d := BitVec.ofNat 9 d, a := BitVec.ofNat 9 a, sub := BitVec.ofNat 3 sub, offset := 8, pred := 2, sense := 1, kind := 0, w2 := none }

theorem witness_TerminatorsEndTheTrace : let p := atTerm
    let t := relAddr p.c.pc 8
    let x := ringSpot p.g p.n false 4
    (Issues p.s p.g p.n p.c true Use.none ∧ p.g.landing = none ∧ inClusterLaunch p.s p.g = true ∧
      (∀ k ∈ [Term.fin t, .join t, .bar false 15 t, .bar true 3 t, .exit, .finx 2, .push false x.addr 8 2 t, .pop false x.addr 8 2 t,
        .rcall (callObj p.g p.n 40) (callMethod p.g p.n 40) (readS p.g p.n 41) (callArgs p.g p.n 40) 20 t], termFits p.c k = true) ∧
      termReaches p.g p.c [t] = true ∧ termReaches p.g p.c [] = true) ∧
    Issues p.s p.g p.n p.c true { Use.none with sr := [62, 63] } ∧ Issues p.s p.g p.n p.c true { Use.none with sr := 20 :: (List.range 12).map (40 + ·) } ∧
    callRecordOk p.g p.n 40 = true ∧
    Issues p.s p.g p.n p.c true { Use.none with sr := ringUse false 4, vr := [8], pr := [2] } ∧ ringRegOk false 4 = true ∧ 8 < p.g.nregs ∧
    headerReady p.s p.g x = true ∧ (∀ cons, p.g.rings.contains (cons, false, x.addr) = true) ∧
    (∃ h pa, ringCheck (seeSpot p.s p.g x 64) p.g p.c x = .ok h pa) :=
  ⟨⟨issues_of (by decide +kernel), by decide +kernel⟩, issues_of (by decide +kernel), issues_of (by decide +kernel), by decide +kernel,
    issues_of (by decide +kernel), by decide +kernel, by decide +kernel, by decide +kernel, by decide +kernel, _, _, rfl⟩

/-- Three lanes with T, F and U in predicate 2. -/
def guarded : Place := placeWith id (fun g => ((g.wp 0 2 1).wp 1 2 0).wp 2 2 2) (fun n => { n with mask := 7 }) fun c => { c with active := 7 }

theorem witness_GuardsSplitLanes : Issues guarded.s guarded.g guarded.n guarded.c false { Use.none with pr := [2], pdg := true } ∧
    (guarded.g.rp 0 2, guarded.g.rp 1 2, guarded.g.rp 2 2) = (1, 0, 2) := ⟨issues_of (by decide +kernel), by decide +kernel⟩

/-- A group whose workgroup is in SAVING, in its pre-emption handler's trace of kind 2. -/
def saver : Place := placeWith (fun s => { s with wkgs := s.wkgs.map fun w => { w with st := .saving } }) (fun g => { g with loadsplit := true, savelo := 0x10000 })
  (fun n => { n with saver := true, restored := true }) fun c => { c with hdr := { c.hdr with kind := 2 } }

theorem witness_FlowModifiersTakeTheirPlace :
    (Issues plain.s plain.g plain.n plain.c false Use.none ∧ plain.c.flow = none ∧
      (∀ l ∈ lanesOf plain.c.active, (sget plain.g.rdepth l).toNat < 8) ∧ plain.c.hdr.kind ≠ 1) ∧
    (let p := placeWith id (fun g => { g with rdepth := sset g.rdepth 0 8 }) id id
     Issues p.s p.g p.n p.c false Use.none ∧ p.c.flow = none ∧ ∀ l ∈ lanesOf p.c.active, sget p.g.rdepth l ≠ 0) ∧
    (Issues saver.s saver.g saver.n saver.c false Use.none ∧ saver.c.flow = none ∧ saver.c.hdr.kind = 2 ∧ inSaving saver.s saver.g = true ∧
      saver.n.restored = true ∧ saver.g.loadsplit = true) :=
  ⟨⟨issues_of (by decide +kernel), by decide +kernel⟩, ⟨issues_of (by decide +kernel), by decide +kernel⟩,
    issues_of (by decide +kernel), by decide +kernel⟩

/-- A fragment about to enter its trace. -/
def entering : State := { base.setGroup (baseG.setNode { baseN with ctx := none }) with cur := .frag 0 0 }
def enteringG : Group := baseG.setNode { baseN with ctx := none }

theorem witness_TracesOpen : curFrame entering = some (enteringG, { baseN with ctx := none }) ∧
    canIssue entering enteringG { baseN with ctx := none } = true ∧ (State.probeHdr.kind = 1 → enteringG.landing ≠ none) ∧
    (baseN.toHandler = true → State.probeHdr.kind = 3) := by decide +kernel

theorem witness_FaultsAtEntry :
    (baseG.landing = none ∧ baseN.toHandler = false ∧ baseN.prevKind ≠ 2 ∧ baseN.prevKind ≠ 3) ∧
    ({ baseN with toHandler := true }).toHandler = true ∧ ({ baseN with prevKind := 2 }).prevKind = 2 ∧
    (saver.c.active.getLsbD 0 = true ∧ faultCause 17 = 0 ∧ saver.g.landing = none ∧ saver.c.hdr.kind = 2) ∧
    ({ baseG with landing := some default }).landing ≠ none := by decide +kernel

/-! ### Waits, tickets, spawning -/

/-- A group with loads to wait for, a gate that its launch keeps shut and a store that is not checked. -/
def waiting : Place := placeWith
  (fun s =>
    { s with
      launches := s.launches.map fun l => { l with gateOpen := false }
      pipe := [{ (default : Item) with
        group := baseG.uid
        eff := { ix := 1, op := .store .global 1 false 0 false, elems := [Elem.mk0 0 0x10000 [7]] } }] })
  (fun g => { g with ld := 3 }) id id

/-- A group one of whose FENCEs has not been passed: a store stands before it. -/
def fencing : Place := placeWith
  (fun s =>
    { s with
      pipe :=
        [{ (default : Item) with
          group := baseG.uid
          eff := { ix := 1, op := .store .global 1 false 0 false, elems := [Elem.mk0 0 0x10000 [7]] } },
         { (default : Item) with id := 1, group := baseG.uid, eff := { ix := 2, op := .fence 1 4, elems := [] } }] })
  id id id

theorem witness_WaitsPassAndHold :
    (let p := plain
     let k : WaitCounts := { ld := 0, st := 0, cp := 255, tl := 255 }
     Issues p.s p.g p.n p.c false Use.none ∧
      (∀ x ∈ [(p.g.ld, k.ld), (p.g.st, k.st), (p.g.cp, k.cp), (p.g.tl, k.tl)], x.2 = 255 ∨ x.1.toNat ≤ x.2.toNat) ∧
      Issues p.s p.g p.n p.c false { Use.none with sr := scalarUse 64 } ∧ scalarOk 64 = true ∧
      (counterOf p.g 0).toNat ≤ (readScalar p.g p.n 64).toNat ∧
      (∃ q, engqFor p.s p.g 0 = some q ∧ seqReached q.word (readScalar p.g p.n 64) = true) ∧
      (∀ l, p.s.launch? p.g.part p.g.serial = some l → l.gateOpen = true) ∧ uncheckedStores p.s p.g = false ∧ p.g.landing = none ∧
      Issues p.s p.g p.n p.c false { Use.none with sr := scalarUse 65 ++ scalarUse 64 } ∧ scalarOk 65 = true ∧
      seqReached (appliedOn p.s p.g.part p.g.die 1) (readScalar p.g p.n 64) = true ∧ horizonReady p.s p.g 1 = true) ∧
    acquireReady plain.s plain.g = true ∧
    (acquireReady fencing.s fencing.g = false ∧ fencing.g.landing = none ∧
      (∃ l, fencing.s.launch? fencing.g.part fencing.g.serial = some l) ∧
      Issues fencing.s fencing.g fencing.n fencing.c false Use.none ∧
      Issues fencing.s fencing.g fencing.n fencing.c false { Use.none with sr := scalarUse 5 ++ scalarUse 64 }) ∧
    (let p := waiting
     let k : WaitCounts := { ld := 2, st := 0, cp := 255, tl := 255 }
     Issues p.s p.g p.n p.c false Use.none ∧
      (∃ x ∈ [(p.g.ld, k.ld), (p.g.st, k.st), (p.g.cp, k.cp), (p.g.tl, k.tl)], x.2 ≠ 255 ∧ x.2.toNat < x.1.toNat) ∧
      Issues p.s p.g p.n p.c false { Use.none with sr := scalarUse 66 } ∧ (readScalar p.g p.n 66).toNat < (counterOf p.g 0).toNat ∧
      (∃ l, p.s.launch? p.g.part p.g.serial = some l ∧ l.gateOpen = false) ∧
      (Issues p.s p.g p.n p.c false { Use.none with sr := scalarUse 65 } ∧ scalarOk 65 = true ∧
        ∃ q, engqFor p.s p.g 0 = some q ∧ seqReached q.word (readScalar p.g p.n 65) = false) ∧ uncheckedStores p.s p.g = true ∧
      (Issues p.s p.g p.n p.c false { Use.none with sr := scalarUse 65 ++ scalarUse 66 } ∧ scalarOk 66 = true ∧
        seqReached (appliedOn p.s p.g.part p.g.die (bits (readScalar p.g p.n 65).toNat 7 0)) (readScalar p.g p.n 66) = false)) :=
  ⟨⟨issues_of (by decide +kernel), all_of (by decide +kernel), issues_of (by decide +kernel), by decide +kernel, by decide +kernel,
      some_with (by decide +kernel), fun l h => by
        have h2 : ((plain.s.launch? plain.g.part plain.g.serial).map (·.gateOpen)) = some true := by decide +kernel
        rw [h] at h2; exact Option.some.inj h2,
      by decide +kernel, by decide +kernel, issues_of (by decide +kernel), by decide +kernel⟩,
    by decide +kernel, ⟨by decide +kernel, by decide +kernel, ⟨_, rfl⟩, issues_of (by decide +kernel), issues_of (by decide +kernel)⟩,
    issues_of (by decide +kernel), by decide +kernel, issues_of (by decide +kernel), by decide +kernel, some_with (by decide +kernel),
    ⟨issues_of (by decide +kernel), by decide +kernel, some_with (by decide +kernel)⟩, by decide +kernel,
    issues_of (by decide +kernel), by decide +kernel⟩

/-- A pending grant, and an empty grant register. -/
def granted : Place := placeWith id (fun g => { g with grant := { st := 1, n := 5, c := 2, x := 0, y := 0, z := 0 } }) id id

theorem witness_TicketsAreGrantedAndRingStatusIsRead :
    (∀ p ∈ [plain, granted], p.g.landing = none ∧ Issues p.s p.g p.n p.c false { Use.none with sr := (List.range 6).map (54 + ·) } ∧
      54 % 2 = 0 ∧ 54 ≤ 54 ∧ (∃ l, p.s.launch? p.g.part p.g.serial = some l) ∧ p.g.grant.st ≠ 2) ∧
    (let p := addressed id
     let x := ringSpot p.g p.n false 4
     Issues p.s p.g p.n p.c false { Use.none with sr := 63 :: ringUse false 4 } ∧ ringRegOk false 4 = true ∧ headerReady p.s p.g x = true ∧
      spotCheck (seeSpot (countCall p.s p.g) p.g x 64) p.g x 64 64 .read = 0 ∧
      ∃ h pa, loadHeader (seeSpot (countCall p.s p.g) p.g x 64) p.g p.c x = .ok h pa) := by
  refine ⟨?_, issues_of (by decide +kernel), by decide +kernel, by decide +kernel, by decide +kernel, _, _, rfl⟩
  simp only [List.forall_mem_cons]
  exact ⟨⟨by decide +kernel, issues_of (by decide +kernel), by decide, by decide, ⟨_, rfl⟩, by decide +kernel⟩,
    ⟨by decide +kernel, issues_of (by decide +kernel), by decide, by decide, ⟨_, rfl⟩, by decide +kernel⟩, by simp⟩

/-- The partition of the group has task queue 0 with room for one task; two lanes are active; v2:v3 hold the interval from 1 to 2. -/
def spawning : Place := placeWith
  (fun s => { s with parts := s.parts.map fun p => { p with
      taskqs := [{ q := 0, serial := 1, base := 0, size := 1, tailc := 7, headc := 7, reserved := [] }] } })
  (fun g => (((g.wv 0 2 0x3F800000).wv 0 3 0x40000000).wv 1 2 0x3F800000).wv 1 3 0x40000000) (fun n => { n with mask := 3 }) fun c => { c with active := 3 }
def spawnOp : LOp := { LOp.blank with d := 1, a := 10, w2 := some 16 }
def bisOp : LOp := { LOp.blank with d := 8, a := 2, b := 20, mod := 1, w2 := some 16 }

theorem witness_SpawnsReserveSlots : let p := spawning
    (p.g.landing = none ∧ Issues p.s p.g p.n p.c false
        { Use.none with vr := (List.range 6).map (spawnOp.a.toNat + ·), pr := [spawnOp.d.toNat, spawnOp.ps.toNat] } ∧
      spawnCount p.c = 0 ∧ spawnOp.d.toNat < 16 ∧ spawnOp.a.toNat + 6 ≤ p.g.nregs) ∧
    (∃ q tq, p.s.part? p.g.part = some q ∧ q.taskq? (spawnQueue spawnOp) = some tq) ∧
    ∀ half, (Issues p.s p.g p.n p.c false
        { sr := bisOp.srcA.scalars (ivKd half)
          vr := (if half then [bisOp.d.toNat] else [bisOp.d.toNat, bisOp.d.toNat + 1]) ++ (List.range 4).map (bisOp.b.toNat + ·) ++
            bisOp.srcA.vectors (ivKd half) [0]
          pr := [bisOp.mod.toNat % 16, bisOp.ps.toNat]
          pdg := false
          extra := 0 } ∧
      dstOk false p.g.nregs (!half) [0] bisOp.d.toNat = true ∧ srcOk p.g.nregs (ivKd half) [0] bisOp.srcA = true ∧
      bisOp.b.toNat + 4 ≤ p.g.nregs ∧ selected p.g bisOp.ps.toNat bisOp.pm.toNat p.c.active ≠ [] ∧
      overShadow p.c (if half then [bisOp.d.toNat] else [bisOp.d.toNat, bisOp.d.toNat + 1]) = false ∧
      (∀ l ∈ selected p.g bisOp.ps.toNat bisOp.pm.toNat p.c.active,
        ivCheck (ivFmt half) [ivOf half (readSrc p.g p.n l (ivKd half) bisOp.srcA 0)] = 0)) :=
  ⟨⟨by decide +kernel, issues_of (by decide +kernel), by decide +kernel⟩, ⟨_, _, rfl, rfl⟩, fun half => by
    cases half
    · exact ⟨issues_of (by decide +kernel), by decide +kernel⟩
    · exact ⟨issues_of (by decide +kernel), by decide +kernel⟩⟩

/-! ### Single lanes, reads in flight, trees -/

def laneOp (lane : Nat) (wide : Bool) : LOp :=
  { LOp.blank with d := 8, a := 20, b := BitVec.ofNat 9 (64 + lane), ak := true, bk := true, mod := if wide then 4 else 0 }

theorem witness_WrlaneWritesOneLane : ∀ wide, ∀ o ∈ [laneOp 0 wide, laneOp 1 wide],
    Issues plain.s plain.g plain.n plain.c false
      { sr := (if o.a.toNat < 64 then wideDst (LOp.b64 o) o.a.toNat else []) ++ scalarUse o.b.toNat
        vr := wideDst (LOp.b64 o) o.d.toNat
        pr := []
        pdg := false
        extra := 0 } ∧
    (o.ak = true ∧ o.bk = true ∧ o.a.toNat < 64 ∧ laneIndexOk (LOp.b64 o) o.b.toNat = true ∧ (LOp.b64 o = true → o.a.toNat % 2 = 0) ∧
      dstOk false plain.g.nregs (LOp.b64 o) [0] o.d.toNat = true ∧ (readScalar plain.g plain.n o.b.toNat).toNat ≤ 95 ∧
      (plain.c.active.getLsbD (readScalar plain.g plain.n o.b.toNat).toNat = false ∨
        overShadow plain.c (wideDst (LOp.b64 o) o.d.toNat) = false)) ∧
    LOp.b64 o = wide ∧ plain.c.active.getLsbD 0 = true ∧ plain.c.active.getLsbD 1 = false := by
  intro wide
  simp only [List.forall_mem_cons]
  cases wide <;>
    exact ⟨⟨issues_of (by decide +kernel), by decide +kernel⟩, ⟨issues_of (by decide +kernel), by decide +kernel⟩, by simp⟩

/-- The state in which LDLIT's words have been seen. -/
def litSeen (o : LitOp) : State := (poolWords plain.c o).foldl (fun t b => seeWord t plain.g [] b) (countCall plain.s plain.g)

theorem witness_LiteralAndEngineReadsGoInFlight :
    (∀ o ∈ [({ u := false, d := 8, sub := 5, offset := 62 } : LitOp), { u := true, d := 20, sub := 4, offset := 0xFFFFFF }],
      Issues plain.s plain.g plain.n plain.c false
        { Use.none with
          sr := if o.u then (List.range (if o.sub = 5 then 2 else 1)).map (o.d.toNat + ·) else []
          vr := if o.u then [] else (List.range (if o.sub = 5 then 2 else 1)).map (o.d.toNat + ·) } ∧
      (dataOk o.u plain.g.nregs (if o.sub = 5 then 2 else 1) o.d.toNat = true ∧
        relAddr plain.c.pc o.offset % (4 * (if o.sub = 5 then 2 else 1)) = 0 ∧
        (o.u || !overShadow plain.c ((List.range (if o.sub = 5 then 2 else 1)).map (o.d.toNat + ·))) = true) ∧
      (∀ b ∈ poolWords plain.c o, wordHeld plain.s plain.g [] b = false) ∧
      (∃ ws, fetchMore (litSeen o) plain.g [] (relAddr plain.c.pc o.offset) (if o.sub = 5 then 2 else 1) = .ok ws) ∧
      ∃ x, translate (litSeen o) plain.g.core plain.g.die plain.g.part (relAddr plain.c.pc o.offset) .exec = .ok x ∧
        methodMayLoad (litSeen o) plain.g (relAddr plain.c.pc o.offset) (4 * (if o.sub = 5 then 2 else 1)) x.pa = true) ∧
    (Issues plain.s plain.g plain.n plain.c false { Use.none with sr := [58, 59] } ∧ acquireReady plain.s plain.g = true ∧ ∃ q, engqFor plain.s plain.g 3 = some q) ∧
    (plain.g.landing = none ∧ callRecordOk plain.g plain.n 40 = true ∧
      Issues plain.s plain.g plain.n plain.c false { Use.none with sr := [20, 21, 22] ++ (List.range 12).map (40 + ·) }) := by
  refine ⟨?_, ⟨issues_of (by decide +kernel), by decide +kernel, _, rfl⟩, by decide +kernel, by decide +kernel, issues_of (by decide +kernel)⟩
  simp only [List.forall_mem_cons]
  exact ⟨⟨issues_of (by decide +kernel), by decide +kernel, by decide +kernel, ⟨_, rfl⟩, _, rfl, by decide +kernel⟩,
    ⟨issues_of (by decide +kernel), by decide +kernel, by decide +kernel, ⟨_, rfl⟩, _, rfl, by decide +kernel⟩, by simp⟩

/-- Lane 0 stands at a node of a tree whose flags are given; the features stand at the same address. -/
def treeAt (flags : Byte) : Place :=
  let p := addressed id
  { p with s := { p.s with mem := swrite p.s.mem 0x40106 [flags] } }
def treeOp : LOp := { LOp.blank with d := 2, a := 2, mod := 1 }

/-- The lanes of TSTEP there, their reads of the nodes, and of the features. -/
def treeLanes (p : Place) : List Nat := selected p.g treeOp.ps.toNat treeOp.pm.toNat p.c.active
def treeNode (p : Place) (l : Nat) : Nat := pairOf (p.g.rv l 2) (p.g.rv l 3)
def treeBase (p : Place) (l : Nat) : Nat := readSrc p.g p.n l (.int 3) treeOp.srcA 0
def treeSeen (p : Place) : State := (treeLanes p).foldl (fun t l => treeSee t p.g p.c l (treeNode p l) (treeBase p l)) (countCall p.s p.g)
def treeUse : Use :=
  { sr := treeOp.srcA.scalars (.int 3), vr := [2, 3, 4] ++ treeOp.srcA.vectors (.int 3) [0], pr := [1, 15], pdg := true, extra := 0 }

theorem witness_TreeStepsFollowTheTree : ∀ flags ∈ [(0 : Byte), 1],
    let p := treeAt flags
    let so := (treeLanes p).any fun l => treeSo p.s p.g p.c l (treeNode p l) (treeBase p l)
    Issues p.s p.g p.n p.c false treeUse ∧
    (2 + 3 ≤ p.g.nregs ∧ srcOk p.g.nregs (.int 3) [0] treeOp.srcA = true ∧ treeLanes p ≠ [] ∧
      (∀ l ∈ treeLanes p, treeReady p.s p.g p.c so l (treeNode p l) (treeBase p l) = true) ∧
      overShadow p.c (if flags == 1 then [4] else [2, 3]) = false) ∧
    (∃ (b : Nat → List Byte) (pa : Nat → Nat), ∀ l ∈ treeLanes p, loadLane (treeSeen p) p.g p.c l (treeNode p l) 16 true = .ok (b l) (pa l) ∧
      field (b l) 7 1 = 0 ∧ field (b l) 6 1 < 8 ∧ bit (field (b l) 6 1) 0 = (flags == 1)) ∧
    ∃ (f : Nat → List Byte) (fpa : Nat → Nat), ∀ l ∈ treeLanes p, loadLane (treeSeen p) p.g p.c l (treeBase p l) 4 false = .ok (f l) (fpa l) := by
  have one : ∀ flags ∈ [(0 : Byte), 1], treeLanes (treeAt flags) = [0] := by decide +kernel
  have met : ∀ flags ∈ [(0 : Byte), 1], ∀ l ∈ treeLanes (treeAt flags), let p := treeAt flags
      let r := loadLane (treeSeen p) p.g p.c l (treeNode p l) 16 true
      gotOk r = true ∧ field (gotBytes r) 7 1 = 0 ∧ field (gotBytes r) 6 1 < 8 ∧ bit (field (gotBytes r) 6 1) 0 = (flags == 1) ∧
        gotOk (loadLane (treeSeen p) p.g p.c l (treeBase p l) 4 false) = true := by decide +kernel
  intro flags hf p so
  refine ⟨?_, ?_, ⟨_, _, fun l hl => ⟨got_of (met flags hf l hl).1, (met flags hf l hl).2.1, (met flags hf l hl).2.2.1, (met flags hf l hl).2.2.2.1⟩⟩,
    ⟨_, _, fun l hl => got_of (met flags hf l hl).2.2.2.2⟩⟩
  · revert flags; simp only [List.forall_mem_cons]
    exact ⟨issues_of (by decide +kernel), issues_of (by decide +kernel), by simp⟩
  · revert flags; decide +kernel

theorem witness_SplitTreesAreCarried : saver.g.landing = none ∧ saver.c.hdr.kind = 2 ∧
    Issues saver.s saver.g saver.n saver.c false { Use.none with sr := [regSavelo, regSavehi] } ∧ inSaving saver.s saver.g = true ∧
    saver.n.restored = true ∧
    (let at_ := (List.range 144).map fun k => saveBlock saver.g + 0x200 + 16 * k
     (∀ a ∈ at_, loadReady saver.s saver.g a 16 (at_.any fun a => loadKind saver.s saver.g a == some 0) false false = true) ∧
     gotOk (joinGot (at_.map fun a =>
       loadLane (at_.foldl (fun t a => seeLoad t saver.g a 16 false) saver.s) saver.g saver.c uniLane a 16 false)) = true) :=
  ⟨by decide +kernel, by decide +kernel, issues_of (by decide +kernel), by decide +kernel⟩

/-! ### What stops an instruction -/

theorem witness_UnallocatedWordsAndWrongLengthsFault :
    (Issues plain.s plain.g plain.n plain.c false Use.none ∧ plain.g.landing = none ∧ plain.c.hdr.kind ≠ 2 ∧ plain.c.hdr.kind ≠ 3) ∧
    (let p := placeWith id id id fun c => { c with ix := c.lastIx + 1 }
     canIssue p.s p.g p.n = true ∧ p.n.ctx = some p.c ∧ p.c.term = none ∧ p.c.emul = none ∧ p.g.landing = none ∧ p.c.lastIx < p.c.ix) ∧
    (canIssue plain.s plain.g plain.n = true ∧ plain.c.ix ≠ plain.c.lastIx) :=
  ⟨⟨issues_of (by decide +kernel), by decide +kernel⟩, by decide +kernel, by decide +kernel⟩

/-- Two fragments of one group: the other has rank r and owns s5. -/
def rivals (r : Nat) : Place :=
  let other : Node := { plain.n with ix := 1, mask := 2, rank := r, ctx := some { plain.c with active := 2, owned := [(5, 0)] } }
  let n := { plain.n with rank := 1 }
  let g := { plain.g with nodes := [n, other] }
  { plain with g := g, n := n, s := plain.s.setGroup g }

theorem witness_TheOlderOwnerWins :
    (∀ r ∈ [0, 2], canIssue (rivals r).s (rivals r).g (rivals r).n = true ∧ (rivals r).n.ctx = some plain.c ∧ plain.c.term = none ∧
      plain.c.emul = none ∧ (rivals r).g.landing = none ∧ plain.c.ix ≤ plain.c.lastIx ∧
      scoreboarded (rivals r).s (rivals r).g (rivals r).n plain.c { Use.none with sr := [5] } = false) ∧
    (∃ m ∈ owners (rivals 0).g (rivals 0).n [5], m.rank < (rivals 0).n.rank) ∧
    ((∀ m ∈ owners (rivals 2).g (rivals 2).n [5], (rivals 2).n.rank ≤ m.rank) ∧ owners (rivals 2).g (rivals 2).n [5] ≠ [] ∧
      (((owners (rivals 2).g (rivals 2).n [5]).foldl (fun t m => rollBack t (rivals 2).g.uid m.ix) (rivals 2).s).group? (rivals 2).g.uid).isSome
        = true) ∧
    (plain.s.group? plain.g.uid = some plain.g ∧ plain.g.node? plain.n.ix = some plain.n ∧ plain.c.ticket = false ∧ plain.c.effs = []) := by
  decide +kernel

theorem witness_FaultsTakeTheHandler :
    (Issues plain.s plain.g plain.n plain.c false (trapSpec 17 LOp.blank).used ∧ plain.g.landing = none ∧ plain.c.hdr.kind ≠ 2 ∧
      plain.c.hdr.kind ≠ 3) ∧
    (let lanes := (selected saver.g 15 0 (saver.c.active ||| saver.c.helpers)).filter fun l => saver.c.active.getLsbD l && !saver.c.helpers.getLsbD l
     Issues saver.s saver.g saver.n saver.c false (trapSpec 18 LOp.blank).used ∧ saver.g.landing = none ∧ saver.c.hdr.kind = 2 ∧
       LOp.blank.ps = 15 ∧ LOp.blank.pm = 0 ∧ lanes ≠ []) ∧
    ∃ d, laneSpecOf plain.s plain.g.nregs (.iadd { addOp with d := 511 }) = some d ∧ Issues plain.s plain.g plain.n plain.c false d.used ∧
      d.chk ≠ 0 ∧ faultCause d.chk = 0 ∧ d.quad = false ∧ plain.c.helpers = 0 :=
  ⟨⟨issues_of (by decide +kernel), by decide +kernel⟩, ⟨issues_of (by decide +kernel), by decide +kernel⟩, _, rfl,
    issues_of (by decide +kernel), by decide +kernel⟩

theorem witness_LaneInstructionsFrame : ∃ d, laneSpecOf plain.s plain.g.nregs (.iadd addOp) = some d ∧
    Issues plain.s plain.g plain.n plain.c false d.used ∧ (∃ t, exec (.iadd addOp) plain.s = .next t) ∧ swf plain.g.v = true ∧
    swf plain.g.p = true ∧ swf plain.g.s = true :=
  ⟨_, rfl, issues_of (by decide +kernel), next_of (by decide +kernel), by decide +kernel⟩

/-! ### Values -/

theorem witness_IntegerResults : addOp.mod = 0 ∧ ({ addOp with mod := 4 }).isSat = true := by decide +kernel

theorem witness_ShiftAndComparisonResults : ∀ r ∈ [0, 1, 2, 3, 4, 5], ({ addOp with sub := BitVec.ofNat 3 r }).mod = 0 ∧
    ({ addOp with sub := BitVec.ofNat 3 r }).sub.toNat = r := by decide +kernel

theorem witness_FloatResults : fp32 ∈ [fp32, fp16, bf16] ∧ (fdec fp32 0x7F800001).isNan = true ∧ (fdec fp32 0x3F800000).isNan = false ∧
    (fdec fp32 0x80000000).isZero = true ∧ (fdec fp32 0).isZero = true ∧ ((fdec fp32 0x3F800000).isZero && (fdec fp32 0).isZero) = false ∧
    (0x3F800000 < 2 * fp32.signBit ∧ fdec fp32 0x3F800000 = .fin false 8388608 (-23) ∧ 8388608 ≠ 0) := by
  exact ⟨by simp, by decide +kernel⟩

end Sys2Proof.Tests
end

