-- ==== Sys2Proof/Tests/Slice0.lean ====
section
/-! SUPPORT. Tests of single definitions: ill-formed terms that the checks refuse, words written out in the spec, and single
instructions on small states. Every expected value stands in the spec or is computed by hand from its rules; each test names its source. -/
open Sys2Proof Sys2Proof.Machine
namespace Sys2Proof.Tests
set_option Elab.async false

/-! ### Well-formedness (R266 to R269, R284): one ill-formed term for each check -/

def blank : LOp := LOp.blank
def uni : LOp := LOp.blankU
def ctl : CtlOp := { u := false, d := 0, a := 0, sub := 0, offset := 4, pred := 0, sense := 0, kind := 0, w2 := none }
def mem : MemOp :=
  { u := false, d := 4, a := 2, sub := 4, b := 0, zero := 0, ps := 15, pm := 0, ak := false, bk := false, nt := false, scope := 0, mark := 0,
    w2 := none }
def atm : AtomOp :=
  { u := false, d := 4, a := 2, sub := 0, b := 3, scope := 0, mark := 0, zero := 0, ps := 15, pm := 0, ak := false, bk := false, ty := 1,
    x4 := false, low := 0, w2 := none }
def hdr : TraceHdr :=
  { kind := 0, mode := false, nlen := 4, nstore := 1, nshadow := 8, natom := 0, npost := 0, nspawn := false, zero := false, rejoin := 0, park := 0 }
def sop : SOp := { u := false, d := 3, a := 1, b := 2, x := false }

/-- An S-form with X = 1, or a one-source one with B (R259, R260); and terms beside them that pass. -/
theorem test_wf_sform : (∀ i ∈ [
    .iaddS { sop with x := true }, .movS sop, .frcpS sop],
    Instr.wf i = false) ∧ ∀ i ∈ [
    .iaddS sop, .imulhS { sop with x := true }, .movS { sop with b := 0 }], Instr.wf i = true := by decide

/-- U with a block, SUB, B beside a literal, types, SAT, the L-form of a three-source opcode (R263, R267, R268); and terms beside them that
pass. -/
theorem test_wf_integer : (∀ i ∈ [
    .iadd { uni with bw := 1 }, .iadd { uni with ps := 3 }, .iadd { uni with ak := true }, .iadd { blank with sub := 1 },
    .iadd { blank with b := 1, w2 := some 0 }, .iadd { blank with mod := 1 }, .imulh { blank with mod := 48 },
    .imin { blank with mod := 4 }, .imad blank, .imad { blank with w2 := some 512 }, .iabs { blank with mod := 8 },
    .ineg { blank with b := 1 }, .ineg { blank with w2 := some 0 }, .iaddc blank, .iaddc { uni with mod := 8 },
    .icmp { blank with sub := 6 }, .icmp { blank with bh := 1 }, .sel { blank with mod := 16 }, .lea { blank with mod := 16 },
    .movi blank, .movi { blank with a := 1, w2 := some 0 }, .dot8 { blank with sub := 1, w2 := some 0 },
    .dot4 { blank with mod := 8, w2 := some 0 }],
    Instr.wf i = false) ∧ ∀ i ∈ [
    .iadd blank, .imad { blank with w2 := some 13 }, .iaddc { blank with mod := 8 }, .movi { blank with w2 := some 0 },
    .dot4 { blank with sub := 3, w2 := some 0 }], Instr.wf i = true := by decide

/-- RSEL above 4, FTYPE 3, SAT where it is not taken; conversions and packing (R324, R329, R330); and terms beside them that pass. -/
theorem test_wf_float : (∀ i ∈ [
    .fadd { blank with mod := 40 }, .fadd { blank with mod := 3 }, .fmin { blank with mod := 8 },
    .fmin { blank with mod := 4 }, .fsqrt { blank with mod := 4 }, .fexp2 { blank with mod := 8 }, .fma blank,
    .frcp { blank with b := 2 }, .cvt { blank with b := 0x0D }, .cvt { blank with b := 0x80, mod := 4 },
    .cvt { blank with b := 0x02, mod := 8 }, .cvt { blank with bk := true }, .pack { blank with sub := 7 },
    .pack { blank with mod := 4 }, .pack { blank with sub := 5, mod := 4 }, .unpack { blank with mod := 8 },
    .bscale { blank with sub := 2 }],
    Instr.wf i = false) ∧ ∀ i ∈ [
    .fadd { blank with mod := 36 }, .cvt { blank with b := 0x80, mod := 16 }, .pack { blank with sub := 3, mod := 4 }], Instr.wf i = true := by decide

/-- U = 1, SUB, MOD, word 2 of IVBIS (R333 to R340); and terms beside them that pass. -/
theorem test_wf_interval : (∀ i ∈ [
    .ivadd uni, .ivadd { blank with mod := 1 }, .ivsqr { blank with b := 1 }, .ivmake { blank with sub := 2 },
    .ivmake { blank with sub := 1, b := 3 }, .ivcmp { blank with sub := 6 }, .ivcmp { blank with bw := 1 },
    .ivisect { blank with mod := 16 }, .ivbis blank, .ivbis { blank with w2 := some 0x40000000 }, .ivld { mem with sub := 2 },
    .ivst { mem with sub := 0, nt := true }],
    Instr.wf i = false) ∧ ∀ i ∈ [
    .ivadd blank, .ivmake { blank with sub := 1 }, .ivisect { blank with mod := 15 },
    .ivbis { blank with w2 := some 0x3FFFFFFF }, .ivld { mem with sub := 1 }], Instr.wf i = true := by decide

/-- Predicate opcodes with U, a source, SUB (R297 to R299); and terms beside them that pass. -/
theorem test_wf_predicate : (∀ i ∈ [
    .plogic { blank with sub := 4 }, .plogic { blank with ak := true }, .pnot { blank with b := 1 },
    .pmov { blank with sub := 1, a := 1 }, .pvote blank, .pvote { uni with mod := 4 }, .ptov { blank with mod := 1 },
    .vtop { blank with sub := 2 }, .pforce { blank with sub := 2 }],
    Instr.wf i = false) ∧ ∀ i ∈ [
    .plogic { blank with sub := 3 }, .pvote { uni with mod := 3, sub := 3 }], Instr.wf i = true := by decide

/-- Control layout: fields an opcode does not use, SENSE 3, a second offset of more than 24 bits (R269, R290); and terms beside them that
pass. -/
theorem test_wf_control : (∀ i ∈ [
    .endTrace { ctl with d := 1 }, .endTrace { ctl with w2 := some 0 }, .join { ctl with pred := 1 },
    .callt { ctl with kind := 1 }, .guard { ctl with sense := 3 }, .guard { ctl with w2 := some 0x01000000 },
    .bar { ctl with d := 1 }, .cbar { ctl with pred := 1 }, .pushq { ctl with sub := 1 }, .popq { ctl with sense := 1 },
    .rcall ctl, .rcall { ctl with u := true, pred := 1 }, .endx blank, .endx { uni with mod := 1 },
    .trap { blank with d := 1 }, .brk { blank with sub := 1 }],
    Instr.wf i = false) ∧ ∀ i ∈ [
    .endTrace ctl, .guard { ctl with sense := 2, w2 := some 0x00FFFFFF }, .bar { ctl with a := 1 },
    .pushq { ctl with sub := 4, d := 1, a := 2, pred := 3 }, .rcall { ctl with u := true }], Instr.wf i = true := by decide

/-- Waits, fences, rings, tickets, SPAWN (R300 to R311); and terms beside them that pass. -/
theorem test_wf_waiting : (∀ i ∈ [
    .waitp { uni with sub := 4 }, .waitseq { uni with ps := 3 }, .fence { blank with sub := 3 },
    .fence { blank with mod := 6 }, .qfence { uni with mod := 16 }, .qopen { uni with sub := 2 }, .qclose { uni with d := 1 },
    .qstat { uni with sub := 6 }, .ticket { uni with a := 1 }, .spawn blank, .spawn { blank with w2 := some 0x80000000 }],
    Instr.wf i = false) ∧ ∀ i ∈ [
    .fence { blank with sub := 2, mod := 5 }, .qopen { uni with sub := 5 }, .spawn { blank with w2 := some 0x3F000010 }], Instr.wf i = true := by decide

/-- U, width, mark and scope, NT, the offset (R344, R350, R352); and terms beside them that pass. -/
theorem test_wf_memory : (∀ i ∈ [
    .ld { mem with u := true }, .ld { mem with sub := 7 }, .ld { mem with zero := 1 }, .ld { mem with mark := 2 },
    .ld { mem with mark := 1, scope := 6 }, .ld { mem with scope := 1 }, .ld { mem with b := 1, w2 := some 0 },
    .st { mem with sub := 1 }, .ldu { mem with u := true, sub := 6 }, .ldu { mem with u := true, ps := 1 },
    .lda { mem with mark := 1 }, .lda { mem with nt := true }, .ldlit { u := false, d := 3, sub := 3, offset := 0 },
    .pref { mem with sub := 0 }, .cctl { mem with d := 0, sub := 1 }, .cctl { mem with d := 0, u := true, sub := 1 },
    .icinv blank],
    Instr.wf i = false) ∧ ∀ i ∈ [
    .ld { mem with mark := 1, scope := 5, nt := true }, .ldu { mem with u := true, sub := 5 },
    .pref { mem with sub := 1, d := 0 }, .cctl { mem with d := 0, a := 0, u := true, sub := 1 }], Instr.wf i = true := by decide

/-- Types, marks, X-forms, SRED peers, BOP forms (R355 to R361); and terms beside them that pass. -/
theorem test_wf_atomic : (∀ i ∈ [
    .atom { atm with u := true }, .atom { atm with ty := 6 }, .atom { atm with sub := 1, ty := 5 },
    .atom { atm with sub := 3, ty := 4 }, .atom { atm with sub := 7 }, .atom { atm with w2 := some 1 },
    .atom { atm with x4 := true }, .atom { atm with low := 1 }, .atom { atm with scope := 1 }, .red { atm with sub := 0 },
    .red { atm with d := 0, sub := 6 }, .red { atm with d := 0, mark := 1 }, .sred { atm with sub := 3 },
    .sred { atm with w2 := some 15 }, .bop { atm with d := 0, sub := 0, ty := 4 },
    .bop { atm with d := 0, sub := 2, ty := 1 }, .bop { atm with d := 0, sub := 7 }],
    Instr.wf i = false) ∧ ∀ i ∈ [
    .atom { atm with sub := 7, w2 := some 5 }, .red { atm with d := 0, mark := 2, scope := 4 },
    .sred { atm with w2 := some 31 }, .bop { atm with d := 0, sub := 0, ty := 4, w2 := some 12 }], Instr.wf i = true := by decide

/-- Lane exchange and reductions (R362 to R368); and terms beside them that pass. -/
theorem test_wf_exchange : (∀ i ∈ [
    .shfl { blank with sub := 5 }, .shfl { blank with mod := 8 }, .qswap { blank with sub := 3 },
    .qbcast { blank with b := 1 }, .matchLanes { blank with mod := 16 }, .redux { blank with sub := 6 },
    .redux { blank with mod := 1 }, .scan { blank with sub := 3, mod := 32 }, .scan { blank with mod := 2 }, .rdlane blank,
    .wrlane { blank with ps := 3 }],
    Instr.wf i = false) ∧ ∀ i ∈ [
    .shfl { blank with sub := 4, mod := 7 }, .redux { uni with mod := 32 }, .scan { blank with sub := 2, mod := 33 }], Instr.wf i = true := by decide

/-- Posts, GANG, MMA, object calls, trees, records (R371 to R381); and terms beside them that pass. -/
theorem test_wf_engine : (∀ i ∈ [
    .copy blank, .layout { uni with sub := 1 }, .gather { uni with mod := 1 }, .scatter { uni with ak := true },
    .coll { uni with ps := 1 }, .gang { uni with a := 1, w2 := some 0 }, .gang { uni with d := 1 }, .mma blank,
    .mma { blank with w2 := some 64 }, .seqrd { uni with sub := 4 }, .rread { uni with sub := 1 }, .rsync { uni with d := 1 },
    .rret { uni with d := 1 }, .tstep { blank with mod := 16 }, .pdgset { blank with d := 1 }, .pdgrd { blank with a := 1 },
    .dlog { blank with d := 1 }],
    Instr.wf i = false) ∧ ∀ i ∈ [
    .copy uni, .gang { uni with w2 := some 0 }, .mma { blank with w2 := some 63 }, .dlog { blank with mod := 15 }], Instr.wf i = true := by decide

/-- System registers: SUB only for SFRQ reads, D and MOD of a write; headers; hints (R287, R313, R383, R384); and terms beside them that
pass. -/
theorem test_wf_system : (∀ i ∈ [
    .sysrd { blank with a := 9, sub := 1 }, .sysrd { blank with a := 0x0B, sub := 5 }, .sysrd { blank with a := 0x15 },
    .sysrdCycle blank, .syswrFmode { uni with d := 1 }, .syswrFmode { uni with a := 0x0A }, .syswrFstat uni,
    .syswrSfrqPop { uni with a := 0x0C, b := 66 }, .syswrSfrqClearLost { uni with a := 0x0C, b := 67 }, .syswrPreempt uni,
    .syswrSavelo uni, .syswrSavehi uni, .syswrLdaerr uni, .trace { hdr with nlen := 0 }, .trace { hdr with nstore := 25 },
    .trace { hdr with nshadow := 33 }, .trace { hdr with natom := 5 }, .trace { hdr with npost := 5 },
    .trace { hdr with zero := true }],
    Instr.wf i = false) ∧ ∀ i ∈ [
    .sysrd { blank with a := 0x0B, sub := 4 }, .sysrdCycle { blank with a := 0x15 },
    .syswrSfrqClearLost { uni with a := 0x0C, b := 66 }, .trace hdr], Instr.wf i = true := by decide

/-- A pilot size of no meaning (R65); and terms beside them that pass. -/
theorem test_wf_pilot : (∀ i ∈ [
    .ldp 1 4 0, .ldq 1 7 0, .stq 1 4 0, .stl 1 5 0],
    Instr.wf i = false) ∧ ∀ i ∈ [
    .ldp 1 3 0], Instr.wf i = true := by decide

/-! ### Decoding: words as the spec's examples print them (11 to 19), by family -/

/-- The instruction that words decode to, when nothing is left over. -/
def dec (ws : List Word) : Option Instr :=
  match decode (wordsBytes ws) with
  | .ok (i, []) => some i
  | _ => none

/-- 13: IADD.i32 v5, v6, v7; IADD.i32 s4, s4, 16; IMAD; ICMP.lt; SEL; LEA; IADDC; MOVI (R259 to R268, R315 to R323). -/
theorem test_decode_integer :
    dec [0x0082860E] = some (.iaddS { u := false, d := 5, a := 6, b := 7, x := false }) ∧
    dec [0x00C204A0] = some (.iaddS { u := true, d := 4, a := 4, b := 80, x := false }) ∧
    dec [0x8C0140A8, 0x00003C00, 0x12345678] = some (.iadd { blank with d := 20, a := 21, w2 := some 0x12345678 }) ∧
    dec [0x8D40A058, 0x06003C00, 0x0000000D] = some (.imad { blank with d := 10, a := 11, b := 12, w2 := some 13 }) ∧
    dec [0x5200302A, 0x34003C40] = some (.icmp { blank with d := 3, a := 5, sub := 2, b := 104, bk := true }) ∧
    dec [0x52407040, 0x04803C04] = some (.sel { blank with d := 7, a := 8, b := 9, mod := 4 }) ∧
    dec [0x52814022, 0x03003C88] = some (.lea { blank with d := 20, a := 4, sub := 2, b := 6, ak := true, mod := 8 }) ∧
    dec [0x4C804032, 0x04003C08] = some (.iaddc { blank with d := 4, a := 6, sub := 2, b := 8, mod := 8 }) ∧
    dec [0x93003000, 0x00003C00, 0x40490FDB] = some (.movi { blank with d := 3, w2 := some 0x40490FDB }) := by
  decide +kernel

/-- 11, 13: a block FADD with a predicate; FMA; FSQRT; FRND.rdn; FCMP.lt; FSCALE.sat; CVT; PACK; UNPACK; DOT8; BSCALE (R324 to R332). -/
theorem test_decode_float :
    dec [0x54008140, 0x01CC0848] = some (.fadd { blank with d := 8, a := 40, b := 3, bw := 2, bh := 1, bs := 16, ps := 2, bk := true, mod := 8 }) ∧
    dec [0x9500A060, 0x07003C00, 0x00000010] = some (.fma { blank with d := 10, a := 12, b := 14, w2 := some 16 }) ∧
    dec [0x14010300] = some (.fsqrtS { u := false, d := 2, a := 3, b := 0, x := false }) ∧
    dec [0x56806038, 0x00003C18] = some (.frnd { blank with d := 6, a := 7, mod := 24 }) ∧
    dec [0x56002022, 0x02803C00] = some (.fcmp { blank with d := 2, a := 4, sub := 2, b := 5 }) ∧
    dec [0x56C08048, 0x21803C44] = some (.fscale { blank with d := 8, a := 9, b := 67, bk := true, mod := 4 }) ∧
    dec [0x5A008048, 0x40003C10] = some (.cvt { blank with d := 8, a := 9, b := 0x80, mod := 16 }) ∧
    dec [0x5A40C083, 0x00003C04] = some (.pack { blank with d := 12, a := 16, sub := 3, mod := 4 }) ∧
    dec [0x5A810062, 0x00003C00] = some (.unpack { blank with d := 16, a := 12, sub := 2 }) ∧
    dec [0x9B0140A8, 0x0B003C00, 0x00000014] = some (.dot8 { blank with d := 20, a := 21, b := 22, w2 := some 20 }) ∧
    dec [0x5B4180A0, 0x0F003C00] = some (.bscale { blank with d := 24, a := 20, b := 30 }) := by
  decide +kernel

/-- 13: IVMUL.iv16, IVCMP.lt, IVBIS.lo, IVLD.acq.dev (R333 to R340). -/
theorem test_decode_interval :
    dec [0x60C06038, 0x04003C00] = some (.ivmulIv16 { blank with d := 6, a := 7, b := 8 }) ∧
    dec [0x5EC04050, 0x06003C00] = some (.ivcmp { blank with d := 4, a := 10, b := 12 }) ∧
    dec [0x9F40A050, 0x0A003C05, 0x03000020] = some (.ivbis { blank with d := 10, a := 10, b := 20, mod := 5, w2 := some 0x03000020 }) ∧
    dec [0x5F80A020, 0x28003CD1] = some (.ivld { mem with d := 10, a := 4, sub := 0, b := 80, ak := true, bk := true, scope := 4, mark := 1 }) := by
  decide +kernel

/-- 12: a header, END, ENDX, JOIN, GUARD.t, GUARDC.f, CALLT, TRAP ?p3, WAITC, WAITP.tl, QFENCE.mq, PUSHQ, QSTAT, SPAWN, BAR, CBAR (R287 to
R311). -/
theorem test_decode_flow :
    dec [0x40004882, 0x00180000] = some (.trace { hdr with nlen := 9, nstore := 2, nshadow := 2, rejoin := 0x180 }) ∧
    dec [0x40400000, 0x00001000] = some (.endTrace { ctl with offset := 16 }) ∧
    dec [0x40A00040, 0x00003C00] = some (.endx { uni with a := 8 }) ∧
    dec [0x40C00000, 0x00002000] = some (.join { ctl with offset := 32 }) ∧
    dec [0x41400000, 0x0000FA34] = some (.guard { ctl with offset := 250, pred := 3, sense := 1 }) ∧
    dec [0x41800000, 0x00002090] = some (.guardc { ctl with offset := 32, pred := 9, sense := 0 }) ∧
    dec [0x41C00000, 0x00004000] = some (.callt { ctl with offset := 64 }) ∧
    dec [0x42400000, 0x00000C00] = some (.trap { blank with ps := 3 }) ∧
    dec [0x45C00000, 0x00FFFF02] = some (.waitc { ld := 0, st := 255, cp := 255, tl := 2 }) ∧
    dec [0x46200033, 0x00003C00] = some (.waitp { uni with a := 6, sub := 3 }) ∧
    dec [0x47609020, 0x00003C02] = some (.qfence { uni with d := 9, a := 4, mod := 2 }) ∧
    dec [0x4800A060, 0x00000850] = some (.pushq { ctl with d := 10, a := 12, offset := 8, pred := 5 }) ∧
    dec [0x48A0B050, 0x00003C00] = some (.qstat { uni with d := 11, a := 10 }) ∧
    dec [0x89806000, 0x00003C00, 0x07000040] = some (.spawn { blank with d := 6, w2 := some 0x07000040 }) ∧
    dec [0x46800000, 0x00001000] = some (.bar { ctl with offset := 16 }) ∧
    dec [0x46C00010, 0x00001000] = some (.cbar { ctl with a := 2, offset := 16 }) := by
  decide +kernel

/-- 12: PLOGIC.and p1, p2, p3; PVOTE.count s5, p2; FENCE.rel.clu (R297, R298, R303). -/
theorem test_decode_predicate :
    dec [0x44001010, 0x01803C00] = some (.plogic { blank with d := 1, a := 2, b := 3 }) ∧
    dec [0x44E05012, 0x00003C00] = some (.pvote { uni with d := 5, a := 2, sub := 2 }) ∧
    dec [0x47000001, 0x00003C02] = some (.fence { blank with sub := 1, mod := 2 }) := by
  decide +kernel

/-- 14: LD, ST.rel.dev, LDS, LDU.b64, LDA.b128, LDLIT, ICINV, ATOM, RED, SRED.fx64, BOP.fma (R344 to R361). -/
theorem test_decode_memory :
    dec [0x6800A024, 0x28003C40] = some (.ld { mem with d := 10, a := 4, b := 80, bk := true }) ∧
    dec [0x6840A024, 0x20003C51] = some (.st { mem with d := 10, a := 4, b := 64, bk := true, scope := 4, mark := 1 }) ∧
    dec [0x69006014, 0x22003C40] = some (.lds { mem with d := 6, a := 2, b := 68, bk := true }) ∧
    dec [0x68A08025, 0x20003C00] = some (.ldu { mem with u := true, d := 8, a := 4, sub := 5, b := 64 }) ∧
    dec [0x69814026, 0x20003C40] = some (.lda { mem with d := 20, a := 4, sub := 6, b := 64, bk := true }) ∧
    dec [0x69C03004, 0x00000C00] = some (.ldlit { u := false, d := 3, sub := 4, offset := 12 }) ∧
    dec [0x6AE00020, 0x03003C00] = some (.icinv { uni with a := 4, b := 6 }) ∧
    dec [0x6B004040, 0x05003C08] = some (.atom { atm with d := 4, a := 8, b := 10 }) ∧
    dec [0x6B800040, 0x05003C20] = some (.red { atm with d := 0, a := 8, b := 10, ty := 4 }) ∧
    dec [0x6BC02020, 0x03003CA8] = some (.sred { atm with d := 2, a := 4, b := 6, ak := true, ty := 5 }) ∧
    dec [0xAC000040, 0x05003C20, 0x0000000C] = some (.bop { atm with d := 0, a := 8, b := 10, ty := 4, w2 := some 12 }) := by
  decide +kernel

/-- 14: SHFL.w32.xor, QBCAST, MATCH.f32, RDLANE, WRLANE, SCAN.add.n32.excl, REDUX.add.n32 (R362 to R368). -/
theorem test_decode_exchange :
    dec [0x64005033, 0x20803C43] = some (.shfl { blank with d := 5, a := 6, sub := 3, b := 65, bk := true, mod := 3 }) ∧
    dec [0x6480404A, 0x00003C00] = some (.qbcast { blank with d := 4, a := 9, sub := 2 }) ∧
    dec [0x64C1403A, 0x00003C03] = some (.matchLanes { blank with d := 20, a := 7, sub := 2, mod := 3 }) ∧
    dec [0x65A03028, 0x28803C00] = some (.rdlane { uni with d := 3, a := 5, b := 81 }) ∧
    dec [0x65C05018, 0x28803CC0] = some (.wrlane { blank with d := 5, a := 3, b := 81, ak := true, bk := true }) ∧
    dec [0x65408020, 0x00003C09] = some (.scan { blank with d := 8, a := 4, mod := 9 }) ∧
    dec [0x65209020, 0x00003C08] = some (.redux { uni with d := 9, a := 4, mod := 8 }) := by
  decide +kernel

/-- 15: COPY, COLL, GANG, MMA, SEQRD.cq, RCALL, RREAD, TSTEP, PDGSET, PDGRD, DLOG, SYSRD FMODE, SYSWR FMODE (R371 to R386). -/
theorem test_decode_engine :
    dec [0x6EE14020, 0x04003C00] = some (.copy { uni with d := 20, a := 4, b := 8 }) ∧
    dec [0x6FA16030, 0x14003C00] = some (.coll { uni with d := 22, a := 6, b := 40 }) ∧
    dec [0x6E200020, 0x00003C00] = some (.gang { uni with a := 4 }) ∧
    dec [0xAE420010, 0x05503C40, 0x00000010] = some (.mma { blank with d := 32, a := 2, b := 10, bw := 2, bh := 2, bk := true, w2 := some 16 }) ∧
    dec [0x6FE06001, 0x00003C00] = some (.seqrd { uni with d := 6, sub := 1 }) ∧
    dec [0x7020C0A0, 0x00001000] = some (.rcall { ctl with u := true, d := 12, a := 20, offset := 16 }) ∧
    dec [0x706100A0, 0x00003C00] = some (.rread { uni with d := 16, a := 20 }) ∧
    dec [0x71008020, 0x00000902] = some (.tstep { blank with d := 8, a := 4, ps := 2, pm := 1, mod := 2 }) ∧
    dec [0x71400030, 0x00003C80] = some (.pdgset { blank with a := 6, ak := true }) ∧
    dec [0x7180E000, 0x00003C00] = some (.pdgrd { blank with d := 14 }) ∧
    dec [0x71C000A0, 0x0B003C03] = some (.dlog { blank with a := 20, b := 22, mod := 3 }) ∧
    dec [0x72205048, 0x00003C00] = some (.sysrd { uni with d := 5, a := 9 }) ∧
    dec [0x72600048, 0x03003C00] = some (.syswrFmode { uni with a := 9, b := 6 }) := by
  decide +kernel

/-- 03 (R65): LDP.d x1, 8 is 0x010C_0008 and STL.d x1, 0 is 0x802C_0000; LEN 11, an opcode that no map allocates and a form that an opcode
refuses have no instruction (R258, R266, R280). -/
theorem test_decode_pilot_and_refused :
    (decodePilot 0x010C0008).toOption = some (.ldp 1 3 8) ∧ (decodePilot 0x802C0000).toOption = some (.stl 1 3 0) ∧
    dec [0xC0000000] = none ∧ dec [0x4BC00000, 0] = none ∧ dec [0x4D40A058, 0x06003C00] = none := by decide +kernel

/-! ### Single instructions -/

/-- The group after one instruction of its one fragment, with the lanes of a mask active. -/
def afterOn (m : LaneMask) (i : Instr) (f : Group → Group) : Group :=
  match exec i (placeWith id f (fun n => { n with mask := m }) fun c => { c with active := m }).s with
  | .next t => (t.group? 0).getD default
  | _ => default
def after (i : Instr) (f : Group → Group) : Group := afterOn 1 i f
/-- Lane 0's registers 1 and 2, or an even pair at 2. -/
def srcs (a b : Word) (g : Group) : Group := (g.wv 0 1 a).wv 0 2 b
def set (k : Nat) (a : Word) (g : Group) : Group := g.wv 0 k a
/-- v3 of lane 0 after an instruction whose sources are v1 and v2. -/
def v3 (i : Instr) (a b : Word) : Word := (after i (srcs a b)).rv 0 3
/-- The flags raised in lane 0 by an instruction (R210). -/
def flagsOf (i : Instr) (a b : Word) : List Nat :=
  match ((after i (srcs a b)).node? 0).bind (·.ctx) with
  | some c => c.flags.map fun x => x.2.2
  | none => []
/-- Codes and destinations of the lanes that failed. -/
def failed (g : Group) : List (Nat × Word) :=
  match (g.node? 0).bind (·.ctx) with
  | some c => c.fails.map fun f => (f.lane, f.s63)
  | none => []
def activeOf (g : Group) : LaneMask :=
  match (g.node? 0).bind (·.ctx) with
  | some c => c.active
  | none => 0
def effectsOf (g : Group) : List (EffOp × List (Nat × Nat × List Byte)) :=
  match (g.node? 0).bind (·.ctx) with
  | some c => c.effs.map fun e => (e.op, e.elems.map fun x => (x.lane, x.addr, x.data))
  | none => []
def two : LOp := { blank with d := 3, a := 1, b := 2 }
def one : LOp := { blank with d := 3, a := 1 }

/-- R316's own examples: IADD.i8 of 100 and 100 writes −56, with `.sat` 127; IABS.i32 of −2^31 writes −2^31, with `.sat` 2^31 − 1;
INEG.n32.sat writes 0. -/
theorem test_iadd_i8 : v3 (.iadd { two with mod := 48 }) 100 100 = 0xFFFFFFC8 ∧ v3 (.iadd { two with mod := 52 }) 100 100 = 127 := by decide +kernel
theorem test_iabs : v3 (.iabs one) 0x80000000 0 = 0x80000000 ∧ v3 (.iabs { one with mod := 4 }) 0x80000000 0 = 0x7FFFFFFF := by decide +kernel
theorem test_ineg_sat : v3 (.ineg { one with mod := 12 }) 5 0 = 0 := by decide +kernel
/-- By hand: 2^32 wraps; 0 − 1; (−2) × 3; the high half of 2^31 × 2 unsigned and of −1 × 2 signed; the signs of minimum and maximum. -/
theorem test_iadd_wraps : v3 (.iadd two) 0xFFFFFFFF 2 = 1 ∧ v3 (.isub two) 0 1 = 0xFFFFFFFF := by decide +kernel
theorem test_imul : v3 (.imul two) 0xFFFFFFFE 3 = 0xFFFFFFFA ∧ v3 (.imulh { two with mod := 8 }) 0x80000000 2 = 1 ∧
    v3 (.imulh two) 0xFFFFFFFF 2 = 0xFFFFFFFF := by decide +kernel
theorem test_min_max : v3 (.imin two) 0xFFFFFFFF 1 = 0xFFFFFFFF ∧ v3 (.imax { two with mod := 8 }) 0xFFFFFFFF 1 = 0xFFFFFFFF := by decide +kernel
theorem test_logic : v3 (.and two) 0xC 0xA = 8 ∧ v3 (.or two) 0xC 0xA = 0xE ∧ v3 (.xor two) 0xC 0xA = 6 ∧ v3 (.andn two) 0xC 0xA = 4 ∧
    v3 (.not one) 0xF 0 = 0xFFFFFFF0 := by decide +kernel
/-- R318: a count of W or more gives 0, and W − 1 for SAR; ROT takes the count mod W. -/
theorem test_shifts_full_width : v3 (.shl two) 1 32 = 0 ∧ v3 (.shr two) 0x80000000 40 = 0 ∧ v3 (.sar two) 0x80000000 40 = 0xFFFFFFFF ∧
    v3 (.rot two) 0x80000001 33 = 3 ∧ v3 (.shl { two with mod := 4 }) 1 31 = 0x7FFFFFFF := by decide +kernel
/-- By hand: counts of the bits of 0x00F0, and its reverse. -/
theorem test_bit_counts : v3 (.popc one) 0xF0 0 = 4 ∧ v3 (.clz one) 0xF0 0 = 24 ∧ v3 (.clz one) 0 0 = 32 ∧ v3 (.brev one) 0xF0 0 = 0x0F000000 := by
  decide +kernel
/-- R319: bits 11:4 of 0xABCD are 0xBC, signed 0xFFFFFFBC; an offset of 32 or a width of 0 is empty; BFI keeps what it does not insert. -/
theorem test_bit_fields :
    (after (.bfe { two with w2 := some 4 }) (fun g => set 4 8 (srcs 0xABCD 4 g))).rv 0 3 = 0xFFFFFFBC ∧
    (after (.bfe { two with mod := 8, w2 := some 4 }) (fun g => set 4 8 (srcs 0xABCD 4 g))).rv 0 3 = 0xBC ∧
    (after (.bfe { two with w2 := some 4 }) (fun g => set 4 8 (srcs 0xABCD 32 g))).rv 0 3 = 0 ∧
    (after (.bfi { two with w2 := some 4 }) (fun g => set 3 0xFFFFFFFF (set 4 8 (srcs 0x12 4 g)))).rv 0 3 = 0xFFFFF12F := by decide +kernel
/-- R317: 0xFFFF_FFFF + 0 + 1 is 0 with the carry T. -/
theorem test_iaddc : let g := after (.iaddc { two with sub := 1, mod := 8 }) (fun g => (srcs 0xFFFFFFFF 0 g).wp 0 1 1)
    g.rv 0 3 = 0 ∧ g.rp 0 1 = 1 := by decide +kernel
/-- R320 by hand: −1 < 1 signed, not unsigned; the result is T or F, never U. -/
theorem test_icmp : (after (.icmp { two with sub := 2 }) (srcs 0xFFFFFFFF 1)).rp 0 3 = 1 ∧
    (after (.icmp { two with sub := 2, mod := 8 }) (srcs 0xFFFFFFFF 1)).rp 0 3 = 0 := by decide +kernel
/-- R321: with SUB 0 U takes b, with SUB 1 it takes a. -/
theorem test_sel : (after (.sel { two with mod := 4 }) (fun g => (srcs 7 9 g).wp 0 4 2)).rv 0 3 = 9 ∧
    (after (.sel { two with sub := 1, mod := 4 }) (fun g => (srcs 7 9 g).wp 0 4 2)).rv 0 3 = 7 := by decide +kernel
/-- R322 by hand: 0x1_0000_0000 + (−1) × 4, into the pair v20:v21. -/
theorem test_lea : let g := after (.lea { blank with d := 20, a := 4, sub := 2, b := 2 }) (fun g => set 5 1 (set 4 0 (set 2 0xFFFFFFFF g)))
    g.rv 0 20 = 0xFFFFFFFC ∧ g.rv 0 21 = 0 := by decide +kernel
/-- R323: the literal sign-extended into the pair for `.i64`. -/
theorem test_movi : let g := after (.movi { blank with d := 4, mod := 16, w2 := some 0x80000000 }) id
    g.rv 0 4 = 0x80000000 ∧ g.rv 0 5 = 0xFFFFFFFF := by decide +kernel
/-- R264: a source that is also the destination is read first: v8:v9 := v8 + v9 over a block of two. -/
theorem test_block : let g := after (.iadd { blank with d := 8, a := 8, b := 10, bw := 1 }) (fun g => set 11 4 (set 10 3 (set 9 2 (set 8 1 g))))
    g.rv 0 8 = 4 ∧ g.rv 0 9 = 6 := by decide +kernel
/-- R113: a register beyond the allocation is a lane fault of code 6 (256 registers here). -/
theorem test_illegal_operand : let g := after (.iadd { blank with d := 256, a := 1, b := 2 }) id
    activeOf g = 0 ∧ failed g ≠ [] := by decide +kernel

/-- IEEE 754 by hand: 1 + 2 = 3; 2 × 3 = 6; 2 × 3 + 1 = 7; the largest float doubled is +∞, or the largest float towards zero (RSEL 2); −0
is the smaller zero (R325); √4 = 2; √−1 is the canonical NaN with NV (Table 13.4). -/
theorem test_fadd : v3 (.fadd two) 0x3F800000 0x40000000 = 0x40400000 ∧ v3 (.fmul two) 0x40000000 0x40400000 = 0x40C00000 := by decide +kernel
theorem test_fadd_overflow : v3 (.fadd two) 0x7F7FFFFF 0x7F7FFFFF = 0x7F800000 ∧
    v3 (.fadd { two with mod := 16 }) 0x7F7FFFFF 0x7F7FFFFF = 0x7F7FFFFF := by decide +kernel
theorem test_fma : (after (.fma { two with w2 := some 4 }) (fun g => set 4 0x3F800000 (srcs 0x40000000 0x40400000 g))).rv 0 3 = 0x40E00000 := by
  decide +kernel
theorem test_fmin_zero : v3 (.fmin two) 0 0x80000000 = 0x80000000 ∧ v3 (.fmin two) 0x80000000 0 = 0x80000000 ∧
    v3 (.fmax two) 0x7FC00000 0x3F800000 = 0x3F800000 := by decide +kernel
theorem test_fsqrt : v3 (.fsqrt one) 0x40800000 0 = 0x40000000 ∧ v3 (.fsqrt one) 0xBF800000 0 = 0x7FC00000 := by decide +kernel
/-- Table 13.4: 1/±0 is ±∞ with DZ; 2^3 = 8; log2 8 = 3; cos 0 = 1; tanh +∞ = 1. -/
theorem test_special : v3 (.frcp one) 0x80000000 0 = 0xFF800000 ∧ v3 (.fexp2 one) 0x40400000 0 = 0x41000000 ∧
    v3 (.flog2 one) 0x41000000 0 = 0x40400000 ∧ v3 (.fcos one) 0 0 = 0x3F800000 ∧ v3 (.ftanh one) 0x7F800000 0 = 0x3F800000 := by decide +kernel
/-- 14.2 to 14.5: −2.5 towards zero is −2 (R329); 300 as an integer clamped to `.i8`; the spec's FP16 value of 1. -/
theorem test_cvt : v3 (.cvt { one with b := 0x80, mod := 16 }) 0xC0200000 0 = 0xFFFFFFFE ∧ v3 (.cvt { one with b := 0x06, mod := 4 }) 300 0 = 127 ∧
    v3 (.cvt { one with b := 0x89 }) 0x3F800000 0 = 0x3C00 := by decide +kernel
/-- R331, R332: the spec's example: DOT8 of 0xCDEF_4321 and 0x2222_1111 is −10; BSCALE of −10 by 0x7C is −1.25. -/
theorem test_dot8_bscale : (after (.dot8 { two with w2 := some 4 }) (srcs 0xCDEF4321 0x22221111)).rv 0 3 = 0xFFFFFFF6 ∧
    v3 (.bscale two) 0xFFFFFFF6 0x7C = 0xBFA00000 := by decide +kernel
/-- Table 13.5: four bytes clamped to −128..127; nibble 7 of 0xF000_0000 is −1. -/
theorem test_pack : (after (.pack { blank with d := 3, a := 8 }) (fun g => set 11 0xFFFFFF00 (set 10 200 (set 9 0xFFFFFFFF (set 8 5 g))))).rv 0 3 =
      0x807FFF05 ∧ (after (.unpack { blank with d := 8, a := 1, sub := 2 }) (srcs 0xF0000000 0)).rv 0 15 = 0xFFFFFFFF := by decide +kernel

/-- R338's example: [1, 3] against [2, 2] with `.lt` is U. R334 by hand: the square of [−1, 2] is [0, 4]. R337: the middle of [1, 3] is 2.
-/
theorem test_ivcmp : (after (.ivcmp { blank with d := 4, a := 10, b := 12 })
    (fun g => set 13 0x40000000 (set 12 0x40000000 (set 11 0x40400000 (set 10 0x3F800000 g))))).rp 0 4 = 2 := by decide +kernel
theorem test_ivsqr : let g := after (.ivsqr { blank with d := 4, a := 2 }) (fun g => set 3 0x40000000 (set 2 0xBF800000 g))
    g.rv 0 4 = 0 ∧ g.rv 0 5 = 0x40800000 := by decide +kernel
theorem test_ivmid : (after (.ivmid { blank with d := 4, a := 2 }) (fun g => set 3 0x40400000 (set 2 0x3F800000 g))).rv 0 4 = 0x40000000 := by
  decide +kernel
/-- R217: a low bound above the high one is a lane fault of code 7, and nothing is written. -/
theorem test_interval_check : let g := after (.ivadd { blank with d := 4, a := 2, b := 2 }) (fun g => set 4 9 (set 3 0 (set 2 0x3F800000 g)))
    activeOf g = 0 ∧ g.rv 0 4 = 9 := by decide +kernel

/-- R297: T and U is U, F and U is F. R298: a count of the lanes where p2 is T. -/
theorem test_plogic : (after (.plogic { blank with d := 1, a := 2, b := 3 }) (fun g => (g.wp 0 2 1).wp 0 3 2)).rp 0 1 = 2 ∧
    (after (.plogic { blank with d := 1, a := 2, b := 3 }) (fun g => (g.wp 0 2 0).wp 0 3 2)).rp 0 1 = 0 := by decide +kernel
theorem test_pvote : sget (afterOn 7 (.pvote { uni with d := 5, a := 2, sub := 2 }) (fun g => (g.wp 0 2 1).wp 2 2 1)).s 5 = 2 := by decide +kernel
/-- R290: the lane whose predicate is F leaves at a GUARD.t, the lane where it is T goes on. -/
theorem test_guard : activeOf (afterOn 3 (.guard { ctl with pred := 2, sense := 1 }) (fun g => (g.wp 0 2 1).wp 1 2 0)) = 1 := by decide +kernel

/-- 14's worked example: counts 3, 0, 5, 2, 0, 1 in lanes 0 to 5 give the exclusive sums 0, 3, 3, 8, 10, 10 and the total 11. -/
def counts (g : Group) : Group := ((((((g.wv 0 4 3).wv 1 4 0).wv 2 4 5).wv 3 4 2).wv 4 4 0).wv 5 4 1)
theorem test_scan : (List.range 6).map (fun l => (afterOn 0x3F (.scan { blank with d := 8, a := 4, mod := 9 }) counts).rv l 8) =
    [0, 3, 3, 8, 10, 10] := by decide +kernel
theorem test_redux : sget (afterOn 0x3F (.redux { uni with d := 9, a := 4, mod := 8 }) counts).s 9 = 11 := by decide +kernel
/-- R364 by hand: XOR with 1 takes the neighbour's value. R366: equal keys in lanes 0 and 2. -/
theorem test_shfl : (afterOn 3 (.shfl { blank with d := 5, a := 6, sub := 3, b := 65, bk := true, mod := 3 })
    (fun g => (g.wv 0 6 10).wv 1 6 20)).rv 0 5 = 20 := by decide +kernel
theorem test_match : let g := afterOn 7 (.matchLanes { blank with d := 20, a := 7, mod := 3 }) (fun g => ((g.wv 0 7 1).wv 1 7 2).wv 2 7 1)
    g.rv 2 20 = 5 ∧ g.rp 0 3 = 1 ∧ g.rp 2 3 = 0 := by decide +kernel

/-- R346, R347: a load's bytes are in flight to its destination; a store's bytes are buffered with their address. -/
def cell (i : Instr) (v : List Byte) : Group :=
  match exec i { (addressed id).s with mem := swrite (addressed id).s.mem 0x40100 v } with
  | .next t => (t.group? 0).getD default
  | _ => default
theorem test_ld : (cell (.ld { mem with d := 10 }) [0x78, 0x56, 0x34, 0x12]).loads.map (·.writes) = [[(.v 0 10, 0x12345678)]] := by decide +kernel
theorem test_ld_i8 : (cell (.ld { mem with d := 10, sub := 1 }) [0x80]).loads.map (·.writes) = [[(.v 0 10, 0xFFFFFF80)]] := by decide +kernel
theorem test_st : (effectsOf (cell (.st { mem with d := 2 }) [])).map (·.2) = [[(0, 0x10100, [0x00, 0x01, 0x01, 0x00])]] := by decide +kernel
/-- R133: an address of the next page, which is not mapped, is a lane fault. -/
theorem test_ld_unmapped : activeOf (cell (.ld { mem with d := 10, w2 := some 0x20000 }) []) = 0 := by decide +kernel
/-- R355 to R359: an atomic is buffered with its address and operand. -/
theorem test_atom : (effectsOf (cell (.red { atm with d := 0, b := 4 }) [])).length = 1 := by decide +kernel

/-- R383, R384: FMODE is read and written whole; the write waits for nothing. R380: the path digest is set. -/
theorem test_sysrd : sget (after (.sysrd { uni with d := 5, a := 9 }) (fun g => { g with fmode := 0x12 })).s 5 = 0x12 := by decide +kernel
theorem test_syswr : (after (.syswrFmode { uni with a := 9, b := 67 }) id).fmode = 3 := by decide +kernel
theorem test_pdgset : (after (.pdgset { blank with a := 6, ak := true }) (fun g => { g with s := sset g.s 6 5 })).rpdg 0 = 5 := by decide +kernel

/-- R289: END leaves its target behind, the trace's address plus four times the offset from the END. -/
theorem test_end : (match exec (.endTrace ctl) atEnd.s with
    | .next t => (((t.group? 0).bind (·.node? 0)).bind (·.ctx)).bind (·.term)
    | _ => none) = some (.fin (atEnd.c.pc + 16)) := by decide +kernel
/-- R279, R284: a word of no instruction is a group fault of code 48: the fragment's trace ends. -/
theorem test_unallocated : (match step ((State.reset.placeCore 32 0xC0000000)) with
    | .next t => (((t.group? 0).bind (·.node? 0)).bind (·.ctx)).map (·.active)
    | _ => none) ≠ some allLanes := by decide +kernel

end Sys2Proof.Tests
end

