-- ==== Sys2Proof/Tests/WitnessHost.lean ====
section
/-! SUPPORT. For every statement about pilots, the Ferry and the host, a concrete state and operands that meet its hypotheses together. -/
open Sys2Proof Sys2Proof.Machine
namespace Sys2Proof.Tests
set_option Elab.async false

/-! ### Pilots -/

/-- A launch record of one group of 16 registers on one core of cluster 0. -/
def goodRecord : List Byte := putAt (putAt (putAt (List.replicate 64 0) 24 [1]) 30 [1, 1, 1]) 36 [1, 0, 0, 0, 1, 0, 1, 0, 1]

/-- Queue 0 has a packet in progress; x1 holds an address in the mapped page, x3 64, x4 65, x5 an address that is no multiple of 8,
x6 one that is not mapped. -/
def pilotQ : Queue :=
  { queueNew 0 with
    st := .active
    busy := true
    pilot := List.replicate 4 0
    packet := List.replicate 64 0
    lb := goodRecord
    x := [0, 0x10100, 0, 64, 65, 0x10101, 0x30000, 0] }

structure Pilot where
  s : State
  p : Partition
  x : Queue

def pilotWith (fq : Queue → Queue) (fs : State → State) : Pilot :=
  let x := fq pilotQ
  let p := State.probePart.setQueue x
  { s := fs { (addressed id).s with parts := [p], cur := .pilot 0 0 }, p := p, x := x }

/-- Events fill the window's buffer, or every launch slot is taken. -/
def crowded : Pilot := pilotWith id fun s =>
  { s with
    windows := s.windows.map fun w => { w with events := List.replicate 64 [] }
    launches := (List.range 32).map fun k => { State.probeLaunch with slot := k } }

theorem witness_PilotOperationsComplete : let q := pilotWith id id
    PilotAt q.s q.p q.x ∧ (pilotValue q.x (.pilotAdd 3 1 2)).isSome = true ∧ pilotSkip q.x (.beq 0 2 1) = some 1 ∧
    (let at_ := queueAt q.p q.x.q + 64 + 0
     (∀ write, parkedBlocks q.s at_ 8 write = false) ∧
      badSpan (seeSpan q.s q.x.homeDie at_ 8 (some q.p.part) 0xFF) q.x.homeDie at_ 8 = false) ∧
    (q.x.reg 1).toNat % 8 = 0 ∧ seeWalk q.s (192 + q.x.homeDie) q.x.homeDie q.p.part (q.x.reg 1).toNat = q.s ∧
      seeLaunch q.s q.p q.x.lb = q.s ∧ seeLaunch q.s q.p (List.replicate 64 0) = q.s ∧
    walkHeld q.s (192 + q.x.homeDie) q.x.homeDie q.p.part (q.x.reg 1).toNat = false ∧
    (∃ r, xlate q.s q.x.homeDie q.p.part (q.x.reg 1).toNat .write = .ok r ∧ parkedBlocks q.s r.pa 8 true = false ∧
      reaches q.s q.x.homeDie r.pa = true) ∧
    (∃ r, xlate q.s q.x.homeDie q.p.part (q.x.reg 1).toNat .read = .ok r ∧ parkedBlocks q.s r.pa 8 false = false ∧
      reaches q.s q.x.homeDie r.pa = true ∧ badSpan (seeSpan q.s q.x.homeDie r.pa 8 (some q.p.part) 0xFF) q.x.homeDie r.pa 8 = false ∧
      seeSpan q.s q.x.homeDie r.pa 8 (some q.p.part) 0xFF = q.s ∧ sigHolds 0 (leNat (pread q.s r.pa 8)) (q.x.reg 2).toNat ∧
      sigHolds 1 (leNat (pread q.s r.pa 8)) (q.x.reg 3).toNat ∧ sigHolds 2 (leNat (pread q.s r.pa 8)) (q.x.reg 2).toNat ∧
      sigHolds 3 (leNat (pread q.s r.pa 8)) (q.x.reg 3).toNat) ∧
    (hostOk q.s (q.x.reg 1).toNat 8 = true ∧ leNat (hread q.s (q.x.reg 1).toNat 8) = (q.x.reg 2).toNat) ∧
    (launchCode q.s q.p q.x.lb = 0 ∧ freeLaunchSlot q.s q.p.part = some 1 ∧ launchCode q.s q.p (List.replicate 64 0) ≠ 0) ∧
    ((q.x.reg 2).toNat = 0 ∧ 1 ≤ (q.x.reg 3).toNat ∧ (q.x.reg 3).toNat ≤ 64 ∧ 64 < (q.x.reg 4).toNat) ∧ bufferFull q.s q.p.part = false ∧
    (q.x.count.goto (q.x.pc + 1)).pc < q.x.pilot.length :=
  ⟨by unfold PilotAt; decide +kernel, by decide +kernel, by decide +kernel, by decide +kernel, by decide +kernel, by decide +kernel,
    by decide +kernel, by decide +kernel, by decide +kernel, ⟨_, rfl, by decide +kernel⟩, ⟨_, rfl, by decide +kernel, by decide +kernel, by decide +kernel, by decide +kernel, .inl ⟨rfl, by decide +kernel⟩, .inr (.inl ⟨rfl, by decide +kernel⟩),
      .inr (.inr (.inl ⟨rfl, by decide +kernel⟩)), .inr (.inr (.inr ⟨rfl, by decide +kernel⟩))⟩,
    by decide +kernel⟩

/-- The page of x1 lies on die 1, which has tripped. -/
def lostHome : Pilot := pilotWith id fun s =>
  ({ s with mem := swrite s.mem 0x30008 (leBytes 8 ((hbmDie / 65536 + 4) * 4096 + 0x12F)) } : State).setDie 1 { s.die 1 with tripped := true }

/-- The word of x1 is found bad by whoever reads it next. -/
def flawedLine : Pilot := pilotWith id fun s => { s with flaws := [{ line := 0x40100, err := .bad 1 1 0, waits := none }] }

/-- An atomic is parked on the line of the queue's state block, or its first word is bad. -/
def stateHeld (st : ElemSt) (flaws : List LineFlaw) : Pilot := pilotWith id fun s =>
  let pa := queueAt (State.probePart.setQueue pilotQ) 0 + 64
  { s with
    flaws := flaws.map fun f => { f with line := pa }
    pipe := [{ (default : Item) with
      eff := { ix := 1, op := .store .global 1 false 0 false, elems := [{ Elem.mk0 0 0 [7] with pa := pa, st := st }] } }] }

theorem witness_PilotsStopAndRepeat :
    (let q := stateHeld .parked []
     let at_ := queueAt q.p q.x.q + 64 + 0
     PilotAt q.s q.p q.x ∧ ∀ write, parkedBlocks q.s at_ 8 write = true) ∧
    (let q := stateHeld .checked [{ line := 0, err := .bad 1 1 0, waits := none }]
     let at_ := queueAt q.p q.x.q + 64 + 0
     PilotAt q.s q.p q.x ∧ parkedBlocks q.s at_ 8 false = false ∧
      badSpan (seeSpan q.s q.x.homeDie at_ 8 (some q.p.part) 0xFF) q.x.homeDie at_ 8 = true) ∧
    (let x : Queue := { pilotQ with loops := [(1, 2, 0, 2, 3)] }
     x.loops = (1, 2, 0, 2, 3) :: [] ∧ 0 + 1 < 2 ∧ (5 : Nat) ≠ 1 + 2) ∧
    (({ pilotQ with loops := [(1, 2, 1, 2, 3)] }).loops = [(1, 2, 1, 2, 3)] ∧ 2 ≤ 1 + 1) ∧ pilotQ.loops = [] ∧
    (let q := pilotWith id id
     PilotAt q.s q.p q.x ∧ (q.x.reg 5).toNat % 8 ≠ 0 ∧ 64 < (q.x.reg 4).toNat ∧
      (hostOk q.s (q.x.reg 1).toNat 8 = true ∧ ¬ sigHolds 1 (leNat (hread q.s (q.x.reg 1).toNat 8)) (q.x.reg 2).toNat) ∧
      (q.x.reg 1).toNat % 8 = 0 ∧ walkHeld q.s (192 + q.x.homeDie) q.x.homeDie q.p.part (q.x.reg 1).toNat = false ∧
      (∃ r, xlate q.s q.x.homeDie q.p.part (q.x.reg 1).toNat .read = .ok r ∧ parkedBlocks q.s r.pa 8 false = false ∧
        badSpan (seeSpan q.s q.x.homeDie r.pa 8 (some q.p.part) 0xFF) q.x.homeDie r.pa 8 = false ∧
        leNat (pread q.s r.pa 8) = (q.x.reg 2).toNat) ∧
      (q.x.reg 6).toNat % 8 = 0 ∧ walkHeld q.s (192 + q.x.homeDie) q.x.homeDie q.p.part (q.x.reg 6).toNat = false ∧
      seeWalk q.s (192 + q.x.homeDie) q.x.homeDie q.p.part (q.x.reg 6).toNat = q.s ∧
      ∀ need ∈ [Need.read, .write], ∃ e, xlate q.s q.x.homeDie q.p.part (q.x.reg 6).toNat need = .error e) ∧
    (∀ q ∈ [lostHome, flawedLine], PilotAt q.s q.p q.x ∧
      walkHeld q.s (192 + q.x.homeDie) q.x.homeDie q.p.part (q.x.reg 1).toNat = false ∧
      seeWalk q.s (192 + q.x.homeDie) q.x.homeDie q.p.part (q.x.reg 1).toNat = q.s ∧
      ∃ r, xlate q.s q.x.homeDie q.p.part (q.x.reg 1).toNat .read = .ok r ∧ parkedBlocks q.s r.pa 8 false = false ∧
        if q.s.flaws = [] then reaches q.s q.x.homeDie r.pa = false ∧ parkedBlocks q.s r.pa 8 true = false ∧
          (xlate q.s q.x.homeDie q.p.part (q.x.reg 1).toNat .write).toOption = some r
        else reaches q.s q.x.homeDie r.pa = true ∧
          badSpan (seeSpan q.s q.x.homeDie r.pa 8 (some q.p.part) 0xFF) q.x.homeDie r.pa 8 = true) ∧
    (let q := pilotWith (fun x => { x with steps := 512 }) id
     PilotAt q.s q.p q.x ∧ 512 ≤ q.x.steps ∧ q.x.suspended = false) ∧
    (let q := pilotWith (fun x => { x with steps := 512, suspended := true, pilot := [0x23280000] }) fun s =>
       s.setDie 0 { s.die 0 with running := true, visit := some (0, 0) }
     PilotAt q.s q.p q.x ∧ (q.s.die 0).running = true ∧ (q.s.die 0).tripped = false ∧ (q.s.die 0).visit = some (q.p.part, q.x.q) ∧
      q.s.part? q.p.part = some q.p ∧ q.p.queue? q.x.q = some q.x ∧ q.x.busy = true ∧ q.x.st = .active ∧ q.x.suspended = true ∧
      decodePilot (q.x.pilot.getD q.x.pc 0) = .ok (.pilotAdd 3 1 2)) ∧
    (PilotAt crowded.s crowded.p crowded.x ∧ seeLaunch crowded.s crowded.p crowded.x.lb = crowded.s ∧ launchCode crowded.s crowded.p crowded.x.lb = 0 ∧
      freeLaunchSlot crowded.s crowded.p.part = none ∧ bufferFull crowded.s crowded.p.part = true) := by
  refine ⟨⟨by unfold PilotAt; decide +kernel, by decide +kernel⟩, ⟨by unfold PilotAt; decide +kernel, by decide +kernel⟩,
    by decide, by decide, by decide, ⟨by unfold PilotAt; decide +kernel, by decide +kernel, by decide +kernel,
    ⟨by decide +kernel, ?_⟩, by decide +kernel, by decide +kernel, ⟨_, rfl, by decide +kernel⟩, by decide +kernel, by decide +kernel, by decide +kernel, ?_⟩, ?_,
    ⟨by unfold PilotAt; decide +kernel, by decide +kernel⟩,
    ⟨by unfold PilotAt; decide +kernel, by decide +kernel, by decide +kernel, by decide +kernel, by decide +kernel, by decide +kernel,
      by decide +kernel, by decide +kernel, by decide +kernel, ok_of (by decide +kernel)⟩, by unfold PilotAt; decide +kernel, by decide +kernel⟩
  · have h : leNat (hread (pilotWith id id).s ((pilotWith id id).x.reg 1).toNat 8) = ((pilotWith id id).x.reg 2).toNat := by decide +kernel
    unfold sigHolds
    rw [h]; simp
  · simp only [List.forall_mem_cons]
    exact ⟨⟨_, rfl⟩, ⟨_, rfl⟩, by simp⟩
  · simp only [List.forall_mem_cons]
    exact ⟨⟨by unfold PilotAt; decide +kernel, by decide +kernel, by decide +kernel, _, rfl, by decide +kernel⟩,
      ⟨by unfold PilotAt; decide +kernel, by decide +kernel, by decide +kernel, _, rfl, by decide +kernel⟩, by simp⟩

/-! ### The Ferry and the host's registers -/

/-- The page tables map 0x10000 for partition 0; host memory at 0x1000 holds a partition record, at 0x2000 a launch record; request 9
waits; queue 0 is active, queue 1 is not and its descriptor in memory passes. -/
def ferried : State :=
  let s := (pilotWith id id).s
  { s with
    cur := .none
    windows := s.windows.map fun w => { w with cmdsize := 16, cplsize := 16, cplbase := 0x8000 }
    mem := swrite (swrite s.mem 0x80 (putAt (putAt (putAt (List.replicate 64 0) 8 [0, 1, 1]) 16 [16, 0, 0, 0, 1]) 23 [1])) 0x40100
      (leBytes 4 0xB0000000)
    hostmem := swrite (swrite s.hostmem 0x1000 (putAt (putAt (putAt (List.replicate 64 0) 0 [1]) 8 [1]) 12 ([0, 4] ++ List.replicate 18 0 ++ [2])))
      0x2000 goodRecord
    parts := s.parts.map fun p => { p with
      requests := [(9, 0, putAt (List.replicate 32 0) 0 [1])]
      modes := 0 } }

def cmd (daddr haddr : Nat) (len : Nat) (arg : List Byte) : FerryDesc :=
  { op := 0, flags := 0, zero1 := 0, tag := 5, daddr := BitVec.ofNat 64 daddr, haddr := BitVec.ofNat 64 haddr, len := BitVec.ofNat 32 len, zero2 := 0,
    arg := takeAt arg 0 32 }

theorem witness_CompletionsAreWritten : ferried.memOk = true ∧ 0 < ferried.windows.length ∧
    hostOk ferried ((ferried.win 0).cplbase.toNat + 16 * ((ferried.win 0).cpltail.toNat % (ferried.win 0).cplsize.toNat)) 16 = true ∧
    (cmd 0 0 0 []).flags.getLsbD 0 = false ∧ (ferried.win 0).mute = false ∧
    ((ferried.setWin 0 { ferried.win 0 with mute := true }).win 0).mute = true ∧
    (let s := { ferried with hostfail := [(0x8000, 64)] }
     hostOk s ((s.win 0).cplbase.toNat + 16 * ((s.win 0).cpltail.toNat % (s.win 0).cplsize.toNat)) 16 = false) := by decide +kernel

def ferriedP : Partition := (ferried.part? 0).getD default
def ferriedX (k : Nat) : Queue := (ferriedP.queue? k).getD default

/-- The same with what the ends of SEAL and PDESTROY need. -/
def sealing (j : Nat) (w : Nat) : State := (ferried.setWin w { ferried.win w with waiting := some (cmd 0x10000 0 0 [], j) })

/-- A command in progress over some spans. -/
def inProgress (s : State) (k : Nat) (spans : List (Nat × Nat)) : State :=
  s.setWin 0 { s.win 0 with waiting := some (cmd 0x10100 0x3000 8 [], k), spans := spans }
/-- Partition 0 is being torn down. -/
def tearing : State := ferried.setWin mgmt { ferried.win mgmt with waiting := some ({ cmd 0 0 0 [0] with op := 0x0D }, 0) }
/-- An atomic is parked on the line of the page; a translation of the page is in use. -/
def parkedOn (st : ElemSt) : State :=
  { ferried with
    pipe := [{ (default : Item) with
      part := 0
      eff := { ix := 1, op := .store .global 1 false 0 false, elems := [{ Elem.mk0 0 0x10100 [7] with pa := 0x40100, st := st }] } }] }

/-- The atomic is parked on a word that is bad, the last of its line: a WRITE of the line makes it good. -/
def repaired : State := { parkedOn .parked with flaws := [{ line := 0x40100, err := .bad 1 0x80 0, waits := none }] }

theorem witness_FerryMovesAndSealsBytes :
    (Taken ferried 0 (cmd 0x10100 0x3000 8 []) .all (fun _ => false) ∧ 1 ≤ (cmd 0x10100 0x3000 8 []).len.toNat ∧
      (cmd 0x10100 0x3000 8 []).len.toNat ≤ 2 ^ 24) ∧
    (Taken ferried 0 (cmd 0x10100 0x3000 0 []) .all (fun _ => false) ∧ Taken ferried 0 (cmd 0x10100 0x3000 (2 ^ 24 + 1) []) .all (fun _ => false) ∧
      2 ^ 24 < (cmd 0x10100 0x3000 (2 ^ 24 + 1) []).len.toNat) ∧
    (∃ a, ferrySpans ferried 0 true (pageSpans 0x40000 8) = .error a) ∧
    (ferrySpans ferried 0 true (pageSpans 0x10100 8) = .ok [(0x40100, 8)] ∧ sealedPa ferried 0x40100 = false ∧
      parkedBlocks ferried 0x40100 8 true = false) ∧
    sealedPa { ferried with parts := ferried.parts.map fun p => { p with seals := [{ base := 0x40000, pages := 1, st := .sealed, digest := [] }] } }
      0x40100 = true ∧
    (ferrySpans ferried 0 false (pageSpans 0x10100 8) = .ok [(0x40100, 8)] ∧ parkedBlocks ferried 0x40100 8 false = false) ∧
    (Taken ferried 0 (cmd 0 0 0 [1, 0, 0, 0, 16]) .parts (fun k => k < 2 || (4 ≤ k && k < 8)) ∧ ferried.part? 0 = some ferriedP ∧
      ferriedP.queue? (argN (cmd 0 0 0 [1, 0, 0, 0, 16]) 0 2) = some (ferriedX 1) ∧
      seeTail ferried ferriedP (ferriedX 1) = ferried ∧ tailBase ferried ferriedP (ferriedX 1) = some (0, 16) ∧
      ((16 : Word) - 0).toNat ≤ 16 ∧ 16 < ((17 : Word) - 0).toNat ∧
      (let s := { ferried with flaws := [{ line := queueAt ferriedP 1 / 64 * 64, err := .bad 1 1 0, waits := none }] }
       tailBase (seeTail s ferriedP (ferriedX 1)) ferriedP (ferriedX 1) = none)) ∧
    seePages ferried 0 0x10100 8 = ferried ∧ seePages ferried 0 0x40000 8 = ferried ∧
    (let s := inProgress repaired 0 [(0x40100, 64)]
     unitAt (s.win 0).spans 0 = some (0x40100, 8) ∧ parkedBlocks s 0x40100 8 true = true ∧ lineAt (s.win 0).spans 0 = some (0x40100, 64) ∧
      parkedBlocks s 0x40100 64 true = false ∧ hostOk s 0x3000 64 = true ∧ reaches s 0 0x40100 = true) ∧
    (let s := inProgress (parkedOn .parked) 0 [(0x40100, 64)]
     (s.win 0).waiting = some (cmd 0x10100 0x3000 8 [], 0) ∧ lineAt (s.win 0).spans 0 = some (0x40100, 64) ∧
      parkedBlocks s 0x40100 64 true = true) ∧
    (Taken ferried 12 (cmd 0 0 0 [11]) .all (fun k => k == 0 && 12 == mgmt) ∧ argN (cmd 0 0 0 [11]) 0 1 ≤ 11 ∧
      (ferried.win 12).waiting = none ∧
      translatedPending { ferried with tlb := ferried.tlb.filter fun e => !tlbInRange 11 0 0 e } 11 (invalRanges ferried 11 0 0) = false) ∧
    (translatedPending (parkedOn .checked) 0 [(0x10000, 65536)] = true ∧
      ((inProgress ferried 0 [(0x10000, 65536)]).win 0).waiting ≠ none ∧
      translatedPending { ferried with pipe := [] } 0 [(0x10000, 65536)] = false) ∧
    (dying tearing 0 = true ∧ (tearing.win 0).waiting = none ∧ (ferried.win 0).waiting = none ∧ dying ferried 0 = false) ∧
    (let s := inProgress ferried 0 [(0x40100, 8)]
     (s.win 0).waiting = some (cmd 0x10100 0x3000 8 [], 0) ∧ unitAt (s.win 0).spans 0 = some (0x40100, 8) ∧
      parkedBlocks s 0x40100 8 true = false ∧ parkedBlocks s 0x40100 8 false = false ∧ hostOk s 0x3000 8 = true ∧ reaches s 0 0x40100 = true ∧
      badSpan (seeSpan s 0 0x40100 8 (some 0) 0xFF) 0 0x40100 8 = false) ∧
    hostOk { ferried with hostfail := [(0x3000, 64)] } 0x3000 8 = false ∧
    (∀ write, parkedBlocks (parkedOn .parked) 0x40100 8 write = true) ∧
    (((sealing 15 0).win 0).waiting = some (cmd 0x10000 0 0 [], 15) ∧ (sealing 15 0).part? 0 = some ferriedP ∧
      badSpan (seeSpan (sealing 15 0) 0 (ferriedP.seals.getD 15 default).base ((ferriedP.seals.getD 15 default).pages * 65536) (some 0) 0xFF) 0
        (ferriedP.seals.getD 15 default).base ((ferriedP.seals.getD 15 default).pages * 65536) = false ∧
      writeInRange (sealing 15 0) (ferriedP.seals.getD 15 default).base ((ferriedP.seals.getD 15 default).pages * 65536) = false ∧
      checkedInRange (sealing 15 0) (ferriedP.seals.getD 15 default).base ((ferriedP.seals.getD 15 default).pages * 65536) = false) ∧
    ((sealing (16 + 15) 0).win 0).waiting = some (cmd 0x10000 0 0 [], 16 + 15) ∧ allApplied (sealing (16 + 15) 0) ferriedP = true := by
  refine ⟨?_, ?_, ?_, ⟨ok_of (by decide +kernel), by decide +kernel⟩, by decide +kernel, ⟨ok_of (by decide +kernel), by decide +kernel⟩,
    ?_, by decide +kernel, by decide +kernel, by decide +kernel, by decide +kernel, ?_, ?_, ?_, ?_, ?_, ?_, ?_, ?_⟩
  · exact ⟨by unfold Taken; decide +kernel, by decide +kernel⟩
  · unfold Taken; decide +kernel
  · exact ⟨_, rfl⟩
  · unfold Taken; decide +kernel
  · unfold Taken; decide +kernel
  all_goals decide +kernel

theorem witness_FerryManagesTheMachine :
    (Taken ferried 0 (cmd 0 0x2000 0 []) .parts (fun _ => false) ∧ (ferried.win 0).waiting = none ∧ hostOk ferried 0x2000 64 = true ∧
      ferried.part? 0 = some ferriedP ∧ launchCode ferried ferriedP (hread ferried 0x2000 64) = 0 ∧ freeLaunchSlot ferried 0 = some 1 ∧
      launchCode ferried ferriedP (hread ferried 0x3000 64) ≠ 0 ∧ seeLaunch ferried ferriedP (hread ferried 0x2000 64) = ferried ∧
      seeLaunch ferried ferriedP (hread ferried 0x3000 64) = ferried) ∧
    (Taken ferried 0 (cmd 0 0 0 [1]) .parts (fun k => k < 2) ∧ ferriedP.queue? 0 = some (ferriedX 0) ∧ (ferriedX 0).st = .active ∧
      reloadHeld ferried ferriedP { ferriedX 1 with rearmw := 1 } = false ∧
      ferriedP.queue? 1 = some (ferriedX 1) ∧ (ferriedX 1).st ≠ .active ∧
      (∃ c, reload (seeReload (putQueue ferried 0 { ferriedX 2 with rearmw := 1 }) ferriedP { ferriedX 2 with rearmw := 1 }) ferriedP { ferriedX 2 with rearmw := 1 } = .error c) ∧
      ∃ y, reload (seeReload (putQueue ferried 0 { ferriedX 1 with rearmw := 1 }) ferriedP { ferriedX 1 with rearmw := 1 }) ferriedP { ferriedX 1 with rearmw := 1 } = .ok y) ∧
    (Taken ferried 0 (cmd 0 0 0 [9]) .all (fun k => k < 5) ∧ (∃ r, requestFor ferried 0 9 = some r ∧ answerFits (field r.2.2 0 1) 0 = true ∧ (0 : Nat) ≠ 2) ∧
      requestFor ferried 0 8 = none) ∧
    (Taken ferried 12 (cmd 0 0 0 (List.replicate 28 0 ++ [63])) .mgmtOnly (fun k => k == 0 || 4 ≤ k) ∧
      argN (cmd 0 0 0 (List.replicate 28 0 ++ [63])) 28 4 < 64) ∧
    (Taken ferried 12 (cmd 0 0 0 [0, 63]) .mgmtOnly (fun k => k < 2) ∧ argN (cmd 0 0 0 [0, 63]) 1 1 < 64 ∧
      Taken ferried 12 (cmd 0 0 0 [13, 0, 0, 0, 7]) .mgmtOnly (fun k => k == 0 || (4 ≤ k && k < 8)) ∧ argN (cmd 0 0 0 [13, 0, 0, 0, 7]) 0 1 ≤ 13) ∧
    (Taken ferried 12 (cmd 0 0x1000 0 []) .mgmtOnly (fun _ => false) ∧ hostOk ferried 0x1000 64 = true ∧
      partRecordCode (hread ferried 0x1000 64) = 0 ∧
      (∀ q ∈ ferried.parts, q.part ≠ field (hread ferried 0x1000 64) 0 1 ∧ q.clumask &&& field (hread ferried 0x1000 64) 32 6 = 0) ∧
      partRecordCode (hread ferried 0x3000 64) ≠ 0 ∧ (ferried.win 12).waiting = none ∧
      let s := { ferried with hostmem := swrite ferried.hostmem 0x1000 [0] }
      partRecordCode (hread s 0x1000 64) = 0 ∧ ∃ q ∈ s.parts, q.part = field (hread s 0x1000 64) 0 1 ∨ q.clumask &&& field (hread s 0x1000 64) 32 6 ≠ 0) ∧
    (Taken (sealing 0 12) 12 (cmd 0 0 0 []) .mgmtOnly (fun k => k == 0) ∧ ((sealing 0 12).win 12).waiting ≠ none ∧
      (sealing 0 12).part? 0 = some ferriedP ∧ tornQuiet (sealing 0 12) 0 = true) := by
  refine ⟨?_, ⟨by unfold Taken; decide +kernel, by decide +kernel, by decide +kernel, by decide +kernel, by decide +kernel, by decide +kernel,
    some_err (by decide +kernel), some_ok (by decide +kernel)⟩, ⟨by unfold Taken; decide +kernel, ⟨_, rfl, by decide +kernel⟩, by decide +kernel⟩,
    ?_, ?_, ?_, ?_⟩
  all_goals unfold Taken; decide +kernel

theorem witness_HostRegistersAreWritten : ((ferried.win 0).run = false ∧ (ferried.setWin 0 { ferried.win 0 with run := true }).win 0 =
      { ferried.win 0 with run := true }) ∧ 0 < 12 ∧ 1016 % 8 = 0 ∧ 1016 < 1024 ∧
    (let s := ferried.setWin 0 { ferried.win 0 with events := [[1]], run := true, evsize := 16 }
     (s.win 0).events = [1] :: [] ∧ (s.die 0).running = true ∧ (s.win 0).run = true ∧ (s.win 0).halted = false ∧
      ((s.win 0).evtail - (s.win 0).evhead).toNat < (s.win 0).evsize.toNat ∧
      hostOk s ((s.win 0).evbase.toNat + 64 * ((s.win 0).evtail.toNat % (s.win 0).evsize.toNat)) 64 = true) := by decide +kernel

end Sys2Proof.Tests
end

