-- ==== Sys2Proof/Tests/WitnessSystem.lean ====
section
/-! SUPPORT. For every statement about the package, the scheduler and what was committed, a concrete state and operands that meet its hypotheses together. -/
open Sys2Proof Sys2Proof.Machine
namespace Sys2Proof.Tests
set_option Elab.async false

/-! ### Reset, boot, management -/

/-- A number's 32 bytes, the most significant first. -/
def be32 (n : Nat) : List Byte := (leBytes 32 n).reverse
/-- The public key of RFC 6979's appendix A.2.5, X then Y. -/
def testKey : List Byte :=
  be32 0x60FED4BA255A9D31C961EB74C6356D68C049B8923B61FA6CE669622E60F29FB6 ++
    be32 0x7903FE1008B8BC99A41AE9E95628BC64F2F1B20C2D7E9F5177A3C294D4462299
/-- A signature whose r is that of RFC 6979's "sample" with SHA-256. -/
def testSig (s : Nat) : List Byte := be32 0xEFD48B2AACB6A8FD1140DD9CD45E81D69D2C877B56AAF991C34D0EA84EAF3716 ++ be32 s
/-- The bytes of "sample", and RFC 6979's signature over them. -/
def testFirmware : List Byte := [0x73, 0x61, 0x6D, 0x70, 0x6C, 0x65]
def testFirmwareSig : List Byte := testSig 0xF7CB1C942D657C41D436C7A1B6E29F65F3E900DBB9AFF4064DC4AB2F843ACDA8

/-- A configuration record of a die, with its signature under the key above, made outside the model. -/
def goodConfig (die : Nat) : List Byte :=
  leBytes 4 0x43464752 ++ leBytes 4 1 ++ leBytes 4 0 ++ [BitVec.ofNat 8 die, 0, 0, 0, 12, 7, 15, 3] ++ leBytes 2 600 ++ [24] ++ List.replicate 41 0 ++
    testSig ([0x15099160E9CC154AECBD3EE9038CF3BEEB1BB67C0AC9181667AC1B12031782CF,
      0x4D29C5E39C32ADF42F7149D468F81B8E66F82809DFE199C8A2FC007FD7EA08ED,
      0xDDA963F563EFB51FA1D6CC716E892E307D63C3B5D814E377F418771AF877758C,
      0xF37E8705A0F92908A512CED07CC51F1D96FB82729796FDB23ECBB3927742F4FD].getD die 0)
/-- Boot flash whose four records pass the checks of Table 1.3 and whose signatures verify. -/
def goodFlash (root : List Byte) : BootFlash :=
  { dies := (List.range 4).map fun k => { (default : DieFlash) with
      primary := goodConfig k, rootKey := root, firmware := testFirmware, firmwareSig := testFirmwareSig }
    cxl := [] }

/-- R23, FIPS 186: RFC 6979's signature over "sample" verifies, and over another message it does not. -/
theorem test_ecdsa_sample : verifies testKey testFirmware testFirmwareSig = true := by decide +kernel
theorem test_ecdsa_other : verifies testKey [0x74, 0x65, 0x73, 0x74] testFirmwareSig = false := by decide +kernel
theorem config_signed_0 : verifies testKey (takeAt (goodConfig 0) 0 64) (takeAt (goodConfig 0) 64 64) = true := by decide +kernel
theorem config_signed_1 : verifies testKey (takeAt (goodConfig 1) 0 64) (takeAt (goodConfig 1) 64 64) = true := by decide +kernel
theorem config_signed_2 : verifies testKey (takeAt (goodConfig 2) 0 64) (takeAt (goodConfig 2) 64 64) = true := by decide +kernel
theorem config_signed_3 : verifies testKey (takeAt (goodConfig 3) 0 64) (takeAt (goodConfig 3) 64 64) = true := by decide +kernel

theorem boot_done (fl : DieFlash) (k : Nat) (ms mf : Word) (key : List Byte) (hr : Config.rootDigest k = sha256 fl.rootKey)
    (hk : ∀ a b, Config.certKey a b = some key) (hc : verifies key (takeAt fl.primary 0 64) (takeAt fl.primary 64 64) = true)
    (hv : verifies key fl.firmware fl.firmwareSig = true) (h2 : recordOk fl.primary k ms = true)
    (h3 : mf.toNat ≤ fl.firmwareVersion.toNat) : ∃ m fw, bootDie fl k ms mf = .done fl.primary m fw := by
  have ha : acceptRecord fl key k ms = some fl.primary := by simp [acceptRecord, h2, hc]
  unfold bootDie
  rw [hr]
  simp only [bne_self_eq_false, hk, ha, hv, decide_eq_true h3, Bool.and_self, if_true, Bool.false_eq_true, if_false]
  exact ⟨_, _, rfl⟩

theorem boot_stopped (fl : DieFlash) (k : Nat) (ms mf : Word) (h : (sha256 fl.rootKey != Config.rootDigest k) = true) :
    bootDie fl k ms mf = .stopped := by unfold bootDie; rw [if_pos h]

/-- The digest of the root key and what a certificate carries are free values (log entry 8): where the digests are right and the
certificates carry the key, every die's boot is done and the records agree; where the root key's digest is not right, every boot stops,
and the stopped die is one whose boot is not done. -/
theorem witness_ResetAndBoot (hr : ∀ k, Config.rootDigest k = sha256 []) (hk : ∀ a b, Config.certKey a b = some testKey) :
    (∀ k < 4, ∃ r m fw, bootOf (goodFlash []) State.reset k = .done r m fw ∧ r = goodConfig k) ∧
    (∀ k < 4, field (goodConfig k) 24 8 = field (goodConfig 0) 24 8 ∧ field (goodConfig k) 20 2 = field (goodConfig 0) 20 2) ∧
    (∃ k < 4, bootOf (goodFlash [1]) State.reset k = .stopped) ∧
    ∃ k < 4, ∀ r m fw, bootOf (goodFlash [1]) State.reset k ≠ .done r m fw := by
  have h : ∀ k < 4, ((goodFlash []).dies.getD k default).rootKey = [] ∧
      recordOk ((goodFlash []).dies.getD k default).primary k (State.reset.die k).minSeq = true ∧
      (State.reset.die k).minFw.toNat ≤ ((goodFlash []).dies.getD k default).firmwareVersion.toNat ∧
      ((goodFlash []).dies.getD k default).firmware = testFirmware ∧
      ((goodFlash []).dies.getD k default).firmwareSig = testFirmwareSig ∧
      ((goodFlash []).dies.getD k default).primary = goodConfig k := by decide +kernel
  have hc : ∀ k < 4, verifies testKey (takeAt (goodConfig k) 0 64) (takeAt (goodConfig k) 64 64) = true := fun k hk4 =>
    match k, hk4 with
    | 0, _ => config_signed_0
    | 1, _ => config_signed_1
    | 2, _ => config_signed_2
    | 3, _ => config_signed_3
  have hs : bootOf (goodFlash [1]) State.reset 0 = .stopped := boot_stopped _ _ _ _ (by rw [hr 0]; decide +kernel)
  refine ⟨fun k hk4 => ?_, by decide +kernel, ⟨0, by decide, hs⟩, 0, by decide, fun r m fw e => by rw [hs] at e; exact Boot.noConfusion e⟩
  obtain ⟨h1, h2, h3, h4, h5, h6⟩ := h k hk4
  obtain ⟨m, fw, hb⟩ := boot_done _ k _ _ testKey (by rw [hr k, h1]) hk (by rw [h6]; exact hc k hk4)
    (by rw [h4, h5]; exact test_ecdsa_sample) h2 h3
  exact ⟨_, m, fw, hb, h6⟩

def flitOf : List Byte := List.replicate 64 0x5A
/-- A flit from die 0 waits at boundary 0, for die 1 or to go on from there; its first transmission and 15 retries have failed. -/
def linked (dst : Nat) : State :=
  { ferried with boundaries := ferried.boundaries.set 0 { (default : Boundary) with
      up := true
      fwd := { sent := [{ src := 0, dst := dst, data := flitOf }], recvd := [], retries := 16 } } }
def flit256 : List Byte := List.replicate 256 0
/-- Port 3 with a flit from its peer, and one to it that waits in its own replay buffer. -/
def portBusy : State :=
  { ferried with
    ports := ferried.ports.set 3 { (default : Port) with
      inbound := { sent := [flit256], recvd := [], retries := 0 }
      outbound := { sent := [flit256], recvd := [], retries := 1 } }
    agenda := [.portPeerCheck 3 true] }

theorem witness_ManagementAndLinks (product : List Byte) (crc : Word) : let s := ferried
    (0 < s.dies.length ∧ (s.die 0).running = true ∧ (s.die 0).tripped = false ∧ 109 < 110 ∧ (110 : Nat) ≤ 110) ∧
    ((s.die (dieOfCore 0)).running = true ∧ 3 < 4 ∧ 0 < Config.cores ∧ 4 * 0 + 3 ∉ s.fenced ∧
      (product = Config.selfTestProduct ∨ product ≠ Config.selfTestProduct)) ∧
    (∀ dst ∈ [1, 3], 0 < 4 ∧ (linked dst).boundaries.length = 4 ∧ flitOf.length = 64 ∧ ((linked dst).boundaries.getD 0 default).up = true ∧
      ((linked dst).boundaries.getD 0 default).fwd.retries ≤ 16 ∧
      ((linked dst).boundaries.getD 0 default).fwd.sent = { src := 0, dst := dst, data := flitOf } :: [] ∧ (endsOf 0).2 = 1 ∧
      (crc = Config.crc32 flitOf ∨ Config.crc32 flitOf ≠ crc)) ∧
    (∀ k < 4, boundaryUp s k = true) ∧
    (∃ die, lineParked { s with pipe := (parkedOn .parked).pipe } (scrubLineAt die 0x1004) = true) ∧ lineParked s (scrubLineAt 0 0) = false ∧
    (let t : State := { s with boundaries := [{ (default : Boundary) with up := true, fwd := { sent := [], recvd := [], retries := 17 } }] }
     0 < t.boundaries.length ∧ (t.boundaries.getD 0 default).up = true ∧ 17 ≤ (t.boundaries.getD 0 default).fwd.retries) ∧
    ((s.die (3 / 4)).running = true ∧ bit (field (s.die (3 / 4)).config 18 1) (3 % 4) = true ∧ flit256.length = 256 ∧
      (crc = Config.crc32 flit256 ∨ Config.crc32 flit256 ≠ crc) ∧
      (portBusy.ports.getD 3 default).inbound.sent = flit256 :: [] ∧ flit256 ≠ List.replicate 256 1 ∧
      (portBusy.ports.getD 3 default).outbound.sent = flit256 :: [] ∧ 3 < portBusy.ports.length ∧
      portBusy.agenda = .portPeerCheck 3 true :: []) := by
  refine ⟨by decide +kernel, ⟨by decide +kernel, by decide, by decide, by decide +kernel, Classical.em _⟩,
    fun dst hd => ?_, by decide +kernel, ⟨0, by decide +kernel⟩, by decide +kernel, by decide +kernel, by decide +kernel, by decide +kernel, by decide +kernel,
    (Classical.em (crc = Config.crc32 flit256)).imp id fun e h => e h.symm, by decide +kernel⟩
  have h : ∀ dst ∈ [1, 3], (linked dst).boundaries.length = 4 ∧ flitOf.length = 64 ∧ ((linked dst).boundaries.getD 0 default).up = true ∧
      ((linked dst).boundaries.getD 0 default).fwd.retries ≤ 16 ∧
      ((linked dst).boundaries.getD 0 default).fwd.sent = { src := 0, dst := dst, data := flitOf } :: [] := by decide +kernel
  obtain ⟨h1, h2, h3, h4, h5⟩ := h dst hd
  exact ⟨by decide, h1, h2, h3, h4, h5, by decide, if e : crc = Config.crc32 flitOf then .inl e else .inr (Ne.symm e)⟩

/-- A connection of version 1.3 in a phase. -/
def connected (phase : Nat) : State :=
  ferried.setDie 0 { ferried.die 0 with
    cert := [1, 2]
    spdmVca := if phase = 0 then [] else [0]
    spdm := if phase < 2 then [] else if phase = 2 then [0x13] else [0x13, 0x10, 1, 1] }
def request (param1 param2 : Byte) : SpdmReq := { version := 0x13, param1 := param1, param2 := param2, body := List.replicate 64 0 }

theorem witness_SpdmIsAnswered : (∀ k < 4, ((connected k).die 0).running = true ∧ ((connected k).die 0).tripped = false ∧ spdmPhase (connected k) = k) ∧
    (spdmVersion (connected 2) = 0x13 ∧ spdmVersion (connected 3) = 0x13 ∧ (0x13 : Byte) ≠ spdmVersion (connected 0)) ∧
    (let r := request 0 1
     r.version = 0x13 ∧ r.version ≠ 0x10 ∧ 41 ≤ r.body.length ∧ r.param1 &&& 0x0F = 0 ∧ r.param1 = 0 ∧ r.param2 = 1 ∧ r.param2.toNat ≠ 0 ∧
      r.param2.toNat ≠ 255 ∧ r.param2.getLsbD 0 = true ∧ field r.body 0 2 < ((connected 3).die 0).cert.length) ∧
    (request 1 0).param1 &&& 0x0F ≠ 0 ∧ ¬ ((0x13 : Byte) = 0x13 ∧ (request 0 0).param2.getLsbD 0 = true) ∧
    ((request 1 1).param1.getLsbD 0 = true ∧ (request 1 1).body.getD 32 0 &&& 0x0F = 0) ∧
    (∃ b, measurement (connected 3) 1 = some b) ∧ measurement (connected 3) 200 = none :=
  ⟨by decide +kernel, by decide +kernel, by decide +kernel, by decide +kernel, by decide +kernel, by decide +kernel, ⟨_, rfl⟩, by decide +kernel⟩

/-- R50: the requests in their plain form are whole, and the first of them is answered with versions 1.2 and 1.3. -/
theorem test_spdm_plain : SpdmReq.capabilities.body.length = 16 ∧ (SpdmReq.algorithms 0x13 0x10 1 1).body.length = 28 ∧
    (SpdmReq.certificate 0 0 1024).body.length = 4 ∧ (SpdmReq.challenge 0 (List.replicate 32 7)).body.length = 40 ∧
    (SpdmReq.measurements 255 true (List.replicate 32 7)).body.length = 41 ∧
    (match exec Instr.spdmGetVersion (connected 0) with
     | .next t => t.doe
     | _ => []) = [0x10, 0x04, 0, 0, 0, 2, 0x00, 0x12, 0x00, 0x13] := by decide +kernel

/-! ### The scheduler -/

/-- Queue 0 holds one packet in its ring at 0x10000; it is not in progress, or it is. -/
def queued (busy : Bool) : State :=
  let s := (pilotWith (fun x => { x with busy := busy, tail := 1, desc := putAt (putAt x.desc 0 (leBytes 8 0x10000)) 16 [16, 0, 0, 0, 1, 0, 0, 4] }) id).s
  { s with
    cur := .none
    mem := swrite s.mem 0x40000 [0, 1, 0, 0]
    dies := s.dies.map fun d => { d with running := true } }

/-- A launch that waits for a core; one that has ended; one bound to task queue 0, whose oldest slot holds the byte st at 24. -/
def waitingLaunch : State := { base with launches := [{ State.probeLaunch with record := goodRecord, st := .waiting }], wkgs := [], groups := [] }
def endedLaunch : State :=
  { base with launches := [{ State.probeLaunch with record := putAt goodRecord 16 (leBytes 8 0x10100) }], wkgs := [], groups := [] }
def boundLaunch (st : Byte) : State :=
  { base with
    mem := swrite base.mem 0x40018 [st]
    launches := [{ State.probeLaunch with record := putAt goodRecord 47 [0x80] }]
    groups := []
    parts := base.parts.map fun p => { p with
      taskqs := [{ q := 0, serial := 1, base := 0x10000, size := 8, tailc := 1, headc := 0, reserved := [] }] } }
/-- A parked queue's retry: an atomic is parked on the line of the slot at its head. -/
def retryBehindAtomic : Pilot :=
  let x : Queue := { pilotQ with st := .fetchfault, busy := false, tail := 1, desc := putAt (putAt pilotQ.desc 0 (leBytes 8 0x10000)) 16 [16, 0, 0, 0, 1, 0, 0, 4] }
  pilotWith (fun _ => x) fun s => { s with
    pipe := [{ (default : Item) with
      eff := { ix := 1, op := .store .global 1 false 0 false, elems := [{ Elem.mk0 0 0 [7] with pa := 0x40000, st := .parked }] } }] }
def firstLaunch (s : State) : Launch := (s.launches.head?).getD default

theorem witness_WorkIsScheduled :
    (∀ busy, ((queued busy).die 0).running = true ∧ ((queued busy).die 0).tripped = false ∧ ((queued busy).die 0).visit = none ∧
      ∃ x rest, visitOrder (queued busy) 0 = (0, x) :: rest ∧ x.busy = busy ∧ x.deferred = false ∧
        (busy = false → ∃ b, packetAt (seePacket ((queued busy).setDie 0 { (queued busy).die 0 with lastQ := (0, x.q) }) 0 x) 0 x = .bytes b)) ∧
    (let q := pilotWith (fun x => { x with st := .fetchfault, retries := 15 }) id
     q.s.part? 0 = some q.p ∧ q.p.queue? 0 = some q.x ∧ q.x.st = .fetchfault ∧ q.x.byHost = false ∧ q.x.retries < 16 ∧
      retryMeets q.s q.p q.x = .goes) ∧
    (let q := pilotWith (fun x => { x with st := .fetchfault, busy := false, tail := 1 }) id
     q.x.st = .fetchfault ∧ q.x.byHost = false ∧ q.x.retries < 16 ∧
      ∃ reason, retryMeets q.s q.p q.x = .parks reason) ∧
    (let q := retryBehindAtomic
     q.s.part? 0 = some q.p ∧ q.p.queue? 0 = some q.x ∧ q.x.st = .fetchfault ∧ q.x.byHost = false ∧ q.x.retries < 16 ∧
      retryMeets q.s q.p q.x = .waits) ∧
    (nextWaiting waitingLaunch 0 = some (firstLaunch waitingLaunch) ∧ placeable waitingLaunch (firstLaunch waitingLaunch) = true) ∧
    (endedLaunch.launch? 0 1 = some (firstLaunch endedLaunch) ∧ (firstLaunch endedLaunch).st = .placed ∧
      gridEnded endedLaunch (firstLaunch endedLaunch) = true ∧ gridQuiet endedLaunch (firstLaunch endedLaunch) = true ∧
      donesigBlocked endedLaunch (firstLaunch endedLaunch) = false ∧ (firstLaunch endedLaunch).fld 16 8 ≠ 0 ∧
      ∃ r, xlate endedLaunch (tollhouseDie (firstLaunch endedLaunch)) 0 ((firstLaunch endedLaunch).fld 16 8) .write = .ok r ∧
        reaches endedLaunch (tollhouseDie (firstLaunch endedLaunch)) r.pa = true) ∧
    (∀ st ∈ [(2 : Byte), 3], ∃ p tq w gid b, (boundLaunch st).part? 0 = some p ∧ p.taskq? 0 = some tq ∧
      (boundLaunch st).launch? 0 tq.serial = some (firstLaunch (boundLaunch st)) ∧ (firstLaunch (boundLaunch st)).st = .placed ∧
      tq.headc ≠ tq.tailc ∧ nextPlace (boundLaunch st) (firstLaunch (boundLaunch st)) = some (w, gid) ∧
      readTask (seeTasks (boundLaunch st) w.core 0 tq [tq.headc]) w.core 0 tq tq.headc = some b ∧ taskState b = st.toNat) := by
  refine ⟨fun busy => ?_, by decide +kernel, ⟨by decide +kernel, by decide +kernel, by decide +kernel, _, rfl⟩, by decide +kernel,
    by decide +kernel,
    ⟨by decide +kernel, by decide +kernel, by decide +kernel, by decide +kernel, by decide +kernel, by decide +kernel, _, rfl, by decide +kernel⟩, ?_⟩
  · cases busy
    · exact ⟨by decide +kernel, by decide +kernel, by decide +kernel, _, _, rfl, rfl, rfl, fun _ => ⟨_, rfl⟩⟩
    · exact ⟨by decide +kernel, by decide +kernel, by decide +kernel, _, _, rfl, rfl, rfl, fun h => Bool.noConfusion h⟩
  · simp only [List.forall_mem_cons]
    exact ⟨⟨_, _, _, _, _, rfl, rfl, rfl, by decide +kernel, by decide, rfl, rfl, by decide +kernel⟩,
      ⟨_, _, _, _, _, rfl, rfl, rfl, by decide +kernel, by decide, rfl, rfl, by decide +kernel⟩, by simp⟩

def fatalAt : Fatal := { (default : Fatal) with clu := 0, reason := 1, code := 64, serial := 1 }
/-- Cluster 0 is marked; its one workgroup is that of a partition whose save area begins at 0x100000. -/
def marked : State :=
  { plain.s with
    fatals := [fatalAt]
    parts := plain.s.parts.map fun p => { p with savebase := 0x100000 } }
/-- The state in which the cluster's traces are rolled back. -/
def markedAfter : State := (marked.groups.filter fun g => g.landing.isNone && cluOfCore g.core == 0).foldl (fun s g => rollBackAll s g.uid) marked
def markedPart : Partition := (markedAfter.parts.head?).getD default
def markedWkgs : List Workgroup := marked.wkgs.filter (onCluster 0)

theorem tier_of_die_0 (a : Nat) (h : a < hbmDie) : tierOf a = some (.hbm, 0) := by
  unfold tierOf
  rw [if_pos (Nat.lt_of_lt_of_le h (by decide)), Nat.div_eq_of_lt h]

theorem witness_ClustersTerminate :
    marked.fatals.find? (fun f => f.clu == 0) = some fatalAt ∧ clusterQuiet markedAfter 0 = true ∧
    clusterQuiet { markedAfter with pipe := [{ (default : Item) with core := 0 }] } 0 = false ∧
    (∀ g ∈ marked.groups, g.landing = none → cluOfCore g.core = 0 → ∃ w ∈ markedWkgs, inWkg w g = true) := by decide +kernel

/-- The save area is populated, reached from die 0 and unsealed; nothing of the workgroup stands in the way of its record, and the counter
stands at 0. -/
theorem witness_ClustersTerminate_record : let p := markedPart
    marked.memOk = true ∧ markedAfter.part? p.part = some p ∧ p.part < 12 ∧ fatalAt.stops = [] ∧ markedAfter.flaws = [] ∧
    markedWkgs.length = 1 ∧
    (∀ w ∈ markedWkgs, w.part = p.part ∧ w.st ≠ .saving ∧ (∀ x ∈ w.saves, x.rings = []) ∧
      badSpan markedAfter (dieOfCore w.core) (p.savebase + 0x3FF8) 8 = false ∧
      (∀ a, p.savebase + 0x3FF8 ≤ a → a < p.savebase + 0x8000 → reaches markedAfter (dieOfCore w.core) a = true) ∧
      (∀ g ∈ markedAfter.groups, inWkg w g = true → g.rings = [] ∧ ∀ m ∈ g.nodes, m.inTrace = false)) ∧
    (∀ a, p.savebase + 0x3FF8 ≤ a → a < p.savebase + 0x8000 → populated markedAfter a = true ∧ sealHolds markedAfter a = false) ∧
    0 = leNat (pread markedAfter (p.savebase + 0x3FF8) 8) ∧ 0 + markedWkgs.length < 2 ^ 64 ∧
    (markedAfter.msix.getD (16 * (4 * p.part + 1) + 12) 0).getLsbD 0 = false := by
  have hs : markedPart.savebase = 0x100000 := by decide +kernel
  have ht : ∀ a, a < markedPart.savebase + 0x8000 → tierOf a = some (.hbm, 0) := fun a h =>
    tier_of_die_0 a (Nat.lt_of_lt_of_le (hs ▸ h) (by decide))
  have hr : ∀ w ∈ markedWkgs, dieOfCore w.core = 0 := by decide +kernel
  have hd : (!(markedAfter.die 0).tripped && joined markedAfter 0 0) = true := by decide +kernel
  have hp : ∀ p ∈ markedAfter.parts, ∀ r ∈ p.seals, r.st = .empty := by decide +kernel
  have hw : ∀ w ∈ markedWkgs, w.part = markedPart.part ∧ w.st ≠ .saving ∧ (∀ x ∈ w.saves, x.rings = []) ∧
      badSpan markedAfter (dieOfCore w.core) (markedPart.savebase + 0x3FF8) 8 = false ∧
      (∀ g ∈ markedAfter.groups, inWkg w g = true → g.rings = [] ∧ ∀ m ∈ g.nodes, m.inTrace = false) := by decide +kernel
  refine ⟨by decide +kernel, by decide +kernel, by decide +kernel, by decide +kernel, by decide +kernel, by decide +kernel,
    fun w h => ?_, fun a _ h => ⟨?_, ?_⟩, by decide +kernel, by decide +kernel, by decide +kernel⟩
  · obtain ⟨h1, h2, h3, h4, h5⟩ := hw w h
    refine ⟨h1, h2, h3, h4, fun a _ ha => ?_, h5⟩
    simpa only [reaches, homeDie, ht a ha, hr w h] using hd
  · simp only [populated, ht a h]
  · simp only [sealHolds, List.any_eq_false, Bool.not_eq_true]
    intro p hm r hq
    simp [hp p hm r hq]

/-! ### Traces and synchronisations -/

def finishing : Place := placeWith id id id fun c => { c with term := some (.fin 0x10040) }
def loading : Load := { id := 3, node := 0, ix := 1, writes := [(.v 0 5, 7)], spans := [], iv := 0, rread := none, answered := none }

/-- A join node over two fragments that wait at its join. -/
def joining : Group :=
  let kid := fun (ix : Nat) (mask : LaneMask) => { plain.n with ix := ix, mask := mask, parent := some 0, st := .atJoin, ctx := none, trace := 0x10080 }
  { plain.g with nodes := [{ plain.n with ctx := none, st := .joinNode, trace := 0x10080 }, kid 1 1, kid 2 2] }

/-- The split table is full: fragments at rest hold the group's four entries and the 192 shared ones, and one more has none. -/
def crowdedGroup : Group :=
  { plain.g with nodes := (List.range 197).map fun k =>
      { plain.n with ix := k, mask := BitVec.ofNat 96 (2 ^ k), rank := k, ctx := none, tabled := k != 196 } }
def crowdedTable : State := plain.s.setGroup crowdedGroup

theorem witness_TracesCommitAndFuse :
    (let p := finishing
     p.s.group? 0 = some p.g ∧ p.g.node? 0 = some p.n ∧ p.n.ctx = some p.c ∧ p.c.term = some (.fin 0x10040) ∧ canIssue p.s p.g p.n = true ∧
      p.c.effs = [] ∧ p.c.fails = [] ∧ p.c.entered = none ∧ p.c.arrival = none ∧ p.c.active = p.n.mask ∧ p.n.mask ≠ 0 ∧ p.c.helpers = 0 ∧
      p.c.flow = none ∧ p.c.hdr.mode = false ∧ p.g.pend = false ∧ ∀ l ∈ p.g.loads, l.node ≠ 0) ∧
    (let p := placeWith id (fun g => { g with loads := [loading] }) id id
     p.s.group? 0 = some p.g ∧ p.g.node? 0 = some p.n ∧ p.n.ctx = some p.c ∧
      (p.g.loads.find? fun y => y.id == loading.id && y.rread.isNone) = some loading ∧ loading.node = 0 ∧ loading.iv = 0 ∧
      (loading.spans.foldl (fun s sp => seeSpan s p.g.die sp.2.1 sp.2.2 (some p.g.part) p.g.coreNo) p.s).group? 0 = some p.g ∧
      badLanes p.s p.g loading = []) ∧
    ((plain.s.setGroup joining).group? 0 = some joining ∧ ∃ n, joining.node? 0 = some n ∧ mayFuse joining n = true) ∧
    (let p := placeWith id id (fun n => { n with tabled := false }) id
     p.s.group? 0 = some p.g ∧ p.g.node? 0 = some p.n ∧ p.n.tabled = false ∧ p.n.st = .ready ∧ hasEntry p.s p.g = true) ∧
    (hasEntry crowdedTable crowdedGroup = false ∧ (youngestAtRest crowdedGroup).isSome = true ∧
      (crowdedGroup.node? 196).any (fun n => !n.tabled && n.st == .ready) = true) :=
  ⟨by decide +kernel, by decide +kernel, ⟨by decide +kernel, _, rfl, by decide +kernel⟩, by decide +kernel,
    by decide +kernel, by decide +kernel, by decide +kernel⟩

/-- Two groups of one gang, each with an MMA of format word w at the latch. -/
def latched (w : Nat) : State :=
  let member := fun (k : Nat) => { plain.g with uid := k, gid := k, gang := 0x200, nodes := [{ plain.n with ctx := some { plain.c with
    term := some (.fin 0x10040)
    arrival := some k
    effs := [{ ix := 1, op := .mma [] 0 0 0 20, elems := [Elem.mk0 0 0 (leBytes 4 w)] }] } }] }
  { plain.s with groups := [member 0, member 1] }

/-- The first group has two MMAs at the latch and the second one, with another format word. -/
def unequal : State :=
  let mma := fun (ix w : Nat) => ({ ix := ix, op := .mma [] 0 0 0 20, elems := [Elem.mk0 0 0 (leBytes 4 w)] } : Eff)
  let member := fun (k : Nat) (effs : List Eff) => { plain.g with uid := k, gid := k, gang := 0x200, nodes := [{ plain.n with ctx := some { plain.c with
    term := some (.fin 0x10040)
    arrival := some k
    effs := effs } }] }
  { plain.s with groups := [member 0 [mma 1 0x404, mma 2 0x404], member 1 [mma 1 0x504]] }

/-- What the statement about the latch computes from a group's gang. -/
def latchMembers (s : State) (gr : Group) : List (List (Nat × Nat × Nat × Ctx)) :=
  (List.range (gangCount gr.gang)).map fun i => arrivedOf s gr (gangBase gr.gang + i)
def latchOps (s : State) (gr : Group) (k : Nat) : List (List Arrival) := (jointOps (latchMembers s gr)).take k
def latchFragments (s : State) (gr : Group) (k : Nat) : List (Nat × Nat × Nat × Ctx) :=
  let arr := (latchMembers s gr).map fun ws => (arrivalsOf ws).take k
  ((latchMembers s gr).flatMap fun ws => ws.filter fun w => arr.any fun a => a.any fun j => j.uid == w.2.1 && j.nix == w.2.2.1).foldl
    (fun acc w => insertArrived w acc) []

theorem witness_SynchronisationsComplete_latch :
    (∃ gr, (latched 0xFF).group? 0 = some gr ∧ opening ((latchMembers (latched 0xFF) gr).map prefixCounts) = some 1 ∧
      ((latchOps (latched 0xFF) gr 1).find? fun js => voteCode js != 0).isSome = true) ∧
    ∃ gr, (latched 0x404).group? 0 = some gr ∧ opening ((latchMembers (latched 0x404) gr).map prefixCounts) = some 1 ∧
      (∀ js ∈ latchOps (latched 0x404) gr 1, voteCode js = 0) ∧
      (∀ w ∈ latchFragments (latched 0x404) gr 1, ((traceOf (latched 0x404) w.2.1 w.2.2.1).any fun x =>
        canIssue (latched 0x404) x.1 x.2.1 && !commitHeld (latched 0x404) x.1 x.2.2) = true) ∧
      (latchFragments (latched 0x404) gr 1).length = 2 ∧
      logRoom (latched 0x404) gr.die gr.part ((latchFragments (latched 0x404) gr 1).foldl (fun k w => k + dlogCount w.2.2.2) 0) = true ∧
      ((latchFragments (latched 0x404) gr 1).foldl (fun (t : Option State) w => t.bind fun s => claimEndx s w.2.1 w.2.2.1)
        (some (latched 0x404))).isSome = true :=
  ⟨⟨_, rfl, by decide +kernel⟩, _, rfl, by decide +kernel⟩

/-- No number of operations lets every member's fragments be whole, but the first operation has an arrival from each. -/
theorem witness_SynchronisationsComplete_vote : ∃ gr, unequal.group? 0 = some gr ∧
    opening ((latchMembers unequal gr).map prefixCounts) = none ∧
    ((jointOps (latchMembers unequal gr)).find? fun js => voteCode js != 0).isSome = true := ⟨_, rfl, by decide +kernel⟩

/-- The group waits at barrier 15 of its workgroup, where it has arrived; it waits to push to, or to pop from, the ring at 0x200 whose
header has the counts and flags given. -/
def atBarrier : State :=
  let s := plain.s.setGroup (plain.g.setNode { plain.n with st := .syncing, ctx := none, sync := some (.bar false 15 0) })
  { s with wkgs := s.wkgs.map fun w => { w with bars := [{ num := 15, gen := 0, arrived := [(0, 0)] }] } }
def barrier15 : BarrierRef := { cluster := false, part := 0, serial := 1, place := 0, num := 15 }
def atRing (sync : Sync) (headc tailc flags : Byte) : State :=
  let p := addressed id
  let s := p.s.setGroup (p.g.setNode { p.n with st := .syncing, ctx := none, sync := some sync })
  { s with wkgs := s.wkgs.map fun w => { w with
    data := swrite (swrite (swrite w.data 0x200 [headc]) 0x204 [tailc]) 0x20C [flags] } }
def pushing : Sync := .push false 0x200 8 2 0
def popping : Sync := .pop false 0x200 8 2
def spot200 : Spot := { bench := false, addr := 0x200 }

/-- The header of the ring at 0x200 as the group reads it. -/
def headerAt (s : State) (gr : Group) : RingHdr := spotRead (seeSpot s gr spot200 64) gr spot200 64

theorem witness_SynchronisationsComplete :
    (∃ g rest, expectedOf atBarrier barrier15 = g :: rest ∧ barDone atBarrier barrier15 (barOf atBarrier g false 15) (g :: rest) = true) ∧
    (∃ gr nd, ringWaiter (atRing pushing 0 7 0) 0 0 = some (gr, nd) ∧ nd.sync = some pushing ∧
      releasedTo (atRing pushing 0 7 0) 0 gr.core 0 (ringScope false) = true ∧ spotParked (atRing pushing 0 7 0) gr spot200 64 = false ∧
      spotBad (seeSpot (atRing pushing 0 7 0) gr spot200 64) gr spot200 64 = false ∧ RingHdr.ok (headerAt (atRing pushing 0 7 0) gr) = true ∧
      bit (RingHdr.flags (headerAt (atRing pushing 0 7 0) gr)) 1 = false ∧
      vaHeld (atRing pushing 0 7 0) gr.core gr.die gr.part 0x10100 64 .write = false ∧
      (RingHdr.tailc (headerAt (atRing pushing 0 7 0) gr) - RingHdr.headc (headerAt (atRing pushing 0 7 0) gr)).toNat <
        2 ^ RingHdr.logslots (headerAt (atRing pushing 0 7 0) gr)) ∧
    (∃ gr nd, ringWaiter (atRing pushing 0 0 2) 0 0 = some (gr, nd) ∧ nd.sync = some pushing ∧
      bit (RingHdr.flags (headerAt (atRing pushing 0 0 2) gr)) 1 = true) ∧
    (∃ gr nd, ringWaiter (atRing popping 7 7 1) 0 0 = some (gr, nd) ∧ nd.sync = some popping ∧ acquireReady (atRing popping 7 7 1) gr = true ∧
      countsMade (atRing popping 7 7 1) gr = true ∧
      RingHdr.ok (headerAt (atRing popping 7 7 1) gr) = true ∧
      RingHdr.tailc (headerAt (atRing popping 7 7 1) gr) = RingHdr.headc (headerAt (atRing popping 7 7 1) gr) ∧
      bit (RingHdr.flags (headerAt (atRing popping 7 7 1) gr)) 0 = true) ∧
    (∃ gr nd, ringWaiter (atRing popping 7 8 1) 0 0 = some (gr, nd) ∧ nd.sync = some popping ∧
      RingHdr.tailc (headerAt (atRing popping 7 8 1) gr) ≠ RingHdr.headc (headerAt (atRing popping 7 8 1) gr) ∧
      spotParked (atRing popping 7 8 1) gr spot200 64 = false ∧
      spotBad (seeSpot (atRing popping 7 8 1) gr spot200 64) gr spot200 64 = false ∧ RingHdr.ok (headerAt (atRing popping 7 8 1) gr) = true ∧
      acquireReady (atRing popping 7 8 1) gr = true ∧ countsMade (atRing popping 7 8 1) gr = true ∧
      (let t := seeSpot (atRing popping 7 8 1) gr spot200 64
       let h := headerAt (atRing popping 7 8 1) gr
       let slot : Spot := { bench := false, addr := 0x200 + RingHdr.slotAt h (RingHdr.headc h) }
       spotParked t gr slot (4 * RingHdr.words h) = false ∧
        spotBad (seeSpot t gr slot (4 * RingHdr.words h)) gr slot (4 * RingHdr.words h) = false)) :=
  ⟨⟨_, _, rfl, by decide +kernel⟩, ⟨_, _, rfl, by decide +kernel⟩, ⟨_, _, rfl, by decide +kernel⟩, ⟨_, _, rfl, by decide +kernel⟩,
    _, _, rfl, by decide +kernel⟩

/-! ### Committed effects -/

/-- The addressed group's pipeline holds one effect with one element, at an address of the mapped page or not. -/
def effect (op : EffOp) (x : Elem) : Item :=
  { id := 9, group := 0, part := 0, serial := 1, wkg := 0, core := 0, trace := 0x10000, lanes := 1, eff := { ix := 1, op := op, elems := [x] }, kind := 3,
    refused := [] }
def accepted (a pa : Nat) (b : Nat) : Elem := { Elem.mk0 0 a [1, 2, 3, 4] with pa := pa, st := .checked, b := b }
def committed (op : EffOp) (x : Elem) : State := { (addressed id).s with pipe := [effect op x] }
def stOp : EffOp := .store .global 4 false 0 false
def redOp (kind : AtomKind) : EffOp := .atomic kind 0 1 false false false 0 0 none

theorem witness_PostedEffectsAreChecked :
    (let it := effect stOp (Elem.mk0 0 0x10100 [1, 2, 3, 4])
     (committed stOp (Elem.mk0 0 0x10100 [1, 2, 3, 4])).item? 9 = some it ∧ checkReady (committed stOp (Elem.mk0 0 0x10100 [1, 2, 3, 4])) it = true ∧
      it.refused = [] ∧ it.eff.elems ≠ [] ∧ (∀ x ∈ it.eff.elems, x.st = .fresh) ∧
      ∃ y, checkElem (seeItem (committed stOp (Elem.mk0 0 0x10100 [1, 2, 3, 4])) it fun x => x.st == .fresh) it
        (Elem.mk0 0 0x10100 [1, 2, 3, 4]) = .ok y) ∧
    (let x := Elem.mk0 0 0x30000 [1, 2, 3, 4]
     let s := committed stOp x
     s.item? 9 = some (effect stOp x) ∧ checkReady s (effect stOp x) = true ∧ (∃ e, checkElem (seeItem s (effect stOp x) fun x => x.st == .fresh) (effect stOp x) x = .error e) ∧ x.lane ≠ uniLane ∧
      (∃ g, s.group? 0 = some g ∧ g.sfrq.length < 8) ∧ ((s.part? 0).map fun p => p.assisted 0) = some false) :=
  ⟨⟨by decide +kernel, by decide +kernel, rfl, by decide +kernel, by decide +kernel, _, rfl⟩, by decide +kernel, by decide +kernel,
    ⟨_, rfl⟩, by decide, ⟨_, rfl, by decide +kernel⟩, by decide +kernel⟩

/-- An earlier FENCE.rel of the group, with a store before it that is not performed. -/
def behindFence (op : EffOp) (x : Elem) : State :=
  { committed op x with
    pipe := [{ effect stOp (accepted 0x10100 0x40100 0) with id := 1 },
      { effect (.fence 0 2) (Elem.mk0 0 0 []) with id := 2 }, effect op x] }

theorem witness_AcceptedElementsArePerformed :
    (let x := accepted 0x10100 0x40100 0
     ∀ op ∈ [stOp, redOp .red, redOp .bop], elemReady (committed op x) (effect op x) 0 x = true ∧
      (committed op x).item? 9 = some (effect op x) ∧ (effect op x).elem? 0 = some x ∧ x.st = .checked ∧
      parkedBlocks (committed op x) x.pa 4 true = false ∧ parkedBlocks (committed op x) x.pa 4 false = false ∧
      reaches (committed op x) (dieOfCore 0) x.pa = true ∧ (committed op x).memOk = true ∧
      parkCause (seeSpan (committed op x) 0 x.pa 4 (some 0) 0) x.pa 4 none = none) ∧
    parkCause (committed (redOp .red) (accepted 0x20000 benchBase 0)) benchBase 4 (some .bankRetry) = some 2 ∧
    (let x := accepted 0x200 0 0
     elemReady (committed (.store .scratch 4 false 0 false) x) (effect (.store .scratch 4 false 0 false) x) 0 x = true ∧
      (scratchAt (committed (.store .scratch 4 false 0 false) x) (effect (.store .scratch 4 false 0 false) x).asGroup x.addr 4).isSome = true ∧
      elemReady (committed (redOp .atoms) x) (effect (redOp .atoms) x) 0 x = true ∧
      (let t := seeOffset (committed (redOp .atoms) x) (effect (redOp .atoms) x).asGroup x.addr (atomBytes 1)
       ((scratchAt t (effect (redOp .atoms) x).asGroup x.addr (atomBytes 1)).bind fun w => w.1.badWord w.2 (atomBytes 1)) = none)) ∧
    (let x := accepted 0 0 0
     logReady (committed (.dlog 15) x) (effect (.dlog 15) x) x = true) ∧
    (let x := accepted 0 0 0
     releaseReady (committed .release x) (effect .release x) = true ∧ ((committed .release x).launch? 0 1).isSome = true ∧
      releaseReady (committed (.spawn 0 0x10000) x) (effect (.spawn 0 0x10000) x) = true) ∧
    (let x := accepted 0x200 0 0
     let op : EffOp := .ring false false false 0x200
     (committed op x).item? 9 = some (effect op x) ∧ (effect op x).elem? 0 = some x ∧ x.st = .checked ∧
      (effect op x).eff.elems = [x] ∧ countReady (committed op x) (effect op x) { bench := false, addr := 0x200 } = true ∧
      countReady (behindFence op x) (effect op x) { bench := false, addr := 0x200 } = false) ∧
    (let x := accepted 0 0 0
     taskHeld (committed (.spawn 0 0x10000) x) (effect (.spawn 0 0x10000) x) 0 x = false) ∧
    (let x := accepted 0x10100 0x40100 0x300
     let s := committed (.lda 4) x
     let it := effect (.lda 4) x
     ldaReady s it 0 x 4 = true ∧ badSpan (seeSpan s (dieOfCore it.core) x.pa 4 (some it.part) (it.core % 48)) (dieOfCore it.core) x.pa 4 = false) := by decide +kernel

/-- The effect's element is parked at its home, at a stage, its repair left to the host or not. -/
def parkedAt (stage : Nat) (assisted : Bool) : State :=
  let s := committed (redOp .red) { accepted 0x10100 0x40100 0 with st := .parked }
  { s with
    dies := s.dies.map fun d => { d with parked := [{ id := 9, elem := 0, stage := stage, cause := 3, assisted := assisted }] } }

theorem witness_ParkedAndMergedAtomics :
    (∀ a : Bool, (((parkedAt 0 a).die 0).parked[0]?).map (fun p => (p.stage, p.cause, p.assisted)) = some (0, 3, a) ∧
      (((parkedAt 0 a).item? 9).bind (·.elem? 0)).isSome = true) ∧
    ((((parkedAt 2 true).die 0).parked[0]?).map (·.stage) = some 2 ∧
      ∀ a : Bool, reaches (parkedAt 2 a) 0 0x40100 = true ∧ badSpan (parkedAt 2 a) 0 0x40100 4 = false) ∧
    (let x := accepted 0x10100 0x40100 5
     let s := committed (redOp .sred) x
     let m : MergePair := { die := 0, addr := 0x40100, sub := 0, ty := 1, value := 5, from_ := [(9, 0)] }
     let t : State := { s with merge := [m] }
     s.item? 9 = some (effect (redOp .sred) x) ∧ (s.merge.find? fun m => m.from_.contains (9, 0)) = none ∧
      itemReady s (effect (redOp .sred) x) = true ∧ elemFirst s (effect (redOp .sred) x) 0 x = true ∧ (s.merge.filter fun m => m.die == 0).length < 512 ∧
      (t.merge.find? fun m => m.from_.contains (9, 0)) = some m ∧ parkedBlocks t m.addr (atomBytes 1) false = false ∧
      parkCause (seeSpan t 0 m.addr (atomBytes 1) (some 0) 0) m.addr (atomBytes 1) none = none ∧
      (let u : State := { s with merge := [{ m with from_ := [] }] }
       (u.merge.find? fun m => m.from_.contains (9, 0)) = none ∧
        (u.merge.find? fun m => m.die == 0 && m.addr == x.pa && m.sub == 0 && m.ty == 1) = some { m with from_ := [] } ∧
        elemFirstBut u [] (effect (redOp .sred) x) 0 x = true) ∧
      (s.die 0).running = true ∧ (s.die 0).tripped = false) ∧
    (∀ s ∈ [(addressed id).s, { (addressed id).s with flaws := [{ line := 0x40100, err := .bad 1 1 0, waits := none }] }],
      0x10100 % atomBytes 5 = 0 ∧ (s.die 0).running = true ∧ (s.die 0).tripped = false ∧ walkHeld s 192 0 0 0x10100 = false ∧
      ∃ r, xlate (seeWalk s 192 0 0 0x10100) 0 0 0x10100 .write = .ok r ∧ reaches (seeWalk s 192 0 0 0x10100) 0 r.pa = true ∧
        parkedBlocks (seeWalk s 192 0 0 0x10100) r.pa (atomBytes 5) false = false ∧
        (parkCause (seeSpan (seeWalk s 192 0 0 0x10100) 0 r.pa (atomBytes 5) (some 0) 0xFF) r.pa (atomBytes 5) none = none ↔ s.flaws = []) ∧
        ∃ x, (peerItem 0 0 0x10100 r.pa 0 5 7).eff.elems = [x]) :=
  ⟨by decide +kernel, by decide +kernel, by decide +kernel, by
    simp only [List.forall_mem_cons]
    exact ⟨⟨by decide +kernel, by decide +kernel, by decide +kernel, by decide +kernel, _, rfl, by decide +kernel, by decide +kernel, by decide +kernel, _, rfl⟩,
      ⟨by decide +kernel, by decide +kernel, by decide +kernel, by decide +kernel, _, rfl, by decide +kernel, by decide +kernel, by decide +kernel, _, rfl⟩,
      by simp⟩⟩

def firstGroup (s : State) : Group := (s.groups.head?).getD default
def firstWkg (s : State) : Workgroup := (s.wkgs.head?).getD default

end Sys2Proof.Tests
end

