-- ==== Sys2Proof/Tests/WitnessEngine.lean ====
section
/-! SUPPORT. For every statement about engines and pre-emption, a concrete state and operands that meet its hypotheses together. -/
open Sys2Proof Sys2Proof.Machine
namespace Sys2Proof.Tests
set_option Elab.async false

/-! ### Engines -/

def entry : EngEntry :=
  { addr := 0x200, seq := 7, group := 0, wkg := 0, serial := 1, core := 0, op := 1, waits := [], members := [], counter := 1, broken := false, mark := 0,
    taken := [], done := 0 }
/-- A queue of the partition holds one entry whose 64 bytes stand at 0x200 of the share, or in bench memory at 0x20000; the engine has
taken some bytes of it, or none. -/
def queueOf (kind : QueueKind) : QueueRef := { kind := kind, unit := 0, part := 0 }
def body (op : Byte) (rest : List Byte) : List Byte := putAt (putAt (putAt (List.replicate 64 0) 8 [7]) 12 [op]) 17 rest
def entryOf (kind : QueueKind) (broken : Bool) (taken : List Byte) : EngEntry :=
  { entry with addr := if kind = .kq then 0x20000 else 0x200, broken := broken, taken := taken }
def engined (kind : QueueKind) (broken : Bool) (b taken : List Byte) : State :=
  let s := (addressed id).s
  { s with
    cur := .none
    mem := swrite s.mem benchBase b
    wkgs := s.wkgs.map fun w => { w with data := swrite w.data 0x200 b }
    parts := s.parts.map fun p => { p with engqs := p.engqs.map fun q => if q.ref = queueOf kind then { q with entries := [entryOf kind broken taken] } else q } }
def queueAt (s : State) (kind : QueueKind) : EngQ := (engq? s (queueOf kind)).getD default

def entryB (kind : QueueKind) (op : Nat) (b : List Byte) : Bool :=
  let s := engined kind false b b
  let r := queueOf kind
  let e := entryOf kind false b
  engq? s r == some (queueAt s kind) && (queueAt s kind).entries.head? == some e && (s.die (queueDie r)).running &&
    !regionHeld s (engFor s r e) (entryRegion r e, 64) && entryReleased s e && !e.taken.isEmpty && field e.taken 12 1 == op
theorem entry_of {kind : QueueKind} {op : Nat} {b : List Byte} (h : entryB kind op b = true) :
    EntryAt (engined kind false b b) (queueOf kind) op (entryOf kind false b) (queueAt (engined kind false b b) kind) := by
  simp only [entryB, Bool.and_eq_true, Bool.not_eq_true', beq_iff_eq] at h
  obtain ⟨⟨⟨⟨⟨⟨h1, h2⟩, h3⟩, h4⟩, h5⟩, h6⟩, h7⟩ := h
  exact ⟨h1, h2, h3, h4, rfl, h5, h6, h7⟩

/-- COLL of a group of two ranks: an all-gather of 64 bytes. -/
def collBody64 : List Byte := body 1 (List.replicate 16 0 ++ [0, 0, 3] ++ leBytes 4 64 ++ leBytes 8 0x20040 ++ leBytes 8 0x10400 ++ leBytes 8 0x10100)
def collective : State :=
  let s := engined .kq false collBody64 collBody64
  { s with mem := swrite s.mem (benchBase + 64) (putAt (List.replicate 64 0) 0 [2]) }
def peer (etype : Byte) : PeerContribution := { rank := 1, ctype := 3, etype := etype, root := 0, len := 64, nrank := 2, data := List.replicate 64 5 }
def collEng : Eng := engFor collective (queueOf .kq) (entryOf .kq false collBody64)
def collMet : CollCmd × GroupRec := (collOf collBody64, putAt (List.replicate 64 0) 0 [2])
def chkIs (x : Plan ⊕ (CollCmd × GroupRec)) (y : CollCmd × GroupRec) : Bool := match x with
  | .inr z => z == y
  | .inl _ => false
theorem chk_of {x : Plan ⊕ (CollCmd × GroupRec)} {y : CollCmd × GroupRec} (h : chkIs x y = true) : x = .inr y := by
  cases x <;> simp_all [chkIs]
def others (etype : Byte) : List PeerContribution :=
  [peer etype].filter fun p => p.rank != GroupRec.rank collMet.2 && p.rank < GroupRec.nrank collMet.2

def collPlan (rows : List (List (Byte × Nat))) : Plan :=
  let out := collResult collMet.1 collMet.2 rows
  { st := statusesOf out, reason := 0, reads := [collMet.1.record, (collMet.1.src, collMet.1.len)], writes := runWrites collMet.1.dst 0 out }

def collRows : List (List (Byte × Nat)) := [List.replicate 64 (0, 0), List.replicate 64 (5, 0)]

/-- MMA of two groups, one slice of one-bit elements, one promotion; its tiles lie in the share. -/
def mmaBody : List Byte := body 1 (List.replicate 18 0 ++ [0, 10] ++ leBytes 2 12 ++ [2, 0, 1] ++ leBytes 2 1 ++ leBytes 4 0xA00 ++
  leBytes 4 0x800 ++ leBytes 4 0x600 ++ leBytes 4 0x400 ++ leBytes 4 0x101)

theorem witness_EngineEntriesAreDone_posts :
    (let s := engined .mq false mmaBody mmaBody
     let x := engFor s (queueOf .mq) (entryOf .mq false mmaBody)
     let m := mmaOf mmaBody
     queueOwner s .mq 0 = some (queueOf .mq) ∧ entryB .mq 1 mmaBody = true ∧ mmaBodyCheck mmaBody = none ∧
      aFmt (m.fmt % 256) = some { width := 1, zf8 := false } ∧ bFmt (bits m.fmt 15 8) = some { width := 1, zf8 := false } ∧
      0 < ceilDiv m.ksl m.p ∧ ceilDiv m.ksl m.p ≤ 1 ∧ workingArrays s 0 ≠ 0 ∧
      (let f : ZFmt := { width := 1, zf8 := false }
       let t := seeTile (seeTile s x 96 m.ksl f m.aexp m.apl) x (16 * m.gcnt) m.ksl f m.bexp m.bpl
       (readTile t x 96 m.ksl f m.aexp m.apl).2 = 0 ∧ (readTile t x (16 * m.gcnt) m.ksl f m.bexp m.bpl).2 = 0)) ∧
    ((mmaBodyCheck (body 1 [])).isSome = true ∧ queueOwner (engined .mq false (body 1 []) (body 1 [])) .mq 0 = some (queueOf .mq) ∧
      entryB .mq 1 (body 1 []) = true) ∧
    (queueOwner (engined .lq false (body 1 []) (body 1 [])) .lq 0 = some (queueOf .lq) ∧ entryB .lq 1 (body 1 []) = true) ∧
    (∀ op ∈ [(1 : Byte), 2, 3, 9], queueOwner (engined .cq false (body op []) (body op [])) .cq 0 = some (queueOf .cq) ∧
      entryB .cq op.toNat (body op []) = true) ∧ knownOp .cq 9 = false ∧
    (∀ k ∈ [QueueKind.mq, .lq, .cq, .kq], entryB k 0x0F (body 0x0F []) = true) ∧
    bits (field (body 0x0F []) 17 1) 7 4 = 0 ∧ leNat (takeAt (body 0x0F []) 18 46) = 0 := by
  decide +kernel

theorem witness_EngineEntriesAreDone_reads :
    (let s := engined .cq true (body 1 []) []
     let e := entryOf .cq true []
     queueOwner s .cq 0 = some (queueOf .cq) ∧ engq? s (queueOf .cq) = some (queueAt s .cq) ∧ (queueAt s .cq).entries.head? = some e ∧
      e.broken = true ∧ (s.die (queueDie (queueOf .cq))).running = true ∧ regionHeld s (engFor s (queueOf .cq) e) (entryRegion (queueOf .cq) e, 64) = false) ∧
    (∀ b ∈ [body 1 [], putAt (body 1 []) 8 [8]],
     let s := engined .cq false b []
     let e := entryOf .cq false []
     let r := queueOf .cq
     let t := seeRegion s (engFor s r e) (entryRegion r e, 64)
     engq? s r = some (queueAt s .cq) ∧ (queueAt s .cq).entries.head? = some e ∧ entryReleased s e = true ∧ e.taken = [] ∧
      statusesOf (readRegion t (engFor s r e) (entryRegion r e) 64) = 0 ∧
      (field (dataOf (readRegion t (engFor s r e) (entryRegion r e) 64)) 8 4 = e.seq.toNat ↔ b = body 1 [])) ∧
    (let s := { engined .cq false (body 1 []) [] with wkgs := (engined .cq false (body 1 []) []).wkgs.map fun w => { w with share := 64 } }
     let e := entryOf .cq false []
     let r := queueOf .cq
     statusesOf (readRegion (seeRegion s (engFor s r e) (entryRegion r e, 64)) (engFor s r e) (entryRegion r e) 64) ≠ 0) := by
  decide +kernel

theorem witness_EngineEntriesAreDone_coll :
    EntryAt collective (queueOf .kq) 1 (entryOf .kq false collBody64) (queueAt collective .kq) ∧
    collChecked collective collEng (entryOf .kq false collBody64).taken = .inr collMet ∧
    collLinked collective collMet.2 = true ∧ (∃ p ∈ others 1, peerMatches collMet.1 collMet.2 p = false) ∧
    (∀ p ∈ others 0, peerMatches collMet.1 collMet.2 p = true) ∧ others 0 ≠ [] ∧
    contributions collective collEng collMet.1 collMet.2 (others 0) = some collRows ∧
      planBlocked collective collEng (collPlan collRows) = false ∧
      planBlocked collective collEng { st := 5, reason := 7, reads := [collMet.1.record], writes := [] } = false :=
  ⟨⟨by decide +kernel, by decide +kernel, by decide +kernel, by decide +kernel, rfl, by decide +kernel, by decide +kernel, by decide +kernel⟩,
    chk_of (by decide +kernel), by decide +kernel, by decide +kernel, by decide +kernel, by decide +kernel,
    by decide +kernel, by decide +kernel, by decide +kernel⟩

/-! ### Pre-emption -/

/-- The launch's pre-emption is requested; its workgroup is in a state of Table 8.8; its group is at a boundary, or not. -/
def preempting (st : WkgSt) (fg : Group → Group) (fn : Node → Node) : State :=
  let p := placeWith id fg fn id
  { (if st = .running ∨ st = .stopping then p.s else p.s.setGroup (p.g.setNode { p.n with ctx := none })) with
    cur := .none
    launches := p.s.launches.map fun l => { l with preempting := some 0x10040 }
    wkgs := p.s.wkgs.map fun w => { w with st := st } }

/-- The same with the group's fragment at a trace boundary, frozen once its workgroup is in SAVING. -/
def atRest (st : WkgSt) : State :=
  let s := preempting st id id
  { s with groups := s.groups.map fun g => { g with nodes := g.nodes.map fun n => { n with ctx := none, frozen := st = .saving } } }

/-- The pre-emption handler of the group has reached YIELD; its save block stands at an address mapped or not. -/
def yielding (a : Word) : State := preempting .saving (fun g => { g with yield := .waiting, savelo := a }) id
def savedLines : List (Nat × List Byte) := ((saveSpans (yielding 0x12000) (firstGroup (yielding 0x12000))
  (saveLines (firstGroup (yielding 0x12000)))).toOption).getD []

theorem ok_getD {α β : Type} {x : Except α (List β)} (h : x.toOption.isSome = true) : x = .ok (x.toOption.getD []) := by
  cases x <;> simp_all [Except.toOption]

/-- A launch whose one workgroup is saved, its groups all ended (R199). -/
def savedState : State :=
  let s := plain.s
  { s with
    cur := .none
    groups := []
    launches := [{ State.probeLaunch with record := putAt goodRecord 29 [1] }]
    wkgs := s.wkgs.map fun w => { w with st := .saved, ended := [0] } }
def savedPart : Partition := (savedState.part? 0).getD default
/-- Where the restore begins to look for a core. -/
def restoreCores (k : Nat) : List Nat :=
  let cores := ((List.range 48).filter (bit savedPart.clumask)).flatMap fun k => (List.range 4).map fun c => 4 * k + c
  cores.drop k ++ cores.take k

theorem witness_GroupsAreSavedAndRestored :
    (let s := preempting .running id id
     ∃ l, s.launch? 0 1 = some l ∧ l.preempting ≠ none ∧
      (s.wkgs.find? fun w => w.part == 0 && w.serial == 1 && w.core == 0 && w.st == .running) = some (firstWkg s)) ∧
    (let s := preempting .stopping id id
     ∃ g n c, traceOf s 0 0 = some (g, n, c) ∧ wkgIn s g .stopping = true ∧ c.entered = none) ∧
    (∀ st ∈ [WkgSt.saving, .stopping], let s := atRest st
     s.group? 0 = some (firstGroup s) ∧ s.wkg? 0 1 0 = some (firstWkg s) ∧ (s.launch? 0 1).isSome = true ∧
      ((firstWkg s).st = .stopping ∧ atBoundary s (firstWkg s) = true ∨ (firstWkg s).st = .saving) ∧
      ((firstWkg s).st = .saving → ∀ n ∈ (firstGroup s).nodes, n.frozen = true) ∧
      (firstGroup s).yield = .no ∧ (firstGroup s).landing = none ∧ (∀ n ∈ (firstGroup s).nodes, n.saver = false) ∧ leafLanes (firstGroup s) ≠ 0) ∧
    (let s := yielding 0x12000
     s.group? 0 = some (firstGroup s) ∧ (firstGroup s).yield = .waiting ∧ yieldReady s (firstGroup s) = true ∧
      saveHeld s (firstGroup s) = false ∧
      saveSpans (seeSave s (firstGroup s)) (firstGroup s) (saveLines (firstGroup s)) = .ok savedLines ∧ savedLines.length = 59 ∧
      (∀ x ∈ savedLines, parkedBlocks (seeSave s (firstGroup s)) x.1 64 true = false) ∧
      ∀ x ∈ savedLines, reaches (seeSave s (firstGroup s)) (firstGroup s).die x.1 = true) ∧
    (let s := yielding 0x30000
     s.group? 0 = some (firstGroup s) ∧ (firstGroup s).yield = .waiting ∧ yieldReady s (firstGroup s) = true ∧
      saveHeld s (firstGroup s) = false ∧ ∃ e, saveSpans (seeSave s (firstGroup s)) (firstGroup s) (saveLines (firstGroup s)) = .error e) :=
  ⟨⟨_, rfl, by decide +kernel, by decide +kernel⟩, ⟨_, _, _, rfl, by decide +kernel, rfl⟩, by decide +kernel,
    ⟨by decide +kernel, by decide +kernel, by decide +kernel, by decide +kernel, ok_getD (by decide +kernel), by decide +kernel, by decide +kernel, by decide +kernel⟩,
    by decide +kernel, by decide +kernel, by decide +kernel, by decide +kernel, some_err (by decide +kernel)⟩

/-- Whatever core the restore begins at (a free value), the saved workgroup comes back. -/
theorem witness_GroupsAreSavedAndRestored_back : let s := savedState
    let s1 := { s with tick := s.tick + 1 }
    ∃ l, (s.launches.find? fun l => l.part == 0 && launchSaved s l) = some l ∧ l.serial = 1 ∧ s.part? 0 = some savedPart ∧
      (∀ k, nextWaiting s 0 = some k → placeable s k = false) ∧
      ∀ k < 5, ∃ as, assignCores (fitsCore s1 l (s1.wkgs.filter fun w => w.part == 0 && w.serial == 1)) (restoreCores k)
          (s1.wkgs.filter fun w => w.part == 0 && w.serial == 1) [] = some as ∧
        (∀ a ∈ as, ∀ x ∈ a.1.saves, blockHeld s1 a.2 0 x.addr = false) ∧
        ∃ t, as.foldl (fun (acc : Option State) a => match acc with
          | some t => restoreWkg savedPart l t a.1 a.2
          | none => none) (some s1) = some t := by
  have back : ∀ k < 5, (match assignCores (fitsCore { savedState with tick := savedState.tick + 1 } (firstLaunch savedState) savedState.wkgs) (restoreCores k)
      savedState.wkgs [] with
    | none => false
    | some as => as.all (fun a => a.1.saves.all fun x => !blockHeld { savedState with tick := savedState.tick + 1 } a.2 0 x.addr) &&
        (as.foldl (fun (acc : Option State) a => match acc with
          | some t => restoreWkg savedPart (firstLaunch savedState) t a.1 a.2
          | none => none) (some { savedState with tick := savedState.tick + 1 })).isSome) = true := by decide +kernel
  have ws : (savedState.wkgs.filter fun w => w.part == 0 && w.serial == 1) = savedState.wkgs := by decide +kernel
  refine ⟨firstLaunch savedState, by decide +kernel, by decide +kernel, by decide +kernel,
    ?_, fun k hk => ?_⟩
  · intro k h
    rw [show nextWaiting savedState 0 = none by decide +kernel] at h
    cases h
  have h := back k hk
  split at h
  · exact Bool.noConfusion h
  · rename_i as e
    simp only [Bool.and_eq_true, List.all_eq_true, Bool.not_eq_true'] at h
    refine ⟨as, ?_, h.1, Option.isSome_iff_exists.mp h.2⟩
    show assignCores (fitsCore _ _ (savedState.wkgs.filter _)) _ (savedState.wkgs.filter _) [] = some as
    rw [ws]
    exact e

end Sys2Proof.Tests
end

