-- ==== Sys2Proof/Tests/WitnessReplay.lean ====
section
/-! SUPPORT. For every statement about emulation and replayed objects, a concrete state and operands that meet its hypotheses together. -/
open Sys2Proof Sys2Proof.Machine
namespace Sys2Proof.Tests
set_option Elab.async false

/-! ### Emulation and replayed objects -/

def ivOperands : LOp := { LOp.blank with d := 8, a := 2, b := 4 }
/-- v2 and v4 of the fragment's one lane hold intervals. -/
def interval (fs : State → State) (fc : Ctx → Ctx) : Place := placeWith fs (fun g => (g.wv 0 2 0x40003C00).wv 0 4 0x40003C00) id fc
def divComp : Comp × LOp := (ivBin true ivDiv, ivOperands)
/-- The division is under emulation; its first element's frame is ready, or not written. -/
def emulationOf (next : Nat) : Emul :=
  { insn := insnWords (.ivdivIv16 ivOperands), instr := .ivdivIv16 ivOperands, lanes := 1, next := next, done := 0,
    v := (interval id id).g.v, s := (interval id id).g.s, fmode := (interval id id).g.fmode }
def emulated1 (ready : Bool) : Place :=
  interval (fun s => if ready then s.setDie 0 { s.die 0 with frames := [{ slot := 0, g := 0, n := 0, elem := 0, ready := true, ticket := none }] } else s)
    fun c => { c with emul := some (emulationOf (if ready then 1 else 0)) }

theorem witness_LaterInstructionsAreEmulated :
    (let p := interval id id
     emulated (.ivdivIv16 ivOperands) = some divComp ∧ Issues p.s p.g p.n p.c false (divComp.1.spec divComp.2 2 0).used ∧ divComp.1.check divComp.2 p.g.nregs = 0 ∧
      p.c.active ≠ 0 ∧ selected p.g divComp.2.ps.toNat divComp.2.pm.toNat (p.c.active ||| p.c.helpers) = [0] ∧
      overShadow p.c (divComp.1.dstRegs divComp.2) = false ∧ (divComp.1.lane divComp.2 p.g p.n p.c 0).code = 0) ∧
    (let p := emulated1 false
     ∃ e off, emulating p.s 0 0 = some e ∧ canIssue p.s e.g e.n = true ∧ freeSlot (p.s.die e.g.die) = some 0 ∧
      (e.o.offs e.k.paired)[e.m.next]? = some off) ∧
    (let p := emulated1 true
     ∃ e f off, emulating p.s 0 0 = some e ∧ canIssue p.s e.g e.n = true ∧ nextFrame p.s e = some f ∧
      (e.o.offs e.k.paired)[e.m.done]? = some off ∧ f.ready = true) :=
  ⟨⟨rfl, issues_of (by decide +kernel), by decide +kernel, by decide +kernel, by decide +kernel, by decide +kernel, by decide +kernel⟩,
    ⟨_, _, rfl, by decide +kernel, by decide +kernel, rfl⟩, _, _, _, rfl, by decide +kernel, rfl, rfl, by decide +kernel⟩

/-- An object with its manifest, methods and die 0's state in bench memory at 0x20000, the state of die d at 0x20000 + 0x10000 d; a request
waits at its home, or its first position stands in the manifest. -/
def callReq : HomeWait := { part := 0, obj := 3, g := 0, n := 0, core := 0, mark := 0, method := 0, tag := 9, who := 0, args := [] }
def objRecord (nmeth : Byte) : List Byte :=
  leBytes 6 1 ++ [nmeth, 0] ++ leBytes 4 64 ++ leBytes 4 16 ++ (List.range 4).flatMap (fun d => leBytes 8 (0x21000 + 0x10000 * d)) ++ leBytes 8 0x20000 ++ leBytes 8 0x22000
def replayed (nmeth : Byte) (entries : List Word) (waits : List HomeWait) : State :=
  let s := (addressed id).s
  { s with
    cur := .none
    mem := swrite (swrite (swrite s.mem 0x30018 ((List.range 3).flatMap fun d => leBytes 8 (0x1000000052F + 0x800000 * (d + 1))))
      (benchBase + 0x2000) (leBytes 8 0x10003)) (benchBase + 64) (manifestEntry callReq 1)
    dies := s.dies.mapIdx fun k d => { d with tripped := k != 0 }
    parts := s.parts.map fun p => { p with
      homeWaits := waits
      objs := [{ obj := 3, record := objRecord nmeth, next := 1, entries := entries, applied := [0, 0, 0, 0], unwritten := [] }] } }
def object (s : State) : Obj := (obj? s 0 3).getD default

/-- A call runs on die 0: of position 1, or of the group's RREAD, which wait until the die has applied the group's horizon. -/
def reading : Load := { id := 4, node := 0, ix := 1, writes := [], spans := [], iv := 0, rread := some (3, 0, [], 8), answered := none }
def calling (caller : Option (Nat × Nat)) : State :=
  let s := replayed 1 [1] []
  let g : Group := { landingStart 1 0 0 (object s) 0 1 [] false 0x10000 with nodes := [] }
  { s with
    groups := (s.groups.map fun g => { g with loads := [reading] }) ++ [g]
    calls := [{ g := 1, caller := caller, count := 0, result := 6, reason := 0, code := 0 }] }
def readWaiting : State := { calling none with groups := (replayed 1 [] []).groups.map fun g => { g with loads := [reading] }, calls := [] }
/-- The same once the method's result has returned from position 1. -/
def answeredRead : State :=
  { readWaiting with groups := readWaiting.groups.map fun g => { g with loads := [{ reading with answered := some 1 }] } }
/-- The first position's entry cannot be read: its word is bad. -/
def unreadable : State := { replayed 1 [1] [] with flaws := [{ line := benchBase + 64, err := .bad 2 0xFF 0, waits := none }] }

/-- Position 1's entry was not written. -/
def unwritten1 : State :=
  let s := replayed 1 [1] []
  { s with parts := s.parts.map fun p => { p with objs := p.objs.map fun o => { o with unwritten := [1] } } }
/-- The run of the group's RREAD ends with a result, or rejected for a reason. -/
def endedRead (reason : Nat) : State :=
  let s := calling (some (0, 4))
  { s with calls := s.calls.map fun c => { c with reason := reason } }

theorem witness_CallsAreReplayed :
    (let s := replayed 1 [] [callReq]
     let s1 := trim (meetObj s 0 3) 0 3
     let u := seeObject s1 0 (object s1)
     requestOf s 0 0 = some callReq ∧ recordHeld s 0 3 = false ∧ objectHeld s1 0 (object s1) = false ∧ sealHold u 0 = false ∧
      entryHeld u 0 (object s1) (object s1).next = false ∧ obj? s1 0 3 = some (object s1) ∧ releasedTo u 0 0 0 4 = true ∧
      (∀ g, u.group? 0 = some g → horizonReady u g 3 = true) ∧ hasRoom u 0 (object s1) = true ∧ homeServes u (object s1) 0 = true) ∧
    (∀ nmeth ∈ [(1 : Byte), 0], let s := replayed nmeth [1] []
     (s.die 0).running = true ∧ (s.die 0).tripped = false ∧ landingGroup s 0 0 = none ∧ obj? s 0 3 = some (object s) ∧
      (object s).applied.getD 0 0 + 1 ∈ (object s).entries ∧ readWaits s 0 0 (object s) = false ∧ homeServes s (object s) (48 * 0) = true ∧ objectHeld s 0 (object s) = false ∧
      (1 : Word) ∉ (object s).unwritten ∧ entryHeld s 0 (object s) 1 = false ∧
      (let s1 := seeVa s (object s).home 0 ((object s).entryVa 1) 64
       let m := field (readEntry s1 0 (object s) 1) 11 1
       methodHeld s 0 0 (object s) m = false ∧ ¬ (manifestOk s1 0 (object s) = true ∧ entryBad s1 0 (object s) 1 = true) ∧
        (methodStart (seeMethod s1 0 0 (object s) m) 0 0 (object s) m false).isSome = (nmeth == 1))) ∧
    (let s := unwritten1
     (s.die 0).running = true ∧ (s.die 0).tripped = false ∧ landingGroup s 0 0 = none ∧ obj? s 0 3 = some (object s) ∧
      (object s).applied.getD 0 0 + 1 ∈ (object s).entries ∧ readWaits s 0 0 (object s) = false ∧ homeServes s (object s) (48 * 0) = true ∧
      objectHeld s 0 (object s) = false ∧ (object s).applied.getD 0 0 + 1 ∈ (object s).unwritten) ∧
    (let s := unreadable
     let s1 := seeVa s (object s).home 0 ((object s).entryVa 1) 64
     manifestOk s1 0 (object s) = true ∧ entryBad s1 0 (object s) 1 = true ∧ entryHeld s 0 (object s) 1 = false ∧
      methodHeld s 0 0 (object s) (field (readEntry s1 0 (object s) 1) 11 1) = false) ∧
    (let s := calling none
     ∃ g c l, (s.die 0).running = true ∧ (s.die 0).tripped = false ∧ landingGroup s 0 0 = some g ∧ (s.calls.find? fun c => c.g == g.uid) = some c ∧
      g.landing = some l ∧ c.caller = none ∧ l.obj = 3 ∧ callEnded g c = true ∧ entryHeld s 0 (object s) l.pos = false) ∧
    (let s := readWaiting
     let s1 := meetObj s 0 3
     (s.calls.find? fun c => c.caller == some (0, 4)) = none ∧ s.group? 0 = some (firstGroup s) ∧
      ((firstGroup s).loads.find? fun x => x.id == 4).bind (·.rread) = some (3, 0, [], 8) ∧ obj? s1 0 3 = some (object s1) ∧
      s1.group? 0 = some (firstGroup s1) ∧ (s1.die 0).running = true ∧ (s1.die 0).tripped = false ∧ (firstGroup s1).die = 0 ∧
      landingGroup s1 0 0 = none ∧ seqReached ((object s1).applied.getD 0 0) (horizonOf (firstGroup s1) 3) = true ∧
      horizonReady s1 (firstGroup s1) 3 = true ∧ recordHeld s 0 3 = false ∧ ((firstGroup s).loads.find? fun x => x.id == 4).map (·.answered) = some none ∧
      objectHeld s1 0 (object s1) = false ∧ methodHeld s1 0 0 (object s1) 0 = false) ∧
    (let s := answeredRead
     (s.calls.find? fun c => c.caller == some (0, 4)) = none ∧ s.group? 0 = some (firstGroup s) ∧
      ((firstGroup s).loads.find? fun x => x.id == 4).bind (·.rread) = some (3, 0, [], 8) ∧
      ((firstGroup s).loads.find? fun x => x.id == 4).bind (·.answered) = some 1 ∧
      horizonReady s (firstGroup s) 3 = true) ∧
    (∀ reason ∈ [0, 2], let s := endedRead reason
     ∃ c lg l, c.reason = reason ∧ (s.calls.find? fun c => c.caller == some (0, 4)) = some c ∧ s.group? c.g = some lg ∧ callerGone s c = false ∧ callEnded lg c = true ∧
      s.group? 0 = some (firstGroup s) ∧ lg.landing = some l ∧
      ((firstGroup s).loads.find? fun x => x.id == 4).bind (·.rread) = some (3, 0, [], 8)) := by
  refine ⟨⟨by decide +kernel, by decide +kernel, by decide +kernel, by decide +kernel, by decide +kernel, by decide +kernel, by decide +kernel, ?_, by decide +kernel,
    by decide +kernel⟩, by decide +kernel, by decide +kernel, by decide +kernel,
    ⟨_, _, _, by decide +kernel, by decide +kernel, rfl, rfl, rfl, by decide +kernel, by decide +kernel, by decide +kernel⟩, by decide +kernel, by decide +kernel,
    ?_⟩
  · intro g h
    rw [show seeObject (trim (meetObj (replayed 1 [] [callReq]) 0 3) 0 3) 0 (object (trim (meetObj (replayed 1 [] [callReq]) 0 3) 0 3)) =
      replayed 1 [] [callReq] by decide +kernel] at h ⊢
    have e : (replayed 1 [] [callReq]).group? 0 = some (firstGroup (replayed 1 [] [callReq])) := by decide +kernel
    rw [e] at h
    cases h
    decide +kernel
  · simp only [List.forall_mem_cons]
    exact ⟨⟨_, _, _, rfl, rfl, rfl, by decide +kernel, by decide +kernel, rfl, rfl, by decide +kernel⟩,
      ⟨_, _, _, rfl, rfl, rfl, by decide +kernel, by decide +kernel, rfl, rfl, by decide +kernel⟩, by simp⟩

end Sys2Proof.Tests
end

