-- ==== Sys2Proof/Tests/WitnessFaults.lean ====
section
/-! SUPPORT. For every statement about faults and waits, a concrete state and operands that meet its hypotheses together. -/
open Sys2Proof Sys2Proof.Machine
namespace Sys2Proof.Tests
set_option Elab.async false

theorem handled_of {g : Group} {c : Ctx} (h : (decide (g.landing = none) && decide (c.hdr.kind ≠ 2) && decide (c.hdr.kind ≠ 3)) = true) :
    Handled g c := by
  simpa [Handled, and_assoc] using h

/-! ### Lanes whose values or addresses are not legal, and traces that hold too much -/

/-- Two lanes: lane 0 as in `addressed`, lane 1 with addresses that are not aligned. -/
def twoLanes : Place :=
  let p := addressed fun c => { c with active := 3 }
  let n := { p.n with mask := 3 }
  let g := ((p.g.wv 1 2 0x10101).wv 1 4 0x201).setNode n
  { p with g := g, n := n, s := p.s.setGroup g }

/-- A trace whose header allows nothing to be buffered and no register to be shadowed. -/
def tight : Place := addressed fun c => { c with hdr := { c.hdr with nstore := 0, natom := 0, npost := 0, nshadow := 0 } }

/-- IVMAKE of an empty pair of bounds: lane 0 of `plain` holds 0 and 1 there. -/
def ivBad : Place := placeWith id (fun g => g.wv 0 1 0x3F800000) id id

theorem witness_LaneInstructionsComplete_faults :
    (∃ d, laneSpecOf ivBad.s ivBad.g.nregs (.ivmake { addOp with d := 4 }) = some d ∧ Issues ivBad.s ivBad.g ivBad.n ivBad.c false d.used ∧ d.chk = 0 ∧
      (!d.uni && !(d.lanes ivBad.g ivBad.n ivBad.c).isEmpty && overShadow (d.engaged ivBad.g ivBad.n ivBad.c) d.dst) = false ∧
      Handled ivBad.g ivBad.c ∧ d.runs ivBad.g ivBad.n ivBad.c = false) ∧
    ∃ d, laneSpecOf tight.s tight.g.nregs (.iadd addOp) = some d ∧ Issues tight.s tight.g tight.n tight.c false d.used ∧ d.chk = 0 ∧
      (!d.uni && !(d.lanes tight.g tight.n tight.c).isEmpty && overShadow (d.engaged tight.g tight.n tight.c) d.dst) = true ∧
      d.noMethod = false :=
  ⟨⟨_, rfl, issues_of (by decide +kernel), by decide +kernel, by decide +kernel, handled_of (by decide +kernel), by decide +kernel⟩, _, rfl,
    issues_of (by decide +kernel), by decide +kernel⟩

/-- The code of a store in a lane. -/
def storeCodeAt (p : Place) (x : (MemOp → Instr) × (MemOp → MemForm)) (o : MemOp) (l : Nat) : Nat :=
  if memChk o (x.2 o) p.g.nregs true then storeCode (countCall p.s p.g) p.g (x.2 o) (memAddr p.g p.n o (x.2 o).scratch l) else 6
def storeGood (p : Place) (x : (MemOp → Instr) × (MemOp → MemForm)) (o : MemOp) : List Nat :=
  (memLanes p.g p.c o).filter fun l => storeCodeAt p x o l == 0

def StoreFaults (p : Place) (x : (MemOp → Instr) × (MemOp → MemForm)) (o : MemOp) : Prop :=
  Issues p.s p.g p.n p.c false (memUse o (x.2 o)) ∧ Handled p.g p.c ∧
  (∃ l ∈ memLanes p.g p.c o, storeCodeAt p x o l ≠ 0) ∧
  ∀ l ∈ (if o.u then (if storeGood p x o = [] then [] else lanesOf p.c.active) else storeGood p x o), storeEntries p.c l < p.c.hdr.nstore.toNat
def StoreFull (p : Place) (x : (MemOp → Instr) × (MemOp → MemForm)) (o : MemOp) : Prop :=
  Issues p.s p.g p.n p.c false (memUse o (x.2 o)) ∧
  ∃ l ∈ (if o.u then (if storeGood p x o = [] then [] else lanesOf p.c.active) else storeGood p x o), p.c.hdr.nstore.toNat ≤ storeEntries p.c l

theorem witness_StoresAreBuffered_faults :
    (∀ x ∈ storeForms.zip [memOp, { uniOp with b := 65 }, scratchOp, ivOp, { memOp with sub := 0, d := 511 }], StoreFaults twoLanes x.1 x.2) ∧
    (∀ x ∈ storeForms.zip [memOp, uniOp, scratchOp, ivOp, ivOp], StoreFull tight x.1 x.2) := by
  simp only [storeForms, List.zip_cons_cons, List.zip_nil_right, List.forall_mem_cons]
  refine ⟨⟨⟨issues_of (by decide +kernel), handled_of (by decide +kernel), by decide +kernel⟩,
    ⟨issues_of (by decide +kernel), handled_of (by decide +kernel), by decide +kernel⟩,
    ⟨issues_of (by decide +kernel), handled_of (by decide +kernel), by decide +kernel⟩,
    ⟨issues_of (by decide +kernel), handled_of (by decide +kernel), by decide +kernel⟩,
    ⟨issues_of (by decide +kernel), handled_of (by decide +kernel), by decide +kernel⟩, by simp⟩,
    ⟨issues_of (by decide +kernel), by decide +kernel⟩, ⟨issues_of (by decide +kernel), by decide +kernel⟩,
    ⟨issues_of (by decide +kernel), by decide +kernel⟩, ⟨issues_of (by decide +kernel), by decide +kernel⟩,
    ⟨issues_of (by decide +kernel), by decide +kernel⟩, by simp⟩

def gotCode : Got → Nat
  | .fault e => e
  | _ => 0
theorem got_or {x : Got} (h : (gotOk x || gotCode x != 0) = true) :
    x = if gotCode x = 0 then .ok (gotBytes x) (gotPa x) else .fault (gotCode x) := by
  cases x <;> simp_all [gotOk, gotCode, gotBytes, gotPa]

/-- A load of legal operands that is ready, each lane of which gets its data or its fault. -/
def LoadParts (p : Place) (x : (MemOp → Instr) × (MemOp → MemForm)) (o : MemOp) : Prop :=
  Issues p.s p.g p.n p.c false (loadUse o (x.2 o)) ∧ loadsReady o (x.2 o) p.s p.g p.n p.c = true ∧ memChk o (x.2 o) p.g.nregs true = true ∧
  ∀ l ∈ memLanes p.g p.c o, loadHere p x o l = if gotCode (loadHere p x o l) = 0 then
    .ok (gotBytes (loadHere p x o l)) (gotPa (loadHere p x o l)) else .fault (gotCode (loadHere p x o l))
def loadGood (p : Place) (x : (MemOp → Instr) × (MemOp → MemForm)) (o : MemOp) : List Nat :=
  (memLanes p.g p.c o).filter fun l => gotCode (loadHere p x o l) == 0
def loadDst (x : (MemOp → Instr) × (MemOp → MemForm)) (o : MemOp) : List Nat := (List.range (x.2 o).regs).map (o.d.toNat + ·)

theorem parts_of {p : Place} {x : (MemOp → Instr) × (MemOp → MemForm)} {o : MemOp}
    (h : (issuesB p false (loadUse o (x.2 o)) && loadsReady o (x.2 o) p.s p.g p.n p.c && memChk o (x.2 o) p.g.nregs true &&
      (memLanes p.g p.c o).all fun l => gotOk (loadHere p x o l) || gotCode (loadHere p x o l) != 0) = true) : LoadParts p x o := by
  rw [Bool.and_eq_true, Bool.and_eq_true, Bool.and_eq_true, List.all_eq_true] at h
  exact ⟨issues_of h.1.1.1, h.1.1.2, h.1.2, fun l hl => got_or (h.2 l hl)⟩

theorem witness_LoadsGoInFlight_faults :
    (∀ x ∈ loadForms.zip [memOp, { uniOp with b := 65 }, scratchOp, ivOp, ivOp], LoadParts twoLanes x.1 x.2) ∧
    Handled twoLanes.g twoLanes.c ∧
    (∀ x ∈ loadForms.zip [memOp, memOp, scratchOp, ivOp, ivOp], x.2.u = false ∧ loadGood twoLanes x.1 x.2 ≠ [] ∧
      overShadow twoLanes.c (loadDst x.1 x.2) = false ∧ overShadow tight.c (loadDst x.1 x.2) = true) ∧
    (∀ x ∈ loadForms.zip [memOp, memOp, scratchOp, ivOp, ivOp], LoadParts tight x.1 x.2 ∧ loadGood tight x.1 x.2 ≠ []) ∧
    loadGood twoLanes (loadForms.getD 1 (.ld, fun o => formOf false o.sub.toNat)) { uniOp with b := 65 } = [] ∧
    memChk { memOp with d := 511 } (formOf false memOp.sub.toNat) twoLanes.g.nregs true = false ∧
    (Issues fencing.s fencing.g fencing.n fencing.c false (loadUse memOp (formOf false memOp.sub.toNat)) ∧
      loadsReady memOp (formOf false memOp.sub.toNat) fencing.s fencing.g fencing.n fencing.c = false) := by
  simp only [loadForms, List.zip_cons_cons, List.zip_nil_right, List.forall_mem_cons]
  refine ⟨⟨parts_of (by decide +kernel), parts_of (by decide +kernel), parts_of (by decide +kernel), parts_of (by decide +kernel),
      parts_of (by decide +kernel), by simp⟩, handled_of (by decide +kernel), ⟨by decide +kernel, by decide +kernel, by decide +kernel,
      by decide +kernel, by decide +kernel, by simp⟩,
    ⟨⟨parts_of (by decide +kernel), by decide +kernel⟩, ⟨parts_of (by decide +kernel), by decide +kernel⟩,
      ⟨parts_of (by decide +kernel), by decide +kernel⟩, ⟨parts_of (by decide +kernel), by decide +kernel⟩,
      ⟨parts_of (by decide +kernel), by decide +kernel⟩, by simp⟩, by decide +kernel, by decide +kernel, issues_of (by decide +kernel),
    by decide +kernel⟩

/-- The code of an atomic in a lane. -/
def atomCodeAt (p : Place) (x : (AtomOp → Instr) × (AtomOp → AtomForm)) (o : AtomOp) (l : Nat) : Nat :=
  if atomChk (countCall p.s p.g) o (x.2 o) p.g.nregs then
    atomCode (countCall p.s p.g) p.g (x.2 o) (atomAddr p.g p.n o (x.2 o) l)
      (readSrc p.g p.n l (addrKd ((x.2 o).kind == .atoms)) (atomSrcA o) 0)
  else 6
def atomGood (p : Place) (x : (AtomOp → Instr) × (AtomOp → AtomForm)) (o : AtomOp) : List Nat :=
  (selected p.g o.ps.toNat o.pm.toNat p.c.active).filter fun l => atomCodeAt p x o l == 0
/-- The trace cannot hold it. -/
def atomFull (p : Place) (x : (AtomOp → Instr) × (AtomOp → AtomForm)) (o : AtomOp) : Bool :=
  ((atomGood p x o).any fun l => decide (p.c.hdr.natom.toNat ≤ atomEntries p.c l)) ||
    (!(atomGood p x o).isEmpty &&
      overShadow p.c (if (x.2 o).returns then (if wideTy o.ty.toNat then [o.d.toNat, o.d.toNat + 1] else [o.d.toNat]) else []))
def AtomFaults (p : Place) (full : Bool) (x : (AtomOp → Instr) × (AtomOp → AtomForm)) (o : AtomOp) : Prop :=
  Issues p.s p.g p.n p.c false (atomUse o (x.2 o)) ∧ Handled p.g p.c ∧ atomFull p x o = full ∧
  (full = false → ∃ l ∈ selected p.g o.ps.toNat o.pm.toNat p.c.active, atomCodeAt p x o l ≠ 0)

theorem atom_faults {p : Place} {full : Bool} {x : (AtomOp → Instr) × (AtomOp → AtomForm)} {o : AtomOp}
    (h1 : issuesB p false (atomUse o (x.2 o)) = true)
    (h2 : (decide (p.g.landing = none) && decide (p.c.hdr.kind ≠ 2) && decide (p.c.hdr.kind ≠ 3)) = true) (h3 : atomFull p x o = full)
    (h4 : full = false → ∃ l ∈ selected p.g o.ps.toNat o.pm.toNat p.c.active, atomCodeAt p x o l ≠ 0) : AtomFaults p full x o :=
  ⟨issues_of h1, handled_of h2, h3, h4⟩

theorem witness_AtomicsAreDeferred_faults :
    (∀ x ∈ atomForms.zip
      [addAtom, { addAtom with a := 4 }, { addAtom with d := 0 }, { addAtom with a := 2, ak := true, d := 511 }, { addAtom with d := 0, ty := 0, sub := 2 }],
      AtomFaults twoLanes false x.1 x.2) ∧
    (∀ x ∈ atomForms.zip
      [addAtom, { addAtom with a := 4 }, { addAtom with d := 0 }, { addAtom with a := 2, ak := true }, { addAtom with d := 0, ty := 0, sub := 2 }],
      AtomFaults tight true x.1 x.2) := by
  simp only [atomForms, List.zip_cons_cons, List.zip_nil_right, List.forall_mem_cons]
  refine ⟨⟨?_, ?_, ?_, ?_, ?_, by simp⟩, ?_, ?_, ?_, ?_, ?_, by simp⟩
  all_goals exact atom_faults (by decide +kernel) (by decide +kernel) (by decide +kernel) (by decide +kernel)

theorem witness_AsyncLoadsArePosted_faults :
    (Issues twoLanes.s twoLanes.g twoLanes.n twoLanes.c false (memUse memOp ldaM) ∧ Handled twoLanes.g twoLanes.c ∧
      memChk memOp ldaM twoLanes.g.nregs true = true ∧ postCount twoLanes.c < twoLanes.c.hdr.npost.toNat ∧
      ∃ pa code : Nat → Nat, (∃ l ∈ memLanes twoLanes.g twoLanes.c memOp, code l ≠ 0) ∧ ∀ l ∈ memLanes twoLanes.g twoLanes.c memOp,
        ldaCheck twoLanes.s twoLanes.g (memAddr twoLanes.g twoLanes.n memOp false l) (twoLanes.g.rv l memOp.d.toNat).toNat 4 =
          if code l = 0 then .ok (pa l) else .error (code l)) ∧
    (Issues tight.s tight.g tight.n tight.c false (memUse memOp ldaM) ∧ Handled tight.g tight.c ∧ memChk memOp ldaM tight.g.nregs true = true ∧
      tight.c.hdr.npost.toNat ≤ postCount tight.c) ∧
    memChk { memOp with d := 511 } ldaM twoLanes.g.nregs true = false :=
  ⟨⟨issues_of (by decide +kernel), handled_of (by decide +kernel), by decide +kernel, by decide +kernel, fun _ => 0x40100,
      fun l => if l = 1 then 5 else 0, by decide +kernel, fun l hl => by
        have h : ∀ l ∈ memLanes twoLanes.g twoLanes.c memOp, l = 0 ∨ l = 1 := by decide +kernel
        rcases h l hl with rfl | rfl
        · exact ok_of (by decide +kernel)
        · exact error_of (by decide +kernel)⟩,
    ⟨issues_of (by decide +kernel), handled_of (by decide +kernel), by decide +kernel, by decide +kernel⟩, by decide +kernel⟩

/-! ### Rings, terminators and flow modifiers -/

/-- The group holds eight attachments, none of them to the bench ring or to the producers of the ring at s4. -/
def attached : Place :=
  let p := addressed id
  let g := { p.g with rings := (List.range 8).map fun k => (true, true, 64 * k) }
  { p with g := g, s := p.s.setGroup g }

theorem witness_OrderingRingAndRecordEffectsAreBuffered_faults :
    let x := ringSpot attached.g attached.n false 4
    (Issues attached.s attached.g attached.n attached.c false { Use.none with sr := ringUse false 4 } ∧ ringRegOk false 4 = true ∧
      headerReady attached.s attached.g x = true ∧
      (∃ h pa, ringCheck (seeSpot (countCall attached.s attached.g) attached.g x 64) attached.g attached.c x = .ok h pa) ∧
      (attachments attached.g).contains (false, false, x.addr) = false ∧ 8 ≤ (attachments attached.g).length) ∧
    (Issues attached.s attached.g attached.n attached.c false { Use.none with sr := ringUse true 5 } ∧ ringRegOk true 5 = false) :=
  ⟨⟨issues_of (by decide +kernel), by decide +kernel, by decide +kernel, ⟨_, _, rfl⟩, by decide +kernel⟩, issues_of (by decide +kernel),
    by decide +kernel⟩

/-- The last instruction of a trace that has met a flow modifier; one whose base lies far from its code window. -/
def flowing (f : Flow) : Place := addressed fun c => { c with ix := c.lastIx, flow := some f }
def resuming : Place := addressed fun c => { c with ix := c.lastIx, resume := true }
def farTerm : Place :=
  let g := { atTerm.g with base := 2 ^ 26 }
  { atTerm with g := g, s := atTerm.s.setGroup g }

theorem witness_TerminatorsEndTheTrace_faults :
    (∀ p ∈ [flowing .rett, flowing .yield, resuming, farTerm], Issues p.s p.g p.n p.c true (termUse (.endTrace (ctlOp 0 15 0))) ∧
      Issues p.s p.g p.n p.c true (termUse (.endx { LOp.blank with u := true, a := 2 })) ∧ p.g.landing = none ∧
      inClusterLaunch p.s p.g = true) ∧
    (∃ t u, plainTerm (flowing .rett).s (flowing .rett).g (flowing .rett).c .exit = some (t, u) ∧ termFits (flowing .rett).c t = false) ∧
    (∃ t u, plainTerm (flowing .rett).s (flowing .rett).g (flowing .rett).c (.join (ctlOp 0 0 0)) = some (t, u) ∧
      termFits (flowing .rett).c t = false) ∧
    (∃ t u, plainTerm (flowing .yield).s (flowing .yield).g (flowing .yield).c (.bar (ctlOp 0 15 0)) = some (t, u) ∧
      termFits (flowing .yield).c t = false) ∧
    (∃ t u, plainTerm (flowing .yield).s (flowing .yield).g (flowing .yield).c (.cbar (ctlOp 0 3 0)) = some (t, u) ∧
      termFits (flowing .yield).c t = false) ∧
    (∃ t u, plainTerm (flowing .yield).s (flowing .yield).g (flowing .yield).c (.endx { LOp.blank with u := true, a := 2 }) = some (t, u) ∧
      termFits (flowing .yield).c t = false) ∧
    (∃ t u, plainTerm resuming.s resuming.g resuming.c (.endTrace (ctlOp 0 0 0)) = some (t, u) ∧ termFits resuming.c t = false) ∧
    ∀ i ∈ [Instr.endTrace (ctlOp 0 0 0), .join (ctlOp 0 0 0), .bar (ctlOp 0 15 0), .cbar (ctlOp 0 3 0)],
      ∃ t u, plainTerm farTerm.s farTerm.g farTerm.c i = some (t, u) ∧ termFits farTerm.c t = true ∧ termReaches farTerm.g farTerm.c u = false := by
  refine ⟨?_, ⟨_, _, rfl, by decide +kernel⟩, ⟨_, _, rfl, by decide +kernel⟩, ⟨_, _, rfl, by decide +kernel⟩, ⟨_, _, rfl, by decide +kernel⟩,
    ⟨_, _, rfl, by decide +kernel⟩, ⟨_, _, rfl, by decide +kernel⟩, ?_⟩
  · simp only [List.forall_mem_cons]
    refine ⟨⟨?_, ?_, ?_⟩, ⟨?_, ?_, ?_⟩, ⟨?_, ?_, ?_⟩, ⟨?_, ?_, ?_⟩, by simp⟩
    all_goals first | exact issues_of (by decide +kernel) | decide +kernel
  · simp only [List.forall_mem_cons]
    exact ⟨⟨_, _, rfl, by decide +kernel⟩, ⟨_, _, rfl, by decide +kernel⟩, ⟨_, _, rfl, by decide +kernel⟩, ⟨_, _, rfl, by decide +kernel⟩, by simp⟩

/-- A trace that holds a flow modifier already. -/
def modified : Place := placeWith id id id fun c => { c with flow := some .kill }

theorem witness_FlowModifiersTakeTheirPlace_faults :
    (Issues modified.s modified.g modified.n modified.c false Use.none ∧ modified.c.flow ≠ none) ∧
    (let p := placeWith id (fun g => { g with rdepth := sset g.rdepth 0 8 }) id id
     Issues p.s p.g p.n p.c false Use.none ∧ p.c.flow = none ∧ Handled p.g p.c ∧ ∃ l ∈ lanesOf p.c.active, 8 ≤ (sget p.g.rdepth l).toNat) ∧
    (Issues plain.s plain.g plain.n plain.c false Use.none ∧ Handled plain.g plain.c ∧ (∃ l ∈ lanesOf plain.c.active, sget plain.g.rdepth l = 0) ∧
      ¬ (plain.c.hdr.kind = 2 ∧ inSaving plain.s plain.g = true) ∧
      ¬ (plain.c.hdr.kind = 2 ∧ plain.n.restored = true ∧ plain.g.loadsplit = true)) ∧
    (let m := addressed fun c => { c with hdr := { c.hdr with kind := 1 } }
     Issues m.s m.g m.n m.c false Use.none ∧ m.c.hdr.kind = 1) :=
  ⟨⟨issues_of (by decide +kernel), by decide +kernel⟩,
    ⟨issues_of (by decide +kernel), by decide +kernel, handled_of (by decide +kernel), by decide +kernel⟩,
    ⟨issues_of (by decide +kernel), handled_of (by decide +kernel), by decide +kernel⟩, issues_of (by decide +kernel), by decide +kernel⟩

/-! ### Tickets, spawns, single lanes, trees -/

/-- The group's grant is unconfirmed: another trace holds it, or this one. -/
def ticketed (mine : Bool) : Place :=
  placeWith id (fun g => { g with grant := { st := 2, n := 5, c := 2, x := 0, y := 0, z := 0 } }) id fun c => { c with ticket := mine }

theorem witness_TicketsAreGrantedAndRingStatusIsRead_waits :
    (∀ mine, (ticketed mine).g.landing = none ∧ (ticketed mine).g.grant.st = 2 ∧ (ticketed mine).c.ticket = mine ∧
      Issues (ticketed mine).s (ticketed mine).g (ticketed mine).n (ticketed mine).c false
        { Use.none with sr := (List.range 6).map (20 + ·) } ∧
      ∃ l, (ticketed mine).s.launch? (ticketed mine).g.part (ticketed mine).g.serial = some l) ∧
    Issues plain.s plain.g plain.n plain.c false { Use.none with sr := (List.range 6).map (55 + ·) } ∧ ¬ (55 % 2 = 0 ∧ 55 ≤ 54) := by
  refine ⟨fun mine => ?_, issues_of (by decide +kernel), by decide⟩
  cases mine
  · exact ⟨by decide +kernel, by decide +kernel, by decide +kernel, issues_of (by decide +kernel), _, rfl⟩
  · exact ⟨by decide +kernel, by decide +kernel, by decide +kernel, issues_of (by decide +kernel), _, rfl⟩

/-- A trace that has spawned. -/
def spawned : Place := placeWith id id id fun c => { c with effs := [{ ix := 1, op := .spawn 0 0, elems := [] }] }

theorem witness_SpawnsReserveSlots_faults :
    (spawned.g.landing = none ∧ spawnCount spawned.c ≠ 0 ∧ Issues spawned.s spawned.g spawned.n spawned.c false
      { Use.none with vr := (List.range 6).map (spawnOp.a.toNat + ·), pr := [spawnOp.d.toNat, spawnOp.ps.toNat] }) ∧
    ∀ o ∈ [{ spawnOp with d := 16 }, { spawnOp with a := 251 }], Handled plain.g plain.c ∧ spawnCount plain.c = 0 ∧
      ¬ (o.d.toNat < 16 ∧ o.a.toNat + 6 ≤ plain.g.nregs) ∧ Issues plain.s plain.g plain.n plain.c false
        { Use.none with vr := (List.range 6).map (o.a.toNat + ·), pr := [o.d.toNat, o.ps.toNat] } := by
  refine ⟨⟨by decide +kernel, by decide +kernel, issues_of (by decide +kernel)⟩, ?_⟩
  simp only [List.forall_mem_cons]
  exact ⟨⟨handled_of (by decide +kernel), by decide +kernel, by decide +kernel, issues_of (by decide +kernel)⟩,
    ⟨handled_of (by decide +kernel), by decide +kernel, by decide +kernel, issues_of (by decide +kernel)⟩, by simp⟩

/-- What WRLANE uses. -/
def wrlaneUse (o : LOp) : Use :=
  { sr := (if o.a.toNat < 64 then wideDst (LOp.b64 o) o.a.toNat else []) ++ scalarUse o.b.toNat
    vr := wideDst (LOp.b64 o) o.d.toNat
    pr := []
    pdg := false
    extra := 0 }
/-- WRLANE's operands but its destination are legal. -/
def wrlaneOk (o : LOp) : Bool :=
  o.ak && o.bk && decide (o.a.toNat < 64) && laneIndexOk (LOp.b64 o) o.b.toNat && (!LOp.b64 o || o.a.toNat % 2 == 0)

theorem witness_WrlaneWritesOneLane_faults :
    (let o := { laneOp 0 false with b := 2 }
     let p := placeWith id (fun g => { g with s := sset g.s 2 96 }) id id
     Issues p.s p.g p.n p.c false (wrlaneUse o) ∧ wrlaneOk o = true ∧ 95 < (readScalar p.g p.n o.b.toNat).toNat) ∧
    (let o := { laneOp 0 true with a := 21 }
     Issues plain.s plain.g plain.n plain.c false (wrlaneUse o) ∧ wrlaneOk o = false) ∧
    (let o := { laneOp 0 false with d := 511 }
     Issues plain.s plain.g plain.n plain.c false (wrlaneUse o) ∧ wrlaneOk o = true ∧ (readScalar plain.g plain.n o.b.toNat).toNat = 0 ∧
       plain.c.active.getLsbD 0 = true ∧ dstOk false plain.g.nregs false [0] o.d.toNat = false) ∧
    (let o := laneOp 0 false
     Issues tight.s tight.g tight.n tight.c false (wrlaneUse o) ∧ wrlaneOk o = true ∧ (readScalar tight.g tight.n o.b.toNat).toNat = 0 ∧
       tight.c.active.getLsbD 0 = true ∧ dstOk false tight.g.nregs false [0] o.d.toNat = true ∧ overShadow tight.c (wideDst false o.d.toNat) = true) :=
  ⟨⟨issues_of (by decide +kernel), by decide +kernel⟩, ⟨issues_of (by decide +kernel), by decide +kernel⟩,
    ⟨issues_of (by decide +kernel), by decide +kernel⟩, issues_of (by decide +kernel), by decide +kernel⟩

/-- A group whose store a FENCE stands behind. -/
def fencedTree : Place :=
  let p := addressed id
  { p with s := { p.s with pipe := fencing.s.pipe } }

theorem witness_TreeStepsFollowTheTree_waits :
    (Issues plain.s plain.g plain.n plain.c false { treeUse with pr := [1, 2] } ∧ selected plain.g 2 0 plain.c.active = [] ∧
      2 + 3 ≤ plain.g.nregs ∧ srcOk plain.g.nregs (.int 3) [0] treeOp.srcA = true) ∧
    (Issues fencedTree.s fencedTree.g fencedTree.n fencedTree.c false treeUse ∧
      ∃ l ∈ selected fencedTree.g 15 0 fencedTree.c.active, treeReady fencedTree.s fencedTree.g fencedTree.c
        ((selected fencedTree.g 15 0 fencedTree.c.active).any fun l =>
          treeSo fencedTree.s fencedTree.g fencedTree.c l (treeNode fencedTree l) (treeBase fencedTree l)) l
        (treeNode fencedTree l) (treeBase fencedTree l) = false) :=
  ⟨⟨issues_of (by decide +kernel), by decide +kernel⟩, issues_of (by decide +kernel), by decide +kernel⟩

/-! ### Illegal operands, host reads, stores that commit -/

/-- Lane 0 is active, lane 1 a helper. -/
def helped : Place := placeWith id id id fun c => { c with helpers := 2 }

theorem witness_FaultsTakeTheHandler_helpers :
    (∃ d, laneSpecOf helped.s helped.g.nregs (.iadd { addOp with a := 511 }) = some d ∧ Issues helped.s helped.g helped.n helped.c false d.used ∧
      Handled helped.g helped.c ∧ d.chk ≠ 0 ∧
      ((d.lanes helped.g helped.n helped.c).filter fun l => (d.engaged helped.g helped.n helped.c).helpers.getLsbD l) ≠ [] ∧
      overShadow (d.engaged helped.g helped.n helped.c) d.dst = false) ∧
    ∃ d, laneSpecOf plain.s plain.g.nregs (.iadd { addOp with d := 511 }) = some d ∧ Issues plain.s plain.g plain.n plain.c false d.used ∧
      Handled plain.g plain.c ∧ d.chk ≠ 0 ∧ ((d.lanes plain.g plain.n plain.c).filter fun l => (d.engaged plain.g plain.n plain.c).helpers.getLsbD l) = [] :=
  ⟨⟨_, rfl, issues_of (by decide +kernel), handled_of (by decide +kernel), by decide +kernel⟩, _, rfl, issues_of (by decide +kernel),
    handled_of (by decide +kernel), by decide +kernel⟩

theorem witness_HostRegistersAreWritten_reads :
    ((11 < 12 ∧ (11 : Nat) = 11) ∨ (11 = mgmt ∧ (11 : Nat) = 15)) ∧ ((12 < 12 ∧ (15 : Nat) = 12) ∨ (12 = mgmt ∧ (15 : Nat) = 15)) ∧
    (0x68 ≤ 0xFFF ∧ 0xFFF < 4096) ∧ (0xC000 ≤ 0xEFFF ∧ 0xEFFF < 0xF000) ∧
    ({ State.reset with agenda := [.hostRead 0 0x10] }).agenda = .hostRead 0 0x10 :: [] := by decide +kernel

/-- A trace at its terminator with a store of lane 0 and one of the fragment. -/
def committing2 : Place := placeWith id id id fun c => { c with
  term := some (.fin 0x10040)
  effs := [{ ix := 1, op := .store .global 4 false 0 false, elems := [Elem.mk0 0 0x10100 [1, 2, 3, 4]] },
           { ix := 2, op := .store .scratch 4 false 0 true, elems := [Elem.mk0 uniLane 0x200 [1, 2, 3, 4]] }] }

theorem witness_TracesCommitAndFuse_stores :
    (let p := committing2
     p.s.group? 0 = some p.g ∧ p.g.node? 0 = some p.n ∧ p.n.ctx = some p.c ∧ p.c.term = some (.fin 0x10040) ∧ canIssue p.s p.g p.n = true ∧
      p.c.fails = [] ∧ p.c.entered = none ∧ p.c.arrival = none ∧ p.c.active = p.n.mask ∧ p.n.mask ≠ 0 ∧ p.c.helpers = 0 ∧
      p.c.flow = none ∧ p.c.hdr.mode = false ∧ p.g.pend = false ∧ p.g.landing = none ∧ ∀ l ∈ p.g.loads, l.node ≠ 0) ∧
    (∀ e ∈ committing2.c.effs, (∃ sp w rel sc uni, e.op = .store sp w rel sc uni) ∧ e.elems ≠ [] ∧
      ∀ x ∈ e.elems, x.lane = uniLane ∨ committing2.c.active.getLsbD x.lane = true) := by
  refine ⟨by decide +kernel, ?_⟩
  have h : committing2.c.effs = [{ ix := 1, op := .store .global 4 false 0 false, elems := [Elem.mk0 0 0x10100 [1, 2, 3, 4]] },
    { ix := 2, op := .store .scratch 4 false 0 true, elems := [Elem.mk0 uniLane 0x200 [1, 2, 3, 4]] }] := rfl
  rw [h]
  simp only [List.forall_mem_cons]
  exact ⟨⟨⟨_, _, _, _, _, rfl⟩, by decide +kernel⟩, ⟨⟨_, _, _, _, _, rfl⟩, by decide +kernel⟩, by simp⟩

/-! ### Walks behind a parked atomic, registers that do not exist, positions under each walk -/

/-- `addressed` while an atomic of another group is parked on the line of the page table. -/
def tableHeld : Place :=
  let p := addressed id
  { p with s := { p.s with pipe := [{ (default : Item) with
      group := 99
      eff := { ix := 1, op := .store .global 1 false 0 false, elems := [{ Elem.mk0 0 0 [7] with pa := 0x30000, st := .parked }] } }] } }
/-- `addressed` with a copy of the line of lane 0's address in its core's L1. -/
def copied : Place :=
  let p := addressed id
  { p with s := { p.s with l1 := [(p.g.core, 0x40100, List.replicate 64 0)] } }

theorem witness_AsyncLoadsArePosted_walks :
    (let p := addressed id
     walksFree memOp p.s p.g p.n p.c = true ∧ ∀ l ∈ memLanes p.g p.c memOp,
      (ldaCheck (seeWalks memOp p.s p.g p.n p.c) p.g (memAddr p.g p.n memOp false l) (p.g.rv l 8).toNat 4).toOption = some 0x40100) ∧
    walksFree memOp twoLanes.s twoLanes.g twoLanes.n twoLanes.c = true ∧ walksFree memOp tight.s tight.g tight.n tight.c = true ∧
    (let p := tableHeld
     Issues p.s p.g p.n p.c false (memUse memOp ldaM) ∧ Handled p.g p.c ∧ memChk memOp ldaM p.g.nregs true = true ∧
      walksFree memOp p.s p.g p.n p.c = false) :=
  ⟨by decide +kernel, by decide +kernel, by decide +kernel, issues_of (by decide +kernel), handled_of (by decide +kernel), by decide +kernel⟩

theorem witness_HintsOnlyPass_lines : let m : MemForm := { scratch := false, bytes := 1, regs := 0, signed := false, iv := 0 }
    (∀ p ∈ [copied, tableHeld], Issues p.s p.g p.n p.c false (memUse ivOp m) ∧ ivOp.sub = 0 ∧ memChk ivOp m p.g.nregs false = true ∧
      walksFree ivOp p.s p.g p.n p.c = (p.s.pipe == [])) ∧
    (∃ l ∈ memLanes copied.g copied.c ivOp, ∃ pa,
      pageOf (seeWalks ivOp (countCall copied.s copied.g) copied.g copied.n copied.c) copied.g (memAddr copied.g copied.n ivOp false l) = some pa ∧
      ∃ e ∈ copied.s.l1, e.1 = copied.g.core ∧ e.2.1 = pa / 64 * 64) ∧
    Issues copied.s copied.g copied.n copied.c false Use.none ∧ ({ ivOp with sub := 1 }).sub = 1 := by
  refine ⟨?_, ?_, issues_of (by decide +kernel), by decide⟩
  · simp only [List.forall_mem_cons]
    exact ⟨⟨issues_of (by decide +kernel), by decide +kernel⟩, ⟨issues_of (by decide +kernel), by decide +kernel⟩, by simp⟩
  · exact ⟨0, by decide +kernel, 0x40100, by decide +kernel, by decide +kernel⟩

theorem witness_PostsAreCaptured_walks : ∀ bench ∈ [false, true], let a := if bench then 6 else 4
    (let p := addressed id
     let x := ringSpot p.g p.n bench a
     spotWalkHeld p.s p.g x = false ∧ spotCheck (seeSpotWalk p.s p.g x) p.g x 64 64 (if bench then .update else .read) = 0) ∧
    (let p := tableHeld
     spotWalkHeld p.s p.g (ringSpot p.g p.n bench a) = bench ∧ p.g.landing = none ∧ postCount p.c < p.c.hdr.npost.toNat ∧
      Issues p.s p.g p.n p.c false { Use.none with sr := 20 :: ringUse bench a ++ (List.range 12).map (30 + ·) } ∧
      Issues p.s p.g p.n p.c false { Use.none with sr := 20 :: ringUse bench a } ∧ ringRegOk bench a = true) := by
  simp only [List.forall_mem_cons]
  exact ⟨⟨by decide +kernel, by decide +kernel, by decide +kernel, by decide +kernel, issues_of (by decide +kernel), issues_of (by decide +kernel),
      by decide +kernel⟩,
    ⟨by decide +kernel, by decide +kernel, by decide +kernel, by decide +kernel, issues_of (by decide +kernel), issues_of (by decide +kernel),
      by decide +kernel⟩, by simp⟩

/-- A launch whose space is 5 by 7, with chunks of 2, under walk w with panels of two rows, that has given out some positions. -/
def gridLaunch (w : Byte) (next : Nat) : Launch :=
  { State.probeLaunch with
    record := putAt (putAt (putAt (List.replicate 64 0) 36 [5]) 40 [7, 0, 1, 0]) 44 [2, 0, 0x10 + w]
    next := next }
def gridded (w : Byte) (next : Nat) : Place := placeWith (fun s => { s with launches := [gridLaunch w next] }) id id id

theorem witness_TicketsAreGrantedAndRingStatusIsRead_grid :
    (∀ w ∈ [(0 : Byte), 1], ∀ next ∈ [3, 35], let p := gridded w next
      p.g.landing = none ∧ p.g.grant.st = 0 ∧ Issues p.s p.g p.n p.c false { Use.none with sr := (List.range 6).map (54 + ·) } ∧
      p.s.launch? p.g.part p.g.serial = some (gridLaunch w next) ∧ (gridLaunch w next).fld 46 1 % 16 = w.toNat ∧
      (min ((gridLaunch w next).fld 44 2) ((gridLaunch w next).space - (gridLaunch w next).next) = if next = 3 then 2 else 0)) ∧
    (let p := placeWith id (fun g => { g with grant := { st := 2, n := 5, c := 2, x := 0, y := 0, z := 0 } }) id fun c => { c with ticket := true }
     p.g.grant.st = 2 ∧ p.c.ticket = true ∧ Issues p.s p.g p.n p.c false { Use.none with sr := (List.range 6).map (54 + ·) }) := by
  refine ⟨?_, by decide +kernel, by decide +kernel, issues_of (by decide +kernel)⟩
  simp only [List.forall_mem_cons]
  exact ⟨⟨⟨by decide +kernel, by decide +kernel, issues_of (by decide +kernel), by decide +kernel⟩,
      ⟨by decide +kernel, by decide +kernel, issues_of (by decide +kernel), by decide +kernel⟩, by simp⟩,
    ⟨⟨by decide +kernel, by decide +kernel, issues_of (by decide +kernel), by decide +kernel⟩,
      ⟨by decide +kernel, by decide +kernel, issues_of (by decide +kernel), by decide +kernel⟩, by simp⟩, by simp⟩

/-- R84: position 3 of that space, row by row and by panels of two rows. -/
theorem test_ticket_walks : (let t := takeGrant (gridLaunch 0 3); (t.n, t.c, t.x, t.y, t.z) = (3, 2, 3, 0, 0)) ∧
    (let t := takeGrant (gridLaunch 1 3); (t.n, t.c, t.x, t.y, t.z) = (3, 2, 1, 1, 0)) := by decide +kernel

theorem witness_SpecialRegisterReadsAndWrites_none : plain.g.landing = none ∧ (∀ reg ∈ [(0x15 : BitVec 9), 0x1FF], (sysOp reg 3).a ≠ 9) ∧
    Issues plain.s plain.g plain.n plain.c false Use.none :=
  ⟨by decide +kernel, by decide, issues_of (by decide +kernel)⟩

/-- R15: 256-byte lines of a die's HBM range go round its three stacks. -/
theorem test_stacks : stackOf 0x100 = 1 ∧ stackOf 0x300 = 0 ∧ stackOf (hbmDie + 0x500) = 2 := by decide +kernel

end Sys2Proof.Tests
end

section
/-! PROOFS. Faults of instructions on lanes: which lanes leave for the handler and what becomes of the others (R111, R113, R177, R293). -/
namespace Sys2Proof.Machine

section Faults
variable {s : State} {g : Group} {n : Node} {c : Ctx}

/-! ### Every instruction on lanes is `laneOp` -/

/-- An element-wise compute instruction runs its own operand kinds and function. -/
theorem exec_of_compOf {i : Instr} {k : Comp} {o : LOp} {w : Nat} (h : compOf i = some (k, o, w)) :
    exec i s = compOp k o w s := by
  unfold compOf at h
  split at h <;> cases h <;> rfl

/-- An instruction on lanes is the shared operation on what `laneSpecOf` says it is. -/
theorem exec_of_laneSpecOf {i : Instr} {d : LaneSpec} (h : laneSpecOf s (curNregs s) i = some d) : exec i s = laneOp d s := by
  unfold laneSpecOf at h
  split at h
  · next hk =>
    cases h
    exact exec_of_compOf hk
  · split at h <;> cases h <;> rfl

/-- The registers that exist are those of the group that issues (R113). -/
theorem Issues.curNregs_eq {isTerm : Bool} {u : Use} (h : Issues s g n c isTerm u) : curNregs s = g.nregs := by
  simp [curNregs, h.frame]

/-- An instruction on lanes that issues has its effect, outside methods or where a method may execute it. -/
theorem laneOp_issues {d : LaneSpec} (h : Issues s g n c false d.used) (hm : d.noMethod = false ∨ g.landing = none) :
    laneOp d s = .next (laneEffect (countCall s g) g n c d) := by
  have hno : (d.noMethod && g.landing.isSome) = false := by
    rcases hm with hm | hm <;> simp [hm]
  simp [laneOp, laneStep, h.frame, precheck_issues h, hno]

/-! ### Which lanes take a fault, and what the trace is then -/

@[simp] theorem Ctx.addFail_ix (c : Ctx) (x : Fail) : (c.addFail x).ix = c.ix := by
  unfold Ctx.addFail; split <;> rfl

/-- A fault whose code page-fault service does not replace and that names no record sends its lane to the handler (R177). -/
theorem takeFault_handler (c : Ctx) (assisted : Bool) (lane index : Nat) {code : Nat} (hcause : faultCause code = 0)
    (hseq : faultSeq code = none) :
    c.takeFault assisted lane code index =
      c.addFail { lane := lane, dest := .handler, s63 := s63Of 5 3 (faultCode code) index, seq := none } := by
  simp [Ctx.takeFault, hcause, hseq]

/-- Lanes that all take one fault of that kind leave for the handler with one s63, whose INDEX is that of the instruction (R117). -/
theorem faulted_handler (ls : List Nat) {code : Nat} (hcause : faultCause code = 0) (hseq : faultSeq code = none) :
    faulted s g c (ls.map fun l => (l, code)) =
      ls.foldl (fun c' l => c'.addFail { lane := l, dest := .handler, s63 := s63Of 5 3 (faultCode code) c.ix, seq := none }) c := by
  unfold faulted
  induction ls generalizing c with
  | nil => rfl
  | cons l ls ih => simp only [List.map_cons, List.foldl_cons, takeFault_handler _ _ _ _ hcause hseq, ih, Ctx.addFail_ix]

/-- Faults in lanes that are not active change nothing (R121). -/
theorem faulted_active (fs : List (Nat × Nat)) : faulted s g c (fs.filter fun f => c.active.getLsbD f.1) = faulted s g c fs :=
  takeFaults_active c.active (pageAssisted s g) fs c fun _ h => h

/-- In a trace of kind 2 or 3 a fault of an active lane that page-fault service does not replace is fatal to the cluster (R178). -/
theorem faultLanes_fatal (hl : g.landing = none) (hk : c.hdr.kind = 2 ∨ c.hdr.kind = 3) {fs : List (Nat × Nat)}
    (hne : (fs.filter fun f => c.active.getLsbD f.1) ≠ []) (hcause : ∀ f ∈ fs, faultCause f.2 = 0) (next : Ctx → Ctx) :
    faultLanes s g n c fs next = addFatal (putCtx s g n c) g 1 n.code := by
  unfold faultLanes
  cases hfs : fs.filter fun f => c.active.getLsbD f.1 with
  | nil => exact absurd hfs hne
  | cons f rest =>
    have hf : faultCause f.2 = 0 := hcause f (List.mem_filter.mp (hfs ▸ List.mem_cons_self)).1
    have hserved : ¬ ∀ x ∈ f :: rest, faultCause x.2 ≠ 0 := fun h => h f List.mem_cons_self hf
    dsimp only
    rw [if_neg (by simp [hl]), if_pos ⟨hk, fun h => hserved h.2⟩]

/-! ### TRAP and BRK (R293) -/

/-- No register is written, so no shadow is taken. -/
@[simp] theorem Ctx.shadow_nil (c : Ctx) : c.shadow [] = c := by simp [Ctx.shadow, newShadows]

@[simp] theorem overShadow_nil (c : Ctx) : overShadow c [] = false := rfl

/-- Lanes that fault without a result: the fault is taken in each that is no helper, and nothing is written (R111). -/
theorem foldl_applyOut_fault (fm : Word) (st : Group × Node × Ctx) {code : Nat} (hcode : code ≠ 0) (ls : List Nat)
    (fs : List (Nat × Nat)) :
    (ls.map fun l => (l, LaneOut.fault code [])).foldl (applyOut fm) (st, fs) =
      (st, fs ++ (ls.filter fun l => !st.2.2.helpers.getLsbD l).map fun l => (l, code)) := by
  induction ls generalizing fs with
  | nil => simp
  | cons l ls ih =>
    have htrap : (LaneOut.fault code []).trap fm = code := by simp [LaneOut.trap, LaneOut.fault, hcode]
    have hw : (LaneOut.fault code []).w = [] := rfl
    cases hl : st.2.2.helpers.getLsbD l <;> simp [applyOut, htrap, hw, hcode, hl, ih]

/-- TRAP and BRK fault in each lane that they select among the active ones and the helpers, helpers apart. -/
theorem laneEffect_trapSpec {code : Nat} (hcode : code ≠ 0) (o : LOp) (hclean : g.flaws = []) :
    laneEffect s g n c (trapSpec code o) =
      faultLanes s g n c (((selected g o.ps.toNat o.pm.toNat (c.active ||| c.helpers)).filter fun l => !c.helpers.getLsbD l).map
        fun l => (l, code)) (·.advance 2) := by
  simp [laneEffect, trapSpec, hclean, foldl_applyOut_fault g.fmode (g, n, c) hcode]

/-- The faults of TRAP and BRK that count are those of the selected lanes that are active and no helpers. -/
theorem filter_active_trapFaults (ls : List Nat) (code : Nat) :
    (((ls.filter fun l => !c.helpers.getLsbD l).map fun l => (l, code)).filter fun f => c.active.getLsbD f.1) =
      (ls.filter fun l => c.active.getLsbD l && !c.helpers.getLsbD l).map fun l => (l, code) := by
  simp [List.filter_map, List.filter_filter, Function.comp_def]

/-- TRAP and BRK where their faults go to the handler. -/
theorem trapSpec_handled {code : Nat} (o : LOp) (hcode : code ≠ 0) (hcause : faultCause code = 0) (hseq : faultSeq code = none)
    (hi : Issues s g n c false (trapSpec code o).used) (hh : Handled g c) :
    laneOp (trapSpec code o) s = .next (stand s g g n
      ((((selected g o.ps.toNat o.pm.toNat (c.active ||| c.helpers)).filter fun l => c.active.getLsbD l && !c.helpers.getLsbD l).foldl
        (fun c' l => c'.addFail { lane := l, dest := .handler, s63 := s63Of 5 3 (faultCode code) c.ix, seq := none }) c).advance
          2).settle) := by
  rw [laneOp_issues hi (.inl rfl), laneEffect_trapSpec hcode o hi.clean, faultLanes_handled hh, ← faulted_active,
    filter_active_trapFaults, faulted_handler _ hcause hseq]
  rfl

/-- TRAP and BRK in a trace of kind 2 or 3. -/
theorem trapSpec_fatal {code : Nat} (o : LOp) (hcode : code ≠ 0) (hcause : faultCause code = 0)
    (hi : Issues s g n c false (trapSpec code o).used) (hl : g.landing = none) (hk : c.hdr.kind = 2 ∨ c.hdr.kind = 3)
    (hne : ((selected g o.ps.toNat o.pm.toNat (c.active ||| c.helpers)).filter fun l =>
      c.active.getLsbD l && !c.helpers.getLsbD l) ≠ []) :
    laneOp (trapSpec code o) s = .next (addFatal (stand s g g n c) g 1 n.code) := by
  rw [laneOp_issues hi (.inl rfl), laneEffect_trapSpec hcode o hi.clean, faultLanes_fatal hl hk]
  · rfl
  · rw [filter_active_trapFaults]
    exact fun h => hne (List.map_eq_nil_iff.mp h)
  · intro f hf
    obtain ⟨l, -, rfl⟩ := List.mem_map.mp hf
    exact hcause

/-! ### Illegal operands (R113) -/

/-- Engaging helper lanes leaves the trace's header as it is. -/
theorem LaneSpec.engaged_hdr (d : LaneSpec) (g : Group) (n : Node) (c : Ctx) : (d.engaged g n c).hdr = c.hdr := by
  unfold LaneSpec.engaged Ctx.engage
  by_cases hquad : d.quad = true
  · rw [if_pos hquad]
    dsimp only
    split <;> rfl
  · rw [if_neg hquad]

/-- Updates that each keep a group's landing keep it together. -/
theorem foldl_landing (f : Group → Nat → Group) (hf : ∀ g r, (f g r).landing = g.landing) (rs : List Nat) (g : Group) :
    (rs.foldl f g).landing = g.landing := by
  induction rs generalizing g with
  | nil => rfl
  | cons r rs ih => rw [List.foldl_cons, ih, hf]

/-- Zero in a helper lane's destinations leaves the group what it is, a method's or not. -/
@[simp] theorem zeroLane_landing (dst pdst : List Nat) (g : Group) (lane : Nat) :
    (zeroLane dst pdst g lane).landing = g.landing := by
  unfold zeroLane
  rw [foldl_landing _ fun _ _ => Group.wp_landing .., foldl_landing _ fun _ _ => Group.wv_landing ..]

/-- Whether the handler serves a trace's faults depends on the group's landing and the trace's header alone. -/
theorem Handled.congr {g' : Group} {c' : Ctx} (h : Handled g c) (hl : g'.landing = g.landing) (hhdr : c'.hdr = c.hdr) :
    Handled g' c' := by
  unfold Handled at *
  rwa [hl, hhdr]

/-- An operand fault whose helper lanes' zeros fit the trace's shadows (R111, R113, R119), in a trace that the handler serves. -/
theorem operandFault_handled (h : Handled g c) (dst pdst help hit : List Nat) (code : Nat) (next : Ctx → Ctx)
    (hfit : help = [] ∨ overShadow c dst = false) :
    operandFault s g n c dst pdst help hit code next =
      putCtx s (help.foldl (zeroLane dst pdst) g) n
        (next (faulted s (help.foldl (zeroLane dst pdst) g) (if help = [] then c else c.shadow dst)
          (hit.map fun l => (l, code)))).settle := by
  have hhdr : (if help = [] then c else c.shadow dst).hdr = c.hdr := by split <;> rfl
  have hmany : (!help.isEmpty && overShadow c dst) = false := by
    rcases hfit with hfit | hfit <;> simp [hfit]
  rw [← faultLanes_handled (h.congr (foldl_landing _ (zeroLane_landing dst pdst) help g) hhdr)]
  simp [operandFault, hmany]

/-- The effect of an instruction with illegal operands is its operand fault, in the lanes that it runs in. -/
theorem laneEffect_illegal {d : LaneSpec} (hchk : d.chk ≠ 0) :
    laneEffect s g n c d = operandFault s g n (d.engaged g n c) d.dst d.pdst
      ((if d.uni then [] else d.lanes g n c).filter fun l => (d.engaged g n c).helpers.getLsbD l)
      (if d.uni then lanesOf (d.engaged g n c).active else if d.uni then [] else d.lanes g n c) d.chk (·.advance d.words) := by
  cases huni : d.uni <;> simp [laneEffect, LaneSpec.lanes, LaneSpec.engaged, hchk, huni]

end Faults

/-- Settles O35: `laneEffect` gives TRAP and BRK one fault for each selected lane and an illegal operand its operand fault; where the
faults go is `faultLanes_handled` or `faultLanes_fatal`. -/
theorem faultsTakeTheHandler : Obligations.FaultsTakeTheHandler := by
  unfold Obligations.FaultsTakeTheHandler
  constructor
  · intro code o s g n c i hcase hi hl
    have hexec : exec i s = laneOp (trapSpec code o) s := by
      rcases hcase with ⟨rfl, rfl⟩ | ⟨rfl, rfl⟩ <;> rfl
    have hfault : code ≠ 0 ∧ faultCause code = 0 ∧ faultSeq code = none ∧ faultCode code = code := by
      rcases hcase with ⟨-, rfl⟩ | ⟨-, rfl⟩ <;> decide
    obtain ⟨hcode, hcause, hseq, hself⟩ := hfault
    rw [hexec]
    refine ⟨fun h2 h3 => ?_, fun hk hne => trapSpec_fatal o hcode hcause hi hl hk hne⟩
    have h := trapSpec_handled o hcode hcause hseq hi ⟨hl, h2, h3⟩
    rwa [hself] at h
  · intro i s g n c d hd hi hh hchk c1 lanes help hfit g1
    have h1 : Handled g c1 := hh.congr rfl (d.engaged_hdr g n c)
    rw [← hi.curNregs_eq] at hd
    rw [exec_of_laneSpecOf hd, laneOp_issues hi (.inr hh.1), laneEffect_illegal hchk,
      operandFault_handled h1 _ _ _ _ _ _ hfit, countCall_core hh.1, stand, countCall_core hh.1]

end Sys2Proof.Machine
end

section
/-! PROOFS. Floating-point results: what an IEEE image decodes to, the image of a value that a format holds, and with it FMIN, FMAX and
exact rounding (R205 to R209, R213, R325 to R327). -/
namespace Sys2Proof.Machine

/-! ### The fields of an image, and its value (R205) -/

/-- The exponent field of an image. -/
def Fmt.expField (f : Fmt) (x : Nat) : Nat := bits x (f.ebits + f.mbits - 1) f.mbits
/-- The sign bit of an image. -/
def Fmt.signField (f : Fmt) (x : Nat) : Bool := bit x (f.ebits + f.mbits)
/-- The exponent of the last place of the subnormal values, the least that the format has. -/
def Fmt.qmin (f : Fmt) : Int := 1 - (f.bias : Int) - f.mbits

/-- A format with infinities and an exponent field of two bits or more: FP32, FP16 and BF16. -/
structure Fmt.Ieee (f : Fmt) : Prop where
  ieee : f.ieee = true
  one_lt_ebits : 1 < f.ebits

theorem ieee_of_mem {f : Fmt} (h : f ∈ [fp32, fp16, bf16]) : f.Ieee := by
  simp only [List.mem_cons, List.not_mem_nil, or_false] at h
  obtain rfl | rfl | rfl := h <;> exact ⟨rfl, by decide⟩

theorem signField_eq (f : Fmt) (x : Nat) : f.signField x = decide (x / f.signBit % 2 = 1) := by
  rw [Fmt.signField, bit, Nat.testBit_eq_decide_div_mod_eq, Fmt.signBit]

section Images
variable {f : Fmt} (hf : f.Ieee)
include hf

theorem expField_eq (x : Nat) : f.expField x = x / 2 ^ f.mbits % 2 ^ f.ebits := by
  have he := hf.one_lt_ebits
  rw [Fmt.expField, bits, Nat.shiftRight_eq_div_pow, show f.ebits + f.mbits - 1 + 1 - f.mbits = f.ebits by omega]

/-- The largest exponent field, that of the infinities and NaNs, leaves normal values below it. -/
theorem one_lt_maxExp : 1 < 2 ^ f.ebits - 1 := by
  have h : 2 ^ 2 ≤ 2 ^ f.ebits := Nat.pow_le_pow_right Nat.zero_lt_two hf.one_lt_ebits
  omega

theorem expField_le (x : Nat) : f.expField x ≤ 2 ^ f.ebits - 1 := by
  rw [expField_eq hf]
  exact Nat.le_sub_one_of_lt (Nat.mod_lt _ (Nat.two_pow_pos _))

/-- An image is its sign on its exponent and fraction fields. -/
theorem image_eq_fields (x : Nat) :
    x % (2 * f.signBit) = f.sign (f.signField x) (f.expField x * 2 ^ f.mbits + x % 2 ^ f.mbits) := by
  have hlow : x % f.signBit = f.expField x * 2 ^ f.mbits + x % 2 ^ f.mbits := by
    rw [Fmt.signBit, Nat.add_comm, Nat.pow_add, Nat.mod_mul, expField_eq hf, Nat.mul_comm, Nat.add_comm]
  rw [Nat.mul_comm, Nat.mod_mul, ← hlow, signField_eq, Fmt.sign]
  rcases Nat.mod_two_eq_zero_or_one (x / f.signBit) with h | h <;> simp [h]

/-- The four kinds of an image, by its exponent field: infinity, NaN, zero or subnormal, normal. -/
theorem fdec_cases (x : Nat) :
    (f.expField x = 2 ^ f.ebits - 1 ∧ x % 2 ^ f.mbits = 0 ∧ fdec f x = .inf (f.signField x)) ∨
    (∃ s, fdec f x = .nan s) ∨
    (f.expField x = 0 ∧ fdec f x = .fin (f.signField x) (x % 2 ^ f.mbits) f.qmin) ∨
    (0 < f.expField x ∧ f.expField x < 2 ^ f.ebits - 1 ∧
      fdec f x = .fin (f.signField x) (2 ^ f.mbits + x % 2 ^ f.mbits) (f.expField x - f.bias - f.mbits)) := by
  have hle := expField_le hf x
  have hmax := one_lt_maxExp hf
  rw [fdec, show bits x (f.ebits + f.mbits - 1) f.mbits = f.expField x from rfl]
  by_cases hinf : f.expField x = 2 ^ f.ebits - 1
  · by_cases hfrac : x % 2 ^ f.mbits = 0 <;> simp [hf.ieee, hinf, hfrac, Fmt.signField]
  · by_cases hzero : f.expField x = 0
    · simp [hzero, Nat.ne_of_lt (Nat.zero_lt_of_lt hmax), Fmt.signField, Fmt.qmin]
    · have hlt : f.expField x < 2 ^ f.ebits - 1 := by omega
      simp [hf.ieee, hinf, hzero, hlt, Nat.pos_of_ne_zero hzero, Fmt.signField]

end Images

/-! ### The values that a format holds, and their images -/

/-- The image of a value: a finite one counts its last places from the least exponent on, on the fraction with its leading bit. -/
def Fmt.image (f : Fmt) : FVal → Nat
  | .nan _ => f.nanImg
  | .inf n => f.sign n f.infImg
  | .fin n m e => f.sign n ((e - f.qmin).toNat * 2 ^ f.mbits + m)

/-- A format holds a value: a finite one has at most one bit more than the fraction, has that bit unless its exponent is the least,
and is no larger than the largest finite image. -/
def Fmt.Holds (f : Fmt) : FVal → Prop
  | .fin _ m e => f.qmin ≤ e ∧ m < 2 ^ (f.mbits + 1) ∧ (f.qmin < e → 2 ^ f.mbits ≤ m) ∧
      (e - f.qmin).toNat * 2 ^ f.mbits + m ≤ f.maxImg
  | _ => True

/-- A normal value's leading bit is the 1 that its exponent field counts beyond the least exponent. -/
theorem normal_fields {f : Fmt} {k : Nat} (hk : 0 < k) (r : Nat) :
    (k - f.bias - f.mbits - f.qmin : Int).toNat * 2 ^ f.mbits + (2 ^ f.mbits + r) = k * 2 ^ f.mbits + r := by
  have hexp : (k - f.bias - f.mbits - f.qmin : Int).toNat + 1 = k := by
    simp only [Fmt.qmin]
    omega
  rw [← Nat.add_assoc, ← Nat.succ_mul, Nat.succ_eq_add_one, hexp]

section Images
variable {f : Fmt} (hf : f.Ieee)
include hf

theorem maxImg_eq : f.maxImg = (2 ^ f.ebits - 1) * 2 ^ f.mbits - 1 := by
  simp [Fmt.maxImg, Fmt.infImg, hf.ieee]

/-- Fields below the largest exponent field make an image of at most the largest finite one. -/
theorem fields_le_maxImg {e m : Nat} (he : e < 2 ^ f.ebits - 1) (hm : m < 2 ^ f.mbits) : e * 2 ^ f.mbits + m ≤ f.maxImg := by
  have h : (e + 1) * 2 ^ f.mbits ≤ (2 ^ f.ebits - 1) * 2 ^ f.mbits := Nat.mul_le_mul_right _ he
  rw [maxImg_eq hf]
  rw [Nat.succ_mul] at h
  omega

/-- What an image decodes to, the format holds. -/
theorem holds_fdec (x : Nat) : f.Holds (fdec f x) := by
  have hfrac : x % 2 ^ f.mbits < 2 ^ f.mbits := Nat.mod_lt _ (Nat.two_pow_pos _)
  have hdouble : 2 ^ (f.mbits + 1) = 2 * 2 ^ f.mbits := Nat.pow_succ'
  obtain ⟨-, -, h⟩ | ⟨s, h⟩ | ⟨-, h⟩ | ⟨hpos, hlt, h⟩ := fdec_cases hf x <;> rw [h]
  · trivial
  · trivial
  · refine ⟨Int.le_refl _, by omega, fun hlt => (Int.lt_irrefl _ hlt).elim, ?_⟩
    simpa using fields_le_maxImg hf (Nat.zero_lt_of_lt (one_lt_maxExp hf)) hfrac
  · refine ⟨by simp only [Fmt.qmin]; omega, by omega, fun _ => Nat.le_add_right _ _, ?_⟩
    rw [normal_fields hpos]
    exact fields_le_maxImg hf hlt hfrac

/-- Decoding loses nothing of an image that is no NaN. -/
theorem image_fdec {x : Nat} (hx : (fdec f x).isNan = false) : f.image (fdec f x) = x % (2 * f.signBit) := by
  rw [image_eq_fields hf]
  obtain ⟨hmax, hfrac, h⟩ | ⟨s, h⟩ | ⟨hzero, h⟩ | ⟨hpos, hlt, h⟩ := fdec_cases hf x
  · simp [h, Fmt.image, Fmt.infImg, hmax, hfrac]
  · simp [h, FVal.isNan] at hx
  · simp [h, Fmt.image, hzero]
  · rw [h, Fmt.image, normal_fields hpos]

end Images

/-! ### Rounding a value that the format holds (R207) -/

/-- Nothing is lost of a value whose last place is at or above the place rounded at. -/
theorem roundAt_exact (mode : Nat) (x : Exact) {q : Int} (hq : q ≤ x.e) (ht : x.tail = false) :
    roundAt mode x q = (x.m * 2 ^ (x.e - q).toNat, false) := by
  simp [roundAt, hq, ht]

theorem bitLen_le {m k : Nat} (h : m < 2 ^ k) : bitLen m ≤ k := by
  rw [bitLen]
  split
  · exact Nat.zero_le _
  · next hm => exact (Nat.log2_lt hm).2 h

theorem lt_bitLen {m k : Nat} (h : 2 ^ k ≤ m) : k < bitLen m := by
  have hm : m ≠ 0 := Nat.ne_of_gt (Nat.lt_of_lt_of_le (Nat.two_pow_pos k) h)
  rw [bitLen, if_neg hm]
  exact Nat.lt_succ_of_le ((Nat.le_log2 hm).2 h)

section Rounding
variable {f : Fmt} {n : Bool} {m : Nat} {e : Int} (h : f.Holds (.fin n m e))
include h

/-- The place that a held value is rounded at is its own last place. -/
theorem roundPlace_of_holds :
    max (e + bitLen m - 1 - f.mbits) f.qmin = e := by
  obtain ⟨hmin, hlt, hnorm, -⟩ := h
  have hle := bitLen_le hlt
  rcases Int.lt_or_eq_of_le hmin with hgt | heq
  · have := lt_bitLen (hnorm hgt)
    omega
  · omega

/-- The last place of a held value is not beyond that of the largest finite values. -/
theorem place_le_of_holds (hf : f.Ieee) : e ≤ f.qmin + (f.maxImg >>> f.mbits : Nat) - 1 := by
  obtain ⟨hmin, -, hnorm, hmax⟩ := h
  have hplaces : (e - f.qmin).toNat + 1 ≤ f.maxImg >>> f.mbits := by
    rw [Nat.shiftRight_eq_div_pow, Nat.le_div_iff_mul_le (Nat.two_pow_pos _)]
    rcases Int.lt_or_eq_of_le hmin with hgt | rfl
    · rw [Nat.succ_mul]
      exact Nat.le_trans (Nat.add_le_add_left (hnorm hgt) _) hmax
    · have hone := fields_le_maxImg hf (one_lt_maxExp hf) (Nat.two_pow_pos f.mbits)
      rwa [Int.sub_self, Int.toNat_zero, Nat.zero_add]
  omega

/-- Rounding a value that the format holds gives its image and raises nothing. -/
theorem fround_of_holds (hf : f.Ieee) (hm : m ≠ 0) (mode : Nat) (sat : Bool) :
    fround f mode sat { neg := n, m := m, e := e, tail := false } = (f.image (.fin n m e), 0) := by
  have hplace := roundPlace_of_holds h
  have hexact := roundAt_exact mode { neg := n, m := m, e := e, tail := false } (Int.le_refl e) rfl
  have hexp := place_le_of_holds h hf
  obtain ⟨-, -, -, hfits⟩ := h
  simp only [Int.sub_self, Int.toNat_zero, Nat.pow_zero, Nat.mul_one] at hexact
  simp only [Fmt.qmin] at hplace hexp hfits
  rw [fround, if_neg fun hzero => hm hzero.1]
  simp only [hplace, hexact, decide_eq_false (Int.not_lt.2 hexp), decide_eq_false (Nat.not_lt.2 hfits), Bool.or_false,
    Bool.false_eq_true, if_false, Fmt.image, Fmt.qmin]

end Rounding

/-! ### Values in order (R325, R326) -/

theorem eq_nan_of_isNan {x : FVal} (h : x.isNan = true) : ∃ s, x = .nan s := by
  cases x with
  | nan s => exact ⟨s, rfl⟩
  | inf n => cases h
  | fin n m e => cases h

theorem eq_fin_of_isZero {x : FVal} (h : x.isZero = true) : ∃ n e, x = .fin n 0 e := by
  cases x with
  | nan s => cases h
  | inf n => cases h
  | fin n m e => exact ⟨n, e, by rw [show m = 0 by simpa [FVal.isZero] using h]⟩

theorem isNan_of_isZero {x : FVal} (h : x.isZero = true) : x.isNan = false := by
  obtain ⟨n, e, rfl⟩ := eq_fin_of_isZero h
  rfl

/-- A magnitude with its sign. -/
def signed (n : Bool) (k : Nat) : Int := if n then -k else k

theorem fltV_fin (n n' : Bool) (m m' : Nat) (e e' : Int) :
    fltV (.fin n m e) (.fin n' m' e') =
      decide (signed n (m * 2 ^ (e - min e e').toNat) < signed n' (m' * 2 ^ (e' - min e e').toNat)) := rfl

theorem signed_inj {n n' : Bool} {k k' : Nat} (h : signed n k = signed n' k') : k = k' ∧ (k ≠ 0 → n = n') := by
  cases n <;> cases n' <;> simp [signed] at h ⊢ <;> omega

theorem fltV_asymm {x y : FVal} (h : fltV x y = true) : fltV y x = false := by
  cases x with
  | nan s => cases y <;> simp_all [fltV]
  | inf n => cases y <;> simp_all [fltV]
  | fin n m e =>
    cases y with
    | nan s => rfl
    | inf n' => simpa [fltV] using h
    | fin n' m' e' =>
      rw [fltV_fin, decide_eq_true_eq] at h
      rw [fltV_fin, Int.min_comm, decide_eq_false_iff_not]
      exact Int.lt_asymm h

theorem fltV_zeros {x y : FVal} (hx : x.isZero = true) (hy : y.isZero = true) : fltV x y = false := by
  obtain ⟨n, e, rfl⟩ := eq_fin_of_isZero hx
  obtain ⟨n', e', rfl⟩ := eq_fin_of_isZero hy
  cases n <;> cases n' <;> simp [fltV_fin, signed]

section Order
variable {f : Fmt}

/-- Of two held finite magnitudes that are equal, neither has the higher last place: with it comes a leading bit that the other cannot
reach. -/
theorem place_not_lt {n n' : Bool} {m m' : Nat} {e e' : Int} (h : f.Holds (.fin n m e)) (h' : f.Holds (.fin n' m' e'))
    (heq : m * 2 ^ (e - min e e').toNat = m' * 2 ^ (e' - min e e').toNat) : ¬ e < e' := by
  intro hlt
  obtain ⟨hmin, hm, -, -⟩ := h
  obtain ⟨-, -, hnorm, -⟩ := h'
  have hlead := hnorm (Int.lt_of_le_of_lt hmin hlt)
  have htwo : 2 ^ 1 ≤ 2 ^ (e' - e).toNat := Nat.pow_le_pow_right Nat.zero_lt_two (by omega)
  have hle : 2 ^ f.mbits * 2 ^ 1 ≤ m' * 2 ^ (e' - e).toNat := Nat.mul_le_mul hlead htwo
  rw [Int.min_eq_left (Int.le_of_lt hlt), Int.sub_self, Int.toNat_zero, Nat.pow_zero, Nat.mul_one] at heq
  rw [Nat.pow_succ, heq] at hm
  omega

/-- Two held values of which neither is less than the other are the same value, or are both zero. -/
theorem eq_of_not_fltV {x y : FVal} (hx : f.Holds x) (hy : f.Holds y) (hnx : x.isNan = false) (hny : y.isNan = false)
    (hz : (x.isZero && y.isZero) = false) (hxy : fltV x y = false) (hyx : fltV y x = false) : x = y := by
  cases x with
  | nan s => cases hnx
  | inf n =>
    cases y with
    | nan s => cases hny
    | inf n' => cases n <;> cases n' <;> simp_all [fltV]
    | fin n' m' e' => simp_all [fltV]
  | fin n m e =>
    cases y with
    | nan s => cases hny
    | inf n' => simp_all [fltV]
    | fin n' m' e' =>
      rw [fltV_fin, decide_eq_false_iff_not, Int.not_lt] at hxy
      rw [fltV_fin, Int.min_comm, decide_eq_false_iff_not, Int.not_lt] at hyx
      obtain ⟨hmag, hsign⟩ := signed_inj (Int.le_antisymm hyx hxy)
      have hle := place_not_lt hx hy hmag
      have hge := place_not_lt hy hx (by rw [Int.min_comm]; exact hmag.symm)
      obtain rfl : e = e' := by omega
      rw [Int.min_self, Int.sub_self, Int.toNat_zero, Nat.pow_zero, Nat.mul_one, Nat.mul_one] at hmag
      rw [Int.min_self, Int.sub_self, Int.toNat_zero, Nat.pow_zero, Nat.mul_one] at hsign
      obtain rfl := hmag
      rw [hsign fun hzero => by simp [FVal.isZero, hzero] at hz]

end Order

/-! ### The results of R206, R213 and R325 to R327 -/

theorem faddV_nan (f : Fmt) (mode : Nat) (sat : Bool) {x y : FVal} (h : x.isNan = true ∨ y.isNan = true) :
    faddV f mode sat x y = fnan f [x, y] := by
  rcases h with h | h <;> obtain ⟨s, rfl⟩ := eq_nan_of_isNan h
  · rfl
  · cases x <;> rfl

theorem fmulV_nan (f : Fmt) (mode : Nat) (sat : Bool) {x y : FVal} (h : x.isNan = true ∨ y.isNan = true) :
    fmulV f mode sat x y = fnan f [x, y] := by
  rcases h with h | h <;> obtain ⟨s, rfl⟩ := eq_nan_of_isNan h
  · rfl
  · cases x <;> rfl

theorem fnan_pair (f : Fmt) (x y : FVal) : fnan f [x, y] = (f.nanImg, if x.isSnan || y.isSnan then flNV else 0) := by
  simp [fnan]

/-- With a NaN factor FMA's product is no number, whether 0 × ∞ stands beside it or not. -/
theorem fmaV_nan (f : Fmt) (mode : Nat) (sat : Bool) {x y : FVal} (z : FVal) (h : x.isNan = true ∨ y.isNan = true) :
    (fmaV f mode sat x y z).1 = f.nanImg := by
  have hnan : (x.isNan || y.isNan || z.isNan) = true := by
    rcases h with h | h <;> simp [h]
  simp only [fmaV, hnan, if_true]
  split <;> rfl

theorem fmulz_zero (f : Fmt) (mode : Nat) (sat : Bool) {a b : Nat} (h : (fdec f a).isZero = true ∨ (fdec f b).isZero = true) :
    fmulz f mode sat a b = (if f.signField a = f.signField b then 0 else f.signBit, 0) := by
  have hz : ((fdec f a).isZero || (fdec f b).isZero) = true := by simpa using h
  simp only [fmulz, hz, if_true, Fmt.sign, Fmt.signField]
  by_cases hs : bit a (f.ebits + f.mbits) = bit b (f.ebits + f.mbits) <;> simp [hs]

/-- FMIN and FMAX raise NV for a signalling operand and nothing else. -/
theorem fminmax_flags (f : Fmt) (isMax : Bool) (a b : Nat) :
    (fminmax f isMax a b).2 = if (fdec f a).isSnan || (fdec f b).isSnan then flNV else 0 := by
  simp only [fminmax]
  split
  · rfl
  split
  · rfl
  split <;> rfl

theorem two_mul_signBit (f : Fmt) : 2 ^ (f.ebits + f.mbits + 1) = 2 * f.signBit := Nat.pow_succ'

theorem fminmax_nans {f : Fmt} (isMax : Bool) {a b : Nat} (ha : (fdec f a).isNan = true) (hb : (fdec f b).isNan = true) :
    (fminmax f isMax a b).1 = f.nanImg := by
  simp [fminmax, ha, hb]

theorem fminmax_nan_left {f : Fmt} (isMax : Bool) {a b : Nat} (ha : (fdec f a).isNan = true) (hb : (fdec f b).isNan = false) :
    (fminmax f isMax a b).1 = b % (2 * f.signBit) := by
  simp [fminmax, ha, hb, two_mul_signBit]

theorem fminmax_nan_right {f : Fmt} (isMax : Bool) {a b : Nat} (ha : (fdec f a).isNan = false) (hb : (fdec f b).isNan = true) :
    (fminmax f isMax a b).1 = a % (2 * f.signBit) := by
  simp [fminmax, ha, hb, two_mul_signBit]

/-- FMIN takes the lesser operand in the order of R325 and FMAX the other. -/
theorem fminmax_numbers {f : Fmt} (isMax : Bool) {a b : Nat} (ha : (fdec f a).isNan = false) (hb : (fdec f b).isNan = false) :
    (fminmax f isMax a b).1 = (if fminLt (fdec f a) (fdec f b) != isMax then a else b) % (2 * f.signBit) := by
  simp only [fminmax, ha, hb, two_mul_signBit, Bool.and_false, Bool.false_eq_true, if_false]
  split <;> rfl

theorem mod_of_isZero {f : Fmt} (hf : f.Ieee) {a : Nat} (ha : (fdec f a).isZero = true) :
    a % (2 * f.signBit) = if (fdec f a).neg then f.signBit else 0 := by
  have hh := holds_fdec hf a
  obtain ⟨n, e, hd⟩ := eq_fin_of_isZero ha
  rw [← image_fdec hf (isNan_of_isZero ha), hd]
  rw [hd] at hh
  obtain ⟨hmin, -, hnorm, -⟩ := hh
  have he : e = f.qmin := by
    rcases Int.lt_or_eq_of_le hmin with hlt | heq
    · exact absurd (hnorm hlt) (Nat.not_le_of_gt (Nat.two_pow_pos f.mbits))
    · exact heq.symm
  cases n <;> simp [Fmt.image, Fmt.sign, FVal.neg, he]

/-- FMIN of two zeros is −0 if one of them is, FMAX +0 if one of them is. -/
theorem fminmax_zeros {f : Fmt} (hf : f.Ieee) {a b : Nat} (ha : (fdec f a).isZero = true) (hb : (fdec f b).isZero = true) :
    (fminmax f false a b).1 = (if a % (2 * f.signBit) = f.signBit then f.signBit else b % (2 * f.signBit)) ∧
    (fminmax f true a b).1 = (if a % (2 * f.signBit) = 0 then 0 else b % (2 * f.signBit)) := by
  have hpos : f.signBit ≠ 0 := Nat.ne_of_gt (Nat.two_pow_pos _)
  rw [fminmax_numbers _ (isNan_of_isZero ha) (isNan_of_isZero hb), fminmax_numbers _ (isNan_of_isZero ha) (isNan_of_isZero hb)]
  simp only [fminLt, fltV_zeros ha hb, ha, hb, apply_ite (· % (2 * f.signBit)), mod_of_isZero hf ha, mod_of_isZero hf hb]
  cases (fdec f a).neg <;> cases (fdec f b).neg <;> simp [hpos, hpos.symm]

theorem fcmp_le {f : Fmt} {a b : Nat} (ha : (fdec f a).isNan = false) (hb : (fdec f b).isNan = false) :
    (fcmp f 3 a b).1 = !fltV (fdec f b) (fdec f a) := by
  simp [fcmp, fleV, ha, hb]

/-- Of two numbers that are not both zero, FMIN and FMAX take by FCMP's order; equal ones have one image. -/
theorem fminmax_ordered {f : Fmt} (hf : f.Ieee) {a b : Nat} (ha : (fdec f a).isNan = false) (hb : (fdec f b).isNan = false)
    (hz : ((fdec f a).isZero && (fdec f b).isZero) = false) :
    (fminmax f false a b).1 = (if (fcmp f 3 a b).1 then a else b) % (2 * f.signBit) ∧
    (fminmax f true a b).1 = (if (fcmp f 3 a b).1 then b else a) % (2 * f.signBit) := by
  have hlt : fminLt (fdec f a) (fdec f b) = fltV (fdec f a) (fdec f b) := by simp [fminLt, hz]
  rw [fminmax_numbers _ ha hb, fminmax_numbers _ ha hb, fcmp_le ha hb, hlt]
  cases hab : fltV (fdec f a) (fdec f b) with
  | true => simp [fltV_asymm hab]
  | false =>
    cases hba : fltV (fdec f b) (fdec f a) with
    | true => simp
    | false =>
      have heq := eq_of_not_fltV (holds_fdec hf a) (holds_fdec hf b) ha hb hz hab hba
      have himg : a % (2 * f.signBit) = b % (2 * f.signBit) := by
        rw [← image_fdec hf ha, ← image_fdec hf hb, heq]
      simp [himg]

/-- Of two numbers exactly one of less, equal and greater holds, and the other relations follow from these. -/
theorem fcmp_trichotomy {f : Fmt} {a b : Nat} (ha : (fdec f a).isNan = false) (hb : (fdec f b).isNan = false) :
    (fcmp f 0 a b).1 = (!(fcmp f 2 a b).1 && !(fcmp f 4 a b).1) ∧ ((fcmp f 2 a b).1 && (fcmp f 4 a b).1) = false ∧
    (fcmp f 3 a b).1 = ((fcmp f 2 a b).1 || (fcmp f 0 a b).1) ∧ (fcmp f 1 a b).1 = !(fcmp f 0 a b).1 := by
  simp only [fcmp, feqV, fleV, ha, hb]
  cases hab : fltV (fdec f a) (fdec f b) with
  | true => simp [fltV_asymm hab]
  | false => simp

theorem fclass_one_bit (f : Fmt) (a : Nat) : ∃ k < 10, fclass f a = 2 ^ k := by
  rw [fclass]
  rcases fdec f a with s | n | ⟨n, m, e⟩
  · cases s
    · exact ⟨1, by decide, rfl⟩
    · exact ⟨0, by decide, rfl⟩
  · cases n
    · exact ⟨9, by decide, rfl⟩
    · exact ⟨2, by decide, rfl⟩
  · by_cases hzero : m = 0
    · cases n
      · exact ⟨6, by decide, by simp [hzero]⟩
      · exact ⟨5, by decide, by simp [hzero]⟩
    by_cases hsub : m < 2 ^ f.mbits
    · cases n
      · exact ⟨7, by decide, by simp [hzero, hsub]⟩
      · exact ⟨4, by decide, by simp [hzero, hsub]⟩
    · cases n
      · exact ⟨8, by decide, by simp [hzero, hsub]⟩
      · exact ⟨3, by decide, by simp [hzero, hsub]⟩

/-- Settles O40: `holds_fdec` and `image_fdec` tie an image to its value, and with them equal numbers have one image and a held value
rounds to its own. -/
theorem floatResults : Obligations.FloatResults := by
  unfold Obligations.FloatResults
  intro f hmem mode sat a b c
  have hf := ieee_of_mem hmem
  refine ⟨fun h => ⟨?_, ?_, fmaV_nan f mode sat _ h⟩, fun h => ?_,
    fun m => ⟨fminmax_nan_left m, fminmax_nan_right m, fminmax_flags f m a b⟩, fun m => fminmax_nans m, fminmax_zeros hf,
    fminmax_ordered hf, fcmp_trichotomy, fclass_one_bit f a, fun n m e ha hd hm => ?_⟩
  · rw [fadd, faddV_nan f mode sat h, fnan_pair]
  · rw [fmul, fmulV_nan f mode sat h, fnan_pair]
  · rw [fmulz_zero f mode sat h, signField_eq, signField_eq]
    simp only [decide_eq_decide]
  · have hholds := holds_fdec hf a
    have himg := image_fdec hf (x := a) (by rw [hd]; rfl)
    rw [hd] at hholds himg
    rw [fround_of_holds hholds hf hm, himg, Nat.mod_eq_of_lt ha]

end Sys2Proof.Machine
end

section
/-! PROOFS. The codec: what a well-formed instruction encodes to is read back as that instruction (R65, R258, R284). -/
namespace Sys2Proof.Laws.RoundTrip

/-- Every instruction's words are read back as that instruction. -/
theorem statement_holds : ∀ i : Instr, Statement i
  | .ferryWrite w d => ferryWrite w d | .ferryRead w d => ferryRead w d | .ferryTail w d => ferryTail w d
  | .ferryRearm w d => ferryRearm w d | .ferryLaunch w d => ferryLaunch w d | .sealRange w d => sealRange w d | .inval w d => inval w d
  | .service w d => service w d | .budget w d => budget w d | .modeset w d => modeset w d | .thresh w d => thresh w d
  | .pcreate w d => pcreate w d | .pdestroy w d => pdestroy w d | .ferryBadop w d => ferryBadop w d | .ldp d sz imm => ldp d sz imm
  | .ldq d sz imm => ldq d sz imm | .stq a sz imm => stq a sz imm | .ldi d imm => ldi d imm | .pilotAdd d a b => pilotAdd d a b
  | .pilotSub d a b => pilotSub d a b | .pilotAddi d a imm => pilotAddi d a imm | .pilotAnd d a b => pilotAnd d a b
  | .pilotOr d a b => pilotOr d a b | .pilotXor d a b => pilotXor d a b | .pilotShl d a imm => pilotShl d a imm
  | .pilotShr d a imm => pilotShr d a imm | .beq a b imm => beq a b imm | .bne a b imm => bne a b imm | .bltu a b imm => bltu a b imm
  | .loop d a imm => loop d a imm | .stl a sz imm => stl a sz imm | .pilotLaunch d => pilotLaunch d | .sigw a b host => sigw a b host
  | .sigwait a b host rel => sigwait a b host rel | .emit a => emit a | .fault imm => fault imm
  | .unallocatedOpcode why w => unallocatedOpcode why w | .iaddS o => iaddS o | .isubS o => isubS o | .imulS o => imulS o
  | .imulhS o => imulhS o | .iminS o => iminS o | .imaxS o => imaxS o | .iabsS o => iabsS o | .inegS o => inegS o | .andS o => andS o
  | .orS o => orS o | .xorS o => xorS o | .andnS o => andnS o | .notS o => notS o | .shlS o => shlS o | .shrS o => shrS o
  | .sarS o => sarS o | .rotS o => rotS o | .popcS o => popcS o | .clzS o => clzS o | .brevS o => brevS o | .movS o => movS o
  | .faddS o => faddS o | .fsubS o => fsubS o | .fmulS o => fmulS o | .fmulzS o => fmulzS o | .fminS o => fminS o | .fmaxS o => fmaxS o
  | .frcpS o => frcpS o | .frsqS o => frsqS o | .fsqrtS o => fsqrtS o | .fexp2S o => fexp2S o | .flog2S o => flog2S o
  | .fsinS o => fsinS o | .fcosS o => fcosS o | .ftanhS o => ftanhS o | .trace h => trace h | .endTrace o => endTrace o
  | .endx o => endx o | .join o => join o | .guard o => guard o | .guardc o => guardc o | .callt o => callt o | .trap o => trap o
  | .brk o => brk o | .plogic o => plogic o | .pnot o => pnot o | .pmov o => pmov o | .pvote o => pvote o | .ptov o => ptov o
  | .vtop o => vtop o | .pforce o => pforce o | .waitc c => waitc c | .waitp o => waitp o | .waitseq o => waitseq o | .bar o => bar o
  | .cbar o => cbar o | .fence o => fence o | .qfence o => qfence o | .qopen o => qopen o | .qclose o => qclose o | .pushq o => pushq o
  | .popq o => popq o | .qstat o => qstat o | .ticket o => ticket o | .spawn o => spawn o | .iadd o => iadd o | .isub o => isub o
  | .iaddc o => iaddc o | .imul o => imul o | .imulh o => imulh o | .imad o => imad o | .imin o => imin o | .imax o => imax o
  | .iabs o => iabs o | .ineg o => ineg o | .and o => and o | .or o => or o | .xor o => xor o | .andn o => andn o | .not o => not o
  | .shl o => shl o | .shr o => shr o | .sar o => sar o | .rot o => rot o | .bfe o => bfe o | .bfi o => bfi o | .popc o => popc o
  | .clz o => clz o | .brev o => brev o | .icmp o => icmp o | .sel o => sel o | .lea o => lea o | .mov o => mov o | .movi o => movi o
  | .fadd o => fadd o | .fsub o => fsub o | .fmul o => fmul o | .fmulz o => fmulz o | .fma o => fma o | .fmaz o => fmaz o
  | .fmin o => fmin o | .fmax o => fmax o | .fcmp o => fcmp o | .fclass o => fclass o | .frnd o => frnd o | .fscale o => fscale o
  | .frcp o => frcp o | .frsq o => frsq o | .fsqrt o => fsqrt o | .fexp2 o => fexp2 o | .flog2 o => flog2 o | .fsin o => fsin o
  | .fcos o => fcos o | .ftanh o => ftanh o | .cvt o => cvt o | .pack o => pack o | .unpack o => unpack o | .dot4 o => dot4 o
  | .dot8 o => dot8 o | .bscale o => bscale o | .ivmake o => ivmake o | .ivadd o => ivadd o | .ivsub o => ivsub o | .ivmul o => ivmul o
  | .ivdiv o => ivdiv o | .ivsqr o => ivsqr o | .ivsqrt o => ivsqrt o | .ivhull o => ivhull o | .ivisect o => ivisect o
  | .ivmid o => ivmid o | .ivwid o => ivwid o | .ivcmp o => ivcmp o | .ivsplit o => ivsplit o | .ivbis o => ivbis o | .ivld o => ivld o
  | .ivst o => ivst o | .ivmakeIv16 o => ivmakeIv16 o | .ivaddIv16 o => ivaddIv16 o | .ivsubIv16 o => ivsubIv16 o
  | .ivmulIv16 o => ivmulIv16 o | .ivdivIv16 o => ivdivIv16 o | .ivsqrIv16 o => ivsqrIv16 o | .ivsqrtIv16 o => ivsqrtIv16 o
  | .ivhullIv16 o => ivhullIv16 o | .ivisectIv16 o => ivisectIv16 o | .ivmidIv16 o => ivmidIv16 o | .ivwidIv16 o => ivwidIv16 o
  | .ivcmpIv16 o => ivcmpIv16 o | .ivsplitIv16 o => ivsplitIv16 o | .ivbisIv16 o => ivbisIv16 o | .ivldIv16 o => ivldIv16 o
  | .ivstIv16 o => ivstIv16 o | .shfl o => shfl o | .qswap o => qswap o | .qbcast o => qbcast o | .matchLanes o => matchLanes o
  | .redux o => redux o | .scan o => scan o | .rdlane o => rdlane o | .wrlane o => wrlane o | .ld o => ld o | .st o => st o
  | .ldu o => ldu o | .stu o => stu o | .lds o => lds o | .sts o => sts o | .lda o => lda o | .ldlit o => ldlit o | .pref o => pref o
  | .cctl o => cctl o | .icinv o => icinv o | .atom o => atom o | .atoms o => atoms o | .red o => red o | .sred o => sred o
  | .bop o => bop o | .gang o => gang o | .mma o => mma o | .layout o => layout o | .copy o => copy o | .gather o => gather o
  | .scatter o => scatter o | .coll o => coll o | .seqrd o => seqrd o | .rcall o => rcall o | .rread o => rread o | .rsync o => rsync o
  | .rret o => rret o | .tstep o => tstep o | .pdgset o => pdgset o | .pdgrd o => pdgrd o | .dlog o => dlog o | .sysrd o => sysrd o
  | .sysrdCycle o => sysrdCycle o | .syswrFmode o => syswrFmode o | .syswrFstat o => syswrFstat o | .syswrSfrqPop o => syswrSfrqPop o
  | .syswrSfrqClearLost o => syswrSfrqClearLost o | .syswrPreempt o => syswrPreempt o | .syswrSavelo o => syswrSavelo o
  | .syswrSavehi o => syswrSavehi o | .syswrLdaerr o => syswrLdaerr o | .hintKeep o => hintKeep o | .hintStream o => hintStream o
  | .hintOcc o => hintOcc o | .hintThr o => hintThr o | .hintUnimplemented k o => hintUnimplemented k o
  | .packageReset flash => packageReset flash | .boundaryFlitReceive b rev flit crc => boundaryFlitReceive b rev flit crc
  | .boundaryRetrain b ok => boundaryRetrain b ok | .causewayFlitReceive port flit crc => causewayFlitReceive port flit crc
  | .arbiterPeriodEnd die power temp => arbiterPeriodEnd die power temp | .scrubLine die e => scrubLine die e
  | .subarraySelfTest core sub product => subarraySelfTest core sub product | .spdmAlgorithmsRequest r => spdmAlgorithmsRequest r
  | .spdmCertificateRequest r => spdmCertificateRequest r | .spdmChallengeRequest r => spdmChallengeRequest r
  | .spdmMeasurementsRequest r => spdmMeasurementsRequest r | .spdmUnsupportedRequest code => spdmUnsupportedRequest code
  | .cmdtailWrite w v => cmdtailWrite w v | .cplheadWrite w v => cplheadWrite w v | .evheadWrite w v => evheadWrite w v
  | .ringBaseSizeWrite w r v => ringBaseSizeWrite w r v | .wstateRunSet w => wstateRunSet w | .wstateRunClear w => wstateRunClear w
  | .registerWrite bar off v => registerWrite bar off v | .eventRingWrite w => eventRingWrite w | .fetcherVisit die => fetcherVisit die
  | .fetchFaultRetry part q => fetchFaultRetry part q | .launchPlacement part => launchPlacement part
  | .gridTermination part serial => gridTermination part serial | .taskGather part q => taskGather part q
  | .traceCommit g n => traceCommit g n | .rejoinFusion g n => rejoinFusion g n | .fragmentSpillMove g n => fragmentSpillMove g n
  | .loadDataReturn g id e => loadDataReturn g id e | .postedStoreCheck id => postedStoreCheck id
  | .storePerformed id elem => storePerformed id elem | .deferredAtomicPerform id elem mf => deferredAtomicPerform id elem mf
  | .atomicRepair die id => atomicRepair die id | .atomicReplay die id => atomicReplay die id
  | .sredElementApply id elem turn => sredElementApply id elem turn
  | .sredPeerElement part die addr op ty value => sredPeerElement part die addr op ty value
  | .ldaElementWrite id elem e => ldaElementWrite id elem e | .mmaEntry core => mmaEntry core | .layoutEntry clu => layoutEntry clu
  | .copyEntry core e => copyEntry core e | .gatherEntry core => gatherEntry core | .scatterEntry core => scatterEntry core
  | .collEntry part die peers => collEntry part die peers | .collPeerTimeout part die => collPeerTimeout part die
  | .qfenceEntry q => qfenceEntry q | .gangwayLatchOpen g => gangwayLatchOpen g | .barrierComplete b => barrierComplete b
  | .ringPush g n => ringPush g n | .ringPop g n => ringPop g n
  | .preemptRequestArrival part serial core => preemptRequestArrival part serial core
  | .preemptAllowanceExpiry g n => preemptAllowanceExpiry g n | .preemptHandlerStart g => preemptHandlerStart g
  | .yieldSave g => yieldSave g | .launchRestore part serial => launchRestore part serial
  | .clusterTermination clu => clusterTermination clu | .emulationFrame g n => emulationFrame g n
  | .emulationResultWrite g n => emulationResultWrite g n | .manifestAppend g n => manifestAppend g n
  | .landingApply part die obj => landingApply part die obj | .rreadMethodRun g id => rreadMethodRun g id
  | .upstreamLinkTraining width rate => upstreamLinkTraining width rate | .supplyMonitorReset => supplyMonitorReset
  | .spdmVersionRequest r => spdmVersionRequest r | .spdmCapabilitiesRequest r => spdmCapabilitiesRequest r
  | .spdmDigestsRequest r => spdmDigestsRequest r | .pilotStepBudgetExhausted => pilotStepBudgetExhausted | .pilotFence => pilotFence
  | .done => done | .nop => nop | .exit => exit | .rett => rett | .kill => kill | .yield => yield | .resume => resume
  | .nopLong => nopLong | .gate => gate | .release => release | .drain => drain | .savesplit => savesplit | .loadsplit => loadsplit

end Sys2Proof.Laws.RoundTrip

namespace Sys2Proof.Machine

/-- Settles O2: `RoundTrip.Statement` of every constructor, the core decoder's part and the pilot decoder's. -/
theorem decodeOfEncode : Obligations.DecodeOfEncode := by
  unfold Obligations.DecodeOfEncode
  constructor
  · intro i rest hwf hwords hcore
    obtain ⟨-, hdec⟩ := Laws.RoundTrip.statement_holds i hwf
    exact hdec hcore hwords rest
  · intro i w hwf hpilot hword
    obtain ⟨hdec, -⟩ := Laws.RoundTrip.statement_holds i hwf
    obtain ⟨w', hword', hok⟩ := hdec hpilot
    obtain rfl : w' = w := List.singleton_inj.mp (hword'.symm.trans hword)
    exact hok

end Sys2Proof.Machine
end

section
/-! PROOFS. The codec: what decodes is well-formed and encodes to the words it came from (R65, R258, R266, R284). -/
namespace Sys2Proof

/-! ### Words from their fields -/

theorem ofBool_fbit (w : Word) (i : Nat) : BitVec.ofBool (fbit w i) = fld w i 1 := by
  ext j hj
  obtain rfl : j = 0 := by omega
  simp

/-- Adjacent fields make one. -/
theorem fld_append {w : Word} {hi lo m n : Nat} (h : hi = lo + n) : fld w hi m ++ fld w lo n = fld w lo (m + n) := by
  subst h
  ext i hi
  simp only [BitVec.getElem_append, BitVec.getElem_extractLsb']
  split
  · rfl
  · congr 1
    omega

/-- Word 0 of the L- and X-forms is its fields (R262). -/
theorem packW0_fields (w : Word) : packW0 (fld w 30 2) (fld w 22 8) (fbit w 21) (fld w 12 9) (fld w 3 9) (fld w 0 3) = w := by
  unfold packW0
  rw [ofBool_fbit, fld_append (rfl : 30 = 22 + 8), fld_append (rfl : 22 = 21 + 1), fld_append (rfl : 21 = 12 + 9),
    fld_append (rfl : 12 = 3 + 9), fld_append (rfl : 3 = 0 + 3)]
  exact app_all w

/-- Word 1 of the L-form (R262). -/
theorem unpackL_word1 (w0 w1 : Word) (w2 : Option Word) : (unpackL w0 w1 w2).word1 = w1 := by
  unfold LOp.word1 unpackL
  rw [ofBool_fbit, ofBool_fbit, fld_append (rfl : 23 = 21 + 2), fld_append (rfl : 21 = 19 + 2), fld_append (rfl : 19 = 14 + 5),
    fld_append (rfl : 14 = 10 + 4), fld_append (rfl : 10 = 8 + 2), fld_append (rfl : 8 = 7 + 1), fld_append (rfl : 7 = 6 + 1),
    fld_append (rfl : 6 = 0 + 6)]
  exact app_all w1

/-- Word 1 of the control layout (R269). -/
theorem unpackCtl_word1 (w0 w1 : Word) (w2 : Option Word) : (unpackCtl w0 w1 w2).word1 = w1 := by
  unfold CtlOp.word1 unpackCtl
  rw [fld_append (rfl : 8 = 4 + 4), fld_append (rfl : 4 = 2 + 2), fld_append (rfl : 2 = 0 + 2)]
  exact app_all w1

/-- Word 1 of the memory layout (R344). -/
theorem unpackMem_word1 (w0 w1 : Word) (w2 : Option Word) : (unpackMem w0 w1 w2).word1 = w1 := by
  unfold MemOp.word1 unpackMem
  rw [ofBool_fbit, ofBool_fbit, ofBool_fbit, fld_append (rfl : 23 = 14 + 9), fld_append (rfl : 14 = 10 + 4),
    fld_append (rfl : 10 = 8 + 2), fld_append (rfl : 8 = 7 + 1), fld_append (rfl : 7 = 6 + 1), fld_append (rfl : 6 = 5 + 1),
    fld_append (rfl : 5 = 2 + 3), fld_append (rfl : 2 = 0 + 2)]
  exact app_all w1

/-- Word 1 of the atomic layout (R355). -/
theorem unpackAtom_word1 (w0 w1 : Word) (w2 : Option Word) : (unpackAtom w0 w1 w2).word1 = w1 := by
  unfold AtomOp.word1 unpackAtom
  rw [ofBool_fbit, ofBool_fbit, ofBool_fbit, fld_append (rfl : 23 = 20 + 3), fld_append (rfl : 20 = 18 + 2),
    fld_append (rfl : 18 = 14 + 4), fld_append (rfl : 14 = 10 + 4), fld_append (rfl : 10 = 8 + 2), fld_append (rfl : 8 = 7 + 1),
    fld_append (rfl : 7 = 6 + 1), fld_append (rfl : 6 = 3 + 3), fld_append (rfl : 3 = 2 + 1), fld_append (rfl : 2 = 0 + 2)]
  exact app_all w1

/-- Word 0 of TRACE (R287). -/
theorem unpackTrace_word0 {w0 : Word} (w1 : Word) (hop : fld w0 22 8 = 0) (hlen : fld w0 30 2 = 1) :
    (unpackTrace w0 w1).word0 = w0 := by
  unfold TraceHdr.word0 unpackTrace
  rw [← hop, ← hlen, ofBool_fbit, fld_append (rfl : 30 = 22 + 8), fld_append (rfl : 22 = 20 + 2), fld_append (rfl : 20 = 19 + 1),
    fld_append (rfl : 19 = 11 + 8), fld_append (rfl : 11 = 6 + 5), fld_append (rfl : 6 = 0 + 6)]
  exact app_all w0

/-- Word 1 of TRACE (R287). -/
theorem unpackTrace_word1 (w0 w1 : Word) : (unpackTrace w0 w1).word1 = w1 := by
  unfold TraceHdr.word1 unpackTrace
  rw [ofBool_fbit, ofBool_fbit, fld_append (rfl : 29 = 26 + 3), fld_append (rfl : 26 = 25 + 1), fld_append (rfl : 25 = 24 + 1),
    fld_append (rfl : 24 = 12 + 12), fld_append (rfl : 12 = 0 + 12)]
  exact app_all w1

/-- Word 1 of WAITC (R300). -/
theorem unpackWait_word1 (w1 : Word) : (unpackWait w1).word1 = w1 := by
  unfold WaitCounts.word1 unpackWait
  rw [fld_append (rfl : 24 = 16 + 8), fld_append (rfl : 16 = 8 + 8), fld_append (rfl : 8 = 0 + 8)]
  exact app_all w1

/-- The S-form word (R259). -/
theorem unpackS_word {w : Word} (hlen : fld w 30 2 = 0) : (unpackS w).word (fld w 23 7) = w := by
  unfold SOp.word unpackS
  rw [← hlen, ofBool_fbit, ofBool_fbit, fld_append (rfl : 30 = 23 + 7), fld_append (rfl : 23 = 22 + 1), fld_append (rfl : 22 = 15 + 7),
    fld_append (rfl : 15 = 8 + 7), fld_append (rfl : 8 = 1 + 7), fld_append (rfl : 1 = 0 + 1)]
  exact app_all w

/-- A pilot word (R65). -/
theorem packPilot_fields (w : Word) : packPilot (fld w 27 5) (fld w 24 3) (fld w 21 3) (fld w 18 3) (fld w 0 18) = w := by
  unfold packPilot
  rw [fld_append (rfl : 27 = 24 + 3), fld_append (rfl : 24 = 21 + 3), fld_append (rfl : 21 = 18 + 3), fld_append (rfl : 18 = 0 + 18)]
  exact app_all w

/-- A word's bytes in memory order (R4, R258). -/
theorem wordBytes_wordOfBytes (b0 b1 b2 b3 : Byte) : wordBytes (wordOfBytes b0 b1 b2 b3) = [b0, b1, b2, b3] := by
  have h0 : wordBytes.fldB (wordOfBytes b0 b1 b2 b3) 0 = b0 := (app_lo _ _ _ _ (by decide)).trans <| app_all _
  have h1 : wordBytes.fldB (wordOfBytes b0 b1 b2 b3) 8 = b1 :=
    (app_hi _ _ _ _ (by decide)).trans <| (app_lo _ _ _ _ (by decide)).trans <| app_all _
  have h2 : wordBytes.fldB (wordOfBytes b0 b1 b2 b3) 16 = b2 :=
    (app_hi _ _ _ _ (by decide)).trans <| (app_hi _ _ _ _ (by decide)).trans <| (app_lo _ _ _ _ (by decide)).trans <| app_all _
  have h3 : wordBytes.fldB (wordOfBytes b0 b1 b2 b3) 24 = b3 :=
    (app_hi _ _ _ _ (by decide)).trans <| (app_hi _ _ _ _ (by decide)).trans <| (app_hi _ _ _ _ (by decide)).trans <| app_all _
  rw [wordBytes, h0, h1, h2, h3]

/-! ### What each opcode map gives, encoded -/

section Maps
variable {i j : Instr}

/-- The S opcode map (Table 11.15). -/
theorem encode_of_sInstr {op : Nat} {o : SOp} (h : sInstr op o = some i) : encode i = [o.word (BitVec.ofNat 7 op)] := by
  unfold sInstr at h
  split at h <;> cases h <;> rfl

theorem encode_syswrInstr (o : LOp) : encode (syswrInstr o) = encL 0xC9 o := by
  unfold syswrInstr
  repeat' split
  all_goals rfl

theorem encode_sysrdInstr (o : LOp) : encode (if o.a = 0x15 then .sysrdCycle o else .sysrd o) = encL 0xC8 o := by
  split <;> rfl

theorem nullary_eq_some {blank o : LOp} (h : nullary j blank o = some i) : o = blank ∧ j = i := by
  unfold nullary at h
  split at h
  · next ho => exact ⟨ho, Option.some.inj h⟩
  · cases h

/-- The unimplemented hints (Table 11.16). -/
theorem encode_of_plainInstr_hint {op : Nat} {o : LOp} (hlo : 0xF4 ≤ op) (hhi : op ≤ 0xFF) (h : plainInstr op o = some (some i)) :
    encode i = encL (BitVec.ofNat 8 op) o := by
  obtain rfl | rfl | rfl | rfl | rfl | rfl | rfl | rfl | rfl | rfl | rfl | rfl : op = 0xF4 ∨ op = 0xF5 ∨ op = 0xF6 ∨ op = 0xF7 ∨
      op = 0xF8 ∨ op = 0xF9 ∨ op = 0xFA ∨ op = 0xFB ∨ op = 0xFC ∨ op = 0xFD ∨ op = 0xFE ∨ op = 0xFF := by omega
  all_goals
    cases h
    rfl

/-- The opcodes of the L-form layout (Table 11.16). -/
theorem encode_of_plainInstr {op : Nat} {o : LOp} (h : plainInstr op o = some (some i)) : encode i = encL (BitVec.ofNat 8 op) o := by
  by_cases hint : 0xF4 ≤ op ∧ op ≤ 0xFF
  · exact encode_of_plainInstr_hint hint.1 hint.2 h
  · unfold plainInstr at h
    split at h <;> simp only [nullary, Option.some.injEq, Option.ite_none_right_eq_some, hint, if_false, reduceCtorEq] at h
    all_goals
      repeat cases ‹_ ∧ _›
      subst_vars
    any_goals exact encode_sysrdInstr _
    any_goals exact encode_syswrInstr _
    all_goals rfl

/-- Words of the L- or X-form, from their opcode, LEN and operands. -/
theorem encL_unpackL {op : Byte} {w0 : Word} (w1 : Word) {w2 : Option Word} (hop : fld w0 22 8 = op) (hlen : fld w0 30 2 = lenOf w2) :
    encL op (unpackL w0 w1 w2) = w0 :: w1 :: w2.toList := by
  rw [encL, unpackL_word1, ← hop]
  exact congrArg (· :: _) (hlen ▸ packW0_fields w0)

theorem encC_unpackCtl {op : Byte} {w0 : Word} (w1 : Word) {w2 : Option Word} (hop : fld w0 22 8 = op) (hlen : fld w0 30 2 = lenOf w2) :
    encC op (unpackCtl w0 w1 w2) = w0 :: w1 :: w2.toList := by
  rw [encC, unpackCtl_word1, ← hop]
  exact congrArg (· :: _) (hlen ▸ packW0_fields w0)

theorem encM_unpackMem {op : Byte} {w0 : Word} (w1 : Word) {w2 : Option Word} (hop : fld w0 22 8 = op) (hlen : fld w0 30 2 = lenOf w2) :
    encM op (unpackMem w0 w1 w2) = w0 :: w1 :: w2.toList := by
  rw [encM, unpackMem_word1, ← hop]
  exact congrArg (· :: _) (hlen ▸ packW0_fields w0)

theorem encA_unpackAtom {op : Byte} {w0 : Word} (w1 : Word) {w2 : Option Word} (hop : fld w0 22 8 = op) (hlen : fld w0 30 2 = lenOf w2) :
    encA op (unpackAtom w0 w1 w2) = w0 :: w1 :: w2.toList := by
  rw [encA, unpackAtom_word1, ← hop]
  exact congrArg (· :: _) (hlen ▸ packW0_fields w0)

/-- TRACE has no X-form (R287). -/
theorem encode_trace {w0 : Word} (w1 : Word) {w2 : Option Word} (hw2 : w2.isNone = true) (hop : fld w0 22 8 = 0)
    (hlen : fld w0 30 2 = lenOf w2) : encode (.trace (unpackTrace w0 w1)) = w0 :: w1 :: w2.toList := by
  obtain rfl := Option.isNone_iff_eq_none.mp hw2
  change [(unpackTrace w0 w1).word0, (unpackTrace w0 w1).word1] = [w0, w1]
  rw [unpackTrace_word0 w1 hop hlen, unpackTrace_word1]

/-- WAITC has no X-form and reserves bits 21:0 of word 0 (R300). -/
theorem encode_waitc {w0 : Word} (w1 : Word) {w2 : Option Word} (hw2 : w2.isNone = true) (hres : fld w0 0 22 = 0)
    (hop : fld w0 22 8 = 0x17) (hlen : fld w0 30 2 = lenOf w2) : encode (.waitc (unpackWait w1)) = w0 :: w1 :: w2.toList := by
  obtain rfl := Option.isNone_iff_eq_none.mp hw2
  have hw0 : packW0 1 0x17 false 0 0 0 = w0 := by
    have h : fld w0 30 2 ++ fld w0 22 8 ++ fld w0 0 22 = w0 := by
      rw [fld_append (rfl : 30 = 22 + 8), fld_append (rfl : 22 = 0 + 22)]
      exact app_all w0
    rw [hop, hlen, hres] at h
    exact h
  change [packW0 1 0x17 false 0 0 0, (unpackWait w1).word1] = [w0, w1]
  rw [unpackWait_word1, hw0]

/-- LDLIT has no X-form, reserves A, and bits 7:0 of word 1 (R350). -/
theorem encode_ldlit {w0 : Word} {w1 : Word} {w2 : Option Word} (hw2 : w2.isNone = true) (ha : fld w0 3 9 = 0) (hlow : fld w1 0 8 = 0)
    (hop : fld w0 22 8 = 0xA7) (hlen : fld w0 30 2 = lenOf w2) : encode (.ldlit (unpackLit w0 w1)) = w0 :: w1 :: w2.toList := by
  obtain rfl := Option.isNone_iff_eq_none.mp hw2
  have hw0 : packW0 1 0xA7 (fbit w0 21) (fld w0 12 9) 0 (fld w0 0 3) = w0 := by
    have h := packW0_fields w0
    rw [hop, hlen, ha] at h
    exact h
  have hw1 : fld w1 8 24 ++ (0 : Byte) = w1 := by
    rw [← hlow, fld_append (rfl : 8 = 0 + 8)]
    exact app_all w1
  change [packW0 1 0xA7 (fbit w0 21) (fld w0 12 9) 0 (fld w0 0 3), fld w1 8 24 ++ (0 : Byte)] = [w0, w1]
  rw [hw0, hw1]

/-- The opcodes of the other layouts. -/
theorem encode_of_lInstr {op : Nat} {w0 w1 : Word} {w2 : Option Word} (h : lInstr op w0 w1 w2 = some (some i))
    (hop : fld w0 22 8 = BitVec.ofNat 8 op) (hlen : fld w0 30 2 = lenOf w2) : encode i = w0 :: w1 :: w2.toList := by
  unfold lInstr at h
  split at h
  case h_1 =>
    simp only [Option.some.injEq, Option.ite_none_right_eq_some] at h
    obtain ⟨hw2, rfl⟩ := h
    exact encode_trace w1 hw2 hop hlen
  case h_7 =>
    simp only [Option.some.injEq, Option.ite_none_right_eq_some, Bool.and_eq_true, beq_iff_eq] at h
    obtain ⟨⟨hw2, hres⟩, rfl⟩ := h
    exact encode_waitc w1 hw2 hres hop hlen
  case h_23 =>
    simp only [Option.some.injEq, Option.ite_none_right_eq_some, Bool.and_eq_true, beq_iff_eq] at h
    obtain ⟨⟨⟨hw2, ha⟩, hlow⟩, rfl⟩ := h
    exact encode_ldlit hw2 ha hlow hop hlen
  case h_2 | h_3 | h_4 | h_5 | h_6 | h_8 | h_9 | h_10 | h_11 | h_31 =>
    cases h
    exact encC_unpackCtl w1 hop hlen
  case h_26 | h_27 | h_28 | h_29 | h_30 =>
    cases h
    exact encA_unpackAtom w1 hop hlen
  case h_32 => cases h
  all_goals
    cases h
    exact encM_unpackMem w1 hop hlen

/-! ### What the decoders answer -/

theorem eq_of_checked {r : Option Instr} (h : checked r = .ok i) : r = some i ∧ i.wf = true := by
  unfold checked at h
  split at h
  · cases h
  · split at h <;> cases h
    next hwf => exact ⟨rfl, hwf⟩

theorem encode_of_decodeLong {w0 w1 : Word} {w2 : Option Word} (h : decodeLong w0 w1 w2 = .ok i) (hlen : fld w0 30 2 = lenOf w2) :
    i.wf = true ∧ encode i = w0 :: w1 :: w2.toList := by
  have hop : fld w0 22 8 = BitVec.ofNat 8 (fld w0 22 8).toNat := by rw [BitVec.ofNat_toNat, BitVec.setWidth_eq]
  unfold decodeLong at h
  dsimp only at h
  split at h
  · next r hl =>
    obtain ⟨rfl, hwf⟩ := eq_of_checked h
    exact ⟨hwf, encode_of_lInstr hl hop hlen⟩
  · split at h
    · next r hp =>
      obtain ⟨rfl, hwf⟩ := eq_of_checked h
      exact ⟨hwf, (encode_of_plainInstr hp).trans (encL_unpackL w1 hop hlen)⟩
    · cases h

theorem encode_of_decodeShort {w : Word} (h : decodeShort w = .ok i) (hlen : fld w 30 2 = 0) : i.wf = true ∧ encode i = [w] := by
  unfold decodeShort at h
  dsimp only at h
  split at h
  · split at h <;> cases h
    next hw => exact ⟨rfl, congrArg (fun x => [x]) hw.symm⟩
  · split at h
    · next hs =>
      split at h <;> cases h
      next hwf =>
        refine ⟨hwf, (encode_of_sInstr hs).trans ?_⟩
        rw [BitVec.ofNat_toNat, BitVec.setWidth_eq, unpackS_word hlen]
    · cases h

theorem of_map_rest {x : Except DecodeError Instr} {r rest : List Byte} (h : x.map (·, r) = .ok (i, rest)) : x = .ok i ∧ r = rest := by
  cases x with
  | error e => cases h
  | ok j =>
    cases h
    exact ⟨rfl, rfl⟩

/-- What decodes begins with the words that it was decoded from. -/
theorem words_of_decode {bs rest : List Byte} (h : decode bs = .ok (i, rest)) :
    (∃ w, bs = [w].flatMap wordBytes ++ rest ∧ fld w 30 2 = 0 ∧ decodeShort w = .ok i) ∨
    ∃ w0 w1 w2, bs = (w0 :: w1 :: Option.toList w2).flatMap wordBytes ++ rest ∧ fld w0 30 2 = lenOf w2 ∧
      decodeLong w0 w1 w2 = .ok i := by
  unfold decode at h
  split at h
  · next a0 a1 a2 a3 r0 =>
    dsimp only at h
    split at h
    · next hlen =>
      obtain ⟨hdec, rfl⟩ := of_map_rest h
      exact .inl ⟨_, by simp [wordBytes_wordOfBytes], BitVec.eq_of_toNat_eq hlen, hdec⟩
    · next hlen =>
      split at h
      · obtain ⟨hdec, rfl⟩ := of_map_rest h
        exact .inr ⟨_, _, none, by simp [wordBytes_wordOfBytes], BitVec.eq_of_toNat_eq hlen, hdec⟩
      · cases h
    · next hlen =>
      split at h
      · obtain ⟨hdec, rfl⟩ := of_map_rest h
        exact .inr ⟨_, _, some _, by simp [wordBytes_wordOfBytes], BitVec.eq_of_toNat_eq hlen, hdec⟩
      · cases h
    · cases h
  · cases h

end Maps

/-! ### Pilot words -/

/-- The host flag and the relation of a SIGWAIT are its immediate's three bits (R66). -/
theorem sigwait_imm (imm : BitVec 18) (h : imm.toNat < 8) :
    (if imm.getLsbD 2 then (4 : BitVec 18) else 0) + (imm.extractLsb' 0 2).setWidth 18 = imm := by
  obtain ⟨k, rfl⟩ : ∃ k : Fin 8, imm = BitVec.ofNat 18 k := ⟨⟨imm.toNat, h⟩, by simp⟩
  revert k
  decide

theorem encode_of_pilotInstr {opc : Nat} {d a b : BitVec 3} {imm : BitVec 18} {i : Instr} (h : pilotInstr opc d a b imm = some i) :
    encode i = [packPilot (BitVec.ofNat 5 opc) d a b imm] := by
  unfold pilotInstr at h
  split at h <;> simp only [Option.ite_none_right_eq_some, Option.some.injEq, reduceCtorEq] at h
  case h_19 =>
    obtain ⟨⟨rfl, rfl | rfl⟩, rfl⟩ := h <;> rfl
  case h_20 =>
    obtain ⟨⟨rfl, hlt⟩, rfl⟩ := h
    exact congrArg (fun x => [packPilot 0x13 0 a b x]) (sigwait_imm imm hlt)
  all_goals
    repeat cases ‹_ ∧ _›
    subst_vars
    rfl

end Sys2Proof

namespace Sys2Proof.Machine

/-- Settles O3: the words that the decoder read are put together again from the fields that it took, opcode map by opcode map. -/
theorem encodeOfDecode : Obligations.EncodeOfDecode := by
  unfold Obligations.EncodeOfDecode
  constructor
  · intro bs rest i h
    unfold encodeBytes
    rcases words_of_decode h with ⟨w, rfl, hlen, hdec⟩ | ⟨w0, w1, w2, rfl, hlen, hdec⟩
    · obtain ⟨hwf, henc⟩ := encode_of_decodeShort hdec hlen
      exact ⟨hwf, by rw [henc]⟩
    · obtain ⟨hwf, henc⟩ := encode_of_decodeLong hdec hlen
      exact ⟨hwf, by rw [henc]⟩
  · intro w i h
    unfold decodePilot at h
    dsimp only at h
    split at h
    · cases h
    · split at h
      · next hp =>
        split at h <;> cases h
        next hwf =>
          refine ⟨hwf, (encode_of_pilotInstr hp).trans ?_⟩
          rw [BitVec.ofNat_toNat, BitVec.setWidth_eq, packPilot_fields]
      · cases h

end Sys2Proof.Machine
end

section
/-! PROOFS. The encodings written out, the state after reset, the predicate connectives, and the results of integer instructions. -/
namespace Sys2Proof.Machine

/-- Settles O1, each word by its decoding. -/
theorem wordsDecode : Obligations.WordsDecode := by
  unfold Obligations.WordsDecode
  exact ⟨rfl, rfl, rfl, rfl, rfl, rfl, rfl, rfl, rfl, rfl, rfl, rfl⟩

/-- Settles O8, by the fields of the state after reset. -/
theorem resetState : Obligations.ResetState := by
  unfold Obligations.ResetState
  decide

/-- Settles O39: Table 12.3 over the three values, and p15. -/
theorem predicatesAreThreeValued : Obligations.PredicatesAreThreeValued := by
  unfold Obligations.PredicatesAreThreeValued
  refine ⟨by decide, by decide, fun g l r => ⟨?_, by simp [Group.rp], by simp [Group.wp]⟩⟩
  unfold Group.rp
  dsimp only
  split
  · decide
  · split
    · decide
    · next h => exact h

/-! ### Words as the integers of type .i32 (R275, R316) -/

section Word32

theorem sext_32 (x : Nat) : sext x 32 = (BitVec.ofNat 32 x).toInt := by
  rw [BitVec.toInt_eq_toNat_cond, BitVec.toNat_ofNat, sext]
  split <;> split <;> omega

theorem trunc_32 (x : Int) : trunc x 32 = (BitVec.ofInt 32 x).toNat := by
  rw [trunc, BitVec.toNat_ofInt]

@[simp] theorem intOf_i32 (x : Nat) : intOf 0 x = (BitVec.ofNat 32 x).toInt := sext_32 x

/-- The image of a result is its word (R275). -/
@[simp] theorem intImg_i32 (x : Int) : intImg 0 x = (BitVec.ofInt 32 x).toNat := by
  change trunc (sext (trunc x 32) 32) 32 = _
  rw [sext_32, trunc_32, trunc_32, BitVec.ofNat_toNat, BitVec.setWidth_eq, BitVec.ofInt_toInt]

@[simp] theorem tyWidth_i32 : tyWidth 0 = 32 := rfl

@[simp] theorem intRes_i32 (x : Int) : intRes 0 false x = (BitVec.ofInt 32 x).toNat := intImg_i32 x

theorem ofInt_natCast_toNat {x : Nat} (h : x < 2 ^ 32) : (BitVec.ofInt 32 (x : Int)).toNat = x := by
  rw [BitVec.ofInt_natCast, BitVec.toNat_ofNat, Nat.mod_eq_of_lt h]

variable {o : LOp} (hmod : o.mod = 0)
include hmod

theorem ity_i32 : o.ity = 0 := by simp [LOp.ity, hmod]
theorem isSat_i32 : o.isSat = false := by simp [LOp.isSat, hmod]

theorem wImg_i32 (x : Nat) : wImg o x = (BitVec.ofNat 32 x).toNat := by
  rw [wImg, ity_i32 hmod, BitVec.toNat_ofNat]
  rfl

end Word32

/-- The element that an instruction of two integer sources makes. -/
theorem elt_intBin (o : LOp) (f : Int → Int → Int) (g : Group) (n : Node) (l off : Nat) (hmod : o.mod = 0) :
    (intBin o f).elt o g n l off = EltOut.val (BitVec.ofInt 32
      (f (BitVec.ofNat 32 (readSrc g n l (.int 0) o.srcA off)).toInt (BitVec.ofNat 32 (readSrc g n l (.int 0) o.srcB off)).toInt)).toNat := by
  simp [Comp.elt, intBin, Comp.srcB, ity_i32 hmod, isSat_i32 hmod]

theorem elt_bitBin (o : LOp) (f : Nat → Nat → Nat) (g : Group) (n : Node) (l off : Nat) (hmod : o.mod = 0) :
    (bitBin o f).elt o g n l off = EltOut.val (BitVec.ofInt 32 ((f
      (BitVec.ofNat 32 (readSrc g n l (.int 0) o.srcA off)).toNat (BitVec.ofNat 32 (readSrc g n l (.int 0) o.srcB off)).toNat : Nat) :
        Int)).toNat := by
  simp [Comp.elt, bitBin, Comp.srcB, wImg_i32 hmod, ity_i32 hmod]

theorem ofInt_sub_toInt (a b : Word) : BitVec.ofInt 32 (a.toInt - b.toInt) = a - b := by
  rw [Int.sub_eq_add_neg, BitVec.ofInt_add, BitVec.ofInt_neg, BitVec.ofInt_toInt, BitVec.ofInt_toInt, BitVec.sub_eq_add_neg]

/-- The truncated results are the words' own sum, difference, product, minimum and maximum. -/
theorem ofInt_min (a b : Word) : BitVec.ofInt 32 (min a.toInt b.toInt) = if a.sle b then a else b := by
  simp only [BitVec.sle, decide_eq_true_eq, Int.min_def, apply_ite (BitVec.ofInt 32), BitVec.ofInt_toInt]

theorem ofInt_max (a b : Word) : BitVec.ofInt 32 (max a.toInt b.toInt) = if a.sle b then b else a := by
  simp only [BitVec.sle, decide_eq_true_eq, Int.max_def, apply_ite (BitVec.ofInt 32), BitVec.ofInt_toInt]

theorem andn_toNat (a b : Word) : a.toNat &&& (2 ^ 32 - 1 - b.toNat) = (a &&& ~~~b).toNat := by
  rw [BitVec.toNat_and, BitVec.toNat_not]

theorem ofInt_toNat_cast (a : Word) : BitVec.ofInt 32 (a.toNat : Int) = a := by
  rw [BitVec.ofInt_natCast, BitVec.ofNat_toNat, BitVec.setWidth_eq]

theorem tyMin_le_tyMax (ty : Nat) : tyMin ty ≤ tyMax ty := by
  unfold tyMin tyMax tySigned tyWidth
  repeat' split
  all_goals decide

/-- Settles O37: for .i32 the integer of an image is its word's, and the image of a result the result's word; a clamp is the same from
either end. -/
theorem integerResults : Obligations.IntegerResults := by
  unfold Obligations.IntegerResults
  constructor
  · intro x hx o g n l off hmod
    simp only [int32Results, List.mem_cons, List.not_mem_nil, or_false] at hx
    have hpair : DstKd.reg o.ity64 = .reg false := by simp [LOp.ity64, ity_i32 hmod, tyWidth]
    have hwide : tyWidth o.ity = 32 := by rw [ity_i32 hmod, tyWidth_i32]
    rcases hx with rfl | rfl | rfl | rfl | rfl | rfl | rfl | rfl | rfl <;> refine ⟨_, _, rfl, hpair, ?_⟩
    · exact (elt_intBin o _ g n l off hmod).trans (by simp [EltOut.val, BitVec.ofInt_add])
    · exact (elt_intBin o _ g n l off hmod).trans (by simp only [EltOut.val, ofInt_sub_toInt])
    · exact (elt_intBin o _ g n l off hmod).trans (by simp [EltOut.val, BitVec.ofInt_mul])
    · exact (elt_bitBin o _ g n l off hmod).trans (by simp only [EltOut.val, ← BitVec.toNat_and, ofInt_toNat_cast])
    · exact (elt_bitBin o _ g n l off hmod).trans (by simp only [EltOut.val, ← BitVec.toNat_or, ofInt_toNat_cast])
    · exact (elt_bitBin o _ g n l off hmod).trans (by simp only [EltOut.val, ← BitVec.toNat_xor, ofInt_toNat_cast])
    · exact (elt_bitBin o _ g n l off hmod).trans (by simp only [EltOut.val, hwide, andn_toNat, ofInt_toNat_cast])
    · exact (elt_intBin o _ g n l off hmod).trans (by simp only [EltOut.val, ofInt_min])
    · exact (elt_intBin o _ g n l off hmod).trans (by simp only [EltOut.val, ofInt_max])
  · intro o fm a b hsat x hx
    have hclamp : ∀ y : Int, clampInt y (tyMin o.ity) (tyMax o.ity) = max (tyMin o.ity) (min y (tyMax o.ity)) := by
      intro y
      have := tyMin_le_tyMax o.ity
      unfold clampInt
      omega
    simp only [List.mem_cons, List.not_mem_nil, or_false] at hx
    rcases hx with rfl | rfl | rfl <;> simp [kIadd, kIsub, kImul, intBin, EltOut.val, intRes, hsat, hclamp]

/-! ### Shifts, comparisons, LEA and SEL -/

theorem img_shiftBin (o : LOp) (f : Nat → Nat → Nat) (fm : Word) (a n : Nat) : ((shiftBin o f).f fm a n 0 0).img = f a n := rfl

theorem ofInt_two_pow (w k : Nat) : BitVec.ofInt w (2 ^ k) = BitVec.twoPow w k := by
  apply BitVec.eq_of_toNat_eq
  rw [BitVec.toNat_ofInt, BitVec.toNat_twoPow]
  exact_mod_cast Int.toNat_natCast (2 ^ k % 2 ^ w)

/-- A product with a power of two, truncated, is a shift. -/
theorem ofInt_mul_two_pow (w : Nat) (x : Int) (k : Nat) : BitVec.ofInt w (x * 2 ^ k) = BitVec.ofInt w x <<< k := by
  rw [BitVec.ofInt_mul, ofInt_two_pow, BitVec.mul_twoPow_eq_shiftLeft]

theorem shl_img (a : Word) (n : Nat) : (BitVec.ofInt 32 (a.toInt * 2 ^ min n 64)).toNat = if n < 32 then (a <<< n).toNat else 0 := by
  rw [ofInt_mul_two_pow, BitVec.ofInt_toInt]
  split
  · rw [Nat.min_eq_left (by omega)]
  · rw [BitVec.shiftLeft_eq_zero (by omega)]
    rfl

theorem shr_img (a : Word) (n : Nat) : a.toNat >>> min n 64 = if n < 32 then (a >>> n).toNat else 0 := by
  split
  · rw [Nat.min_eq_left (by omega), BitVec.toNat_ushiftRight]
  · rw [Nat.shiftRight_eq_div_pow]
    exact Nat.div_eq_of_lt (Nat.lt_of_lt_of_le a.isLt (Nat.pow_le_pow_right Nat.zero_lt_two (by omega)))

theorem sar_img (a : Word) (n : Nat) : BitVec.ofInt 32 (floorShift a.toInt n) = a.sshiftRight n := by
  rw [floorShift, BitVec.sshiftRight, Int.shiftRight_eq_div_pow]

theorem rot_img (a : Word) {r : Nat} (h : r < 32) :
    a.toNat * 2 ^ r % 2 ^ 32 + a.toNat / 2 ^ (32 - r) = (a.rotateLeft r).toNat := by
  have hlow : a.toNat / 2 ^ (32 - r) < 2 ^ r := by
    rw [Nat.div_lt_iff_lt_mul (Nat.two_pow_pos _), ← Nat.pow_add, Nat.add_sub_cancel' (by omega)]
    exact a.isLt
  have hhigh : a.toNat * 2 ^ r % 2 ^ 32 = 2 ^ r * (a.toNat % 2 ^ (32 - r)) := by
    rw [Nat.mul_comm, ← Nat.mul_mod_mul_left, ← Nat.pow_add, Nat.add_sub_cancel' (by omega)]
  rw [BitVec.toNat_rotateLeft, Nat.mod_eq_of_lt h, Nat.shiftLeft_eq, Nat.shiftRight_eq_div_pow, hhigh]
  exact Nat.two_pow_add_eq_or_of_lt hlow _

theorem trunc_64 (x : Int) : trunc x 64 = (BitVec.ofInt 64 x).toNat := by
  rw [trunc, BitVec.toNat_ofInt]

theorem relHolds_iff (r : Nat) (x y : Int) : ∀ e ∈ [(0, decide (x = y)), (1, decide (x ≠ y)), (2, decide (x < y)), (3, decide (x ≤ y)),
    (4, decide (y < x)), (5, decide (y ≤ x))], r = e.1 → relHolds r x y = e.2 := by
  intro e he hr
  simp only [List.mem_cons, List.not_mem_nil, or_false] at he
  rcases he with rfl | rfl | rfl | rfl | rfl | rfl <;> subst hr <;> simp [relHolds, bne, Bool.beq_eq_decide_eq]

/-- Settles O38: a product with a power of two, truncated, is a shift; ROT's two parts are disjoint. -/
theorem shiftAndComparisonResults : Obligations.ShiftAndComparisonResults := by
  unfold Obligations.ShiftAndComparisonResults
  constructor
  · intro o fm a n hmod
    simp only [kShl, kShr, kSar, kRot, img_shiftBin, wImg_i32 hmod, ity_i32 hmod, isSat_i32 hmod, tyWidth_i32, intRes_i32, intOf_i32,
      intImg_i32, sext_32,
      BitVec.ofNat_toNat, BitVec.setWidth_eq]
    refine ⟨shl_img a n, ?_, ?_, ?_⟩
    · rw [ofInt_natCast_toNat, shr_img]
      exact Nat.lt_of_le_of_lt (Nat.shiftRight_le _ _) a.isLt
    · rw [sar_img]
    · have hlt : n % 32 < 32 := Nat.mod_lt _ (by decide)
      rw [rot_img a hlt, ofInt_toNat_cast]
  · intro o fm a b hmod
    refine ⟨fun r hr hsub => ?_, fun p => ?_, rfl, rfl⟩
    · have hrel := relHolds_iff o.sub.toNat a.toInt b.toInt r hr hsub
      simp only [kIcmp, EltOut.val, ity_i32 hmod, intOf_i32, BitVec.ofNat_toNat, BitVec.setWidth_eq, hrel]
    · simp only [kLea, EltOut.val, ity_i32 hmod, intOf_i32, BitVec.ofNat_toNat, BitVec.setWidth_eq, trunc_64, BitVec.ofInt_add,
        ofInt_mul_two_pow, BitVec.ofInt_natCast]
      rfl

end Sys2Proof.Machine
end

section
/-! PROOFS. Memory: what a write makes good (R28), and what translation checks (R140 to R142, R411). -/
namespace Sys2Proof.Machine

/-! ### Conditionals and filters -/

/-- What a conditional gives, one of its branches gives. -/
theorem of_ite_eq {α : Type} {p : Prop} [Decidable p] {a b c : α} (h : (if p then a else b) = c) : p ∧ a = c ∨ ¬p ∧ b = c := by
  by_cases hp : p
  · exact .inl ⟨hp, (if_pos hp).symm.trans h⟩
  · exact .inr ⟨hp, (if_neg hp).symm.trans h⟩

theorem filter_always {α : Type} (l : List α) : (l.filter fun _ => true) = l := List.filter_eq_self.mpr fun _ _ => rfl

theorem filter_never {α : Type} (l : List α) : (l.filter fun _ => false) = [] :=
  List.filter_eq_nil_iff.mpr fun _ _ => Bool.false_ne_true

theorem mem_of_mem_filtered {α : Type} {p : α → Bool} {l : List α} {x : α} (h : x ∈ l.filter p) : x ∈ l := (List.mem_filter.mp h).1

/-! ### Bad words, bit by bit -/

theorem getLsbD_foldl_or {α : Type} (p : α → Bool) (w : α → Byte) (k : Nat) (l : List α) (m : Byte) :
    (l.foldl (fun m x => if p x then m ||| w x else m) m).getLsbD k = (m.getLsbD k || l.any fun x => p x && (w x).getLsbD k) := by
  induction l generalizing m with
  | nil => simp
  | cons x xs ih =>
    rw [List.foldl_cons, ih, List.any_cons]
    cases p x <;> simp [Bool.or_assoc]

/-- Word k of a line is bad by a held-line list or by an error that a reader finds. -/
def badBit (held : List HeldLine) (flaws : List LineFlaw) (line k : Nat) : Bool :=
  (held.any fun h => h.line == line && h.mask.getLsbD k) || flaws.any fun f => f.line == line && (errWords f.err).getLsbD k

theorem badWords_getLsbD (s : State) (line k : Nat) :
    (badWords s line).getLsbD k = badBit (s.die (homeDie line)).held s.flaws line k := by
  unfold badWords heldMask badBit
  rw [getLsbD_foldl_or, getLsbD_foldl_or]
  simp

/-- The home die of an address, by Table 1.1. -/
theorem homeDie_eq (pa : Nat) : homeDie pa =
    if pa < 0xC000000000 then pa / 0x3000000000
    else if 0x100000000000 ≤ pa ∧ pa < 0x100020000000 then (pa - 0x100000000000) / 0x8000000
    else if 0x400000000000 ≤ pa ∧ pa < 0x480000000000 then (pa - 0x400000000000) / 0x20000000000 else 0 := by
  unfold homeDie tierOf
  simp only [hbmDie, benchBase, benchDie, cxlBase, cxlPort, Nat.reduceMul, Nat.reduceAdd]
  by_cases hhbm : pa < 0xC000000000
  · simp [hhbm]
  · by_cases hbench : 0x100000000000 ≤ pa ∧ pa < 0x100020000000
    · simp [hhbm, hbench]
    · by_cases hcxl : 0x400000000000 ≤ pa ∧ pa < 0x480000000000 <;> simp [hhbm, hbench, hcxl]

theorem homeDie_lt (pa : Nat) : homeDie pa < 4 := by
  rw [homeDie_eq]
  repeat' split
  all_goals omega

/-- A line has one home. -/
theorem homeDie_line (pa : Nat) : homeDie (pa / 64 * 64) = homeDie pa := by
  rw [homeDie_eq, homeDie_eq]
  repeat' split
  all_goals omega

theorem State.die_setDie (s : State) (d e : Nat) (x : Die) (h : d < s.dies.length) :
    (s.setDie d x).die e = if e = d then x else s.die e := by
  unfold State.die State.setDie
  rw [List.getD_eq_getElem?_getD, List.getD_eq_getElem?_getD, List.getElem?_set]
  by_cases hed : d = e
  · subst hed
    simp [h]
  · simp [hed, Ne.symm hed]

/-- Entering a line that waits for a slot of the held-line list leaves the same words bad. -/
theorem badWords_enterWaiting {s : State} {d : Nat} (hd : d < s.dies.length) (line k : Nat) :
    (badWords (enterWaiting s d) line).getLsbD k = (badWords s line).getLsbD k := by
  unfold enterWaiting
  dsimp only
  split
  · rfl
  · split
    · next f hf =>
      have hhome : homeDie f.line = d := by
        have hfound := List.find?_some hf
        simp only [Bool.and_eq_true, beq_iff_eq] at hfound
        exact hfound.2
      rw [badWords_getLsbD, badWords_getLsbD]
      change badBit ((s.setDie d _).die (homeDie line)).held (s.flaws.filter fun g => g.line != f.line) line k = _
      rw [State.die_setDie _ _ _ _ hd]
      by_cases hline : f.line = line
      · subst hline
        rw [if_pos hhome]
        simp only [badBit, List.any_append, List.any_cons, List.any_nil, beq_self_eq_true, Bool.true_and, badWords_getLsbD, hhome,
          List.any_filter, Bool.or_false]
        have hnone : (s.flaws.any fun x => x.line != f.line && (x.line == f.line && (errWords x.err).getLsbD k)) = false := by
          simp +contextual
        rw [hnone]
        simp [Bool.or_comm]
      · have hflaws : ((s.flaws.filter fun g => g.line != f.line).any fun x => x.line == line && (errWords x.err).getLsbD k) =
            s.flaws.any fun x => x.line == line && (errWords x.err).getLsbD k := by
          rw [List.any_filter]
          congr 1
          funext x
          by_cases hx : x.line = line <;> simp [hx, Ne.symm hline]
        unfold badBit
        rw [hflaws]
        split
        · next h =>
          have hother : (f.line == line) = false := by simpa using hline
          simp [h, hother]
        · rfl
    · rfl

theorem wholeWords_getLsbD (line pa n : Nat) {k : Nat} (hk : k < 8) :
    (wholeWords line pa n).getLsbD k = decide (pa ≤ line + 8 * k ∧ line + 8 * k + 8 ≤ pa + n) := by
  have hfold : wholeWords line pa n = (List.range 8).foldl (fun (m : Byte) j =>
      if decide (pa ≤ line + 8 * j ∧ line + 8 * j + 8 ≤ pa + n) then m ||| ((1 <<< j : Nat) : Byte) else m) 0 := by
    simp [wholeWords]
  have hbit : ∀ j < 8, ((1 <<< j : Nat) : Byte).getLsbD k = decide (j = k) := by
    revert k
    decide
  rw [hfold, getLsbD_foldl_or, Bool.eq_iff_iff]
  simp only [BitVec.ofNat_eq_ofNat, BitVec.getLsbD_zero, Bool.false_or, List.any_eq_true, List.mem_range, Bool.and_eq_true, decide_eq_true_eq]
  constructor
  · rintro ⟨j, hj, hwhole, hset⟩
    rw [hbit j hj, decide_eq_true_eq] at hset
    exact hset ▸ hwhole
  · exact fun hwhole => ⟨k, hk, hwhole, by rw [hbit k hk]; simp⟩

/-- What is left of a bad mask once some words are written whole. -/
theorem getLsbD_andNot (m good : Byte) {k : Nat} (hk : k < 8) : (m &&& ~~~good).getLsbD k = (m.getLsbD k && !good.getLsbD k) := by
  simp [hk]

theorem heldHeal_bits (h : HeldLine) (good : Byte) {k : Nat} (hk : k < 8) :
    ((h.heal good).any fun x => x.mask.getLsbD k) = (h.mask.getLsbD k && !good.getLsbD k) ∧ ∀ x ∈ h.heal good, x.line = h.line := by
  rw [← getLsbD_andNot _ _ hk]
  unfold HeldLine.heal
  split
  · next hz => simp [hz]
  · simp

theorem flawHeal_bits (f : LineFlaw) (good : Byte) {k : Nat} (hk : k < 8) :
    ((f.heal good).any fun x => (errWords x.err).getLsbD k) = ((errWords f.err).getLsbD k && !good.getLsbD k) ∧
      ∀ x ∈ f.heal good, x.line = f.line := by
  unfold LineFlaw.heal
  split
  · next hop mask synd he =>
    rw [he, errWords, ← getLsbD_andNot _ _ hk]
    split
    · next hz => simp [hz]
    · simp [errWords]
  · next hne =>
    have hzero : errWords f.err = 0 := by
      unfold errWords
      split
      · next hop mask synd he => exact absurd he (hne hop mask synd)
      · rfl
    simp [hzero]

/-- Healing the entries of one line of a list clears that line's good bits and no other line's. -/
theorem any_filterMap_heal {α : Type} (line : α → Nat) (bitAt : α → Bool) (heal : α → Option α) (good : Bool) (healed at_ : Nat)
    (hbit : ∀ x, ((heal x).any bitAt) = (bitAt x && !good)) (hline : ∀ x, ∀ y ∈ heal x, line y = line x) (l : List α) :
    ((l.filterMap fun x => if line x == healed then heal x else some x).any fun x => line x == at_ && bitAt x) =
      ((l.any fun x => line x == at_ && bitAt x) && !(at_ == healed && good)) := by
  rw [List.any_filterMap, List.and_any_distrib_right]
  congr 1
  funext x
  have hx := hbit x
  have hl := hline x
  by_cases hh : line x = healed
  · simp only [hh, beq_self_eq_true, if_true]
    cases hy : heal x with
    | none =>
      rw [hy, Option.any_none] at hx
      by_cases ha : healed = at_ <;> simp [ha, ← hx]
    | some y =>
      rw [hy, Option.any_some] at hx
      rw [hy] at hl
      have hly : line y = healed := (hl y rfl).trans hh
      by_cases ha : healed = at_
      · simp [ha, hly, hx]
      · simp [beq_eq_false_iff_ne.mpr ha, hly]
  · by_cases ha : line x = at_
    · subst ha
      simp [hh]
    · simp [hh, ha]

/-- A write within one line makes good the bad words that it covers wholly, and no other (R28). -/
theorem badWords_healWords {s : State} (hdies : 4 ≤ s.dies.length) {pa n line k : Nat} (hspan : pa % 64 + n ≤ 64) (hline : line % 64 = 0)
    (hk : k < 8) :
    (badWords (healWords s pa n) line).getLsbD k =
      ((badWords s line).getLsbD k && !decide (pa ≤ line + 8 * k ∧ line + 8 * k + 8 ≤ pa + n)) := by
  have hcover : (line == pa / 64 * 64 && decide (pa ≤ pa / 64 * 64 + 8 * k ∧ pa / 64 * 64 + 8 * k + 8 ≤ pa + n)) =
      decide (pa ≤ line + 8 * k ∧ line + 8 * k + 8 ≤ pa + n) := by
    rw [Bool.eq_iff_iff]
    simp only [Bool.and_eq_true, beq_iff_eq, decide_eq_true_eq]
    constructor
    · rintro ⟨rfl, h⟩
      exact h
    · intro h
      have : line = pa / 64 * 64 := by omega
      exact ⟨this, this ▸ h⟩
  unfold healWords
  dsimp only
  split
  · next hzero =>
    rw [← hcover]
    by_cases hl : line = pa / 64 * 64
    · rw [hl, hzero]
      simp
    · have : (line == pa / 64 * 64) = false := by simpa using hl
      simp [this]
  · have hd : homeDie pa < s.dies.length := Nat.lt_of_lt_of_le (homeDie_lt pa) hdies
    rw [badWords_enterWaiting (by simpa [State.setDie] using hd), badWords_getLsbD, badWords_getLsbD, ← hcover]
    have hgood : decide (pa ≤ pa / 64 * 64 + 8 * k ∧ pa / 64 * 64 + 8 * k + 8 ≤ pa + n) =
        (wholeWords (pa / 64 * 64) pa n).getLsbD k := (wholeWords_getLsbD _ _ _ hk).symm
    have hflaws := any_filterMap_heal (·.line) (fun f : LineFlaw => (errWords f.err).getLsbD k) (·.heal (wholeWords (pa / 64 * 64) pa n))
      ((wholeWords (pa / 64 * 64) pa n).getLsbD k) (pa / 64 * 64) line (fun f => (flawHeal_bits f _ hk).1)
      (fun f => (flawHeal_bits f _ hk).2) s.flaws
    have hheld := any_filterMap_heal (·.line) (fun h : HeldLine => h.mask.getLsbD k) (·.heal (wholeWords (pa / 64 * 64) pa n))
      ((wholeWords (pa / 64 * 64) pa n).getLsbD k) (pa / 64 * 64) line (fun h => (heldHeal_bits h _ hk).1)
      (fun h => (heldHeal_bits h _ hk).2) (s.die (homeDie pa)).held
    change badBit ((State.setDie _ (homeDie pa) _).die (homeDie line)).held _ line k = _
    rw [State.die_setDie _ _ _ _ (by simpa using hd), hgood]
    by_cases hhome : homeDie line = homeDie pa
    · rw [if_pos hhome, hhome]
      unfold badBit
      dsimp only [State.setDie_flaws]
      rw [hflaws, hheld, ← Bool.and_or_distrib_right]
    · have hne : (line == pa / 64 * 64) = false := beq_eq_false_iff_ne.mpr fun h => hhome (h ▸ homeDie_line pa)
      rw [if_neg hhome]
      unfold badBit
      dsimp only [State.setDie_flaws]
      rw [hflaws, hne]
      simp [State.die]

@[simp] theorem enterWaiting_dies_length (s : State) (d : Nat) : (enterWaiting s d).dies.length = s.dies.length := by
  unfold enterWaiting
  dsimp only
  split
  · rfl
  · split
    · simp [State.setDie]
    · rfl

@[simp] theorem healWords_dies_length (s : State) (pa n : Nat) : (healWords s pa n).dies.length = s.dies.length := by
  unfold healWords
  dsimp only
  split
  · rfl
  · simp [State.setDie]

/-- A write of several pieces of lines makes good what one of them covers. -/
theorem badWords_healPieces {line k pa hi : Nat} (hline : line % 64 = 0) (hk : k < 8) (ls : List Nat) {s : State}
    (hdies : 4 ≤ s.dies.length) :
    (badWords (ls.foldl (fun s l => if max pa (l * 64) < min hi (l * 64 + 64) then
        healWords s (max pa (l * 64)) (min hi (l * 64 + 64) - max pa (l * 64)) else s) s) line).getLsbD k =
      ((badWords s line).getLsbD k && !ls.any fun l => l * 64 == line && decide (pa ≤ line + 8 * k ∧ line + 8 * k + 8 ≤ hi)) := by
  induction ls generalizing s with
  | nil => simp
  | cons l ls ih =>
    rw [List.foldl_cons, List.any_cons, Bool.not_or, ← Bool.and_assoc]
    split
    · next hlt =>
      rw [ih (by simpa using hdies), badWords_healWords hdies (by omega) hline hk]
      congr 3
      rw [Bool.eq_iff_iff]
      simp only [Bool.and_eq_true, beq_iff_eq, decide_eq_true_eq]
      omega
    · next hge =>
      have hnone : (l * 64 == line && decide (pa ≤ line + 8 * k ∧ line + 8 * k + 8 ≤ hi)) = false := by
        rw [Bool.eq_false_iff]
        simp only [ne_eq, Bool.and_eq_true, beq_iff_eq, decide_eq_true_eq]
        omega
      rw [ih hdies, hnone, Bool.not_false, Bool.and_true]

/-- A write of any length makes good the bad words that it covers wholly, and no other (R28). -/
theorem badWords_pwriteLong {s : State} (hdies : 4 ≤ s.dies.length) (a : Nat) (d : List Byte) {line k : Nat} (hline : line % 64 = 0)
    (hk : k < 8) :
    (badWords (pwriteLong s a d) line).getLsbD k =
      ((badWords s line).getLsbD k && !decide (a ≤ line + 8 * k ∧ line + 8 * k + 8 ≤ a + d.length)) := by
  have hall : (((List.range (d.length / 64 + 2)).map fun k => a / 64 + k).any fun l =>
      l * 64 == line && decide (a ≤ line + 8 * k ∧ line + 8 * k + 8 ≤ a + d.length)) =
        decide (a ≤ line + 8 * k ∧ line + 8 * k + 8 ≤ a + d.length) := by
    rw [Bool.eq_iff_iff]
    simp only [List.any_map, List.any_eq_true, List.mem_range, Function.comp_apply, Bool.and_eq_true, beq_iff_eq, decide_eq_true_eq]
    constructor
    · rintro ⟨j, -, -, h⟩
      exact h
    · exact fun h => ⟨line / 64 - a / 64, by omega, by omega, h⟩
  rw [← hall]
  exact badWords_healPieces hline hk _ (s := { s with mem := swrite s.mem a d }) hdies

theorem badWords_pwrite {s : State} (hdies : 4 ≤ s.dies.length) {a : Nat} {d : List Byte} (hspan : a % 64 + d.length ≤ 64) {line k : Nat}
    (hline : line % 64 = 0) (hk : k < 8) :
    (badWords (pwrite s a d) line).getLsbD k =
      ((badWords s line).getLsbD k && !decide (a ≤ line + 8 * k ∧ line + 8 * k + 8 ≤ a + d.length)) :=
  badWords_healWords (s := { s with mem := swrite s.mem a d }) hdies hspan hline hk

/-- Settles O9: the sparse stores read back what was written, and `badWords_pwriteLong` says which bad words are made good. -/
theorem memoryReadsBackWhatWasWritten : Obligations.MemoryReadsBackWhatWasWritten := by
  unfold Obligations.MemoryReadsBackWhatWasWritten
  constructor
  · intro s a d hok
    have hmem := memOk_mem hok
    have hhost := memOk_hostmem hok
    refine ⟨pread_pwrite s a d hmem, pwrite_memOk s a d hok, fun b hb => pwrite_other s a b d hmem hb, pwrite_hostmem s a d, ?_,
      pwriteLong_memOk s a d hok, ?_, pwriteLong_hostmem s a d, sread_swrite _ a d hhost, hwrite_memOk s a d hok, hwrite_mem s a d,
      fun b hb => sget_swrite_other _ a b d hhost hb⟩
    · rw [pread, pwriteLong_mem]
      exact sread_swrite _ a d hmem
    · intro b hb
      rw [pwriteLong_mem]
      exact sget_swrite_other _ a b d hmem hb
  · intro s a line k d hline hk hdies covered
    have hcovered : covered = decide (a ≤ line + 8 * k ∧ line + 8 * k + 8 ≤ a + d.length) := by simp [covered]
    rw [hcovered]
    exact ⟨badWords_pwriteLong hdies a d hline hk, fun hspan => badWords_pwrite hdies hspan hline hk⟩

/-! ### Translation (R140 to R142, R411) -/

section Translation
variable {s : State} {core die part va : Nat}

theorem faultCode_dataError (s : State) (die pa n : Nat) : faultCode (dataError s die pa n) = 9 := by
  unfold dataError
  split
  · simp [faultCode, faultAt]
  · rfl

/-- An entry fails to be read only where its line's check code or its home does not give it. -/
theorem pteAt_error {level base e : Nat} (h : pteAt s core die part level va base = .error e) :
    faultCode e = 9 ∧ ∃ a, pteBad s die a = true := by
  unfold pteAt at h
  split at h
  · cases h
  · dsimp only at h
    split at h <;> cases h
    next hbad => exact ⟨faultCode_dataError .., _, hbad⟩

/-- A walk that fails: code 1, code 2, or the data error of an entry. -/
theorem walk_error {e : Nat} (h : walk s core die part va = .error e) :
    e = 1 ∨ e = 2 ∨ faultCode e = 9 ∧ ∃ a, pteBad s die a = true := by
  unfold walk at h
  split at h
  · cases h; exact .inl rfl
  split at h
  · cases h; exact .inr (.inl rfl)
  split at h
  · next hread => cases h; exact .inr (.inr (pteAt_error hread))
  split at h
  · cases h; exact .inl rfl
  split at h
  · cases h; exact .inr (.inl rfl)
  split at h
  · next hread => cases h; exact .inr (.inr (pteAt_error hread))
  split at h
  · cases h; exact .inl rfl
  split at h
  · split at h <;> cases h
    exact .inr (.inl rfl)
  split at h
  · cases h; exact .inr (.inl rfl)
  split at h
  · next hread => cases h; exact .inr (.inr (pteAt_error hread))
  split at h
  · cases h; exact .inl rfl
  split at h <;> cases h
  exact .inr (.inl rfl)

theorem translate_beyond {need : Need} (h : 2 ^ 55 ≤ va) : translate s core die part va need = .error 3 := if_pos h

/-- A translation that fails: one of the codes 1 to 4, or the data error of an entry of the walk. -/
theorem translate_error {need : Need} {e : Nat} (h : translate s core die part va need = .error e) :
    e ∈ [1, 2, 3, 4] ∨ faultCode e = 9 ∧ ∃ a, pteBad s die a = true := by
  unfold translate at h
  split at h
  · cases h; simp
  split at h
  · next hwalk =>
    cases h
    rcases walk_error hwalk with rfl | rfl | hdata
    · simp
    · simp
    · exact .inr hdata
  dsimp only at h
  obtain ⟨-, h⟩ | ⟨-, h⟩ := of_ite_eq h
  · cases h; simp
  split at h <;> cases h
  simp

/-- What a translation that succeeds has checked. -/
theorem translate_ok {need : Need} {x : Xlat} (h : translate s core die part va need = .ok x) :
    va < 2 ^ 55 ∧ ∃ big, walk s core die part va = .ok (x.leaf, big) ∧
      x.pa = ptePfn x.leaf * 65536 + va % (if big then 2 ^ 29 else 65536) ∧ populated s x.pa = true ∧
      (need = .write → bit x.leaf 2 = true ∧ bit x.leaf 7 = false ∧ sealedPa s x.pa = false) ∧
      (need = .read → bit x.leaf 1 = true) ∧ (need = .exec → bit x.leaf 1 = true ∧ bit x.leaf 3 = true) ∧
      (∀ p, s.part? part = some p → bits x.leaf 63 48 = p.pkey) := by
  unfold translate at h
  split at h
  · cases h
  next hrange =>
  split at h
  · cases h
  next e big hwalk =>
  dsimp only at h
  obtain ⟨-, h⟩ | ⟨hchecks, h⟩ := of_ite_eq h
  · cases h
  split at h <;> cases h
  simp only [Bool.not_eq_true, Bool.or_eq_false_iff, bne_eq_false_iff_eq, Bool.not_eq_false'] at hchecks
  obtain ⟨⟨⟨hkey, hperm⟩, hpop⟩, -⟩ := hchecks
  refine ⟨by omega, big, hwalk, by cases big <;> rfl, hpop, ?_, ?_, ?_, fun p hp => by rw [hkey, hp]⟩
  · rintro rfl
    simp only [Bool.and_eq_true, Bool.not_eq_true'] at hperm
    exact ⟨hperm.1.1, hperm.1.2, hperm.2⟩
  · rintro rfl
    exact hperm
  · rintro rfl
    simpa using hperm

/-- A load that succeeds is aligned, and reads where translation with read permission leads (R411). -/
theorem loadLane_ok {g : Group} {c : Ctx} {lane n : Nat} {home : Bool} {bs : List Byte} {pa : Nat}
    (h : loadLane s g c lane va n home = .ok bs pa) :
    va % n = 0 ∧ ∃ x, translate s g.core g.die g.part va .read = .ok x ∧ x.pa = pa := by
  unfold loadLane at h
  split at h
  · cases h
  split at h
  · cases h
  next haligned =>
  split at h
  · cases h
  next x hx =>
  split at h
  · cases h
  dsimp only at h
  split at h <;> cases h
  exact ⟨Decidable.not_not.mp haligned, x, hx, rfl⟩

end Translation

/-- Settles O10: `translate_error` and `translate_ok` take the checks of R411 in order. -/
theorem translationIsChecked : Obligations.TranslationIsChecked := by
  unfold Obligations.TranslationIsChecked
  constructor
  · intro s core die part va need
    refine ⟨translate_beyond, fun e h => ?_, fun e hclean h => ?_, fun x h => (translate_ok h).2⟩
    · exact (translate_error h).imp_right And.left
    · rcases translate_error h with hcode | ⟨-, a, hbad⟩
      · exact hcode
      · rw [hclean a] at hbad
        cases hbad
  · intro s g c lane va n home hn
    refine ⟨fun h => if_pos h, fun hlt hmis => ?_, fun bs pa h => ?_⟩
    · rw [loadLane, if_neg (by omega), if_pos hmis]
    · obtain ⟨haligned, x, hx, hpa⟩ := loadLane_ok h
      exact ⟨haligned, (translate_ok hx).1, x, hx, hpa⟩

end Sys2Proof.Machine
end

section
/-! PROOFS. Traces: what stops an instruction before it issues, entry, faults, guards, flow modifiers and terminators (R100, R118 to R123,
R126, R177, R178, R284, R287 to R295, R414). -/
namespace Sys2Proof.Machine

section Trace
variable {s : State} {g : Group} {n : Node} {c : Ctx}

/-! ### Faults of a fragment as one -/

/-- A group fault takes every active lane. -/
theorem groupFault_handled (h : Handled g c) (code : Nat) :
    groupFault s g n c code = putCtx s g n (faulted s g c ((lanesOf c.active).map fun l => (l, code))).settle :=
  faultLanes_handled h _ _

theorem uniFault_handled (h : Handled g c) (code : Nat) (next : Ctx → Ctx) :
    uniFault s g n c code next = putCtx s g n (next (faulted s g c ((lanesOf c.active).map fun l => (l, code)))).settle :=
  faultLanes_handled h _ _

/-- A fault that page-fault service does not replace, in a method: the call is rejected with reason 4 (R249). -/
theorem faultLanes_method (hl : g.landing ≠ none) (f : Nat × Nat) (hf : c.active.getLsbD f.1 = true) (next : Ctx → Ctx) :
    faultLanes s g n c [f] next = rejectCall (putCtx s g n c) g 4 (faultCode f.2) := by
  have hsome : g.landing.isSome = true := Option.isSome_iff_ne_none.mpr hl
  simp [faultLanes, hf, hsome]

/-- What `precheck` answers past the trace's last instruction, or at a terminator that does not stand last (R119, R120). -/
theorem precheck_misplaced {isTerm : Bool} (u : Use) (hcan : canIssue s g n = true) (hctx : n.ctx = some c) (hterm : c.term = none)
    (hemul : c.emul = none) (hl : g.landing = none) (hlen : c.lastIx < c.ix ∨ (isTerm = true ∧ c.ix ≠ c.lastIx)) :
    precheck s g n isTerm u = .stop (groupFault s g n c 48) := by
  simp [precheck, hcan, hctx, hterm, hemul, hl, hlen]

end Trace

/-- Settles O33: an unallocated opcode is a group fault by its definition, and a group fault that the handler serves is `faulted_handler`. -/
theorem unallocatedWordsAndWrongLengthsFault : Obligations.UnallocatedWordsAndWrongLengthsFault := by
  unfold Obligations.UnallocatedWordsAndWrongLengthsFault
  constructor
  · intro why w s g n c hi hl h2 h3
    change execUnallocatedOpcode why w s = _
    rw [execUnallocatedOpcode, coreOp_issues hi 0 (.inl rfl), groupFault_handled ⟨hl, h2, h3⟩, faulted_handler _ rfl rfl]
    rfl
  · intro s g n c isTerm u hcan hctx hterm hemul hl hlen
    exact precheck_misplaced u hcan hctx hterm hemul hl hlen

/-- Settles O25, by the branches of `entryFault` and of `faultLanes`. -/
theorem faultsAtEntry : Obligations.FaultsAtEntry := by
  unfold Obligations.FaultsAtEntry
  constructor
  · intro s g n code hl
    refine ⟨fun hto h2 h3 => ?_, fun hto => ?_, fun hto hk => ?_⟩
    · unfold entryFault
      dsimp only
      rw [hl, hto]
      exact (if_neg Bool.false_ne_true).trans ((if_neg Bool.false_ne_true).trans (if_neg (not_or.mpr ⟨h2, h3⟩)))
    · simp [entryFault, hl, hto]
    · simp [entryFault, hl, hto, hk]
  · intro s g n c f next hact hcause
    refine ⟨fun hl hk => faultLanes_fatal hl hk ?_ ?_ next, fun hl => faultLanes_method hl f hact next⟩
    · simp [hact]
    · simpa using hcause

/-- Settles O24: `openTrace` in a fragment for which neither of its faults holds. -/
theorem tracesOpen : Obligations.TracesOpen := by
  unfold Obligations.TracesOpen
  intro h s g n hframe hcan hctx hmethod hhandler
  have hkind1 : (h.kind = 1 && g.landing.isNone) = false := by
    cases hl : g.landing with
    | none => simpa using fun h1 => hmethod h1 hl
    | some l => simp
  have hkind3 : (n.toHandler && h.kind != 3) = false := by
    cases hto : n.toHandler with
    | false => rfl
    | true => simp [hhandler hto]
  refine ⟨{ openCtx g n h with
    fetched := keepLines s g n.trace 2 [], inHandler := decide (n.trace = handlerOf s g) && g.landing.isNone },
    ?_, rfl, rfl, rfl, rfl, rfl, rfl, rfl, rfl, rfl, rfl, rfl, rfl, rfl⟩
  change execTrace h s = _
  simp only [execTrace, hframe, hctx, hcan, if_true]
  unfold openTrace
  rw [if_neg (Bool.eq_false_iff.mp hkind1), if_neg (Bool.eq_false_iff.mp hkind3)]

/-! ### Guards -/

section Guards
variable {s : State} {g : Group} {n : Node} {c : Ctx}

/-- Lanes that pass or fail at a guard: what their outcomes do, by the lanes that leave. -/
theorem applyGuard_outcomes (o : CtlOp) (lanes : List Nat) (out : Nat → Bool) (p : Nat → Pred) :
    applyGuard s g n c o (lanes.map fun l => if out l then (l, failFold (p l), some (guardFail c o l (p l))) else (l, 0, none)) =
      putCtx s (lanes.foldl (fun g' l => foldGuard g' l c.pc (if out l then failFold (p l) else 0)) g) n
        ((((lanes.filter out).map fun l => guardFail c o l (p l)).foldl Ctx.addFail c).advance
          (if o.w2.isSome then 3 else 2)).settle := by
  have hfold : ∀ (ls : List Nat) (g : Group),
      (ls.map fun l => if out l then (l, failFold (p l), some (guardFail c o l (p l))) else (l, 0, none)).foldl
          (fun g x => foldGuard g x.1 c.pc x.2.1) g =
        ls.foldl (fun g' l => foldGuard g' l c.pc (if out l then failFold (p l) else 0)) g := by
    intro ls g
    rw [List.foldl_map]
    congr 1
    funext g' l
    cases out l <;> rfl
  have hfails : ∀ ls : List Nat,
      (ls.map fun l => if out l then (l, failFold (p l), some (guardFail c o l (p l))) else (l, 0, none)).filterMap (fun x => x.2.2) =
        (ls.filter out).map fun l => guardFail c o l (p l) := by
    intro ls
    induction ls with
    | nil => rfl
    | cons l ls ih => cases h : out l <;> simp [h] at ih ⊢ <;> exact ih
  simp only [applyGuard, hfold, hfails]

/-- Where a lane that fails at a guard goes (R121, R290). -/
theorem guardFail_eq (o : CtlOp) (l : Nat) (p : Pred) :
    guardFail c o l p =
      if p = 2 ∧ o.w2.isSome then
        { lane := l, dest := .undecided (relAddr c.pc ((o.w2.getD 0).setWidth 24)), s63 := s63Of 4 2 0 c.ix, seq := none }
      else { lane := l, dest := .alternative (relAddr c.pc o.offset), s63 := s63Of 3 1 0 c.ix, seq := none } := by
  cases hw : o.w2 <;> simp [guardFail, guardUnd, guardAlt, hw]

end Guards

/-- Settles O22: GUARD and GUARDC are `applyGuard` of outcomes that differ in which lanes leave. -/
theorem guardsSplitLanes : Obligations.GuardsSplitLanes := by
  unfold Obligations.GuardsSplitLanes
  intro o s g n c hi lanes p words leave mark after
  have hleave : leave = fun l => guardFail c o l (p l) := funext fun l => (guardFail_eq o l (p l)).symm
  have hafter : ∀ out : Nat → Bool, after out = applyGuard (countCall s g) g n c o
      (lanes.map fun l => if out l then (l, failFold (p l), some (guardFail c o l (p l))) else (l, 0, none)) := by
    intro out
    rw [applyGuard_outcomes, ← hleave]
    rfl
  constructor
  · change execGuard o s = _
    rw [execGuard, coreOp_issues hi 0 (.inl rfl), hafter]
    congr 3
    funext l
    by_cases hp : g.rp l o.pred.toNat = o.sense <;> simp [p, hp]
  · change execGuardc o s = _
    rw [execGuardc, coreOp_issues hi 0 (.inl rfl), hafter]
    dsimp only
    congr 3
    funext l
    change (if lanes.all (fun l => p l == o.sense) = true then _ else _) = _
    cases lanes.all (fun l => p l == o.sense) <;> rfl

/-! ### What an instruction uses, and only writes -/

section Issuing
variable {s : State} {g : Group} {n : Node} {c : Ctx} {isTerm : Bool}

/-- Whether an instruction issues does not depend on which of its registers it only writes, nor on how it selects lanes: it waits for
them all, and for every lane of its fragment (R101, R130). -/
theorem Issues.written {u : Use} (h : Issues s g n c isTerm u) {wv ws : List Nat} {ps pm : Nat} :
    Issues s g n c isTerm { u with wv := wv, ws := ws, ps := ps, pm := pm } :=
  ⟨h.frame, h.can, h.ctx, h.going, h.count, h.len, h.board, h.own, h.clean⟩

end Issuing

/-! ### Flow modifiers -/

section Modifiers
variable {s : State} {g : Group} {n : Node} {c : Ctx}

theorem setFlow_taken (f : Flow) (h : c.flow ≠ none) : setFlow f s g n c = groupFault s g n c 48 := by
  simp [setFlow, Option.isSome_iff_ne_none, h]

theorem setFlow_free (f : Flow) (h : c.flow = none) : setFlow f s g n c = putCtx s g n ({ c with flow := some f }.advance 2) := by
  simp [setFlow, h]

theorem exec_callt (h : Issues s g n c false Use.none) (o : CtlOp) :
    exec (.callt o) s = .next (if c.flow.isSome then groupFault (countCall s g) g n c 48
      else faultLanes (countCall s g) g n { c with flow := some (.callt (relAddr c.pc o.offset)) }
        (((lanesOf c.active).filter fun l => decide (8 ≤ (sget g.rdepth l).toNat)).map fun l => (l, 15)) (·.advance 2)) :=
  show execCallt o s = _ from coreOp_issues h 0 (.inl rfl) _

theorem exec_rett (h : Issues s g n c false Use.none) :
    exec .rett s = .next (if c.flow.isSome then groupFault (countCall s g) g n c 48
      else faultLanes (countCall s g) g n { c with flow := some .rett }
        (((lanesOf c.active).filter fun l => sget g.rdepth l == 0).map fun l => (l, 16)) (·.advance 2)) :=
  show execRett s = _ from coreOp_issues h 0 (.inl rfl) _

theorem exec_kill (h : Issues s g n c false Use.none) :
    exec .kill s = .next (if c.hdr.kind = 1 then groupFault (countCall s g) g n c 48 else setFlow .kill (countCall s g) g n c) :=
  show execKill s = _ from coreOp_issues h 0 (.inl rfl) _

theorem exec_yield (h : Issues s g n c false Use.none) :
    exec .yield s = .next (if c.hdr.kind = 2 && inSaving s g then setFlow .yield (countCall s g) g n c
      else groupFault (countCall s g) g n c 48) := by
  have hsaving : inSaving (countCall s g) g = inSaving s g := by
    cases hl : g.landing <;> simp [countCall, hl, inSaving, State.wkg?]
  rw [← hsaving]
  exact show execYield s = _ from coreOp_issues h 0 (.inl rfl) _

theorem exec_resume (h : Issues s g n c false Use.none) :
    exec .resume s = .next (if c.hdr.kind = 2 && n.restored && g.loadsplit && !endsOtherwise (countCall s g) g c
      then putCtx (countCall s g) g n ({ c with resume := true }.advance 2) else groupFault (countCall s g) g n c 48) :=
  show execResume s = _ from coreOp_issues h 0 (.inl rfl) _

end Modifiers

/-- Settles O23, by the conditions of each modifier: its kind of trace, then whether the trace has a modifier already. -/
theorem flowModifiersTakeTheirPlace : Obligations.FlowModifiersTakeTheirPlace := by
  unfold Obligations.FlowModifiersTakeTheirPlace
  constructor
  · intro s g n c hi bad
    have hserved : Handled g c → ∀ f, Handled g { c with flow := f } := fun hh _ => hh
    refine ⟨fun hflow => ?_, fun hflow hh => ⟨fun o => ?_, ?_⟩, fun hk => ?_, fun hk => ?_, fun hk => ?_⟩
    · have hsome : c.flow.isSome = true := Option.isSome_iff_ne_none.mpr hflow
      refine ⟨fun o => ?_, ?_, ?_, ?_⟩
      · rw [exec_callt hi, if_pos hsome]
      · rw [exec_rett hi, if_pos hsome]
      · rw [exec_kill hi, setFlow_taken _ hflow, ite_self]
      · rw [exec_yield hi, setFlow_taken _ hflow, ite_self]
    · rw [exec_callt hi, if_neg (by simp [hflow]), faultLanes_handled (hserved hh _),
        countCall_core hh.1, stand, countCall_core hh.1]
    · rw [exec_rett hi, if_neg (by simp [hflow]), faultLanes_handled (hserved hh _),
        countCall_core hh.1, stand, countCall_core hh.1]
    · rw [exec_kill hi, if_pos hk]
    · rw [exec_yield hi, if_neg (by simpa using hk)]
    · rw [exec_resume hi, if_neg (by simp only [Bool.and_eq_true, decide_eq_true_eq]; exact fun h => hk ⟨h.1.1.1, h.1.1.2, h.1.2⟩)]
  · intro s g n c hi hflow
    refine ⟨fun o hdepth => ?_, fun hdepth => ?_, fun hk => ?_, fun hk hs => ?_, fun hk hr hl => ?_⟩
    · have hnone : ((lanesOf c.active).filter fun l => decide (8 ≤ (sget g.rdepth l).toNat)) = [] := by
        simpa using hdepth
      rw [exec_callt hi, if_neg (by simp [hflow]), hnone, List.map_nil, faultLanes_nil, stand]
    · have hnone : ((lanesOf c.active).filter fun l => sget g.rdepth l == 0) = [] := by
        simpa using hdepth
      rw [exec_rett hi, if_neg (by simp [hflow]), hnone, List.map_nil, faultLanes_nil, stand]
    · rw [exec_kill hi, if_neg hk, setFlow_free _ hflow, stand]
    · rw [exec_yield hi, if_pos (by simp [hk, hs]), setFlow_free _ hflow, stand]
    · rw [exec_resume hi]
      cases hends : endsOtherwise (countCall s g) g c <;> simp [hk, hr, hl, stand]

/-! ### Terminators -/

section Terminators
variable {s : State} {g : Group} {n : Node} {c : Ctx}

/-- A terminator issues where the trace's modifiers allow it and its targets lie in the code window (R100, R292, R295). -/
theorem terminate_eq (t : Term) (succ : List Nat) :
    terminate s g n c t succ =
      if termFits c t = false then groupFault s g n c 48
      else if termReaches g c succ = false then groupFault s g n c 50
      else putCtx s g n { c with term := some t } := by
  have hany : ∀ as : List Nat, (as.any fun a => !inWindow g a) = !as.all (inWindow g) :=
    fun as => (List.not_all_eq_any_not ..).symm
  unfold terminate termFits termReaches
  rcases c.flow with _ | f
  · cases t <;> cases c.resume <;> simp [hany, -List.any_eq_true]
  · cases f <;> cases t <;> cases c.resume <;> simp [hany, -List.any_eq_true, -List.any_append, -List.all_append]

theorem terminate_goes {t : Term} {succ : List Nat} (hfits : termFits c t = true) (hreach : termReaches g c succ = true) :
    terminate s g n c t succ = putCtx s g n { c with term := some t } := by
  simp [terminate_eq, hfits, hreach]

/-- The terminators that carry no record and no ring issue as such, where their operands are legal. -/
theorem exec_plainTerm {i : Instr} {t : Term} {succ : List Nat} (ht : plainTerm s g c i = some (t, succ))
    (hi : Issues s g n c true (termUse i)) : exec i s = .next (terminate (countCall s g) g n c t succ) := by
  unfold plainTerm at ht
  split at ht
  case h_1 o =>
    cases ht
    exact show execEndTrace o s = _ from coreOp_issues hi 0 (.inl rfl) _
  case h_2 o =>
    cases ht
    exact show execJoin o s = _ from coreOp_issues hi 0 (.inl rfl) _
  case h_3 =>
    cases ht
    exact show execExit s = _ from coreOp_issues hi 0 (.inl rfl) _
  case h_4 o =>
    obtain ⟨hodd, h⟩ | ⟨-, h⟩ := of_ite_eq ht <;> cases h
    have hi : Issues s g n c true { Use.none with sr := [o.a.toNat, o.a.toNat + 1] } := hi
    change execEndx o s = _
    unfold execEndx
    dsimp only
    rw [coreOp_issues hi 0 (.inl rfl), if_neg (by omega)]
  case h_5 o =>
    obtain ⟨⟨hl, hnum⟩, h⟩ | ⟨-, h⟩ := of_ite_eq ht <;> cases h
    refine (show execBar o s = _ from coreOp_issues hi 6 (.inr hl) _).trans ?_
    dsimp only
    rw [if_neg (by omega)]
  case h_6 o =>
    obtain ⟨⟨hl, hnum, hclu⟩, h⟩ | ⟨-, h⟩ := of_ite_eq ht <;> cases h
    refine (show execCbar o s = _ from coreOp_issues hi 6 (.inr hl) _).trans ?_
    dsimp only
    rw [countCall_core hl, if_neg (by simp [hclu]; omega)]
  case h_7 => cases ht

theorem exec_plainTerm_goes {i : Instr} {t : Term} {succ : List Nat} (ht : plainTerm s g c i = some (t, succ))
    (hi : Issues s g n c true (termUse i)) (hfits : termFits c t = true) (hreach : termReaches g c succ = true) :
    exec i s = .next (stand s g g n { c with term := some t }) := by
  rw [exec_plainTerm ht hi, terminate_goes hfits hreach, stand]

/-- PUSHQ and POPQ of an attached ring that passes its checks (R308). -/
theorem ringTerm_goes {cons : Bool} {o : CtlOp} {mk : Bool → Nat → Nat → Nat → Nat → Term} (hl : g.landing = none)
    (hi : Issues s g n c true { Use.none with sr := ringUse (bit o.sub.toNat 2) o.d.toNat, vr := [o.a.toNat], pr := [o.pred.toNat] })
    (hd : o.d.toNat < 64) (hreg : ringRegOk (bit o.sub.toNat 2) o.d.toNat = true) (ha : o.a.toNat < g.nregs)
    (hready : headerReady s g (ringSpot g n (bit o.sub.toNat 2) o.d.toNat) = true)
    (hheld : g.rings.contains (cons, bit o.sub.toNat 2, (ringSpot g n (bit o.sub.toNat 2) o.d.toNat).addr) = true)
    (hok : ∃ h pa, ringCheck (seeSpot s g (ringSpot g n (bit o.sub.toNat 2) o.d.toNat) 64) g c
      (ringSpot g n (bit o.sub.toNat 2) o.d.toNat) = .ok h pa) :
    ringTerm cons o mk s = .next (terminate (seeSpot s g (ringSpot g n (bit o.sub.toNat 2) o.d.toNat) 64) g n c
      (mk (bit o.sub.toNat 2) (ringSpot g n (bit o.sub.toNat 2) o.d.toNat).addr o.a.toNat o.pred.toNat (relAddr c.pc o.offset))
      [relAddr c.pc o.offset]) := by
  obtain ⟨h, pa, hok⟩ := hok
  have hregs : (decide (o.d.toNat < 64) && ringRegOk (bit o.sub.toNat 2) o.d.toNat) = true := by simp [hd, hreg]
  unfold ringTerm
  dsimp only
  rw [waitOp_issues hi 6 (.inr hl)]
  · simp only [countCall_core hl, hregs, hheld, hok, decide_eq_false (Nat.not_le.mpr ha), Bool.not_true, Bool.or_false, Bool.false_eq_true, if_false]
  · simp [hregs, hready]

end Terminators

/-- Settles O21: every terminator with legal operands issues as `terminate`, and `terminate_eq` says which of its three ends follows. -/
theorem terminatorsEndTheTrace : Obligations.TerminatorsEndTheTrace := by
  unfold Obligations.TerminatorsEndTheTrace
  intro s g n c goes
  refine ⟨fun o hi => ⟨?_, ?_, ?_, ?_⟩, fun hi hfits hreach => ?_, fun o hi heven hlt hfits hreach => ?_, ?_, ?_,
    fun i t succ ht hi => ⟨fun hfits => ?_, fun hfits hreach => ?_⟩⟩
  · exact exec_plainTerm_goes (i := .endTrace o) rfl hi
  · exact exec_plainTerm_goes (i := .join o) rfl hi
  · exact fun hl hnum => exec_plainTerm_goes (i := .bar o) (if_pos ⟨hl, hnum⟩) hi
  · exact fun hl hnum hclu => exec_plainTerm_goes (i := .cbar o) (if_pos ⟨hl, hnum, hclu⟩) hi
  · exact exec_plainTerm_goes (i := .exit) rfl hi hfits hreach
  · exact exec_plainTerm_goes (i := .endx o) (if_pos ⟨heven, hlt⟩) hi hfits hreach
  · intro o hl hi hd hrec t call hfits hreach
    change execRcall o s = _
    unfold execRcall
    dsimp only
    rw [coreOp_issues hi.written 6 (.inr hl), if_neg (by simp [hrec]; omega), terminate_goes hfits hreach]
    rfl
  · intro o cons hl hi bench x t ring seen hd hreg ha hready hheld hok hfits hreach
    cases cons with
    | true =>
      refine (show execPopq o s = _ from ringTerm_goes hl hi hd hreg ha hready hheld hok).trans ?_
      exact congrArg _ (terminate_goes hfits hreach)
    | false =>
      refine (show execPushq o s = _ from ringTerm_goes hl hi hd hreg ha hready hheld hok).trans ?_
      exact congrArg _ (terminate_goes hfits hreach)
  · rw [exec_plainTerm ht hi, terminate_eq, if_pos hfits]
  · rw [exec_plainTerm ht hi, terminate_eq, if_neg (by simp [hfits]), if_pos hreach]

end Sys2Proof.Machine
end

section
/-! PROOFS. Special registers, waits, and effects that are buffered until commit (R87, R125, R183, R211, R300 to R303, R307, R310, R354,
R362, R368, R377, R382, R384). -/
namespace Sys2Proof.Machine

/-! ### A group of the state, and the fragment that issues -/

section Groups
variable {s : State} {g : Group} {n : Node} {c : Ctx}

/-- A group that is there reads back as it was set. -/
theorem State.group?_setGroup {x : Group} (h : (s.group? x.uid).isSome = true) : (s.setGroup x).group? x.uid = some x := by
  obtain ⟨y, hy⟩ := Option.isSome_iff_exists.mp h
  have hkey : (fun z : Group => (if z.uid == x.uid then x else z).uid == x.uid) = fun z => z.uid == x.uid := by
    funext z
    by_cases hz : z.uid == x.uid <;> simp [hz]
  have hfind : s.groups.find? (fun z => z.uid == x.uid) = some y := hy
  have hyx : (y.uid == x.uid) = true := List.find?_some (p := fun z : Group => z.uid == x.uid) hfind
  change (s.groups.map fun z => if z.uid == x.uid then x else z).find? (fun z => z.uid == x.uid) = some x
  rw [List.find?_map, show ((fun z : Group => z.uid == x.uid) ∘ fun z => if z.uid == x.uid then x else z) =
    fun z => z.uid == x.uid from hkey, hfind, Option.map_some, if_pos hyx]

/-- The fragment that issues is the leaf that the state names, of the group that it names. -/
theorem curFrame_eq_some : curFrame s = some (g, n) ↔
    s.cur = .frag g.uid n.ix ∧ s.group? g.uid = some g ∧ g.node? n.ix = some n ∧ n.leaf = true := by
  unfold curFrame
  constructor
  · intro h
    split at h <;> try contradiction
    next gid nix hcur =>
      split at h <;> try contradiction
      next gr hgr =>
        split at h <;> try contradiction
        next nd hnd =>
          split at h <;> try contradiction
          next hleaf =>
            cases h
            have hg : g.uid = gid := by simpa using List.find?_some hgr
            have hn : n.ix = nix := by simpa using List.find?_some hnd
            subst hg hn
            exact ⟨hcur, hgr, hnd, hleaf⟩
  · rintro ⟨hcur, hg, hn, hleaf⟩
    simp [hcur, hg, hn, hleaf]

theorem Issues.group {isTerm : Bool} {u : Use} (h : Issues s g n c isTerm u) : s.group? g.uid = some g :=
  (curFrame_eq_some.mp h.frame).2.1

end Groups

/-! ### Special registers -/

section SysRegs
variable {s : State} {g : Group} {n : Node} {c : Ctx}

/-- A SYSWR of a legal source faults where a zero field is set, and has its effect otherwise (R384). -/
theorem syswrOp_issues {o : LOp} {owned : List Nat} (zero : Word) (f : Word → Group → Node → Ctx → Group × Node × Ctx)
    (hl : g.landing = none) (hsrc : (o.w2.isSome || scalarOk o.b.toNat) = true)
    (hi : Issues s g n c false { Use.none with sr := owned ++ if o.w2.isSome then [] else scalarUse o.b.toNat }) :
    syswrOp o owned zero f s = .next (if syswrVal g n o &&& zero ≠ 0 then uniFault s g n c 6 (·.advance (lenWords o.w2))
      else putCtx s (f (syswrVal g n o) g n c).1 (f (syswrVal g n o) g n c).2.1
        ((f (syswrVal g n o) g n c).2.2.advance (lenWords o.w2))) := by
  have hlegal : (o.w2.isNone && !scalarOk o.b.toNat) = false := by
    cases hw : o.w2 <;> simp_all
  unfold syswrOp
  dsimp only
  rw [coreOp_issues hi.written 6 (.inr hl), countCall_core hl]
  simp [hlegal]

theorem syswrOp_fault {o : LOp} {owned : List Nat} {zero : Word} {f : Word → Group → Node → Ctx → Group × Node × Ctx}
    (hl : g.landing = none) (hsrc : (o.w2.isSome || scalarOk o.b.toNat) = true)
    (hi : Issues s g n c false { Use.none with sr := owned ++ if o.w2.isSome then [] else scalarUse o.b.toNat })
    (hz : syswrVal g n o &&& zero ≠ 0) : syswrOp o owned zero f s = .next (uniFault s g n c 6 (·.advance (lenWords o.w2))) := by
  rw [syswrOp_issues zero f hl hsrc hi, if_pos hz]

theorem syswrOp_commits {o : LOp} {r : CommitReg} {zero : Word} (hl : g.landing = none)
    (hsrc : (o.w2.isSome || scalarOk o.b.toNat) = true)
    (hi : Issues s g n c false { Use.none with sr := if o.w2.isSome then [] else scalarUse o.b.toNat })
    (hz : syswrVal g n o &&& zero = 0) : syswrOp o [] zero (atCommit r) s =
      .next (stand s g g n ((c.buffer (.sysw r (syswrVal g n o)) []).advance (lenWords o.w2))) := by
  rw [syswrOp_issues zero (atCommit r) hl hsrc hi, if_neg (not_not_intro hz), stand, countCall_core hl]
  rfl

/-- A special register that is owned like a scalar is written at issue, and shadowed where the trace does not own it yet (R130, R211). -/
theorem syswrOp_writes {o : LOp} {r : Nat} {zero : Word} (hr : 100 ≤ r) (hl : g.landing = none)
    (hsrc : (o.w2.isSome || scalarOk o.b.toNat) = true)
    (hi : Issues s g n c false { Use.none with sr := r :: if o.w2.isSome then [] else scalarUse o.b.toNat })
    (hz : syswrVal g n o &&& zero = 0) :
    ∃ c' : Ctx, syswrOp o [r] zero (fun v g n c => writeS (g, n, c) r v) s =
        .next (stand s g (g.setOwned r (syswrVal g n o)) n (c'.advance (lenWords o.w2))) ∧
      (∃ old, (r, old) ∈ c'.owned) ∧ (∀ e ∈ c.owned, e ∈ c'.owned) ∧
      ((∀ e ∈ c.owned, e.1 ≠ r) → c'.owned = (r, g.ownedVal r) :: c.owned) ∧ c'.effs = c.effs := by
  have hwrite : ∀ v, writeS (g, n, c) r v = (g.setOwned r v, n,
      if c.owned.any fun o => o.1 == r then c else { c with owned := (r, g.ownedVal r) :: c.owned }) :=
    fun v => by simp [writeS, hr]
  refine ⟨if c.owned.any fun o => o.1 == r then c else { c with owned := (r, g.ownedVal r) :: c.owned }, ?_, ?_⟩
  · rw [syswrOp_issues zero _ hl hsrc hi, if_neg (not_not_intro hz), hwrite, stand, countCall_core hl]
  · by_cases hown : (c.owned.any fun o => o.1 == r) = true
    · rw [if_pos hown]
      obtain ⟨e, he, hre⟩ := List.any_eq_true.mp hown
      obtain rfl : e.1 = r := by simpa using hre
      exact ⟨⟨e.2, he⟩, fun _ h => h, fun h => absurd rfl (h e he), rfl⟩
    · rw [if_neg hown]
      exact ⟨⟨_, List.mem_cons_self⟩, fun _ h => List.mem_cons_of_mem _ h, fun _ => rfl, rfl⟩

/-- The latch of CYCLEH leaves the fragment ready to issue as it was. -/
theorem Issues.latch {u : Use} (h : Issues s g n c false u) (hl : g.landing = none) (x : Word) :
    Issues (s.setGroup { g with cycleh := x }) { g with cycleh := x } n c false u where
  frame := by
    obtain ⟨hcur, hg, hn, hleaf⟩ := curFrame_eq_some.mp h.frame
    exact curFrame_eq_some.mpr ⟨hcur, State.group?_setGroup (x := { g with cycleh := x }) (by rw [hg]; rfl), hn, hleaf⟩
  can := h.can
  ctx := h.ctx
  going := h.going
  count := by simp [hl]
  len := h.len
  board := h.board
  own := h.own
  clean := h.clean

/-- Each SYSWR that takes effect at commit is the shared operation on its register and zero fields. -/
theorem exec_syswrAtCommit {x : (LOp → Instr) × CommitReg × Word} (hx : x ∈ syswrAtCommit) (o : LOp) (s : State) :
    exec (x.1 o) s = syswrOp o [] x.2.2 (atCommit x.2.1) s := by
  simp only [syswrAtCommit, List.mem_cons, List.not_mem_nil, or_false] at hx
  rcases hx with rfl | rfl | rfl | rfl | rfl <;> rfl

/-- So is each that takes effect at issue, of the register that it names. -/
theorem exec_syswrAtIssue {x : (LOp → Instr) × Nat × Word} (hx : x ∈ syswrAtIssue) {o : LOp}
    (ha : o.a.toNat = (if x.2.1 = regFmode then 9 else if x.2.1 = regSavelo then 0x18 else 0x19)) (s : State) :
    exec (x.1 o) s = syswrOp o [x.2.1] x.2.2 (fun v g n c => writeS (g, n, c) x.2.1 v) s := by
  simp only [syswrAtIssue, List.mem_cons, List.not_mem_nil, or_false] at hx
  rcases hx with rfl | rfl | rfl
  · have ha9 : o.a = 9 := BitVec.eq_of_toNat_eq ha
    exact show execSyswrFmode o s = _ from if_pos ha9
  · rfl
  · rfl

theorem le_of_mem_syswrAtIssue {x : (LOp → Instr) × Nat × Word} (hx : x ∈ syswrAtIssue) : 100 ≤ x.2.1 := by
  simp only [syswrAtIssue, List.mem_cons, List.not_mem_nil, or_false] at hx
  rcases hx with rfl | rfl | rfl <;> decide

/-- The latch of CYCLEH is made where the read of CYCLE issues and reads (R382). -/
theorem latchCycle_issues {o : LOp} (hi : Issues s g n c false (cycleSpec o s).used) (hl : g.landing = none)
    (hok : sysrdOk o g.nregs = true) (hsel : selectsAny o g c = true) :
    latchCycle o s = s.setGroup { g with cycleh := BitVec.ofNat 32 (coreClock s g.core / 2 ^ 32) } := by
  have hpre : precheck s g n false (sysrdSpec o (fun _ _ => 0) g.nregs).used = .go s g n c := precheck_issues hi
  unfold latchCycle
  simp only [hi.frame, hpre]
  rw [if_pos (by simp [hl, hok, hsel])]

end SysRegs

/-- Settles O13: `syswrOp_issues` gives a SYSWR's three ends; a read of CYCLE is the lane instruction in the state that the latch leaves. -/
theorem specialRegisterReadsAndWrites : Obligations.SpecialRegisterReadsAndWrites := by
  unfold Obligations.SpecialRegisterReadsAndWrites
  refine ⟨fun o s g n c hl hsrc => ?_, fun o s g n c hl ha hi => ?_, fun o s g n c hi hl hok ha hsel hruns => ?_⟩
  · intro srcs v
    refine ⟨fun x hx hi => ?_, fun x hx ha hi => ?_⟩
    · rw [exec_syswrAtCommit hx]
      exact ⟨syswrOp_commits hl hsrc hi, syswrOp_fault hl hsrc hi⟩
    · rw [exec_syswrAtIssue hx ha]
      exact ⟨syswrOp_writes (le_of_mem_syswrAtIssue hx) hl hsrc hi, syswrOp_fault hl hsrc hi⟩
  · change execSyswrFmode o s = _
    rw [execSyswrFmode, if_neg ha, coreOp_issues hi 6 (.inr hl), countCall_core hl]
  · intro g1 d r
    have hi1 := hi.latch hl (BitVec.ofNat 32 (coreClock s g.core / 2 ^ 32))
    have hexec : exec (.sysrdCycle o) s = laneOp (cycleSpec o s) (latchCycle o s) := rfl
    obtain ⟨g', n', c', hw, hstep⟩ := laneOp_runs (cycleSpec o s) hi1 (.inr hl) hruns
    have hspec : cycleSpec o s = sysrdSpec o (fun g _ => BitVec.ofNat 32 (coreClock s g.core)) g.nregs := by
      rw [cycleSpec, hi.curNregs_eq]
    have hr : r = (g', n', c') := by
      rw [← hw, hspec]
      rfl
    rw [hexec, latchCycle_issues hi hl hok hsel, hstep, hr]
    rfl

/-! ### Effects buffered until commit -/

section Buffered
variable {s : State} {g : Group} {n : Node} {c : Ctx}

/-- GANG of a value that names a gang of the group is buffered; a literal and a scalar are read alike (R372). -/
theorem exec_gang {o : LOp} {w : Word} (hi : Issues s g n c false { Use.none with sr := if o.w2.isSome then [] else scalarUse o.a.toNat })
    (hl : g.landing = none) (hw : o.w2 = some w ∨ (o.w2 = none ∧ scalarOk o.a.toNat = true ∧ readScalar g n o.a.toNat = w))
    (hok : gangOk s g w = true) :
    exec (.gang o) s = .next (stand s g g n ((c.buffer (.gang w) []).advance (lenWords o.w2))) := by
  change execGang o s = _
  unfold execGang
  dsimp only
  rw [coreOp_issues hi 4 (.inr hl), countCall_core hl, stand, countCall_core hl]
  obtain hw | ⟨hw, hscal, rfl⟩ := hw
  · simp [hw, hok]
  · simp [hw, hscal, hok]

/-- QOPEN of a ring that passes its checks is buffered, or is a ninth attachment (R307). -/
theorem exec_qopen {o : LOp} {x : Spot} (hx : x = ringSpot g n (bit o.sub.toNat 2) o.a.toNat)
    (hi : Issues s g n c false { Use.none with sr := ringUse (bit o.sub.toNat 2) o.a.toNat })
    (hreg : ringRegOk (bit o.sub.toNat 2) o.a.toNat = true) (hready : headerReady s g x = true)
    (hok : ∃ h pa, ringCheck (seeSpot (countCall s g) g x 64) g c x = .ok h pa) :
    exec (.qopen o) s = .next
      (if !(attachments g).contains (bit o.sub.toNat 0, bit o.sub.toNat 2, x.addr) && 8 ≤ (attachments g).length then
        uniFault (seeSpot (countCall s g) g x 64) g n c 6 (·.advance 2)
      else putCtx (seeSpot (countCall s g) g x 64) g n
        ((c.buffer (.ring true (bit o.sub.toNat 0) (bit o.sub.toNat 2) x.addr) []).advance 2)) := by
  subst hx
  obtain ⟨h, pa, hok⟩ := hok
  change execQopen o s = _
  unfold execQopen
  dsimp only
  rw [waitOp_issues hi 0 (.inl rfl)]
  · simp only [hreg, hok, Bool.not_true, Bool.false_eq_true, if_false]
  · simp [hreg, hready]

theorem exec_qclose {o : LOp} (hi : Issues s g n c false { Use.none with sr := ringUse (bit o.sub.toNat 2) o.a.toNat }) :
    exec (.qclose o) s = .next (if !ringRegOk (bit o.sub.toNat 2) o.a.toNat then uniFault (countCall s g) g n c 6 (·.advance 2)
      else stand s g g n ((c.buffer (.ring false (bit o.sub.toNat 0) (bit o.sub.toNat 2)
        (ringSpot g n (bit o.sub.toNat 2) o.a.toNat).addr) []).advance 2)) := by
  change execQclose o s = _
  unfold execQclose
  dsimp only
  rw [coreOp_issues hi 0 (.inl rfl)]
  rfl

end Buffered

/-- Settles O14: each is a core instruction whose checks its hypotheses decide. -/
theorem orderingRingAndRecordEffectsAreBuffered : Obligations.OrderingRingAndRecordEffectsAreBuffered := by
  unfold Obligations.OrderingRingAndRecordEffectsAreBuffered
  constructor
  · intro s g n c
    refine ⟨fun o hi => ?_, fun hi hl => ?_, fun o hi hpair hscal hlen hva => ?_, fun o w hi hl hw hok => ?_, fun o hi hl hw hscal hok => ?_⟩
    · exact show execFence o s = _ from coreOp_issues hi 0 (.inl rfl) _
    · exact show execRelease s = _ from coreOp_issues hi 6 (.inr hl) _
    · change execIcinv o s = _
      unfold execIcinv
      dsimp only
      rw [coreOp_issues hi 0 (.inl rfl), if_neg (by simp [hpair, hscal]; omega), if_neg (by omega), stand]
    · rw [exec_gang (by rw [hw]; exact hi) hl (.inl hw) hok, hw]
      rfl
    · rw [exec_gang (by rw [hw]; exact hi) hl (.inr ⟨hw, hscal, rfl⟩) hok, hw]
      rfl
  · intro o s g n c bench x key
    refine ⟨?_, ?_, ?_, ?_, ?_, ?_⟩
    · intro hi hreg hready t hok hroom
      rw [exec_qopen rfl hi hreg hready hok, if_neg]
      intro hfull
      rw [Bool.and_eq_true, Bool.not_eq_true', decide_eq_true_eq] at hfull
      rcases (Bool.or_eq_true _ _).mp hroom with h | h
      · exact Bool.eq_false_iff.mp hfull.1 h
      · exact Nat.not_lt.mpr hfull.2 (of_decide_eq_true h)
    · intro hi hreg hready t hok hnew hfull
      rw [exec_qopen rfl hi hreg hready hok, if_pos]
      rw [Bool.and_eq_true, Bool.not_eq_true', decide_eq_true_eq]
      exact ⟨hnew, hfull⟩
    · intro hi hreg
      have hbad : (!ringRegOk (bit o.sub.toNat 2) o.a.toNat) = true := congrArg not hreg
      refine ⟨?_, by rw [exec_qclose hi, if_pos hbad]⟩
      change execQopen o s = _
      unfold execQopen
      dsimp only
      rw [waitOp_issues hi 0 (.inl rfl), if_pos hbad]
      rw [hbad, Bool.true_or]
    · intro hi hreg
      rw [exec_qclose hi, if_neg (by rw [show ringRegOk (bit o.sub.toNat 2) o.a.toNat = true from hreg]; decide)]
    · intro hi hkind hpair
      change execRret o s = _
      unfold execRret
      dsimp only
      rw [coreOp_issues hi 0 (.inl rfl), if_neg (by simp [hkind]), if_neg (by simp [hpair]), stand]
    · intro hi hl ha hb hroom hseal
      change execDlog o s = _
      unfold execDlog
      dsimp only
      rw [coreOp_issues hi.written 6 (.inr hl), countCall_core hl, if_neg (by simp [ha, hb]), if_neg (by omega),
        if_neg (by simp [hseal]), stand, countCall_core hl]
      rfl

/-! ### A write to one lane -/

/-- A pair takes the two words of its image, a single register the one (R114). -/
theorem foldl_writeRef_dstWrites (g : Group) (n : Node) (c : Ctx) (lane d : Nat) (wide : Bool) (x : Nat) :
    (dstWrites false lane d 0 wide x).foldl (fun g' w => (writeRef (g', n, c) w).1) g =
      if wide then (g.wv lane d (BitVec.ofNat 32 x)).wv lane (d + 1) (BitVec.ofNat 32 (x / 2 ^ 32))
      else g.wv lane d (BitVec.ofNat 32 x) := by
  cases wide <;> simp [dstWrites, writeRef]

theorem ofNat_pairOf_low (lo hi : Word) : BitVec.ofNat 32 (pairOf lo hi) = lo := by
  apply BitVec.eq_of_toNat_eq
  have := lo.isLt
  simp only [BitVec.toNat_ofNat, pairOf]
  omega

theorem ofNat_pairOf_high (lo hi : Word) : BitVec.ofNat 32 (pairOf lo hi / 2 ^ 32) = hi := by
  apply BitVec.eq_of_toNat_eq
  have := lo.isLt
  have := hi.isLt
  simp only [BitVec.toNat_ofNat, pairOf]
  omega

section LaneWrite
variable {s : State} {g : Group} {n : Node} {c : Ctx}

/-- WRLANE by its checks, in their order (R362, R368). -/
theorem exec_wrlane {o : LOp} (hi : Issues s g n c false
      { sr := (if o.a.toNat < 64 then wideDst (LOp.b64 o) o.a.toNat else []) ++ scalarUse o.b.toNat
        vr := wideDst (LOp.b64 o) o.d.toNat
        pr := []
        pdg := false
        extra := 0 }) :
    exec (.wrlane o) s = .next (
      if ¬ (o.ak = true ∧ o.bk = true ∧ o.a.toNat < 64 ∧ laneIndexOk (LOp.b64 o) o.b.toNat = true ∧ ((LOp.b64 o) = true → o.a.toNat % 2 = 0) ∧
          (readScalar g n o.b.toNat).toNat ≤ 95) then uniFault (countCall s g) g n c 6 (·.advance 2)
      else if c.active.getLsbD (readScalar g n o.b.toNat).toNat = false then stand s g g n (c.advance 2)
      else if dstOk false g.nregs (LOp.b64 o) [0] o.d.toNat = false then uniFault (countCall s g) g n c 6 (·.advance 2)
      else if overShadow c (wideDst (LOp.b64 o) o.d.toNat) = true then groupFault (countCall s g) g n c 49
      else stand s g (if (LOp.b64 o) then (g.wv (readScalar g n o.b.toNat).toNat o.d.toNat (readS g n o.a.toNat)).wv
            (readScalar g n o.b.toNat).toNat (o.d.toNat + 1) (readS g n (o.a.toNat + 1))
          else g.wv (readScalar g n o.b.toNat).toNat o.d.toNat (readS g n o.a.toNat)) n
        ((c.shadow (wideDst (LOp.b64 o) o.d.toNat)).advance 2)) := by
  have hops : ((!(o.ak && o.bk && decide (o.a.toNat < 64) && laneIndexOk (LOp.b64 o) o.b.toNat && (!(LOp.b64 o) || o.a.toNat % 2 == 0)) ||
      decide (95 < (readScalar g n o.b.toNat).toNat)) = true) ↔
      ¬ (o.ak = true ∧ o.bk = true ∧ o.a.toNat < 64 ∧ laneIndexOk (LOp.b64 o) o.b.toNat = true ∧ ((LOp.b64 o) = true → o.a.toNat % 2 = 0) ∧
          (readScalar g n o.b.toNat).toNat ≤ 95) := by
    cases o.ak <;> cases o.bk <;> cases (LOp.b64 o) <;> cases laneIndexOk _ o.b.toNat <;> simp <;> omega
  have hwide : (dstWrites false (readScalar g n o.b.toNat).toNat o.d.toNat 0 (LOp.b64 o)
        (if (LOp.b64 o) then pairOf (readS g n o.a.toNat) (readS g n (o.a.toNat + 1)) else (readS g n o.a.toNat).toNat)).foldl
        (fun g' w => (writeRef (g', n, c) w).1) g =
      if (LOp.b64 o) then (g.wv (readScalar g n o.b.toNat).toNat o.d.toNat (readS g n o.a.toNat)).wv
          (readScalar g n o.b.toNat).toNat (o.d.toNat + 1) (readS g n (o.a.toNat + 1))
        else g.wv (readScalar g n o.b.toNat).toNat o.d.toNat (readS g n o.a.toNat) := by
    rw [foldl_writeRef_dstWrites]
    cases LOp.b64 o
    · simp
    · simp only [if_true, ofNat_pairOf_low, ofNat_pairOf_high]
  change execWrlane o s = _
  unfold execWrlane
  dsimp only
  rw [coreOp_issues hi.written 0 (.inl rfl)]
  simp only [hops, hwide, Bool.not_eq_true', stand]

end LaneWrite

/-- Settles O29, by `exec_wrlane`. -/
theorem wrlaneWritesOneLane : Obligations.WrlaneWritesOneLane := by
  unfold Obligations.WrlaneWritesOneLane
  intro o s g n c wide b hi
  rw [exec_wrlane hi]
  refine ⟨fun hbad => by rw [if_pos hbad], fun hak hbk ha hix heven hb => ?_⟩
  rw [if_neg (not_not_intro ⟨hak, hbk, ha, hix, heven, hb⟩)]
  refine ⟨fun hidle => by rw [if_pos hidle], fun hact hd => ?_, fun hact hd hmany => ?_, fun hact hd hmany => ?_⟩ <;>
    rw [if_neg (by rw [show c.active.getLsbD _ = true from hact]; decide)]
  · rw [if_pos hd]
  · rw [if_neg (by rw [show dstOk _ _ _ _ _ = true from hd]; decide), if_pos hmany]
  · rw [if_neg (by rw [show dstOk _ _ _ _ _ = true from hd]; decide), if_neg (by rw [show overShadow _ _ = false from hmany]; decide)]

end Sys2Proof.Machine
end

section
/-! PROOFS. Waits (R147, R163, R300 to R302, R353, R377), what a reader that meets check codes leaves alone (R26 to R28), and instructions
that only pass (R281, R296, R351, R352). -/
namespace Sys2Proof.Machine

section Waits
variable {s : State} {g : Group} {n : Node} {c : Ctx}

/-- A waiting instruction that issues has its effect if it is ready, and otherwise changes nothing. -/
theorem waitOp_eq {isTerm : Bool} {u : Use} (h : Issues s g n c isTerm u) (k : Nat) (hm : k = 0 ∨ g.landing = none)
    (ready : State → Group → Node → Ctx → Bool) (f : State → Group → Node → Ctx → State) :
    waitOp isTerm u k ready f s = .next (if ready s g n c = true then f (countCall s g) g n c else s) := by
  by_cases hr : ready s g n c = true
  · rw [waitOp_issues h k hm ready hr, if_pos hr]
  · rw [waitOp_waits h k hm ready (Bool.eq_false_iff.mpr hr), if_neg hr]

theorem allowed_iff (count : Word) (a : Byte) : allowed count a = true ↔ a = 255 ∨ count.toNat ≤ a.toNat := by
  simp [allowed]

/-- The four conditions of WAITC, as a list of counters and allowances. -/
theorem allowed_all (k : WaitCounts) : (allowed g.ld k.ld && allowed g.st k.st && allowed g.cp k.cp && allowed g.tl k.tl) = true ↔
    ∀ x ∈ [(g.ld, k.ld), (g.st, k.st), (g.cp, k.cp), (g.tl, k.tl)], x.2 = 255 ∨ x.1.toNat ≤ x.2.toNat := by
  simp only [Bool.and_eq_true, allowed_iff, List.forall_mem_cons, List.not_mem_nil, false_implies, implies_true, and_true, and_assoc]

/-- WAITC passes as soon as its counters allow it and an acquire may be made; until then it changes nothing (R300). -/
theorem exec_waitc (k : WaitCounts) (hi : Issues s g n c false Use.none) :
    exec (.waitc k) s = .next
      (if (allowed g.ld k.ld && allowed g.st k.st && allowed g.cp k.cp && allowed g.tl k.tl && acquireReady s g) = true then
        passWait (countCall s g) g n c else s) := by
  exact show execWaitc k s = _ from waitOp_eq hi 0 (.inl rfl) _ _

theorem exec_waitp {o : LOp} (hi : Issues s g n c false { Use.none with sr := scalarUse o.a.toNat }) (ha : scalarOk o.a.toNat = true) :
    exec (.waitp o) s = .next
      (if (counterOf g o.sub.toNat).toNat ≤ (readScalar g n o.a.toNat).toNat ∧ acquireReady s g = true then
        passWait (countCall s g) g n c else s) := by
  change execWaitp o s = _
  unfold execWaitp
  dsimp only
  rw [waitOp_eq hi 0 (.inl rfl)]
  simp [ha]

theorem exec_waitseq {o : LOp} (hi : Issues s g n c false { Use.none with sr := scalarUse o.a.toNat }) (ha : scalarOk o.a.toNat = true) :
    exec (.waitseq o) s = .next
      (if (∃ q, engqFor s g o.sub.toNat = some q ∧ seqReached q.word (readScalar g n o.a.toNat) = true) ∧ acquireReady s g = true then
        passWait (countCall s g) g n c else s) := by
  change execWaitseq o s = _
  unfold execWaitseq
  dsimp only
  rw [waitOp_eq hi 0 (.inl rfl)]
  cases hq : engqFor s g o.sub.toNat <;> simp [ha]

theorem exec_gate (hi : Issues s g n c false Use.none) :
    exec .gate s = .next
      (if ∀ l, s.launch? g.part g.serial = some l → l.gateOpen = true ∧ acquireReady s g = true then passWait (countCall s g) g n c
        else s) := by
  change execGate s = _
  rw [execGate, waitOp_eq hi 0 (.inl rfl)]
  cases hl : s.launch? g.part g.serial <;> simp

theorem exec_drain (hi : Issues s g n c false Use.none) :
    exec .drain s = .next (if uncheckedStores s g = false then
      tidy (addItem (stand s g g n (c.advance 2)) (itemOf g c { ix := c.ix, op := .fence 1 1, elems := [] } 1)) else s) := by
  change execDrain s = _
  rw [execDrain, waitOp_eq hi 0 (.inl rfl)]
  simp [stand]

theorem exec_rsync {o : LOp} (hl : g.landing = none)
    (hi : Issues s g n c false { Use.none with sr := scalarUse o.a.toNat ++ scalarUse o.b.toNat }) (ha : scalarOk o.a.toNat = true)
    (hb : scalarOk o.b.toNat = true) :
    exec (.rsync o) s = .next
      (if seqReached (appliedOn s g.part g.die (bits (readScalar g n o.a.toNat).toNat 7 0)) (readScalar g n o.b.toNat) = true ∧
          horizonReady s g (bits (readScalar g n o.a.toNat).toNat 7 0) = true ∧ acquireReady s g = true then
        putCtx (acquire s g 4) (raiseHorizon g (bits (readScalar g n o.a.toNat).toNat 7 0) (readScalar g n o.b.toNat)) n (c.advance 2)
        else s) := by
  change execRsync o s = _
  unfold execRsync
  dsimp only
  rw [waitOp_eq hi 4 (.inr hl), countCall_core hl]
  simp [ha, hb, and_assoc]

end Waits

/-- Settles O26: each wait is `if` its condition holds `then` its passing `else` nothing. -/
theorem waitsPassAndHold : Obligations.WaitsPassAndHold := by
  unfold Obligations.WaitsPassAndHold
  constructor
  · intro s g n c pass
    refine ⟨fun k hi hacq hall => ?_, fun o hi ha hacq => ⟨fun hle => ?_, fun q hq hseq => ?_⟩, fun hi hacq hopen => ?_, fun hi hst => ?_,
      fun o hl hi ha hb => ?_⟩
    · rw [exec_waitc k hi, if_pos]
      · rfl
      · rw [(allowed_all k).mpr hall, hacq]
        rfl
    · rw [exec_waitp hi ha, if_pos ⟨hle, hacq⟩]
      rfl
    · rw [exec_waitseq hi ha, if_pos ⟨⟨q, hq, hseq⟩, hacq⟩]
      rfl
    · rw [exec_gate hi, if_pos fun l hl => ⟨hopen l hl, hacq⟩]
      rfl
    · rw [exec_drain hi, if_pos hst]
    · intro obj hseq hhor hacq
      rw [exec_rsync hl hi ha hb, if_pos ⟨hseq, hhor, hacq⟩]
  · intro s g n c
    refine ⟨fun k hi hex => ?_, fun o hi ha hlt => ?_, fun o q hi ha hq hseq => ?_, fun l hi hl hclosed => ?_, fun hi hst => ?_,
      fun o hl hi ha hb hseq => ?_, fun hacq => ⟨fun k hi => ?_, fun o hi ha => ⟨?_, ?_⟩, fun l hi hl => ?_, fun o hl hi ha hb => ?_⟩⟩
    · obtain ⟨x, hx, hne, hlt⟩ := hex
      rw [exec_waitc k hi, if_neg]
      intro h
      rw [Bool.and_eq_true, allowed_all] at h
      rcases h.1 x hx with h | h
      · exact hne h
      · omega
    · rw [exec_waitp hi ha, if_neg fun h => by omega]
    · rw [exec_waitseq hi ha, if_neg]
      rintro ⟨⟨q', hq', hseq'⟩, -⟩
      obtain rfl : q = q' := Option.some.inj (hq.symm.trans hq')
      rw [hseq] at hseq'
      contradiction
    · rw [exec_gate hi, if_neg fun h => by simpa [hclosed] using h l hl]
    · rw [exec_drain hi, if_neg (by simp [hst])]
    · rw [exec_rsync hl hi ha hb, if_neg (by simp [hseq])]
    · rw [exec_waitc k hi, if_neg (by simp [hacq])]
    · rw [exec_waitp hi ha, if_neg (by simp [hacq])]
    · rw [exec_waitseq hi ha, if_neg (by simp [hacq])]
    · rw [exec_gate hi, if_neg fun h => by simpa [hacq] using h l hl]
    · rw [exec_rsync hl hi ha hb, if_neg (by simp [hacq])]

/-! ### What a reader that meets check codes leaves alone (R26 to R28) -/

/-- The state apart from what meeting a check code changes: the dies' counters, records and held lines, the windows' event buffers, the
errors still to be met, and the marks of clusters. -/
def State.untouched (s : State) : State := { s with dies := [], windows := [], flaws := [], fatals := [] }

@[simp] theorem pushRecord_untouched (s : State) (w : Nat) (e : List Byte) : (pushRecord s w e).untouched = s.untouched := by
  unfold pushRecord pushEvent
  dsimp only
  split <;> rfl

@[simp] theorem writeErr_untouched (s : State) (r : ErrRec) : (writeErr s r).untouched = s.untouched := by
  unfold writeErr writeErrTo
  dsimp only
  rw [if_pos rfl, pushRecord_untouched]
  split
  · rw [pushRecord_untouched]
    rfl
  · rfl

@[simp] theorem markPart_untouched (s : State) (part reason : Nat) : (markPart s part reason).untouched = s.untouched := by
  unfold markPart
  split
  · refine foldl_keeps State.untouched _ (fun s k => ?_) _ _
    unfold markCluster
    split <;> rfl
  · rfl

@[simp] theorem countCorrected_untouched (s : State) (die hop synd addr : Nat) (part : Option Nat) (core : Nat) :
    (countCorrected s die hop synd addr part core).untouched = s.untouched := by
  unfold countCorrected
  dsimp only
  split
  · rfl
  split
  · rw [writeErr_untouched]
    rfl
  · rfl

@[simp] theorem enterHeld_untouched (s : State) (line : Nat) (mask : Byte) (seq : Word) (part : Option Nat) :
    (enterHeld s line mask seq part).untouched = s.untouched := by
  unfold enterHeld
  dsimp only
  split
  · rfl
  split
  · rfl
  split
  · rw [markPart_untouched]
    rfl
  · rw [writeErr_untouched]

@[simp] theorem seeFlaw_untouched (s : State) (line : Nat) (part : Option Nat) (core : Nat) :
    (seeFlaw s line part core).untouched = s.untouched := by
  unfold seeFlaw
  dsimp only
  split
  · rw [countCorrected_untouched]
    rfl
  · rw [enterHeld_untouched, writeErr_untouched]
  · rfl

@[simp] theorem seeSpan_untouched (s : State) (die pa n : Nat) (part : Option Nat) (core : Nat) :
    (seeSpan s die pa n part core).untouched = s.untouched := by
  unfold seeSpan
  split
  · rfl
  · exact foldl_keeps State.untouched _ (fun s l => seeFlaw_untouched s l part core) _ _

@[simp] theorem seeWalk_untouched (s : State) (core die part va : Nat) : (seeWalk s core die part va).untouched = s.untouched := by
  unfold seeWalk
  split
  · rfl
  · exact foldl_keeps State.untouched _ (fun s a => seeSpan_untouched s die a 8 _ _) _ _

@[simp] theorem seeWalks_untouched (o : MemOp) (s : State) (g : Group) (n : Node) (c : Ctx) :
    (seeWalks o s g n c).untouched = s.untouched := by
  unfold seeWalks
  split
  · rfl
  · exact foldl_keeps State.untouched _ (fun s l => seeWalk_untouched ..) _ _

/-! ### What translation looks at (R140 to R144) -/

/-- The parts of the state that a walk of the tables looks at. -/
def State.tables (s : State) : List Die × List Boundary × List LineFlaw × Sparse 8 × List TlbEntry × List Partition :=
  (s.dies, s.boundaries, s.flaws, s.mem, s.tlb, s.parts)

section Tables
variable {s t : State}

theorem pathUp_congr (h : t.boundaries = s.boundaries) (ds : List Nat) (a : Nat) : pathUp t a ds = pathUp s a ds := by
  induction ds generalizing a with
  | nil => rfl
  | cons d ds ih => simp only [pathUp, boundaryUp, h, ih]

theorem joined_congr (h : t.boundaries = s.boundaries) (a b : Nat) : joined t a b = joined s a b := by
  simp only [joined, route, pathUp_congr h]

theorem reaches_congr (hd : t.dies = s.dies) (hb : t.boundaries = s.boundaries) (die pa : Nat) : reaches t die pa = reaches s die pa := by
  simp only [reaches, State.die, hd, joined_congr hb]

theorem badWords_congr (hd : t.dies = s.dies) (hf : t.flaws = s.flaws) (line : Nat) : badWords t line = badWords s line := by
  simp only [badWords, heldMask, State.die, hd, hf]

theorem recordSeq_congr (hd : t.dies = s.dies) (hb : t.boundaries = s.boundaries) (hf : t.flaws = s.flaws) (die pa n : Nat) :
    recordSeq t die pa n = recordSeq s die pa n := by
  simp only [recordSeq, State.die, hd, joined_congr hb, badWords_congr hd hf, heldLine?, flaw?, hf]
  rfl

theorem pteAt_congr (h : t.tables = s.tables) (core die part level va base : Nat) :
    pteAt t core die part level va base = pteAt s core die part level va base := by
  simp only [State.tables, Prod.mk.injEq] at h
  obtain ⟨hd, hb, hf, hm, htlb, -⟩ := h
  simp only [pteAt, tlbHit, htlb, pteBad, reaches_congr hd hb, badWords_congr hd hf, dataError, recordSeq_congr hd hb hf, pread, hm]
  rfl

theorem walk_congr (h : t.tables = s.tables) (core die part va : Nat) : walk t core die part va = walk s core die part va := by
  have hpart : t.part? part = s.part? part := by
    simp only [State.tables, Prod.mk.injEq] at h
    simp only [State.part?, h]
  simp only [walk, hpart, pteAt_congr h]

theorem pageOf_congr (h : t.tables = s.tables) (g : Group) (va : Nat) : pageOf t g va = pageOf s g va := by
  simp only [pageOf, walk_congr h]

end Tables

/-! ### Instructions that only pass -/

section Passing
variable {s : State} {g : Group} {n : Node} {c : Ctx}

theorem nopOp_issues (hi : Issues s g n c false Use.none) (words : Nat) : nopOp words s = .next (stand s g g n (c.advance words)) :=
  coreOp_issues hi 0 (.inl rfl) _

/-- A hint with a destination writes its value there (Table 11.18). -/
theorem hintWrite_issues {o : LOp} (hu : o.u = true) (hd : o.d.toNat < 64)
    (hi : Issues s g n c false { Use.none with sr := [o.d.toNat] }) (val : State → Group → Word) :
    hintWrite o val s = .next (stand s g (writeS (g, n, c) o.d.toNat (val (countCall s g) g)).1
      (writeS (g, n, c) o.d.toNat (val (countCall s g) g)).2.1
      ((writeS (g, n, c) o.d.toNat (val (countCall s g) g)).2.2.advance (lenWords o.w2)).settle) := by
  unfold hintWrite
  rw [if_pos (by simp [hu, hd]), coreOp_issues hi.written 0 (.inl rfl)]
  rfl

theorem hintWrite_passes {o : LOp} (h : (o.u && decide (o.d.toNat < 64)) = false) (hi : Issues s g n c false Use.none)
    (val : State → Group → Word) : hintWrite o val s = .next (stand s g g n (c.advance (lenWords o.w2))) := by
  unfold hintWrite
  rw [if_neg (Bool.eq_false_iff.mp h), nopOp_issues hi]

/-- L1 copies without those of the lines that some lanes' pages give, of one core (R352). -/
def dropLines (core : Nat) (page : Nat → Option Nat) (lanes : List Nat) (l1 : List (Nat × Nat × List Byte)) :
    List (Nat × Nat × List Byte) :=
  lanes.foldl (fun m l => match page l with
    | some pa => m.filter fun x => !(x.1 == core && x.2.1 == pa / 64 * 64)
    | none => m) l1

theorem mem_dropLines {core : Nat} {page : Nat → Option Nat} {e : Nat × Nat × List Byte} (lanes : List Nat)
    (l1 : List (Nat × Nat × List Byte)) : e ∈ dropLines core page lanes l1 ↔
      e ∈ l1 ∧ ∀ l ∈ lanes, ∀ pa, page l = some pa → ¬ (e.1 = core ∧ e.2.1 = pa / 64 * 64) := by
  induction lanes generalizing l1 with
  | nil => simp [dropLines]
  | cons l ls ih =>
    rw [show dropLines core page (l :: ls) l1 = dropLines core page ls _ from rfl, ih]
    cases hl : page l with
    | none => simp [hl]
    | some pa =>
      simp only [List.mem_filter, List.forall_mem_cons, hl, Option.some.injEq, forall_eq', Bool.not_eq_true', and_assoc,
        ← Bool.not_eq_true, Bool.and_eq_true, beq_iff_eq]

/-- Dropping copies changes no page, so every lane's line is that of the state before. -/
theorem foldl_l1Drop (g : Group) (va : Nat → Nat) (lanes : List Nat) (t : State) :
    lanes.foldl (fun s l => match pageOf s g (va l) with
      | some pa => l1Drop s g.core pa
      | none => s) t = { t with l1 := dropLines g.core (fun l => pageOf t g (va l)) lanes t.l1 } := by
  induction lanes generalizing t with
  | nil => rfl
  | cons l ls ih =>
    rw [List.foldl_cons, ih]
    cases hl : pageOf t g (va l) with
    | none => simp [dropLines, hl]
    | some pa =>
      have hpage : (fun l => pageOf (l1Drop t g.core pa) g (va l)) = fun l => pageOf t g (va l) :=
        funext fun l => pageOf_congr (by rfl) g (va l)
      dsimp only
      rw [hpage]
      simp only [dropLines, List.foldl_cons, hl]
      rfl

/-- CCTL as its SUB says, once its walks are not held up (R352). -/
theorem exec_cctl {o : MemOp} (hi : Issues s g n c false
      (if o.sub = 1 then Use.none else memUse o { scratch := false, bytes := 1, regs := 0, signed := false, iv := 0 })) :
    exec (.cctl o) s = .next
      (if (o.sub != 0 || !memChk o { scratch := false, bytes := 1, regs := 0, signed := false, iv := 0 } g.nregs false ||
          walksFree o s g n c) = true then
        putCtx (if o.sub = 1 then l1DropAll (countCall s g) g.core
          else if (o.sub = 0 && memChk o { scratch := false, bytes := 1, regs := 0, signed := false, iv := 0 } g.nregs false) = true then
            { seeWalks o (countCall s g) g n c with
              l1 := dropLines g.core (fun l => pageOf (seeWalks o (countCall s g) g n c) g (memAddr g n o false l)) (memLanes g c o)
                (seeWalks o (countCall s g) g n c).l1 }
          else countCall s g) g n (c.advance 2)
      else s) := by
  change execCctl o s = _
  unfold execCctl
  dsimp only
  rw [waitOp_eq hi 0 (.inl rfl), ← foldl_l1Drop] <;> rfl

theorem countCall_l1 : (countCall s g).l1 = s.l1 := by
  unfold countCall
  split <;> rfl

theorem countCall_dies : (countCall s g).dies = s.dies := by
  unfold countCall
  split <;> rfl

end Passing

/-- Settles O19: NOP, hints and PREF by their definitions, CCTL by `exec_cctl` and what stays of the copies by `mem_dropLines`. -/
theorem hintsOnlyPass : Obligations.HintsOnlyPass := by
  unfold Obligations.HintsOnlyPass
  intro s g n c
  refine ⟨fun hi => ⟨nopOp_issues hi 1, nopOp_issues hi 2, fun o => ⟨nopOp_issues hi _, nopOp_issues hi _, fun k => nopOp_issues hi _⟩⟩,
    fun o hi => ?_, ?_, fun o hu hd hi => ?_, fun o h hi => ⟨hintWrite_passes h hi _, hintWrite_passes h hi _⟩⟩
  · exact show execPref o s = _ from coreOp_issues hi 0 (.inl rfl) _
  · intro o hi legal t
    rw [exec_cctl hi]
    refine ⟨fun h0 hlegal hheld => ?_, fun hfree => ?_⟩
    · rw [if_neg (by simp [h0, hheld, show memChk _ _ _ _ = true from hlegal])]
    have hready : (o.sub != 0 || !legal || walksFree o s g n c) = true := by
      by_cases h0 : o.sub = 0
      · cases hlegal : legal
        · simp
        · simp [hfree h0 hlegal]
      · rw [show (o.sub != 0) = true from bne_iff_ne.mpr h0, Bool.true_or, Bool.true_or]
    have hl1 : t.l1 = s.l1 := by
      by_cases hseen : o.sub = 0 ∧ legal = true
      · rw [show t = seeWalks o (countCall s g) g n c from if_pos hseen, ← countCall_l1 (s := s) (g := g)]
        exact (congrArg (·.l1) (seeWalks_untouched o (countCall s g) g n c) :)
      · rw [show t = countCall s g from if_neg hseen, countCall_l1]
    rw [if_pos hready]
    by_cases h1 : o.sub = 1
    · have ht : t = countCall s g := if_neg (by simp [h1])
      refine ⟨s.l1.filter fun e => e.1 != g.core, fun e he => (List.mem_filter.mp he).1,
        fun e he hne => List.mem_filter.mpr ⟨he, by simpa using hne⟩, ?_, fun _ => rfl, fun h0 => absurd (h1.symm.trans h0) (by decide)⟩
      rw [if_pos h1, ht, ← countCall_l1 (s := s) (g := g)]
      rfl
    · by_cases hseen : o.sub = 0 ∧ legal = true
      · have ht : t = seeWalks o (countCall s g) g n c := if_pos hseen
        refine ⟨dropLines g.core (fun l => pageOf t g (memAddr g n o false l)) (memLanes g c o) t.l1,
          fun e he => hl1 ▸ ((mem_dropLines _ _).mp he).1,
          fun e he hne => (mem_dropLines _ _).mpr ⟨hl1 ▸ he, fun _ _ _ _ h => hne h.1⟩, ?_, fun h => absurd h h1,
          fun _ _ l hl pa hpa e he => ((mem_dropLines _ _).mp he).2 l hl pa hpa⟩
        rw [if_neg h1, if_pos (by simpa using hseen), ht]
        rfl
      · have ht : t = countCall s g := if_neg hseen
        refine ⟨t.l1, fun e he => hl1 ▸ he, fun e he _ => hl1 ▸ he, ?_, fun h => absurd h h1, fun h0 hlegal => absurd ⟨h0, hlegal⟩ hseen⟩
        rw [if_neg h1, if_neg (by simpa using hseen), ht]
        rfl
  · refine ⟨hintWrite_issues hu hd hi _, ?_⟩
    have hthr : ∀ t : State, t.dies = s.dies → BitVec.ofNat 32 (t.die g.die).throttle = BitVec.ofNat 32 (s.die g.die).throttle :=
      fun t h => by rw [State.die, State.die, h]
    have hstep := hintWrite_issues hu hd hi fun s g => BitVec.ofNat 32 (s.die g.die).throttle
    rw [hthr _ countCall_dies] at hstep
    exact hstep

end Sys2Proof.Machine
end

section
/-! PROOFS. Instructions on lanes: their effect whatever lanes fault, and element-wise results (R111 to R115, R119, R121, R129, R177, R212,
R275, R313, R314). -/
namespace Sys2Proof.Machine

section Lanes
variable {s : State} {g : Group} {n : Node} {c : Ctx}

/-! ### What writes of results leave alone -/

@[simp] theorem Group.setOwned_landing (g : Group) (r : Nat) (x : Word) : (g.setOwned r x).landing = g.landing := by
  unfold Group.setOwned
  repeat' split
  all_goals rfl

@[simp] theorem Ctx.addFail_hdr (c : Ctx) (x : Fail) : (c.addFail x).hdr = c.hdr := by
  unfold Ctx.addFail
  split <;> rfl

/-- A scalar write leaves the group's landing and the trace's header. -/
theorem writeS_handled {st : Group × Node × Ctx} (h : Handled st.1 st.2.2) (r : Nat) (x : Word) :
    Handled (writeS st r x).1 (writeS st r x).2.2 := by
  obtain ⟨g, n, c⟩ := st
  unfold writeS
  dsimp only
  repeat' split
  · exact h.congr (Group.setOwned_landing ..) rfl
  · exact h.congr (Group.setOwned_landing ..) rfl
  · exact h.congr rfl (foldl_keeps Ctx.hdr _ (fun c l => Ctx.addFail_hdr ..) _ _)
  · exact h.congr rfl (foldl_keeps Ctx.hdr _ (fun c l => Ctx.addFail_hdr ..) _ _)
  · exact h

theorem writeRef_handled {st : Group × Node × Ctx} (h : Handled st.1 st.2.2) (w : RegRef × Word) :
    Handled (writeRef st w).1 (writeRef st w).2.2 := by
  obtain ⟨r, x⟩ := w
  cases r with
  | v l r => exact h.congr (Group.wv_landing ..) rfl
  | p l r => exact h.congr (Group.wp_landing ..) rfl
  | s r => exact writeS_handled h r x
  | pdg l => exact h

theorem applyOut_handled {fm : Word} {st : (Group × Node × Ctx) × List (Nat × Nat)} (h : Handled st.1.1 st.1.2.2)
    (x : Nat × LaneOut) : Handled (applyOut fm st x).1.1 (applyOut fm st x).1.2.2 := by
  have hfold : ∀ (ws : List (RegRef × Word)) (zero : RegRef × Word → RegRef × Word),
      Handled (ws.foldl (fun st w => writeRef st (zero w)) st.1).1 (ws.foldl (fun st w => writeRef st (zero w)) st.1).2.2 :=
    fun ws zero => foldl_inv (fun st : Group × Node × Ctx => Handled st.1 st.2.2) _ (fun st w h => writeRef_handled h (zero w)) ws _ h
  unfold applyOut
  dsimp only
  repeat' split
  · exact hfold _ fun w => (w.1, 0)
  · exact h
  all_goals
    refine (hfold x.2.w id).congr ?_ rfl
    cases x.2.pdg <;> rfl

/-! ### The effect of legal operands, whatever lanes fault -/

/-- With legal operands the instruction writes its lanes' results and the faulting lanes take their faults, unless the shadows do not hold
its destinations (R119, R129). -/
theorem laneEffect_legal {d : LaneSpec} (hchk : d.chk = 0) (hclean : g.flaws = []) :
    laneEffect s g n c d =
      if (!d.uni && !(d.lanes g n c).isEmpty && overShadow (d.engaged g n c) d.dst) = true then
        groupFault s g n (d.engaged g n c) 49
      else
        faultLanes s ((d.outs g n c).foldl (applyOut g.fmode) ((g, n, d.ctx g n c), [])).1.1
          ((d.outs g n c).foldl (applyOut g.fmode) ((g, n, d.ctx g n c), [])).1.2.1
          ((d.outs g n c).foldl (applyOut g.fmode) ((g, n, d.ctx g n c), [])).1.2.2
          (spreadFaults (d.ctx g n c) d.uni ((d.outs g n c).foldl (applyOut g.fmode) ((g, n, d.ctx g n c), [])).2)
          (·.advance d.words) := by
  unfold laneEffect
  simp only [hchk, ne_eq, not_true, if_false, hclean, List.isEmpty_nil, if_true]
  cases huni : d.uni with
  | true =>
    have hctx : (if d.quad then c.engage g n else c) = d.ctx g n c := by simp [LaneSpec.ctx, LaneSpec.engaged, huni]
    have houts : ([uniLane].map fun l => (l, d.body g n (d.ctx g n c) 0)) = d.outs g n c := by
      simp [LaneSpec.outs, LaneSpec.lanes, huni]
    simp only [if_true, List.isEmpty_nil, Bool.not_true, Bool.false_and, Bool.false_eq_true, if_false, hctx, houts]
    rfl
  | false =>
    have hlanes : d.lanes g n c = selected g d.ps d.pm
        (if d.noHelpers then (d.engaged g n c).active else (d.engaged g n c).active ||| (d.engaged g n c).helpers) := by
      simp [LaneSpec.lanes, huni]
    have hctx : (if (d.lanes g n c).isEmpty then d.engaged g n c else (d.engaged g n c).shadow d.dst) = d.ctx g n c := by
      simp [LaneSpec.ctx, huni]
    have houts : ((d.lanes g n c).map fun l => (l, d.body g n (d.ctx g n c) l)) = d.outs g n c := by
      simp [LaneSpec.outs, huni]
    simp only [Bool.false_eq_true, if_false, show (if d.quad then c.engage g n else c) = d.engaged g n c from rfl, ← hlanes, hctx, houts,
      Bool.not_false, Bool.true_and]
    rfl

end Lanes

/-- Settles O11: `laneOp_runs` where no lane faults, `laneEffect_legal` where some do. -/
theorem laneInstructionsComplete : Obligations.LaneInstructionsComplete := by
  unfold Obligations.LaneInstructionsComplete
  constructor
  · intro i s g n c d hd hi hm hruns r
    rw [← hi.curNregs_eq] at hd
    obtain ⟨g', n', c', hw, hstep⟩ := laneOp_runs d hi hm hruns
    rw [exec_of_laneSpecOf hd, hstep, show r = (g', n', c') from hw]
  · intro i s g n c d hd hi hchk full r
    rw [← hi.curNregs_eq] at hd
    refine ⟨fun hfull hh => ?_, fun hfull hm => ?_⟩
    · have hctx : (d.ctx g n c).hdr = c.hdr := by
        unfold LaneSpec.ctx
        split
        · exact d.engaged_hdr g n c
        · exact d.engaged_hdr g n c
      have hr : Handled r.1.1 r.1.2.2 :=
        foldl_inv (fun st : (Group × Node × Ctx) × List (Nat × Nat) => Handled st.1.1 st.1.2.2) _ (fun st x h => applyOut_handled h x) _ _
          (hh.congr rfl hctx)
      rw [exec_of_laneSpecOf hd, laneOp_issues hi (.inr hh.1), laneEffect_legal hchk hi.clean,
        if_neg (Bool.eq_false_iff.mp hfull), faultLanes_handled hr, countCall_core hh.1, stand, countCall_core hh.1]
    · rw [exec_of_laneSpecOf hd, laneOp_issues hi hm, laneEffect_legal hchk hi.clean, if_pos hfull]

/-! ### Element-wise results -/

section Elements
variable {g : Group} {n : Node} {c : Ctx}

/-- The writes of one element in a lane. -/
def Comp.eltWrites (k : Comp) (o : LOp) (c : Ctx) (lane off img : Nat) : List (RegRef × Word) :=
  match k.dst with
  | .reg p => dstWrites o.u lane o.d.toNat off p img
  | .pred =>
    if o.u then (lanesOf c.active).map fun l => (.p l o.d.toNat, BitVec.ofNat 32 img)
    else [(.p lane o.d.toNat, BitVec.ofNat 32 img)]

theorem Comp.lane_w (k : Comp) (o : LOp) (g : Group) (n : Node) (c : Ctx) (lane : Nat) :
    (k.lane o g n c lane).w = (o.offs k.paired).flatMap fun off => k.eltWrites o c lane off (k.elt o g n lane off).img := by
  simp only [Comp.lane, List.flatMap_map]
  rfl

/-- The writes of one element put its image at its destination (R112, R275). -/
theorem foldl_writeRef_put (k : Comp) {o : LOp} (hu : o.u = false) (c0 : Ctx) (l off img : Nat) (x : Group) :
    (k.eltWrites o c0 l off img).foldl writeRef (x, n, c) = (k.put o x l off img, n, c) := by
  unfold Comp.eltWrites Comp.put
  cases k.dst with
  | reg p => cases p <;> simp [dstWrites, hu, writeRef]
  | pred => simp [hu, writeRef, BitVec.setWidth_ofNat_of_le]

/-- A lane that neither faults nor traps puts each of its elements, and perhaps raises flags. -/
theorem applyOut_lane (k : Comp) {o : LOp} (hu : o.u = false) {fm : Word} {l : Nat} {c0 : Ctx} (htrap : (k.lane o g n c0 l).trap fm = 0)
    (x : Group) (fl : List (Nat × Nat × Nat)) (fs : List (Nat × Nat)) :
    ∃ fl', applyOut fm ((x, n, { c with flags := fl }), fs) (l, k.lane o g n c0 l) =
      (((o.offs k.paired).foldl (fun g' off => k.put o g' l off (k.elt o g n l off).img) x, n, { c with flags := fl' }), fs) := by
  have hw : (k.lane o g n c0 l).w.foldl writeRef (x, n, { c with flags := fl }) =
      ((o.offs k.paired).foldl (fun g' off => k.put o g' l off (k.elt o g n l off).img) x, n, { c with flags := fl }) := by
    rw [Comp.lane_w, List.foldl_flatMap]
    generalize o.offs k.paired = offs
    induction offs generalizing x with
    | nil => rfl
    | cons off offs ih =>
      rw [List.foldl_cons, List.foldl_cons, foldl_writeRef_put k hu, ih]
  have hpdg : (k.lane o g n c0 l).pdg = none := rfl
  simp only [applyOut, htrap, ne_eq, not_true, if_false, hw, hpdg]
  split
  · exact ⟨fl, rfl⟩
  · exact ⟨_, rfl⟩

theorem foldl_applyOut_lanes (k : Comp) {o : LOp} (hu : o.u = false) {fm : Word} {c0 : Ctx} (ls : List Nat)
    (htrap : ∀ l ∈ ls, (k.lane o g n c0 l).trap fm = 0) (x : Group) (fl : List (Nat × Nat × Nat)) (fs : List (Nat × Nat)) :
    ∃ fl', (ls.map fun l => (l, k.lane o g n c0 l)).foldl (applyOut fm) ((x, n, { c with flags := fl }), fs) =
      ((ls.foldl (fun g' l => (o.offs k.paired).foldl (fun g' off => k.put o g' l off (k.elt o g n l off).img) g') x, n,
        { c with flags := fl' }), fs) := by
  induction ls generalizing x fl with
  | nil => exact ⟨fl, rfl⟩
  | cons l ls ih =>
    obtain ⟨fl1, h1⟩ := applyOut_lane k hu (htrap l List.mem_cons_self) x fl fs
    obtain ⟨fl2, h2⟩ := ih (fun l hl => htrap l (List.mem_cons_of_mem _ hl)) _ fl1
    exact ⟨fl2, by rw [List.map_cons, List.foldl_cons, h1, h2, List.foldl_cons]⟩

end Elements

/-- Settles O12: `laneOp_runs`, and `foldl_applyOut_lanes` for what is written. -/
theorem elementResults : Obligations.ElementResults := by
  unfold Obligations.ElementResults
  intro i k o w s g n c hk hu hi hruns
  obtain ⟨g', n', c', hw, hstep⟩ := laneOp_runs (k.spec o w g.nregs) hi (.inl rfl) hruns
  have htrap : ∀ l ∈ (k.spec o w g.nregs).lanes g n c, (k.lane o g n ((k.spec o w g.nregs).ctx g n c) l).trap g.fmode = 0 := by
    simp only [LaneSpec.runs, Bool.and_eq_true, List.all_eq_true, beq_iff_eq] at hruns
    intro l hl
    have h := hruns.2 (l, (k.spec o w g.nregs).body g n ((k.spec o w g.nregs).ctx g n c) (if (k.spec o w g.nregs).uni then 0 else l))
      (List.mem_map_of_mem hl)
    simpa [Comp.spec, hu] using h
  have hctx : ∃ sh, (k.spec o w g.nregs).ctx g n c = { c with shadowed := sh } := by
    unfold LaneSpec.ctx
    split
    · exact ⟨c.shadowed, rfl⟩
    · exact ⟨_, rfl⟩
  obtain ⟨sh, hsh⟩ := hctx
  have houts : (k.spec o w g.nregs).outs g n c =
      ((k.spec o w g.nregs).lanes g n c).map fun l => (l, k.lane o g n ((k.spec o w g.nregs).ctx g n c) l) := by
    simp [LaneSpec.outs, Comp.spec, hu]
  obtain ⟨fl, hfold⟩ := foldl_applyOut_lanes (c := { c with shadowed := sh }) k hu _ htrap g c.flags []
  have hres : (g', n', c') = (((k.spec o w g.nregs).lanes g n c).foldl (fun g' l =>
      (o.offs k.paired).foldl (fun g' off => k.put o g' l off (k.elt o g n l off).img) g') g, n,
      { c with shadowed := sh, flags := fl }) := by
    rw [← hw, written, houts]
    rw [hsh] at hfold ⊢
    exact congrArg Prod.fst hfold
  obtain ⟨rfl, rfl, rfl⟩ := Prod.mk.inj hres |>.imp id Prod.mk.inj
  refine ⟨({ c with shadowed := sh, flags := fl } : Ctx).advance w, ?_, rfl, rfl, rfl, rfl, rfl, rfl, rfl⟩
  rw [exec_of_compOf hk, compOp, hi.curNregs_eq, hstep]
  rfl

end Sys2Proof.Machine
end

section
/-! PROOFS. The frame of instructions on lanes fails: IVSPLIT with U = 1 writes vector registers that it does not name as written (R111,
R112). No word decodes to that instruction, but the statement speaks of every one. -/
namespace Sys2Proof.Machine

/-- IVSPLIT with U = 1 of the interval [1, 1], to D = 2. -/
def uniformSplit : LOp := { LOp.blank with u := true, d := 2, a := 65 }

/-- A machine in which one fragment of one group is in an open trace and issues. -/
def issuingState : State := { State.reset.placeCore 32 0 with cur := .frag 0 0 }
def issuingGroup : Group := (issuingState.group? 0).getD default
def issuingNode : Node := (issuingGroup.node? 0).getD default
def issuingCtx : Ctx := issuingNode.ctx.getD default

theorem issues_uniformSplit :
    Issues issuingState issuingGroup issuingNode issuingCtx false (splitSpec false uniformSplit issuingGroup.nregs).used where
  frame := by decide +kernel
  can := by decide +kernel
  ctx := by decide +kernel
  going := by decide +kernel
  count := by decide +kernel
  len := by decide +kernel
  board := by decide +kernel
  own := by decide +kernel
  clean := by decide +kernel

/-- The state that the instruction leaves. -/
def afterSplit : State :=
  laneEffect (countCall issuingState issuingGroup) issuingGroup issuingNode issuingCtx (splitSpec false uniformSplit issuingGroup.nregs)

theorem exec_uniformSplit : exec (.ivsplit uniformSplit) issuingState = .next afterSplit := by
  have hspec : laneSpecOf issuingState (curNregs issuingState) (.ivsplit uniformSplit) =
      some (splitSpec false uniformSplit issuingGroup.nregs) := by
    rw [issues_uniformSplit.curNregs_eq]
    rfl
  rw [exec_of_laneSpecOf hspec, laneOp_issues issues_uniformSplit (.inl rfl), afterSplit]

/-- It has written FP32 1 to v2 of lane 0, which held 0. -/
theorem afterSplit_v2 : (afterSplit.groups.map fun y => sget y.v (vkey 0 2)) = [0x3F800000] := by decide +kernel

theorem issuingState_v2 : (issuingState.groups.map fun y => sget y.v (vkey 0 2)) = [0] := by decide +kernel

theorem issuingState_groups : issuingState.groups = [issuingGroup] := by decide +kernel

/-- Refutes O36: IVSPLIT with U = 1 writes v2 and v3 of lane 0, while its destinations name only the upper half's registers, v4 and v5. -/
theorem not_laneInstructionsFrame : ¬ Obligations.LaneInstructionsFrame := by
  unfold Obligations.LaneInstructionsFrame
  intro h
  obtain ⟨-, hsame | ⟨g', n', hgroups, -, -, -, hv, -⟩⟩ := h (.ivsplit uniformSplit) issuingState afterSplit issuingGroup issuingNode
    issuingCtx (splitSpec false uniformSplit issuingGroup.nregs) rfl issues_uniformSplit exec_uniformSplit
  · have hv2 := afterSplit_v2
    rw [hsame, issuingState_v2] at hv2
    exact absurd hv2 (by decide)
  · obtain ⟨-, hframe⟩ := hv (by decide +kernel)
    have hstays := hframe 0 2 (by decide) (by decide)
    have hv2 := afterSplit_v2
    rw [hgroups, issuingState_groups, List.map_singleton, if_pos (by decide +kernel), List.map_singleton, hstays] at hv2
    exact absurd hv2 (by decide +kernel)

end Sys2Proof.Machine
end

section
/-! PROOFS. Stores and deferred atomics as they are buffered at issue (R113, R119, R127, R129, R134, R177, R347, R357 to R361, R411). -/
namespace Sys2Proof.Machine

/-! ### Lanes by their codes -/

section Codes
variable {lanes : List Nat} {code : Nat → Nat}

/-- The lanes of code 0. -/
theorem passing_codes (lanes : List Nat) (code : Nat → Nat) :
    ((lanes.map fun l => (l, code l)).filter fun f => f.2 == 0).map (·.1) = lanes.filter fun l => code l == 0 := by
  simp [List.filter_map, Function.comp_def]

/-- The lanes of other codes, with them. -/
theorem failing_codes (lanes : List Nat) (code : Nat → Nat) :
    ((lanes.map fun l => (l, code l)).filter fun f => f.2 != 0) = (lanes.filter fun l => code l != 0).map fun l => (l, code l) := by
  simp [List.filter_map, Function.comp_def]

theorem passing_codes_of_ok (h : ∀ l ∈ lanes, code l = 0) :
    ((lanes.map fun l => (l, code l)).filter fun f => f.2 == 0).map (·.1) = lanes := by
  rw [passing_codes, List.filter_eq_self]
  simpa using h

theorem failing_codes_of_ok (h : ∀ l ∈ lanes, code l = 0) : ((lanes.map fun l => (l, code l)).filter fun f => f.2 != 0) = [] := by
  rw [failing_codes, List.map_eq_nil_iff, List.filter_eq_nil_iff]
  simpa using h

@[simp] theorem spreadFaults_nil (c : Ctx) (uni : Bool) : spreadFaults c uni [] = [] := by cases uni <;> rfl

end Codes

/-! ### Stores -/

section Stores
variable {s : State} {g : Group} {n : Node} {c : Ctx} {o : MemOp} {m : MemForm}

theorem exec_of_storeForms {x : (MemOp → Instr) × (MemOp → MemForm)} (hx : x ∈ storeForms) (o : MemOp) (s : State) :
    exec (x.1 o) s = storeOp o (x.2 o) s := by
  simp only [storeForms, List.mem_cons, List.not_mem_nil, or_false] at hx
  rcases hx with rfl | rfl | rfl | rfl | rfl <;> rfl

/-- A store by its lanes' codes: it is one entry too many for some lane that it counts for, or the lanes of code 0 are buffered and the
others take their faults. -/
theorem storeOp_issues (hi : Issues s g n c false (memUse o m)) {codes : List (Nat × Nat)} {good counted : List Nat}
    (hcodes : codes = (memLanes g c o).map fun l =>
      (l, if memChk o m g.nregs true then storeCode (countCall s g) g m (memAddr g n o m.scratch l) else 6))
    (hgood : good = (codes.filter fun f => f.2 == 0).map (·.1))
    (hcounted : counted = if o.u then (if good = [] then [] else lanesOf c.active) else good) :
    storeOp o m s = .next (if (counted.any fun l => decide (c.hdr.nstore.toNat ≤ storeEntries c l)) = true then
        groupFault (countCall s g) g n c 49
      else faultLanes (countCall s g) g n (if good = [] then c else c.buffer
          (.store (if m.scratch then .scratch else .global) m.bytes (o.mark == 1) o.scope.toNat o.u)
          (good.map fun l => Elem.mk0 l
            (if m.scratch then scratchName g (memAddr g n o m.scratch l) else memAddr g n o m.scratch l) (storeBytes g n o m l)))
        (spreadFaults c o.u (codes.filter fun f => f.2 != 0)) (·.advance (memWords o))) := by
  unfold storeOp
  rw [coreOp_issues hi 0 (.inl rfl)]
  dsimp only
  cases hchk : memChk o m g.nregs true with
  | false =>
    have hsix : codes = (memLanes g c o).map fun l => (l, 6) := by simp [hcodes, hchk]
    have hnone : good = [] := by simp [hgood, hsix]
    have hall : (codes.filter fun f => f.2 != 0) = codes := by simp [hsix]
    rw [if_pos Bool.not_false, hall, hcounted, hnone, hsix]
    cases o.u <;> simp
  | true =>
    have hcodes' : codes = (memLanes g c o).map fun l => (l, storeCode (countCall s g) g m (memAddr g n o m.scratch l)) := by
      simp [hcodes, hchk]
    rw [if_neg (show ¬(!true) = true by decide), ← hcodes', ← hgood, hcounted]
    have hcount : (if o.u then !good.isEmpty && (lanesOf c.active).any fun l => decide (c.hdr.nstore.toNat ≤ storeEntries c l)
        else good.any fun l => decide (c.hdr.nstore.toNat ≤ storeEntries c l)) =
        ((if o.u then (if good = [] then [] else lanesOf c.active) else good).any fun l =>
          decide (c.hdr.nstore.toNat ≤ storeEntries c l)) := by
      cases o.u <;> cases good <;> simp
    have hempty : (good.isEmpty = true) = (good = []) := by simp
    simp only [hcount, hempty]

end Stores

/-- Settles O15: `storeOp_issues`, with every lane's code 0 in the first half. -/
theorem storesAreBuffered : Obligations.StoresAreBuffered := by
  unfold Obligations.StoresAreBuffered
  constructor
  · intro x hx o s g n c m lanes hi hchk hne hok hfit
    have hgood : lanes = ((lanes.map fun l =>
        (l, if memChk o m g.nregs true then storeCode (countCall s g) g m (memAddr g n o m.scratch l) else 6)).filter
          fun f => f.2 == 0).map (·.1) := by
      rw [passing_codes_of_ok (code := fun l => if memChk o m g.nregs true then _ else 6)]
      simpa [hchk] using hok
    have hfs : ((lanes.map fun l =>
        (l, if memChk o m g.nregs true then storeCode (countCall s g) g m (memAddr g n o m.scratch l) else 6)).filter
          fun f => f.2 != 0) = [] := by
      rw [failing_codes_of_ok (code := fun l => if memChk o m g.nregs true then _ else 6)]
      simpa [hchk] using hok
    rw [exec_of_storeForms hx, storeOp_issues hi rfl hgood rfl, if_neg, if_neg hne, hfs, spreadFaults_nil, faultLanes_nil]
    · rfl
    · rw [if_neg hne]
      simpa using hfit
  · intro x hx o s g n c m legal codes good counted hi
    have hstore := storeOp_issues (m := m) hi rfl (codes := codes) (good := good) (counted := counted) rfl rfl
    rw [exec_of_storeForms hx]
    refine ⟨fun hh hfit => ?_, fun hfull => ?_⟩
    · intro c1
      rw [hstore, if_neg (by simpa using hfit), faultLanes_handled (c := c1), countCall_core hh.1, stand, countCall_core hh.1]
      refine hh.congr rfl ?_
      unfold c1
      split <;> rfl
    · rw [hstore, if_pos (by simpa using hfull)]

/-! ### Deferred atomics -/

section Atomics
variable {s : State} {g : Group} {n : Node} {c : Ctx} {o : AtomOp} {m : AtomForm}

theorem exec_of_atomForms {x : (AtomOp → Instr) × (AtomOp → AtomForm)} (hx : x ∈ atomForms) (o : AtomOp) (s : State) :
    exec (x.1 o) s = atomOp o (x.2 o) s := by
  simp only [atomForms, List.mem_cons, List.not_mem_nil, or_false] at hx
  rcases hx with rfl | rfl | rfl | rfl | rfl <;> rfl

/-- A deferred atomic by its lanes' codes: it does not fit, or the lanes of code 0 are buffered and the others take their faults. -/
theorem atomOp_issues (hi : Issues s g n c false (atomUse o m)) {codes : List (Nat × Nat)} {good dst : List Nat}
    (hcodes : codes = (selected g o.ps.toNat o.pm.toNat c.active).map fun l =>
      (l, if atomChk (countCall s g) o m g.nregs then
          atomCode (countCall s g) g m (atomAddr g n o m l) (readSrc g n l (addrKd (m.kind == .atoms)) (atomSrcA o) 0) else 6))
    (hgood : good = (codes.filter fun f => f.2 == 0).map (·.1))
    (hdst : dst = if m.returns then (if wideTy o.ty.toNat then [o.d.toNat, o.d.toNat + 1] else [o.d.toNat]) else []) :
    atomOp o m s = .next (
      if ((good.any fun l => decide (c.hdr.natom.toNat ≤ atomEntries c l)) || (!good.isEmpty && overShadow c dst)) = true then
        groupFault (countCall s g) g n c 49
      else faultLanes (countCall s g) g n (if good = [] then c else (c.shadow dst).buffer
          (.atomic m.kind o.sub.toNat o.ty.toNat o.x4 (o.mark == 1 || o.mark == 3) (o.mark == 2 || o.mark == 3) o.scope.toNat o.d.toNat
            (if m.kind = .sred then o.w2.map fun w => w.toNat % 16 else none))
          (good.map fun l =>
            { Elem.mk0 l (if m.kind = .atoms then scratchName g (atomAddr g n o m l) else atomAddr g n o m l) [] with
              b := readSrc g n l (atomKd o.ty.toNat) (atomSrcB o) 0
              c := if m.useC then readSrc g n l (atomKd o.ty.toNat) (atomSrcC o) 0 else 0 }))
        (codes.filter fun f => f.2 != 0) (·.advance (lenWords o.w2))) := by
  unfold atomOp
  dsimp only
  rw [coreOp_issues hi 0 (.inl rfl)]
  cases hchk : atomChk (countCall s g) o m g.nregs with
  | false =>
    have hsix : codes = (selected g o.ps.toNat o.pm.toNat c.active).map fun l => (l, 6) := by simp [hcodes, hchk]
    have hnone : good = [] := by simp [hgood, hsix]
    have hall : (codes.filter fun f => f.2 != 0) = codes := by simp [hsix]
    rw [if_pos Bool.not_false, hall, hnone, hsix]
    simp
  | true =>
    have hcodes' : codes = (selected g o.ps.toNat o.pm.toNat c.active).map fun l => (l,
        atomCode (countCall s g) g m (atomAddr g n o m l) (readSrc g n l (addrKd (m.kind == .atoms)) (atomSrcA o) 0)) := by
      simp [hcodes, hchk]
    have hempty : (good.isEmpty = true) = (good = []) := by simp
    rw [if_neg (show ¬(!true) = true by decide), ← hcodes', ← hgood, ← hdst]
    simp only [hempty, Bool.or_eq_true]
    cases good.any fun l => decide (c.hdr.natom.toNat ≤ atomEntries c l) with
    | false =>
      simp only [Bool.false_eq_true, false_or]
      rfl
    | true => simp

end Atomics

/-- Settles O17: `atomOp_issues`, with every lane's code 0 in the first half. -/
theorem atomicsAreDeferred : Obligations.AtomicsAreDeferred := by
  unfold Obligations.AtomicsAreDeferred
  constructor
  · intro x hx o s g n c m ty lanes dst hi hchk hne hok hfit hshadow
    have hok' : ∀ l ∈ lanes, (if atomChk (countCall s g) o m g.nregs then
        atomCode (countCall s g) g m (atomAddr g n o m l) (readSrc g n l (addrKd (m.kind == .atoms)) (atomSrcA o) 0) else 6) = 0 := by
      simpa [hchk] using hok
    rw [exec_of_atomForms hx, atomOp_issues hi rfl (passing_codes_of_ok hok').symm rfl, failing_codes_of_ok hok', if_neg, if_neg hne,
      faultLanes_nil]
    · rfl
    · have hany : (lanes.any fun l => decide (c.hdr.natom.toNat ≤ atomEntries c l)) = false := by simpa using hfit
      rw [hany, show overShadow c _ = false from hshadow]
      simp
  · intro x hx o s g n c m ty dst codes good full hi
    have hatom := atomOp_issues (m := m) hi (codes := codes) (good := good) (dst := dst) rfl rfl rfl
    rw [exec_of_atomForms hx]
    refine ⟨fun hfull hh => ?_, fun hfull => ?_⟩
    · intro c1
      rw [hatom, if_neg (Bool.eq_false_iff.mp hfull), faultLanes_handled (c := c1), countCall_core hh.1, stand, countCall_core hh.1]
      refine hh.congr rfl ?_
      unfold c1
      split <;> rfl
    · rw [hatom, if_pos hfull]

end Sys2Proof.Machine
end

section
/-! PROOFS. The statement on loads fails: a corrected scratchpad word of a workgroup that two entries name the same changes the bytes of
one of them (R26, R135). -/
namespace Sys2Proof.Machine

/-- LDS of 4 bytes at offset 0 to v0, in every active lane. -/
def plainLds : MemOp :=
  { u := false, d := 0, a := 64, sub := 4, b := 64, zero := 0, ps := 15, pm := 0, ak := true, bk := true, nt := false, scope := 0,
    mark := 0, w2 := none }

/-- The issuing machine with two entries for the group's workgroup: the first has a correctable bank word, the second holds other bytes. -/
def twiceListedState : State :=
  { issuingState with wkgs := issuingState.wkgs.flatMap fun w =>
      [{ w with flaws := [{ off := 0, bad := false, synd := 0, seq := none }] }, { w with data := [(0, 1)] }] }

theorem issues_plainLds :
    Issues twiceListedState issuingGroup issuingNode issuingCtx false (loadUse plainLds (formOf true 4)) where
  frame := by decide +kernel
  can := by decide +kernel
  ctx := by decide +kernel
  going := by decide +kernel
  count := by decide +kernel
  len := by decide +kernel
  board := by decide +kernel
  own := by decide +kernel
  clean := by decide +kernel

/-- The state that the load leaves. -/
def afterLds : State :=
  loadEffect plainLds (formOf true 4) (countCall twiceListedState issuingGroup) issuingGroup issuingNode issuingCtx

theorem loadsReady_plainLds : loadsReady plainLds (formOf true 4) twiceListedState issuingGroup issuingNode issuingCtx = true := by
  decide +kernel

theorem exec_plainLds : exec (.lds plainLds) twiceListedState = .next afterLds := by
  have h := waitOp_issues issues_plainLds 0 (.inl rfl) (loadsReady plainLds (formOf true 4)) loadsReady_plainLds
    (loadEffect plainLds (formOf true 4))
  exact h

theorem twiceListedState_data : twiceListedState.wkgs.map (·.data) = [[], [(0, 1)]] := by decide +kernel

/-- The corrected entry stands in both places. -/
theorem afterLds_data : afterLds.wkgs.map (·.data) = [[], []] := by decide +kernel

/-- Every lane reads four zero bytes. -/
theorem loadValue_plainLds : ∀ l ∈ memLanes issuingGroup issuingCtx plainLds,
    loadValue (loadView plainLds (formOf true 4) (countCall twiceListedState issuingGroup) issuingGroup issuingNode issuingCtx)
      issuingGroup issuingNode issuingCtx plainLds (formOf true 4)
      (loadHome plainLds (formOf true 4) (countCall twiceListedState issuingGroup) issuingGroup issuingNode issuingCtx) l =
        .ok [0, 0, 0, 0] 0 := by
  decide +kernel

/-- Refutes O16: the load's correction replaces both entries of the workgroup by the first, so the second's byte is lost. -/
theorem not_loadsGoInFlight : ¬ Obligations.LoadsGoInFlight := by
  unfold Obligations.LoadsGoInFlight
  rintro ⟨h, -⟩
  obtain ⟨s', c', l, hexec, -, -, -, -, -, -, hdata, -⟩ := h (.lds, fun o => formOf true o.sub.toNat) (by simp [loadForms]) plainLds
    twiceListedState issuingGroup issuingNode issuingCtx (fun _ => [0, 0, 0, 0]) (fun _ => 0) issues_plainLds loadsReady_plainLds
    (by decide +kernel) (by decide +kernel) loadValue_plainLds (by decide +kernel)
  have hafter : afterLds.wkgs = s'.wkgs := by
    rw [show afterLds = _ from Host.Outcome.next.inj (exec_plainLds.symm.trans hexec)]
    rfl
  have := afterLds_data
  rw [hafter, hdata, twiceListedState_data] at this
  exact absurd this (by decide)

end Sys2Proof.Machine
end

section
/-! PROOFS. Asynchronous loads as they are posted at issue (R101, R119, R142, R156, R348, R411). -/
namespace Sys2Proof.Machine

section AsyncLoads
variable {s t : State} {g : Group} {n : Node} {c : Ctx} {o : MemOp}

/-- What LDA accesses. -/
def ldaForm (o : MemOp) : MemForm := { scratch := false, bytes := widthBytes o.sub.toNat, regs := 1, signed := false, iv := 0 }

/-- The element of a lane whose source stands at a physical address. -/
def ldaElem (g : Group) (n : Node) (o : MemOp) (l pa : Nat) : Elem :=
  { Elem.mk0 l (memAddr g n o false l) [] with
    b := scratchName g (g.rv l o.d.toNat).toNat
    pa := pa
    st := .checked }

/-- The post with an element for each lane of code 0, the other lanes leaving with their codes. -/
def postedLda (t : State) (g : Group) (n : Node) (c : Ctx) (o : MemOp) (pa code : Nat → Nat) : State :=
  faultLanes t g n (c.buffer (.lda (widthBytes o.sub.toNat))
      (((memLanes g c o).filter fun l => code l == 0).map fun l => ldaElem g n o l (pa l)))
    (((memLanes g c o).filter fun l => code l != 0).map fun l => (l, code l)) (·.advance (memWords o))

theorem exec_lda_illegal (hi : Issues s g n c false (memUse o (ldaForm o))) (hl : g.landing = none)
    (hchk : memChk o (ldaForm o) g.nregs true = false) :
    exec (.lda o) s = .next (faultLanes s g n c ((memLanes g c o).map fun l => (l, 6)) (·.advance (memWords o))) := by
  change execLda o s = _
  unfold execLda
  dsimp only
  rw [ldaForm] at hi hchk
  rw [waitOp_eq hi 6 (.inr hl), countCall_core hl]
  simp [hchk]

theorem exec_lda_held (hi : Issues s g n c false (memUse o (ldaForm o))) (hl : g.landing = none)
    (hchk : memChk o (ldaForm o) g.nregs true = true) (hheld : walksFree o s g n c = false) : exec (.lda o) s = .next s := by
  change execLda o s = _
  unfold execLda
  dsimp only
  rw [ldaForm] at hi hchk
  rw [waitOp_eq hi 6 (.inr hl)]
  simp [hchk, hheld]

theorem exec_lda_over (hi : Issues s g n c false (memUse o (ldaForm o))) (hl : g.landing = none)
    (hchk : memChk o (ldaForm o) g.nregs true = true) (hfree : walksFree o s g n c = true) (hfull : c.hdr.npost.toNat ≤ postCount c) :
    exec (.lda o) s = .next (groupFault s g n c 49) := by
  change execLda o s = _
  unfold execLda
  dsimp only
  rw [ldaForm] at hi hchk
  rw [waitOp_eq hi 6 (.inr hl), countCall_core hl]
  simp [hchk, hfree, hfull]

/-- What some lanes give, as the lanes that give something and what they give. -/
theorem filterMap_eq_map_filter {β : Type} {lanes : List Nat} {F : Nat → Option β} {p : Nat → Bool} {f : Nat → β}
    (h : ∀ l ∈ lanes, F l = if p l = true then some (f l) else none) : lanes.filterMap F = (lanes.filter p).map f := by
  induction lanes with
  | nil => rfl
  | cons l ls ih =>
    have hls := ih fun k hk => h k (List.mem_cons_of_mem l hk)
    have hl := h l List.mem_cons_self
    cases hp : p l
    · rw [hp] at hl
      rw [List.filter_cons_of_neg (Bool.eq_false_iff.mp hp), ← hls, List.filterMap_cons, hl] <;> rfl
    · rw [hp] at hl
      rw [List.filter_cons_of_pos hp, List.map_cons, ← hls, List.filterMap_cons, hl] <;> rfl

/-- A post by its elements and its faulting lanes. -/
theorem postedLda_congr {t : State} {op : EffOp} {es es' : List Elem} {fs fs' : List (Nat × Nat)} {next : Ctx → Ctx} (he : es = es')
    (hf : fs = fs') : faultLanes t g n (c.buffer op es) fs next = faultLanes t g n (c.buffer op es') fs' next := by rw [he, hf]

theorem exec_lda_posts {pa code : Nat → Nat} (hi : Issues s g n c false (memUse o (ldaForm o))) (hl : g.landing = none)
    (hchk : memChk o (ldaForm o) g.nregs true = true) (hfree : walksFree o s g n c = true) (hroom : postCount c < c.hdr.npost.toNat)
    (hcheck : ∀ l ∈ memLanes g c o, ldaCheck (seeWalks o s g n c) g (memAddr g n o false l) (g.rv l o.d.toNat).toNat
      (widthBytes o.sub.toNat) = if code l = 0 then .ok (pa l) else .error (code l)) :
    exec (.lda o) s = .next (postedLda (seeWalks o s g n c) g n c o pa code) := by
  change execLda o s = _
  unfold execLda
  dsimp only
  rw [ldaForm] at hi hchk
  rw [waitOp_eq hi 6 (.inr hl), countCall_core hl]
  simp only [hchk, hfree, Bool.not_true, Bool.false_or, if_true, Bool.false_eq_true, if_false, if_neg (Nat.not_le.mpr hroom)]
  simp only [List.map_map, List.filterMap_map, Function.comp_def]
  refine congrArg Host.Outcome.next (postedLda_congr ?_ ?_) <;> refine filterMap_eq_map_filter fun l hlane => ?_
  · rw [hcheck l hlane]
    by_cases h0 : code l = 0 <;> simp [h0, ldaElem, Elem.mk0]
  · rw [hcheck l hlane]
    by_cases h0 : code l = 0 <;> simp [h0]

end AsyncLoads

/-- Settles O18: by the operand check, the walks, NPOST and the lanes' codes. -/
theorem asyncLoadsArePosted : Obligations.AsyncLoadsArePosted := by
  unfold Obligations.AsyncLoadsArePosted
  constructor
  · intro o s g n c pa b m lanes hi hl hchk hroom hfree t hcheck
    rw [exec_lda_posts (pa := pa) (code := fun _ => 0) hi hl hchk hfree hroom fun l hlane => by simpa using hcheck l hlane, postedLda, stand,
      countCall_core hl]
    simp only [bne_self_eq_false, beq_self_eq_true, filter_always, filter_never, List.map_nil, faultLanes_nil]
    rfl
  · intro o s g n c pa code b m lanes hi hh
    obtain ⟨hl, -, -⟩ := id hh
    refine ⟨fun hchk => ?_, fun hchk hheld => exec_lda_held hi hl hchk hheld, fun hchk hfree hfull => exec_lda_over hi hl hchk hfree hfull,
      fun hchk hfree hroom => ?_⟩
    · rw [exec_lda_illegal hi hl hchk, faultLanes_handled hh, stand, countCall_core hl]
    · intro t hcheck
      rw [exec_lda_posts hi hl hchk hfree hroom hcheck, postedLda, faultLanes_handled, stand, countCall_core hl]
      · rfl
      · exact hh.congr rfl rfl

end Sys2Proof.Machine
end

section
/-! PROOFS. Engine posts as they are captured at issue (R142, R149, R156, R304, R371, R373). -/
namespace Sys2Proof.Machine

section Posts
variable {s t : State} {g : Group} {n : Node} {c : Ctx} {o : LOp}

/-- A post once its operands are legal and its trace has room: it waits, or its entry is checked and it is captured. -/
theorem postEffect_captures (m : PostForm) (d a : Nat) (body : List Byte) (hroom : postCount c < c.hdr.npost.toNat)
    (hspot : spotCheck (seeSpotWalk s g (ringSpot g n m.bench a)) g (ringSpot g n m.bench a) 64 64
      (if m.bench then .update else .read) = 0) :
    postEffect m d a body s g n c = putCtx (seeSpotWalk s g (ringSpot g n m.bench a)) g n
      (((c.own g d).buffer (.post m.kind (ringSpot g n m.bench a).addr m.op body d m.counted) []).advance 2) := by
  unfold postEffect
  dsimp only
  rw [if_neg (Nat.not_le.mpr hroom), hspot]
  rfl

theorem postReady_of_ok {m : PostForm} {a : Nat} (h : ringRegOk m.bench a = true) :
    postReady m a s g n c = !spotWalkHeld s g (ringSpot g n m.bench a) := by
  rw [postReady, h, Bool.not_true, Bool.false_or]

theorem exec_of_postForms {x : (LOp → Instr) × PostForm} (hx : x ∈ postForms) (o : LOp) (s : State) :
    exec (x.1 o) s = postOp x.2 o s := by
  simp only [postForms, List.mem_cons, List.not_mem_nil, or_false] at hx
  rcases hx with rfl | rfl | rfl | rfl | rfl <;> rfl

end Posts

/-- Settles O20. -/
theorem postsAreCaptured : Obligations.PostsAreCaptured := by
  unfold Obligations.PostsAreCaptured
  intro o s g n c hl hroom
  refine ⟨fun x hx => ?_, ?_, ?_⟩
  · intro spot hi hd hb hreg
    rw [exec_of_postForms hx, postOp]
    dsimp only
    rw [waitOp_eq hi.written 6 (.inr hl), postReady_of_ok hreg, countCall_core hl]
    refine ⟨fun hheld => by rw [if_neg (by simpa using hheld)], fun hfree => ?_⟩
    intro hspot
    rw [if_pos (by simpa using hfree), if_neg (by simp [hreg]; omega), postEffect_captures _ _ _ _ hroom hspot, stand, countCall_core hl]
  · intro bench spot hi hd hreg
    rw [show exec (.qfence o) s = execQfence o s from rfl, execQfence]
    dsimp only
    rw [waitOp_eq hi.written 6 (.inr hl), postReady_of_ok hreg, countCall_core hl]
    refine ⟨fun hheld => ?_, fun hfree => ?_⟩
    · rw [show spotWalkHeld s g (ringSpot g n (o.sub == 3) o.a.toNat) = true from hheld, if_neg (by decide)]
    intro hspot
    rw [show spotWalkHeld s g (ringSpot g n (o.sub == 3) o.a.toNat) = false from hfree, if_pos (by decide), if_neg,
      postEffect_captures _ _ _ _ hroom hspot, stand, countCall_core hl]
    rw [decide_eq_false (Nat.not_le.mpr hd), show ringRegOk (o.sub == 3) o.a.toNat = true from hreg]
    decide
  · intro sq fields hi hbk hb hsq ha hdst hgang hspot hbits
    have hissue : Issues s g n c false
        { Use.none with sr := sq :: (List.range 6).map (o.b.toNat + ·), vr := [o.a.toNat], ws := [sq] } := hi.written
    change execMma o s = _
    unfold execMma
    dsimp only
    rw [coreOp_issues hissue 6 (.inr hl), countCall_core hl]
    rw [if_neg, if_neg (Nat.not_le.mpr hroom), hspot, stand, countCall_core hl]
    · have hbyte : bits (((List.range 6).map fun i => readS g n (o.b.toNat + i)).getD 5 0).toNat 31 24 = 0 := hbits
      simp only [hbyte, ne_eq, not_true, if_false]
      rfl
    · rw [hbk, hdst, decide_eq_false (Nat.not_lt.mpr hb), decide_eq_false (Nat.not_le.mpr hsq), decide_eq_false (Nat.not_le.mpr ha),
        decide_eq_false hgang]
      decide

end Sys2Proof.Machine
end

section
/-! PROOFS. Tickets and ring status as they issue (R83 to R86, R101, R309, R310). -/
namespace Sys2Proof.Machine

section Tickets
variable {s : State} {g : Group} {n : Node} {c : Ctx} {o : LOp}

/-- A write to an ordinary scalar of a group without a register in error changes that scalar, and what the trace owns. -/
theorem writeS_ordinary (hclean : g.flaws = []) {r : Nat} (hr : r < 60) (x : Word) :
    writeS (g, n, c) r x = ({ g with s := sset g.s r x }, n,
      if (c.owned.any fun o => o.1 == r) = true then c else { c with owned := (r, g.ownedVal r) :: c.owned }) := by
  have hown : g.setOwned r x = { g with s := sset g.s r x } := by
    unfold Group.setOwned regFmode regSavelo regSavehi
    rw [if_neg (by omega), if_neg (by omega), if_neg (by omega)]
    simp [Group.mend, hclean]
  simp [writeS, hr, hown]

/-- The same of several: of the trace only what it owns changes. -/
theorem foldl_writeS_ordinary {ws : List (Nat × Word)} (hws : ∀ w ∈ ws, w.1 < 60) (hclean : g.flaws = []) :
    ∃ c' : Ctx, ws.foldl (fun st w => writeS st w.1 w.2) (g, n, c) =
        ({ g with s := ws.foldl (fun m w => sset m w.1 w.2) g.s }, n, c') ∧
      c'.ticket = c.ticket ∧ c'.pc = c.pc ∧ c'.ix = c.ix ∧ c'.effs = c.effs := by
  induction ws generalizing g c with
  | nil => exact ⟨c, rfl, rfl, rfl, rfl, rfl⟩
  | cons w ws ih =>
    rw [List.foldl_cons, writeS_ordinary hclean (hws w List.mem_cons_self)]
    obtain ⟨c', hfold, htick, hpc, hix, heffs⟩ :=
      ih (g := { g with s := sset g.s w.1 w.2 }) (fun v hv => hws v (List.mem_cons_of_mem w hv)) hclean
    refine ⟨c', hfold, htick.trans ?_, hpc.trans ?_, hix.trans ?_, heffs.trans ?_⟩ <;> split <;> rfl

/-- The grant that TICKET takes: the pending one, or the launch's next positions. -/
def ticketGrant (g : Group) (l : Launch) : Grant := if g.grant.st == 0 then takeGrant l else { g.grant with st := 2 }

/-- The six scalars that TICKET writes. -/
def ticketWrites (d : Nat) (t : Grant) : List (Nat × Word) :=
  [(d, t.n.setWidth 32), (d + 1, (t.n >>> 32).setWidth 32), (d + 2, t.c), (d + 3, t.x), (d + 4, t.y), (d + 5, t.z)]

theorem exec_ticket_illegal (hl : g.landing = none)
    (hi : Issues s g n c false { Use.none with sr := (List.range 6).map (o.d.toNat + ·) })
    (hd : ¬(o.d.toNat % 2 = 0 ∧ o.d.toNat ≤ 54)) : exec (.ticket o) s = .next (uniFault s g n c 6 (·.advance 2)) := by
  change execTicket o s = _
  unfold execTicket
  dsimp only
  rw [waitOp_eq hi.written 6 (.inr hl), countCall_core hl, if_pos (by simp [hd]), if_pos (by simp [hd])]

theorem exec_ticket_waits (hl : g.landing = none)
    (hi : Issues s g n c false { Use.none with sr := (List.range 6).map (o.d.toNat + ·) })
    (hd : o.d.toNat % 2 = 0 ∧ o.d.toNat ≤ 54) (hgrant : g.grant.st = 2) (hticket : c.ticket = false) :
    exec (.ticket o) s = .next s := by
  change execTicket o s = _
  unfold execTicket
  dsimp only
  rw [waitOp_eq hi.written 6 (.inr hl), if_neg (by simp [hd, hgrant, hticket])]

theorem exec_ticket_takes {l : Launch} (hl : g.landing = none)
    (hi : Issues s g n c false { Use.none with sr := (List.range 6).map (o.d.toNat + ·) })
    (hd : o.d.toNat % 2 = 0 ∧ o.d.toNat ≤ 54) (hlaunch : s.launch? g.part g.serial = some l)
    (hfree : g.grant.st ≠ 2 ∨ c.ticket = true) {g1 : Group} {n1 : Node} {c1 : Ctx}
    (hwrites : (ticketWrites o.d.toNat (ticketGrant g l)).foldl (fun st w => writeS st w.1 w.2)
      ({ g with grant := ticketGrant g l }, n, { c with ticket := true }) = (g1, n1, c1)) :
    exec (.ticket o) s = .next (putCtx (if g.grant.st == 0 then
        s.setLaunch { l with next := l.next + (ticketGrant g l).c.toNat } else s) g1 n1 (c1.advance 2)) := by
  change execTicket o s = _
  unfold execTicket
  dsimp only
  rw [waitOp_eq hi.written 6 (.inr hl), countCall_core hl, if_pos (by simpa [hd] using hfree), if_neg (by simp [hd]), hlaunch]
  change Host.Outcome.next (match (ticketWrites o.d.toNat (ticketGrant g l)).foldl (fun st w => writeS st w.1 w.2)
    ({ g with grant := ticketGrant g l }, n, { c with ticket := true }) with
    | (g1, n1, c1) => putCtx (if g.grant.st == 0 then
        s.setLaunch { l with next := l.next + (ticketGrant g l).c.toNat } else s) g1 n1 (c1.advance 2)) = _
  rw [hwrites]

/-- The count of a fresh grant: the chunk, or what the space still holds (R83). -/
def grantCount (l : Launch) : Nat := min (l.fld 44 2) (l.space - l.next)

theorem takeGrant_coords_none {l : Launch} (h : grantCount l = 0) :
    (takeGrant l).x = BitVec.ofNat 32 0 ∧ (takeGrant l).y = BitVec.ofNat 32 0 ∧ (takeGrant l).z = BitVec.ofNat 32 0 := by
  simp [takeGrant, show min (l.fld 44 2) (l.space - l.next) = 0 from h]

/-- A grant of some positions has the coordinates of its first under the launch's walk (R84). -/
theorem takeGrant_coords {l : Launch} (h : grantCount l ≠ 0) :
    (takeGrant l).x = BitVec.ofNat 32 (walkAt l l.next).1 ∧ (takeGrant l).y = BitVec.ofNat 32 (walkAt l l.next).2.1 ∧
      (takeGrant l).z = BitVec.ofNat 32 (walkAt l l.next).2.2 := by
  simp only [takeGrant, if_neg (show ¬ min (l.fld 44 2) (l.space - l.next) = 0 from h), and_self]

end Tickets

section RingStatus
variable {s : State} {g : Group} {n : Node} {c : Ctx} {o : LOp}

/-- QSTAT of a ring whose header can be read (R309). -/
theorem exec_qstat {h : List Byte} {pa : Nat} {x : Spot}
    (hi : Issues s g n c false { Use.none with sr := o.d.toNat :: ringUse (bit o.sub.toNat 2) o.a.toNat }) (hd : o.d.toNat < 64)
    (hreg : ringRegOk (bit o.sub.toNat 2) o.a.toNat = true) (hx : x = ringSpot g n (bit o.sub.toNat 2) o.a.toNat)
    (hready : headerReady s g x = true) (hspot : spotCheck (seeSpot (countCall s g) g x 64) g x 64 64 .read = 0)
    (hload : loadHeader (seeSpot (countCall s g) g x 64) g c x = .ok h pa) {r : Group × Node × Ctx}
    (hr : r = writeS (g, n, c) o.d.toNat (if bit o.sub.toNat 0 then
        BitVec.ofNat 32 (RingHdr.flags h % 4 + min (RingHdr.nprod h) 255 * 2 ^ 8 + min (RingHdr.ncons h) 255 * 2 ^ 16)
      else RingHdr.tailc h - RingHdr.headc h)) :
    exec (.qstat o) s = .next (putCtx (seeSpot (countCall s g) g x 64) r.1 r.2.1 (r.2.2.advance 2).settle) := by
  subst hx hr
  change execQstat o s = _
  unfold execQstat
  dsimp only
  rw [waitOp_eq hi.written 0 (.inl rfl), if_pos (by simp [hready]), if_neg (by simp [hreg, hd]), hspot, hload]
  rfl

end RingStatus

/-- Settles O27. -/
theorem ticketsAreGrantedAndRingStatusIsRead : Obligations.TicketsAreGrantedAndRingStatusIsRead := by
  unfold Obligations.TicketsAreGrantedAndRingStatusIsRead
  refine ⟨?_, ?_, ?_⟩
  · intro o s g n c l hl hi heven hle hlaunch hfree fresh t
    have hfit : ∀ w ∈ ticketWrites o.d.toNat (ticketGrant g l), w.1 < 60 := by
      simp only [ticketWrites, List.forall_mem_cons, List.not_mem_nil, false_implies, implies_true, and_true]
      omega
    obtain ⟨c1, hwrites, htick, hpc, hix, heffs⟩ := foldl_writeS_ordinary (g := { g with grant := ticketGrant g l }) (n := n)
      (c := { c with ticket := true }) hfit hi.clean
    refine ⟨c1.advance 2, ?_, htick, ?_, ?_, heffs, fun hfresh => ?_⟩
    · rw [exec_ticket_takes hl hi ⟨heven, hle⟩ hlaunch hfree hwrites, stand, countCall_core hl]
      rfl
    · exact congrArg (· + 8) hpc
    · exact congrArg (· + 1) hix
    · have ht : t = takeGrant l := if_pos hfresh
      intro count X Y W q y0 h q1 coords
      refine ⟨by rw [ht]; rfl, by rw [ht]; exact BitVec.toNat_ofNat .., fun hnone => ?_, fun hcount hrow => ?_, fun hcount hpanel => ?_⟩ <;>
        change t.x = _ ∧ t.y = _ ∧ t.z = _ <;> rw [ht]
      · exact takeGrant_coords_none hnone
      · have hcoords := takeGrant_coords hcount
        rwa [walkAt, if_pos hrow] at hcoords
      · have hcoords := takeGrant_coords hcount
        rwa [walkAt, if_neg (by rw [hpanel]; decide)] at hcoords
  · intro o s g n c hl hi
    exact ⟨fun heven hle hgrant hticket => exec_ticket_waits hl hi ⟨heven, hle⟩ hgrant hticket, exec_ticket_illegal hl hi⟩
  · intro o s g n c h pa bench x hi hd hreg hready t hspot hload v r
    exact exec_qstat hi hd hreg rfl hready hspot hload rfl

end Sys2Proof.Machine
end

section
/-! PROOFS. Spawning as it issues (R92, R111, R113, R119, R311, R333, R339). -/
namespace Sys2Proof.Machine

/-! ### What writes of device memory leave alone -/

@[simp] theorem enterWaiting_untouched (s : State) (die : Nat) : (enterWaiting s die).untouched = s.untouched := by
  unfold enterWaiting
  dsimp only
  split
  · rfl
  · split <;> rfl

@[simp] theorem healWords_untouched (s : State) (pa n : Nat) : (healWords s pa n).untouched = s.untouched := by
  unfold healWords
  dsimp only
  split
  · rfl
  · rw [enterWaiting_untouched]
    rfl

/-- A write of device memory changes those bytes, and of the rest only what meeting check codes may. -/
@[simp] theorem pwrite_untouched (s : State) (pa : Nat) (d : List Byte) :
    (pwrite s pa d).untouched = { s.untouched with mem := swrite s.mem pa d } := by
  rw [pwrite, healWords_untouched]
  rfl

/-- Writes through the tables, which change device memory alone, apart from that. -/
@[simp] theorem writeVa_untouched (s : State) (core die part va : Nat) (d : List Byte) :
    { (writeVa s core die part va d).untouched with mem := [] } = { s.untouched with mem := [] } := by
  have hsee := congrArg (fun t : State => { t with mem := [] }) (seeWalk_untouched s core die part va)
  unfold writeVa
  dsimp only
  split
  · split
    · rw [pwrite_untouched]
      exact hsee
    · exact hsee
  · exact hsee

@[simp] theorem setSlotState_untouched (s : State) (g : Group) (q : TaskQ) (c : Word) (st : Nat) :
    { (setSlotState s g q c st).untouched with mem := [] } = { s.untouched with mem := [] } := by
  unfold setSlotState
  split
  · exact writeVa_untouched ..
  · rw [seeWalk_untouched]

theorem setSlotState_parts (s : State) (g : Group) (q : TaskQ) (c : Word) (st : Nat) : (setSlotState s g q c st).parts = s.parts :=
  (congrArg (·.parts) (setSlotState_untouched s g q c st) :)

/-! ### SPAWN -/

section Spawn
variable {s : State} {g : Group} {n : Node} {c : Ctx} {o : LOp}

/-- What SPAWN uses. -/
def spawnUse (o : LOp) : Use := { Use.none with vr := (List.range 6).map (o.a.toNat + ·), pr := [o.d.toNat, o.ps.toNat] }

theorem exec_spawn_second (hl : g.landing = none) (hi : Issues s g n c false (spawnUse o)) (hcount : spawnCount c ≠ 0) :
    exec (.spawn o) s = .next (groupFault s g n c 49) := by
  change execSpawn o s = _
  unfold execSpawn
  dsimp only
  rw [spawnUse] at hi
  rw [coreOp_issues hi.written 6 (.inr hl), countCall_core hl, if_pos hcount]

theorem exec_spawn_illegal (hl : g.landing = none) (hi : Issues s g n c false (spawnUse o)) (hcount : spawnCount c = 0)
    (hregs : ¬(o.d.toNat < 16 ∧ o.a.toNat + 6 ≤ g.nregs)) :
    exec (.spawn o) s = .next (operandFault s g n c [] (if o.d.toNat < 16 then [o.d.toNat] else [])
      (selected g o.ps.toNat o.pm.toNat c.helpers) (selected g o.ps.toNat o.pm.toNat c.active) 6 (·.advance 3)) := by
  change execSpawn o s = _
  unfold execSpawn
  dsimp only
  rw [spawnUse] at hi
  rw [coreOp_issues hi.written 6 (.inr hl), countCall_core hl, if_neg (not_not_intro hcount), if_pos]
  · simp [predOk]
  · simp only [predOk, Bool.or_eq_true, Bool.not_eq_true', decide_eq_false_iff_not, decide_eq_true_eq]
    by_cases hd : o.d.toNat < 16
    · exact .inr (Nat.lt_of_not_le fun ha => hregs ⟨hd, ha⟩)
    · exact .inl hd

theorem exec_spawn_reserves (hl : g.landing = none) (hi : Issues s g n c false (spawnUse o)) (hcount : spawnCount c = 0)
    (hd : o.d.toNat < 16) (ha : o.a.toNat + 6 ≤ g.nregs) {r : Reserved}
    (hr : r = reserveSlots s g (spawnQueue o) (selected g o.ps.toNat o.pm.toNat c.active)) :
    exec (.spawn o) s = .next (putCtx r.s
      ((selected g o.ps.toNat o.pm.toNat c.active ++ selected g o.ps.toNat o.pm.toNat c.helpers).foldl
        (fun g' l => g'.wp l o.d.toNat (if r.won.any fun w => w.1 == l then 1 else 0)) g) n
      ((spawnEff c (spawnQueue o) (spawnEntry c o) r.won fun l =>
        (List.range 6).flatMap fun k => leBytes 4 (g.rv l (o.a.toNat + k)).toNat).advance 3)) := by
  subst hr
  change execSpawn o s = _
  unfold execSpawn
  dsimp only
  rw [spawnUse] at hi
  rw [coreOp_issues hi.written 6 (.inr hl), countCall_core hl, if_neg (not_not_intro hcount), if_neg]
  simp [predOk]
  omega

end Spawn

/-! ### Reserving slots -/

section Reserving
variable {s : State} {g : Group} {q : Nat} {lanes : List Nat} {p : Partition} {tq : TaskQ}

/-- Free slots of a task queue. -/
def TaskQ.room (tq : TaskQ) : Nat := tq.size - (tq.tailc - tq.headc).toNat

theorem reserveSlots_won (hp : s.part? g.part = some p) (hq : p.taskq? q = some tq) :
    (reserveSlots s g q lanes).won = (lanes.take tq.room).mapIdx fun i l => (l, tq.tailc + BitVec.ofNat 32 i) := by
  simp only [reserveSlots, hp, hq, TaskQ.room]

theorem reserveSlots_parts (hp : s.part? g.part = some p) (hq : p.taskq? q = some tq) :
    (reserveSlots s g q lanes).s.parts = (s.setPart (p.setTaskq { tq with
      tailc := tq.tailc + BitVec.ofNat 32 (reserveSlots s g q lanes).won.length
      reserved := tq.reserved ++ (reserveSlots s g q lanes).won.map (·.2) })).parts := by
  simp only [reserveSlots, hp, hq]
  exact foldl_keeps State.parts _ (fun s (w : Nat × Word) => setSlotState_parts s g tq w.2 1) _ _

end Reserving

/-! ### IVBIS -/

section Bisection
variable {s : State} {g : Group} {n : Node} {c : Ctx} {o : LOp} {half : Bool}

/-- Registers that IVBIS writes, and what it uses. -/
def bisectDst (half : Bool) (o : LOp) : List Nat := if half then [o.d.toNat] else [o.d.toNat, o.d.toNat + 1]
def bisectUse (half : Bool) (o : LOp) : Use :=
  { sr := o.srcA.scalars (ivKd half)
    vr := bisectDst half o ++ (List.range 4).map (o.b.toNat + ·) ++ o.srcA.vectors (ivKd half) [0]
    pr := [o.mod.toNat % 16, o.ps.toNat]
    pdg := false
    extra := 0 }

/-- A lane's interval; its lower or upper half, and its whole, with zero bounds as +0 (R333). -/
def bisectIv (half : Bool) (o : LOp) (g : Group) (n : Node) (l : Nat) : Ival := ivOf half (readSrc g n l (ivKd half) o.srcA 0)
def bisectHalf (half : Bool) (o : LOp) (g : Group) (n : Node) (l : Nat) (low : Bool) : Nat :=
  let x := bisectIv half o g n l
  ivImg half (if low then { lo := posZero (ivFmt half) x.lo, hi := ivMid (ivFmt half) x }
    else { lo := ivMid (ivFmt half) x, hi := posZero (ivFmt half) x.hi })
def bisectWhole (half : Bool) (o : LOp) (g : Group) (n : Node) (l : Nat) : Nat :=
  ivImg half { lo := posZero (ivFmt half) (bisectIv half o g n l).lo, hi := posZero (ivFmt half) (bisectIv half o g n l).hi }

/-- An interval's image at D of a lane, and the predicate. -/
def bisectPut (half : Bool) (o : LOp) (g : Group) (l img : Nat) (p : Pred) : Group :=
  (if half then g.wv l o.d.toNat (BitVec.ofNat 32 img)
    else (g.wv l o.d.toNat (BitVec.ofNat 32 img)).wv l (o.d.toNat + 1) (BitVec.ofNat 32 (img / 2 ^ 32))).wp l (o.mod.toNat % 16) p

theorem bisectPut_eq (g : Group) (l img : Nat) (p : Pred) :
    ((dstWrites false l o.d.toNat 0 (!half) img).foldl (fun x w => (writeRef (x, n, c) w).1) g).wp l (o.mod.toNat % 16) p =
      bisectPut half o g l img p := by
  rw [foldl_writeRef_dstWrites, bisectPut]
  cases half <;> rfl

/-- No read of a group without a register in error meets one. -/
theorem any_regError_clean (hclean : g.flaws = []) (rs : List Reads) : (rs.any fun r => g.regError r != 0) = false := by
  rw [List.any_eq_false]
  intro r _
  rw [Group.regError, hclean]
  exact Bool.false_ne_true

/-- IVBIS where every selected lane's operand is an interval (R339). -/
theorem exec_bisect (hl : g.landing = none) (hi : Issues s g n c false (bisectUse half o)) (hcount : spawnCount c = 0)
    (hd : dstOk false g.nregs (!half) [0] o.d.toNat = true) (ha : srcOk g.nregs (ivKd half) [0] o.srcA = true)
    (hb : o.b.toNat + 4 ≤ g.nregs) {lanes help : List Nat} (hlanes : lanes = selected g o.ps.toNat o.pm.toNat c.active)
    (hhelp : help = selected g o.ps.toNat o.pm.toNat c.helpers) (hne : lanes ≠ []) (hshadow : overShadow c (bisectDst half o) = false)
    (hok : ∀ l ∈ lanes, ivCheck (ivFmt half) [bisectIv half o g n l] = 0) {r : Reserved}
    (hr : r = reserveSlots s g (spawnQueue o) lanes) :
    bisectOp half o s = .next (putCtx r.s
      (help.foldl (fun g' l => if ivCheck (ivFmt half) [bisectIv half o g n l] = 0 then bisectPut half o g' l (bisectWhole half o g n l) 0
          else zeroLane (bisectDst half o) [o.mod.toNat % 16] g' l)
        (lanes.foldl (fun g' l => bisectPut half o g' l
          (if r.won.any fun w => w.1 == l then bisectHalf half o g n l (o.sub == 0) else bisectWhole half o g n l)
          (if r.won.any fun w => w.1 == l then 1 else 0)) g)) n
      ((spawnEff (c.shadow (bisectDst half o)) (spawnQueue o) (spawnEntry c o) r.won fun l =>
        (if half then leBytes 4 (bisectHalf half o g n l !(o.sub == 0)) ++ [0, 0, 0, 0]
          else leBytes 8 (bisectHalf half o g n l !(o.sub == 0))) ++
          (List.range 4).flatMap fun k => leBytes 4 (g.rv l (o.b.toNat + k)).toNat).advance 3).settle) := by
  have hgood : lanes.filter (fun l => ivCheck (ivFmt half) [bisectIv half o g n l] == 0) = lanes :=
    List.filter_eq_self.mpr fun l hlane => by rw [hok l hlane]; rfl
  have hbad : lanes.filter (fun l => ivCheck (ivFmt half) [bisectIv half o g n l] != 0) = [] :=
    List.filter_eq_nil_iff.mpr fun l hlane => by rw [hok l hlane]; decide
  have hsome : (lanes ++ help).isEmpty = false := by cases lanes <;> simp at hne ⊢
  simp only [bisectIv] at hgood hbad
  simp only [bisectUse, bisectDst] at hi hshadow ⊢
  unfold bisectOp
  dsimp only
  rw [coreOp_issues hi.written 6 (.inr hl), countCall_core hl, ← hlanes, ← hhelp, if_neg (not_not_intro hcount),
    if_neg (by simp [hd, ha, hb]), if_neg (by rw [hsome]; exact Bool.eq_false_iff.mp hshadow), hgood, hbad, List.map_nil, faultLanes_nil,
    ← hr, hsome]
  simp only [any_regError_clean hi.clean, bisectPut_eq, Bool.or_false, bne_iff_ne, ne_eq, ite_not, Bool.false_eq_true, if_false]
  have hput : ∀ (g' : Group) (b : Bool) (l x y : Nat), bisectPut half o g' l (if b = true then x else y) (if b = true then 1 else 0) =
      if b = true then bisectPut half o g' l x 1 else bisectPut half o g' l y 0 := fun g' b l x y => by cases b <;> rfl
  simp only [hput]
  rfl

end Bisection

/-- Settles O28: SPAWN and IVBIS by their operand checks, reserving by `reserveSlots_won`. -/
theorem spawnsReserveSlots : Obligations.SpawnsReserveSlots := by
  unfold Obligations.SpawnsReserveSlots
  refine ⟨?_, ?_, ?_, ?_, ?_⟩
  · intro o s g n c hl hi hcount hd ha lanes help r
    exact exec_spawn_reserves hl hi hcount hd ha rfl
  · intro o s g n c hl hcount hi
    exact exec_spawn_second hl hi hcount
  · intro o s g n c hh hcount hregs hi g1
    rw [exec_spawn_illegal hh.1 hi hcount hregs, operandFault_handled hh _ _ _ _ _ _ (.inr (overShadow_nil c)), stand, countCall_core hh.1,
      Ctx.shadow_nil, ite_self]
  · intro s g q lanes p tq hp hq r room
    have hwon : r.won = (lanes.take room).mapIdx fun i l => (l, tq.tailc + BitVec.ofNat 32 i) := reserveSlots_won hp hq
    refine ⟨by simp [hwon], fun i h h' => ?_, reserveSlots_parts hp hq⟩
    simp [hwon]
  · intro half o s g n c hl hcount dst pr hi hd ha hb lanes help x hne hshadow hok r m lower upper whole kept spawned won put
    have hexec : exec (if half then .ivbisIv16 o else .ivbis o) s = bisectOp half o s := by cases half <;> rfl
    have hkept : kept = fun l => bisectHalf half o g n l (o.sub == 0) := by
      funext l
      change (if o.sub = 0 then lower l else upper l) = _
      by_cases h : o.sub = 0
      · rw [if_pos h, h]
        rfl
      · rw [if_neg h, beq_eq_false_iff_ne.mpr h]
        rfl
    have hspawned : spawned = fun l => bisectHalf half o g n l !(o.sub == 0) := by
      funext l
      change (if o.sub = 0 then upper l else lower l) = _
      by_cases h : o.sub = 0
      · rw [if_pos h, h]
        rfl
      · rw [if_neg h, beq_eq_false_iff_ne.mpr h]
        rfl
    rw [hexec, exec_bisect hl hi hcount hd ha hb rfl rfl hne hshadow hok rfl, hkept, hspawned]
    rfl

end Sys2Proof.Machine
end

section
/-! PROOFS. Reads that go in flight: literals, completion words, calls that read, tree steps and split trees (R120, R253, R254, R350,
R374, R376, R379, R385, R386). -/
namespace Sys2Proof.Machine

/-! ### What reads leave alone -/

/-- The memories and the groups of the machine. -/
def State.stores (s : State) : Sparse 8 × Sparse 8 × List Workgroup × List Group := (s.mem, s.hostmem, s.wkgs, s.groups)

theorem stores_of_untouched {s t : State} (h : t.untouched = s.untouched) : t.stores = s.stores :=
  (congrArg State.stores h :)

@[simp] theorem seeVaOf_untouched (s : State) (core die part va n : Nat) (need : Need) :
    (seeVaOf s core die part va n need).untouched = s.untouched := by
  unfold seeVaOf
  split
  · rfl
  dsimp only
  split
  · rw [seeSpan_untouched, seeWalk_untouched]
  · exact seeWalk_untouched ..

@[simp] theorem seeWord_untouched (s : State) (g : Group) (got : Fetches) (va : Nat) : (seeWord s g got va).untouched = s.untouched := by
  unfold seeWord
  split
  · rfl
  split
  · exact seeWalk_untouched ..
  · exact seeVaOf_untouched ..

@[simp] theorem seeLoad_untouched (s : State) (g : Group) (va n : Nat) (home : Bool) : (seeLoad s g va n home).untouched = s.untouched := by
  unfold seeLoad
  split
  · rfl
  dsimp only
  split
  · rw [seeSpan_untouched, seeWalk_untouched]
  · exact seeWalk_untouched ..

@[simp] theorem treeSee_untouched (s : State) (g : Group) (c : Ctx) (lane node base : Nat) :
    (treeSee s g c lane node base).untouched = s.untouched := by
  unfold treeSee
  dsimp only
  split
  · rw [seeLoad_untouched, seeLoad_untouched]
  · exact seeLoad_untouched ..

@[simp] theorem countCall_stores (s : State) (g : Group) : (countCall s g).stores = s.stores := by
  unfold countCall
  split <;> rfl

theorem countCall_parts (s : State) (g : Group) : (countCall s g).parts = s.parts := by
  unfold countCall
  split <;> rfl

@[simp] theorem acquire_stores (s : State) (g : Group) (scope : Nat) : (acquire s g scope).stores = s.stores := by
  unfold acquire
  split <;> rfl

/-! ### Putting a load in flight -/

section Flight
variable {s t : State} {g : Group} {n : Node} {c c1 : Ctx}

/-- Where a trace stands: what owning a scalar, taking a shadow and settling leave alone. -/
def Ctx.standing (c : Ctx) : Nat × Nat × LaneMask × List Eff := (c.pc, c.ix, c.active, c.effs)

@[simp] theorem Ctx.settle_standing (c : Ctx) : c.settle.standing = c.standing := by
  unfold Ctx.settle
  split <;> rfl

@[simp] theorem Ctx.own_standing (c : Ctx) (g : Group) (r : Nat) : (c.own g r).standing = c.standing := by
  unfold Ctx.own
  split <;> rfl

@[simp] theorem Ctx.shadow_standing (c : Ctx) (dst : List Nat) : (c.shadow dst).standing = c.standing := rfl

theorem issueLoad_standing (t : State) (g : Group) (n : Node) (c : Ctx) (dst : List RegRef) (l : Load) :
    (issueLoad t g n c dst l).2.2.standing = c.standing := by
  unfold issueLoad
  refine foldl_keeps Ctx.standing _ (fun c r => ?_) _ _
  split <;> simp

/-- A load put in flight in a state with the same memories and groups leaves what `InFlight` says. -/
theorem issueLoad_inFlight (ht : t.stores = s.stores) (hc : c1.standing = c.standing) (dst : List RegRef)
    (writes : List (RegRef × Word)) (rread : Option (Nat × Nat × List Word × Nat)) (l : Load) (hw : l.writes = writes)
    (hr : l.rread = rread) (words : Nat) {c' : Ctx} (hix : c1.ix = c.ix)
    (hc' : c'.standing = ((issueLoad t g n c1 dst l).2.2.advance words).standing) :
    InFlight s g n c words writes rread (.next (putCtx (issueLoad t g n c1 dst l).1 (issueLoad t g n c1 dst l).2.1 n c')) := by
  have hst := (issueLoad_standing t g n c1 dst l).trans hc
  simp only [State.stores, Ctx.standing, Ctx.advance, Prod.mk.injEq] at ht hst hc'
  obtain ⟨hmem, hhost, hwkgs, hgroups⟩ := ht
  obtain ⟨hpc, hi, hact, heffs⟩ := hst
  rw [hpc, hi, hact, heffs] at hc'
  exact ⟨_, c', { l with id := t.nextId, node := n.ix, ix := c1.ix }, rfl, rfl, hix, hw, hr, hmem, hhost, hwkgs, hgroups, hc'.1, hc'.2.1,
    hc'.2.2.2, fun _ => hc'.2.2.1⟩

end Flight

/-! ### Literals, completion words, calls that read -/

section Reads
variable {s : State} {g : Group} {n : Node} {c : Ctx}

theorem exec_seqrd {o : LOp} {q : EngQ} (hi : Issues s g n c false { Use.none with sr := [o.d.toNat, o.d.toNat + 1] })
    (heven : o.d.toNat % 2 = 0) (hle : o.d.toNat ≤ 58) (hacq : acquireReady s g = true) (hq : engqFor s g o.sub.toNat = some q) :
    InFlight s g n c 2 [(.s o.d.toNat, q.word), (.s (o.d.toNat + 1), if q.err then 1 else 0)] none (exec (.seqrd o) s) := by
  have hqc : engqFor (countCall s g) g o.sub.toNat = some q := by
    rw [← hq]
    simp only [engqFor, State.part?, countCall_parts]
  have hlegal : (o.d.toNat % 2 != 0 || decide (58 < o.d.toNat)) = false := by simp [heven, hle]
  change InFlight s g n c 2 _ none (execSeqrd o s)
  unfold execSeqrd
  dsimp only
  rw [waitOp_eq hi.written 0 (.inl rfl), hlegal, if_pos (show (false || acquireReady s g) = true from hacq), if_neg Bool.false_ne_true, hqc]
  exact issueLoad_inFlight ((acquire_stores ..).trans (countCall_stores ..)) rfl _ _ _ _ rfl rfl 2 rfl rfl

theorem exec_rread {o : LOp} (hl : g.landing = none) (hi : Issues s g n c false
      { Use.none with sr := [o.d.toNat, o.d.toNat + 1, o.d.toNat + 2] ++ (List.range 12).map (o.a.toNat + ·) })
    (heven : o.d.toNat % 2 = 0) (hle : o.d.toNat + 2 ≤ 59) (hrec : callRecordOk g n o.a.toNat = true) :
    InFlight s g n c 2 [(.s o.d.toNat, 0), (.s (o.d.toNat + 1), 0), (.s (o.d.toNat + 2), 0)]
      (some (callObj g n o.a.toNat, callMethod g n o.a.toNat, callArgs g n o.a.toNat, o.d.toNat)) (exec (.rread o) s) := by
  change InFlight s g n c 2 _ _ (execRread o s)
  unfold execRread
  dsimp only
  rw [coreOp_issues hi.written 4 (.inr hl), if_neg]
  · exact issueLoad_inFlight (countCall_stores ..) rfl _ _ _ _ rfl rfl 2 rfl rfl
  · simp only [heven, hrec, Nat.not_lt.mpr hle]
    decide

theorem exec_ldlit {o : LitOp} {ws : List Word} {x : Xlat} {t : State} {k a : Nat} {dst : List Nat}
    (hk : k = if o.sub = 5 then 2 else 1) (hdst : dst = (List.range k).map (o.d.toNat + ·)) (ha : a = relAddr c.pc o.offset)
    (hi : Issues s g n c false { Use.none with sr := if o.u then dst else [], vr := if o.u then [] else dst })
    (hfree : ∀ b ∈ poolWords c o, wordHeld s g [] b = false) (hd : dataOk o.u g.nregs k o.d.toNat = true) (halign : a % (4 * k) = 0)
    (ht : t = (poolWords c o).foldl (fun t b => seeWord t g [] b) (countCall s g)) (hfetch : fetchMore t g [] a k = .ok ws)
    (hx : translate t g.core g.die g.part a .exec = .ok x) (hmay : methodMayLoad t g a (4 * k) x.pa = true)
    (hroom : (o.u || !overShadow c dst) = true) :
    InFlight s g n c 2 (if o.u then (dst.zip ws).map fun w => (.s w.1, w.2)
      else (lanesOf c.active).flatMap fun l => (dst.zip ws).map fun w => (.v l w.1, w.2)) none (exec (.ldlit o) s) := by
  have hstores : t.stores = s.stores := by
    rw [ht, ← countCall_stores s g]
    exact stores_of_untouched (foldl_keeps State.untouched _ (fun s b => seeWord_untouched s g [] b) _ _)
  have hrange : ¬ 2 ^ 55 ≤ a := Nat.not_le.mpr (translate_ok hx).1
  have htrue : (if (o.u == true) = true then dst else []) = if o.u then dst else [] := by simp
  have hfalse : (if (o.u == false) = true then dst else []) = if o.u then [] else dst := by cases o.u <;> rfl
  have hissue : Issues s g n c false { Use.none with
      sr := if (o.u == true) = true then dst else [], vr := if (o.u == false) = true then dst else [],
      ws := if (o.u == true) = true then dst else [], wv := if (o.u == false) = true then dst else [] } := by
    rw [htrue, hfalse]
    exact hi.written
  have hready : ((poolWords c o).all fun b => !wordHeld s g [] b) = true := by simpa using hfree
  have hover : (!o.u && overShadow c dst) = false := by
    rw [← Bool.not_eq_true', Bool.not_and, Bool.not_not]
    exact hroom
  have hreach : ¬(!methodMayLoad t g a (4 * k) x.pa) = true := by rw [hmay]; decide
  subst hdst hk ha ht
  change InFlight s g n c 2 _ none (execLdlit o s)
  unfold execLdlit
  dsimp only
  rw [waitOp_eq hissue 0 (.inl rfl), if_pos hready, hd, if_neg (show ¬(!true) = true by decide), if_neg hrange,
    if_neg (not_not_intro halign), hfetch]
  dsimp only
  rw [hx]
  dsimp only
  rw [if_neg hreach, hover, if_neg Bool.false_ne_true]
  exact issueLoad_inFlight hstores (by split <;> rfl) _ _ _ _ rfl rfl 2 (by split <;> rfl) rfl

end Reads

/-- Settles O30. -/
theorem literalAndEngineReadsGoInFlight : Obligations.LiteralAndEngineReadsGoInFlight := by
  unfold Obligations.LiteralAndEngineReadsGoInFlight
  intro s g n c
  refine ⟨?_, fun o q hi heven hle hacq hq => exec_seqrd hi heven hle hacq hq,
    fun o hl hi heven hle hrec => exec_rread hl hi heven hle hrec⟩
  intro o ws x k dst a hi hfree hd halign t hfetch hx hmay hroom
  exact exec_ldlit rfl rfl rfl hi hfree hd halign rfl hfetch hx hmay hroom

/-! ### Tree steps -/

section Trees
variable {s t : State} {g : Group} {n : Node} {c : Ctx} {o : LOp}

/-- What TSTEP uses; a lane's node and feature base. -/
def treeUse (o : LOp) : Use :=
  { sr := o.srcA.scalars (.int 3)
    vr := [o.d.toNat, o.d.toNat + 1, o.d.toNat + 2] ++ o.srcA.vectors (.int 3) [0]
    pr := [o.mod.toNat % 16, o.ps.toNat]
    pdg := true
    extra := 0 }
def treeNode (g : Group) (o : LOp) (l : Nat) : Nat := pairOf (g.rv l o.d.toNat) (g.rv l (o.d.toNat + 1))
def treeBase (g : Group) (n : Node) (o : LOp) (l : Nat) : Nat := readSrc g n l (.int 3) o.srcA 0
def treeLanes (g : Group) (c : Ctx) (o : LOp) : List Nat := selected g o.ps.toNat o.pm.toNat c.active
/-- TSTEP's operands are legal. -/
def TreeLegal (g : Group) (o : LOp) : Prop :=
  o.d.toNat % 2 = 0 ∧ o.d.toNat + 3 ≤ g.nregs ∧ srcOk g.nregs (.int 3) [0] o.srcA = true

theorem treeOps_legal (h : TreeLegal g o) :
    (o.d.toNat % 2 == 0 && decide (o.d.toNat + 3 ≤ g.nregs) && srcOk g.nregs (.int 3) [0] o.srcA) = true := by
  obtain ⟨heven, hfit, hsrc⟩ := h
  simp [heven, hfit, hsrc]

/-- While a lane's reads are not ready TSTEP changes nothing (R101). -/
theorem exec_tstep_waits (hi : Issues s g n c false (treeUse o)) (h : TreeLegal g o)
    (hwait : ∃ l ∈ treeLanes g c o, treeReady s g c ((treeLanes g c o).any fun l => treeSo s g c l (treeNode g o l) (treeBase g n o l)) l
      (treeNode g o l) (treeBase g n o l) = false) : exec (.tstep o) s = .next s := by
  change execTstep o s = _
  unfold execTstep
  dsimp only
  rw [treeUse] at hi
  refine waitOp_waits hi.written 0 (.inl rfl) _ ?_ _
  obtain ⟨l, hl, hready⟩ := hwait
  rw [treeOps_legal h, Bool.not_true, Bool.false_or, List.all_eq_false]
  exact ⟨l, hl, Bool.eq_false_iff.mp hready⟩

/-- A lane's step as its node's bytes say: at a leaf its value, at an inner node the next node (R253, R254). -/
def steppedBy (node : Nat) (b f : List Byte) (pa fpa : Nat) : Stepped :=
  if bit (field b 6 1) 0 then .leaf (BitVec.ofNat 32 (field b 0 4)) pa
  else
    let dir := treeDir (leNat f) (field b 0 4) (field b 6 1)
    .inner (trunc (node + 16 * (if dir % 2 = 0 then sext (field b 8 4) 32 else sext (field b 12 4) 32)) 64) dir pa fpa

/-- The registers that a lane's step will write (R379). -/
def treeWrites (o : LOp) (pc l : Nat) (x : Stepped) : List (RegRef × Word) :=
  match x with
  | .leaf v _ => [(.v l (o.d.toNat + 2), v), (.p l (o.mod.toNat % 16), 1)]
  | .inner a dir _ _ => [(.v l o.d.toNat, BitVec.ofNat 32 a), (.v l (o.d.toNat + 1), BitVec.ofNat 32 (a / 2 ^ 32)),
      (.p l (o.mod.toNat % 16), 0), (.pdg l, BitVec.ofNat 32 pc ||| BitVec.ofNat 32 dir)]
  | .got _ => []

theorem treeStep_eq {l node base pa fpa : Nat} {b f : List Byte} (hnode : loadLane t g c l node 16 true = .ok b pa)
    (hzero : field b 7 1 = 0) (hflags : field b 6 1 < 8) (hfeature : bit (field b 6 1) 0 = false →
      loadLane t g c l ((base + 4 * field b 4 2) % 2 ^ 64) 4 false = .ok f fpa) :
    treeStep t g c l node base = steppedBy node b f pa fpa := by
  have hbits : bits (field b 6 1) 7 3 = 0 := by
    rw [bits, Nat.shiftRight_eq_div_pow, Nat.div_eq_of_lt hflags, Nat.zero_mod]
  unfold treeStep steppedBy
  rw [hnode]
  dsimp only
  rw [if_neg (by simp [hzero, hbits])]
  cases hleaf : bit (field b 6 1) 0 with
  | true => rfl
  | false =>
    rw [hfeature hleaf]

/-- TSTEP with no lane selected passes. -/
theorem exec_tstep_idle (hi : Issues s g n c false (treeUse o)) (h : TreeLegal g o) (hnone : treeLanes g c o = []) :
    exec (.tstep o) s = .next (stand s g g n (c.advance 2).settle) := by
  change execTstep o s = _
  unfold execTstep
  dsimp only
  rw [treeUse] at hi
  rw [treeLanes] at hnone
  rw [waitOp_eq hi.written 0 (.inl rfl), if_pos (by simp [hnone]), if_neg (by rw [treeOps_legal h]; decide), hnone]
  rfl

/-- TSTEP of lanes whose reads are ready and succeed (R379). -/
theorem exec_tstep_steps {b f : Nat → List Byte} {pa fpa : Nat → Nat} {lanes : List Nat} (hlanes : lanes = treeLanes g c o)
    (hi : Issues s g n c false (treeUse o)) (h : TreeLegal g o)
    (hready : ∀ l ∈ lanes, treeReady s g c (lanes.any fun l => treeSo s g c l (treeNode g o l) (treeBase g n o l)) l (treeNode g o l)
      (treeBase g n o l) = true) (hne : lanes ≠ [])
    (ht : t = lanes.foldl (fun t l => treeSee t g c l (treeNode g o l) (treeBase g n o l)) (countCall s g))
    (hstep : ∀ l ∈ lanes, treeStep t g c l (treeNode g o l) (treeBase g n o l) = steppedBy (treeNode g o l) (b l) (f l) (pa l) (fpa l))
    (hshadow : overShadow c ((if lanes.any fun l => !bit (field (b l) 6 1) 0 then [o.d.toNat, o.d.toNat + 1] else []) ++
      (if lanes.any fun l => bit (field (b l) 6 1) 0 then [o.d.toNat + 2] else [])) = false) :
    InFlight s g n c 2 (lanes.flatMap fun l => treeWrites o c.pc l (steppedBy (treeNode g o l) (b l) (f l) (pa l) (fpa l))) none
      (exec (.tstep o) s) := by
  have hstores : t.stores = s.stores := by
    rw [ht, ← countCall_stores s g]
    exact stores_of_untouched (foldl_keeps State.untouched _ (fun s l => treeSee_untouched ..) _ _)
  have hrs : (lanes.map fun l => (l, treeStep t g c l (treeNode g o l) (treeBase g n o l))) =
      lanes.map fun l => (l, steppedBy (treeNode g o l) (b l) (f l) (pa l) (fpa l)) :=
    List.map_congr_left fun l hl => by rw [hstep l hl]
  have hbad : ∀ F : Nat × Stepped → Option (Nat × Nat × Got), (∀ l v p, F (l, .leaf v p) = none) →
      (∀ l a d p q, F (l, .inner a d p q) = none) →
      (lanes.map fun l => (l, steppedBy (treeNode g o l) (b l) (f l) (pa l) (fpa l))).filterMap F = [] := by
    intro F hleaf hinner
    rw [List.filterMap_map, List.filterMap_eq_nil_iff]
    intro l _
    simp only [Function.comp_apply, steppedBy]
    split
    · exact hleaf ..
    · exact hinner ..
  have hany : ∀ (F : Nat × Stepped → Bool) (p : Bool → Bool), (∀ l v q, F (l, .leaf v q) = p true) →
      (∀ l a d q r, F (l, .inner a d q r) = p false) →
      (lanes.map fun l => (l, steppedBy (treeNode g o l) (b l) (f l) (pa l) (fpa l))).any F =
        lanes.any fun l => p (bit (field (b l) 6 1) 0) := by
    intro F p hleaf hinner
    rw [List.any_map]
    congr 1
    funext l
    simp only [Function.comp_apply, steppedBy]
    cases bit (field (b l) 6 1) 0 with
    | true => exact hleaf ..
    | false => exact hinner ..
  have hwrites : ∀ F : Nat × Stepped → List (RegRef × Word), (∀ l v q, F (l, .leaf v q) = treeWrites o c.pc l (.leaf v q)) →
      (∀ l a d q r, F (l, .inner a d q r) = treeWrites o c.pc l (.inner a d q r)) →
      (lanes.map fun l => (l, steppedBy (treeNode g o l) (b l) (f l) (pa l) (fpa l))).flatMap F =
        lanes.flatMap fun l => treeWrites o c.pc l (steppedBy (treeNode g o l) (b l) (f l) (pa l) (fpa l)) := by
    intro F hleaf hinner
    rw [List.flatMap_map]
    congr 1
    funext l
    simp only [steppedBy]
    split
    · exact hleaf ..
    · exact hinner ..
  have hsome : ¬(lanes.flatMap fun l => treeWrites o c.pc l (steppedBy (treeNode g o l) (b l) (f l) (pa l) (fpa l))).isEmpty = true := by
    rw [List.isEmpty_iff, List.flatMap_eq_nil_iff]
    intro hnil
    obtain ⟨l, hl⟩ := List.exists_mem_of_ne_nil lanes hne
    have hl := hnil l hl
    unfold steppedBy at hl
    split at hl <;> simp [treeWrites] at hl
  have hissue : Issues s g n c false { treeUse o with wv := [o.d.toNat + 2], ps := o.ps.toNat, pm := o.pm.toNat } := hi.written
  rw [treeLanes] at hlanes
  simp only [treeNode, treeBase] at hready ht hrs hbad hany hwrites hsome ⊢
  change InFlight s g n c 2 _ none (execTstep o s)
  unfold execTstep
  dsimp only
  rw [treeUse] at hissue
  rw [waitOp_eq hissue 0 (.inl rfl), ← hlanes, ← ht, if_pos, if_neg (by rw [treeOps_legal h]; decide)]
  · rw [hrs, hbad _ (fun _ _ _ => rfl) (fun _ _ _ _ _ => rfl)]
    dsimp only [rejectOf, List.findSome?_nil]
    rw [hany _ (!·) (fun _ _ _ => rfl) (fun _ _ _ _ _ => rfl), hany _ (fun x => x) (fun _ _ _ => rfl) (fun _ _ _ _ _ => rfl),
      hwrites _ (fun _ _ _ => rfl) (fun _ _ _ _ _ => rfl), if_neg hsome, if_neg (Bool.eq_false_iff.mp hshadow)]
    refine issueLoad_inFlight (.trans (foldl_keeps State.stores _ (fun s r => ?_) _ _) hstores) rfl _ _ _ _ rfl rfl 2 rfl
      (Ctx.settle_standing _)
    split <;> rfl
  · rw [treeOps_legal h, Bool.not_true, Bool.false_or, List.all_eq_true]
    exact hready

end Trees

/-- Settles O31, by the three lemmas on TSTEP. -/
theorem treeStepsFollowTheTree : Obligations.TreeStepsFollowTheTree := by
  unfold Obligations.TreeStepsFollowTheTree
  intro o s g n c b f pa fpa d pr lanes node base so hi heven hfit hsrc
  have hlegal : TreeLegal g o := ⟨heven, hfit, hsrc⟩
  refine ⟨fun hwait => exec_tstep_waits hi hlegal hwait, fun hnone => exec_tstep_idle hi hlegal hnone, fun hready hne => ?_⟩
  intro t leaf hgot hshadow
  have hsteps := exec_tstep_steps (b := b) (f := f) (pa := pa) (fpa := fpa) rfl hi hlegal hready hne rfl
    (fun l hl => by
      obtain ⟨hnode, hzero, hflags, hfeature⟩ := hgot l hl
      exact treeStep_eq hnode hzero hflags hfeature) hshadow
  have hwrites : (fun l => treeWrites o c.pc l (steppedBy (treeNode g o l) (b l) (f l) (pa l) (fpa l))) = fun l =>
      if leaf l then [(.v l (d + 2), BitVec.ofNat 32 (field (b l) 0 4)), (.p l pr, 1)]
      else
        let dir := treeDir (leNat (f l)) (field (b l) 0 4) (field (b l) 6 1)
        let next := trunc (node l + 16 * (if dir % 2 = 0 then sext (field (b l) 8 4) 32 else sext (field (b l) 12 4) 32)) 64
        [(.v l d, BitVec.ofNat 32 next), (.v l (d + 1), BitVec.ofNat 32 (next / 2 ^ 32)), (.p l pr, 0),
          (.pdg l, BitVec.ofNat 32 c.pc ||| BitVec.ofNat 32 dir)] := by
    funext l
    rw [steppedBy]
    by_cases hleaf : leaf l = true
    · rw [if_pos hleaf, if_pos hleaf]
      rfl
    · rw [if_neg hleaf, if_neg hleaf]
      rfl
  rw [hwrites] at hsteps
  exact hsteps

/-! ### Split trees -/

section SplitTrees
variable {s : State} {g : Group} {n : Node} {c : Ctx}

theorem exec_savesplit (hl : g.landing = none) (hkind : c.hdr.kind = 2)
    (hi : Issues s g n c false { Use.none with sr := [regSavelo, regSavehi] }) (hsaving : inSaving s g = true) :
    exec .savesplit s = .next (stand s g g n ((c.buffer .savesplit []).advance 2)) := by
  change execSavesplit s = _
  rw [execSavesplit, coreOp_issues hi 4 (.inr hl), countCall_core hl, if_pos (by simp [hkind, hsaving]), stand, countCall_core hl]

/-- LOADSPLIT of a restore fragment waits until every read is ready. -/
theorem exec_loadsplit_waits (hl : g.landing = none) (hkind : c.hdr.kind = 2) (hrest : n.restored = true)
    (hi : Issues s g n c false { Use.none with sr := [regSavelo, regSavehi] })
    (hwait : ∃ a ∈ splitWords g, loadReady s g a 16 ((splitWords g).any fun a => loadKind s g a == some 0) false false = false) :
    exec .loadsplit s = .next s := by
  change execLoadsplit s = _
  rw [execLoadsplit, waitOp_eq hi 4 (.inr hl), if_neg]
  obtain ⟨a, ha, hready⟩ := hwait
  simp only [hkind, hrest, Bool.and_true, decide_true, Bool.not_true, Bool.false_or, List.all_eq_true]
  exact fun hall => Bool.eq_false_iff.mp hready (hall a ha)

theorem exec_loadsplit_reads {b : List Byte} {pa : Nat} {at_ : List Nat} {t : State} (hat : at_ = splitWords g) (hl : g.landing = none)
    (hkind : c.hdr.kind = 2) (hrest : n.restored = true) (hi : Issues s g n c false { Use.none with sr := [regSavelo, regSavehi] })
    (hready : ∀ a ∈ at_, loadReady s g a 16 (at_.any fun a => loadKind s g a == some 0) false false = true)
    (ht : t = at_.foldl (fun t a => seeLoad t g a 16 false) s)
    (hgot : joinGot (at_.map fun a => loadLane t g c uniLane a 16 false) = .ok b pa) :
    ∃ (s' : State) (l : Load), exec .loadsplit s = .next (putCtx s'
        { g with pendingTree := some (takeAt b 0 1536, takeAt b 1536 768), loads := g.loads ++ [l] } n
        ((c.buffer .loadsplit []).advance 2)) ∧
      l.node = n.ix ∧ l.writes = [] ∧ s'.stores = s.stores := by
  have hstores : t.stores = s.stores := by
    rw [ht]
    exact stores_of_untouched (foldl_keeps State.untouched _ (fun s a => seeLoad_untouched ..) _ _)
  have hall : (!(decide (c.hdr.kind = 2) && n.restored) || at_.all fun a =>
      loadReady s g a 16 (at_.any fun b => loadKind s g b == some 0) false false) = true := by
    rw [List.all_eq_true.mpr hready, Bool.or_true]
  have hexec : exec .loadsplit s = execLoadsplit s := rfl
  rw [hexec, execLoadsplit, waitOp_eq hi 4 (.inr hl), countCall_core hl, ← hat, if_pos hall, if_pos (by simp [hkind, hrest]), ← ht]
  dsimp only
  rw [hgot]
  exact ⟨_, _, rfl, rfl, rfl, hstores⟩

end SplitTrees

/-- Settles O32. -/
theorem splitTreesAreCarried : Obligations.SplitTreesAreCarried := by
  unfold Obligations.SplitTreesAreCarried
  intro s g n c hl hkind hi
  refine ⟨exec_savesplit hl hkind hi, fun b pa hrest => ?_⟩
  intro at_ so t
  refine ⟨fun hready hgot => ?_, exec_loadsplit_waits hl hkind hrest hi⟩
  obtain ⟨s', l, hexec, hnode, hwrites, hstores⟩ := exec_loadsplit_reads (at_ := at_) (t := t) rfl hl hkind hrest hi hready rfl hgot
  simp only [State.stores, Prod.mk.injEq] at hstores
  obtain ⟨hmem, hhost, hwkgs, hgroups⟩ := hstores
  exact ⟨s', l, hexec, hnode, hwrites, hmem, hhost, hwkgs, hgroups⟩

end Sys2Proof.Machine
end

section
/-! PROOFS. Which of two fragments waits for a scalar, and what a trace that is rolled back leaves (R130, R131). -/
namespace Sys2Proof.Machine

section Ownership
variable {s : State} {g g1 : Group} {n : Node} {c : Ctx} {u : Use}

/-- The checks before those on owners pass: the fragment is ready and in an open trace that goes on (R101, R119, R120, R128). -/
structure Proceeds (s : State) (g : Group) (n : Node) (c : Ctx) : Prop where
  can : canIssue s g n = true
  ctx : n.ctx = some c
  term : c.term = none
  emul : c.emul = none
  core : g.landing = none
  len : c.ix ≤ c.lastIx

/-- The state once the owners' traces are rolled back. -/
def yieldedTo (s : State) (g : Group) (n : Node) (u : Use) : State :=
  (owners g n u.sr).foldl (fun t m => rollBack t g.uid m.ix) s

/-- An instruction waits for an older owner. -/
theorem precheck_older (h : Proceeds s g n c) (holder : ∃ m ∈ owners g n u.sr, m.rank < n.rank) : precheck s g n false u = .stop s := by
  have hany : ((owners g n u.sr).any fun m => decide (m.rank < n.rank)) = true := by simpa using holder
  unfold precheck
  simp [h.can, h.ctx, h.term, h.emul, h.core, Nat.not_lt.mpr h.len, hany]

/-- Younger owners' traces are rolled back, and then the registers are looked at. -/
theorem precheck_younger (h : Proceeds s g n c) (hyounger : ∀ m ∈ owners g n u.sr, n.rank ≤ m.rank)
    (hg : (yieldedTo s g n u).group? g.uid = some g1) : precheck s g n false u =
      if scoreboarded (yieldedTo s g n u) g1 n c u then .stop (yieldedTo s g n u) else regCheck (yieldedTo s g n u) g1 n c u := by
  have hany : ((owners g n u.sr).any fun m => decide (m.rank < n.rank)) = false := by simpa using hyounger
  unfold precheck
  rw [yieldedTo] at hg ⊢
  simp [h.can, h.ctx, h.term, h.emul, h.core, Nat.not_lt.mpr h.len, hany, hg]

theorem regCheck_clean (hclean : g.flaws = []) : regCheck s g n c u = .go s g n c := by
  rw [regCheck, hclean]
  rfl

/-- A trace without a SPAWN leaves no slot to void. -/
theorem voidSlots_none (h : ∀ e ∈ c.effs, ∀ q a, e.op ≠ .spawn q a) (lanes : LaneMask) : voidSlots s g c lanes = s := by
  unfold voidSlots
  generalize c.effs = es at h
  induction es with
  | nil => rfl
  | cons e es ih =>
    have htail := ih fun x hx => h x (List.mem_cons_of_mem e hx)
    have hhead := h e List.mem_cons_self
    rw [List.foldl_cons]
    split
    · next q a heq => exact absurd heq (hhead q a)
    · exact htail

/-- The parts of a group that writing what a trace owns leaves alone. -/
def Group.unowned (g : Group) : Sparse 32 × Sparse 2 × Sparse 64 × List Load × List Node := (g.v, g.p, g.pdg, g.loads, g.nodes)

theorem setOwned_unowned (g : Group) (r : Nat) (x : Word) : (g.setOwned r x).unowned = g.unowned := by
  unfold Group.setOwned
  repeat' split
  all_goals rfl

/-- What writing an owned register makes of the scalars. -/
def ownedScalars (m : Sparse 32) (o : Nat × Word) : Sparse 32 :=
  if o.1 = regFmode ∨ o.1 = regSavelo ∨ o.1 = regSavehi then m else sset m o.1 o.2

theorem setOwned_s (g : Group) (o : Nat × Word) : (g.setOwned o.1 o.2).s = ownedScalars g.s o := by
  unfold Group.setOwned ownedScalars
  repeat' split
  all_goals simp_all

theorem foldl_setOwned_s (os : List (Nat × Word)) (g : Group) :
    (os.foldl (fun h o => h.setOwned o.1 o.2) g).s = os.foldl ownedScalars g.s := by
  induction os generalizing g with
  | nil => rfl
  | cons o os ih => rw [List.foldl_cons, ih, setOwned_s, List.foldl_cons]

/-- The group once a fragment's trace is rolled back. -/
def rolledBack (g : Group) (n : Node) (c : Ctx) : Group :=
  let g1 := restoreOwned (restorePdg (restoreLanes g c (n.mask ||| c.helpers)) c n.mask) c
  { g1 with loads := g1.loads.filter fun l => l.node != n.ix }.setNode
    { n with s63 := (c.s630 &&& 0xFFFF00FF) ||| 0x500, ctx := none, trace := c.addr }

theorem rollBack_eq (hg : s.group? g.uid = some g) (hn : g.node? n.ix = some n) (hc : n.ctx = some c)
    (hspawn : ∀ e ∈ c.effs, ∀ q a, e.op ≠ .spawn q a) (hticket : c.ticket = false) :
    rollBack s g.uid n.ix = (dropFrames s g.uid n.ix).setGroup (rolledBack g n c) := by
  unfold rollBack
  simp only [hg, hn, hc, voidSlots_none hspawn, hticket, Bool.false_eq_true, if_false]
  rfl

end Ownership

/-- Settles O34. -/
theorem theOlderOwnerWins : Obligations.TheOlderOwnerWins := by
  unfold Obligations.TheOlderOwnerWins
  constructor
  · intro s g n c u hcan hctx hterm hemul hcore hlen
    have h : Proceeds s g n c := ⟨hcan, hctx, hterm, hemul, hcore, hlen⟩
    refine ⟨precheck_older h, fun hyounger _ g1 => ?_⟩
    intro t hg
    have hcheck : precheck s g n false u = if scoreboarded t g1 n c u then .stop t else regCheck t g1 n c u := precheck_younger h hyounger hg
    refine ⟨fun hboard hclean => ?_, fun hboard => ?_⟩
    · rw [hcheck, if_neg (Bool.eq_false_iff.mp hboard), regCheck_clean hclean]
    · rw [hcheck, if_pos hboard]
  · intro s g n c hg hn hc hspawn hticket
    have hkeeps := foldl_keeps Group.unowned (fun (h : Group) (o : Nat × Word) => h.setOwned o.1 o.2)
      (fun h o => setOwned_unowned h o.1 o.2) c.owned (restorePdg (restoreLanes g c (n.mask ||| c.helpers)) c n.mask)
    simp only [Group.unowned, Prod.mk.injEq] at hkeeps
    obtain ⟨hv, hp, hpdg, hloads, hnodes⟩ := hkeeps
    rw [rollBack_eq hg hn hc hspawn hticket]
    refine ⟨rolledBack g n c, rfl, hv, hp, hpdg, ?_, ?_, ?_, rfl, rfl⟩
    · exact (foldl_setOwned_s ..).trans (foldl_setOwned_s c.owned g).symm
    · exact congrArg (List.filter fun l => l.node != n.ix) hloads
    · exact congrArg (List.map _) hnodes

end Sys2Proof.Machine
end

section
/-! PROOFS. A step as the execution of what is fetched (R61, R65, R101, R128, R258, R284, R285). -/
namespace Sys2Proof.Machine

section Fetching
variable {s : State} {g : Group} {n : Node} {c : Ctx} {got : Fetches} {va : Nat}

/-- The state in which an activity of the agenda runs. -/
def State.moving (s : State) (as : List Activity) : State := { s with agenda := as, tick := s.tick + 1 }

theorem step_of_agenda {a : Activity} {as : List Activity} (h : s.agenda = a :: as) : step s = act a (s.moving as) := by
  simp only [step, chosen, h, List.tail_cons, State.moving]

/-- A fetch where no check code shows an error changes nothing (R26). -/
theorem seeWords_clean (h : s.flaws = []) : seeWords s g got va = s := by
  have hword : ∀ a, seeWord s g got a = s := fun a => by
    rw [seeWord, if_pos (by simp [h])]
  unfold seeWords
  dsimp only
  rw [hword]
  split
  · generalize List.range _ = ks
    induction ks with
    | nil => rfl
    | cons k ks ih => rw [List.foldl_cons, hword, ih]
  · rfl

/-- A word that no trace has fetched is in range where it can be fetched (R411). -/
theorem fetchWords_range {ws : List Word} (h : fetchWords s g [] va = .ok ws) : va < 2 ^ 55 := by
  unfold fetchWords at h
  split at h
  · contradiction
  next w hw =>
  unfold fetchWord at hw
  dsimp only [List.find?_nil] at hw
  split at hw
  · contradiction
  next x hx => exact (translate_ok hx).1

theorem instrOf_eq {ws : List Word} {i : Instr} {rest : List Byte} (h : decode (bytesOf ws) = .ok (i, rest)) : instrOf ws = i := by
  rw [instrOf, h]

theorem fetchFor_open {gid nix : Nat} {ws : List Word} (hg : s.group? gid = some g) (hn : g.node? nix = some n) (hleaf : n.leaf = true)
    (hcan : canIssue s g n = true) (hctx : n.ctx = some c) (hterm : c.term = none) (hemul : c.emul = none) (hlen : c.ix ≤ c.lastIx)
    (hfree : wordsHeld s g c.fetched c.pc = false) (hws : fetchWords (seeWords s g c.fetched c.pc) g c.fetched c.pc = .ok ws) :
    fetchFor s gid nix = .instr (putCtx (seeWords s g c.fetched c.pc) g n
      { c with fetched := keepLines (seeWords s g c.fetched c.pc) g c.pc ws.length c.fetched }) (instrOf ws) := by
  unfold fetchFor
  simp [hg, hn, hleaf, hcan, hctx, hterm, hemul, Nat.not_lt.mpr hlen, hfree, hws]

theorem fetchFor_entry {gid nix : Nat} {ws : List Word} (hg : s.group? gid = some g) (hn : g.node? nix = some n) (hleaf : n.leaf = true)
    (hcan : canIssue s g n = true) (hctx : n.ctx = none) (halign : n.trace % 4 = 0) (hfree : wordsHeld s g [] n.trace = false)
    (hws : fetchWords (seeWords s g [] n.trace) g [] n.trace = .ok ws) :
    fetchFor s gid nix = .instr (seeWords s g [] n.trace) (instrOf ws) := by
  unfold fetchFor
  simp [hg, hn, hleaf, hcan, hctx, halign, show n.trace < 36028797018963968 from fetchWords_range hws, hfree, hws]

theorem act_issue {gid nix : Nat} {u : State} {i : Instr} (h : fetchFor s gid nix = .instr u i) :
    act (.issue gid nix) s = settle (exec i { u with cur := .frag gid nix }) := by
  simp only [act, h, issue]

end Fetching

/-- Settles O4. -/
theorem stepRunsTheDecodedInstruction : Obligations.StepRunsTheDecodedInstruction := by
  unfold Obligations.StepRunsTheDecodedInstruction
  intro s gid nix as g n c i rest hag hg hn hleaf hcan t
  refine ⟨fun hctx hterm hemul hlen hfree => ?_, fun hctx halign hfree => ?_⟩
  · intro u
    refine ⟨fun ws hws hdec => ?_, fun hflaws => seeWords_clean hflaws⟩
    have hfetch : fetchFor (s.moving as) gid nix = _ := fetchFor_open (s := t) hg hn hleaf hcan hctx hterm hemul hlen hfree hws
    rw [step_of_agenda hag, act_issue hfetch, instrOf_eq hdec]
  · intro u
    refine ⟨fun ws hws hdec => ?_, fun hflaws => seeWords_clean hflaws⟩
    have hfetch : fetchFor (s.moving as) gid nix = _ := fetchFor_entry (s := t) hg hn hleaf hcan hctx halign hfree hws
    rw [step_of_agenda hag, act_issue hfetch, instrOf_eq hdec]

/-! ### The words at an address -/

section Words
variable {s : State} {g : Group} {got : Fetches} {va : Nat}

/-- A word as memory holds it, where nothing stands in for its line. -/
theorem fetchWord_memory {x : Xlat} (hicache : s.icache = []) (hgot : ∀ e ∈ got, e.1 ≠ va / 64 * 64)
    (hx : translate s g.core g.die g.part va .exec = .ok x) (hgood : badSpan s g.die x.pa 4 = false) :
    fetchWord s g got va = .ok (BitVec.ofNat 32 (leNat (pread s x.pa 4))) := by
  have hfind : (got.find? fun e => e.1 == va / 64 * 64) = none := by simpa using hgot
  unfold fetchWord
  rw [hfind]
  dsimp only
  rw [hx]
  simp [icacheLine, hicache, hgood]

/-- A word of a line that the trace has fetched is the one that it fetched. -/
theorem fetchWord_fetched {line : List Byte} (hsame : ∀ e ∈ got, e.1 = va / 64 * 64 → e.2 = line)
    (hgot : ∃ e ∈ got, e.1 = va / 64 * 64) : fetchWord s g got va = .ok (BitVec.ofNat 32 (leNat (takeAt line (va % 64) 4))) := by
  unfold fetchWord
  cases hfind : got.find? fun e => e.1 == va / 64 * 64 with
  | none =>
    obtain ⟨e, he, hline⟩ := hgot
    simpa [hline] using List.find?_eq_none.mp hfind e he
  | some e =>
    have hline := List.find?_some hfind
    dsimp only
    rw [hsame e (List.mem_of_find?_eq_some hfind) (by simpa using hline)]

/-- The words at an address by the length that the first one names (R258). -/
theorem fetchWords_of_words {word : Nat → Word} (h : ∀ k < 3, fetchWord s g got (va + 4 * k) = .ok (word k)) :
    fetchWords s g got va = .ok (match (word 0).toNat / 2 ^ 30 with
      | 1 => [word 0, word 1]
      | 2 => [word 0, word 1, word 2]
      | _ => [word 0]) := by
  have h0 : fetchWord s g got va = .ok (word 0) := h 0 (by decide)
  have h1 : fetchWord s g got (va + 4) = .ok (word 1) := h 1 (by decide)
  have h2 : fetchWord s g got (va + 4 + 4) = .ok (word 2) := h 2 (by decide)
  have hlt : (word 0).toNat / 2 ^ 30 < 4 := by
    have := (word 0).isLt
    omega
  unfold fetchWords moreWords
  rw [h0]
  dsimp only
  generalize (word 0).toNat / 2 ^ 30 = k at hlt ⊢
  obtain rfl | rfl | rfl | rfl : k = 0 ∨ k = 1 ∨ k = 2 ∨ k = 3 := by omega
  all_goals simp [fetchMore, h1, h2]

end Words

/-- Settles O5. -/
theorem fetchReadsMemory : Obligations.FetchReadsMemory := by
  unfold Obligations.FetchReadsMemory
  intro s g got va pa
  refine ⟨fun hicache hgot hx => ?_, fun line hsame hline => fetchWord_fetched hsame hline⟩
  intro word
  have hwords : ∀ k < 3, fetchWord s g got (va + 4 * k) = .ok (word k) := by
    intro k hk
    obtain ⟨x, hxlat, hpa, hgood⟩ := hx k hk
    rw [fetchWord_memory hicache (hgot k hk) hxlat (hpa ▸ hgood), hpa]
  exact fetchWords_of_words hwords

theorem pilotFetch_eq {s : State} {die : Nat} {p : Partition} {x : Queue} {i : Instr} (hrun : (s.die die).running = true)
    (htrip : (s.die die).tripped = false) (hvisit : (s.die die).visit = some (p.part, x.q)) (hp : s.part? p.part = some p)
    (hx : p.queue? x.q = some x) (hbusy : x.busy = true) (hst : x.st = .active) (hroom : ¬(512 ≤ x.steps ∧ ¬ x.suspended = true))
    (hdec : decodePilot (x.pilot.getD x.pc 0) = .ok i) : pilotFetch s die = some (p.part, x.q, i) := by
  unfold pilotFetch
  dsimp only
  rw [hrun, htrip, hvisit]
  dsimp only
  rw [hp]
  dsimp only
  rw [hx]
  dsimp only
  rw [hbusy, hst, if_neg hroom, hdec]
  rfl

/-- Settles O6. -/
theorem stepRunsPilotsAndEvents : Obligations.StepRunsPilotsAndEvents := by
  unfold Obligations.StepRunsPilotsAndEvents
  intro s as t
  refine ⟨fun die p x i hag hrun htrip hvisit hp hx hbusy hst hbudget hdec => ?_, fun i hag hevent => ?_, fun i hag hevent => ?_⟩
  · have hfetch : pilotFetch (s.moving as) die = some (p.part, x.q, i) := by
      have hroom : ¬(512 ≤ x.steps ∧ ¬ x.suspended = true) := by
        rintro ⟨hle, hsus⟩
        exact hbudget.elim (fun h => absurd hle (Nat.not_le.mpr h)) hsus
      exact pilotFetch_eq (s := s.moving as) hrun htrip hvisit hp hx hbusy hst hroom hdec
    rw [step_of_agenda hag]
    simp only [act, hfetch, issue]
    rfl
  · rw [step_of_agenda hag]
    simp only [act, hevent, if_true, issue]
    rfl
  · rw [step_of_agenda hag]
    simp only [act, hevent, Bool.false_eq_true, if_false]
    rfl

end Sys2Proof.Machine
end

section
/-! PROOFS. The pilot operations (R59, R63, R66, R68, R70, R71, R156). -/
namespace Sys2Proof.Machine

/-! ### Bytes as numbers -/

theorem leNat_lt (bs : List Byte) : leNat bs < 2 ^ (8 * bs.length) := by
  induction bs with
  | nil => decide
  | cons b bs ih =>
    have hb := b.isLt
    rw [leNat, List.length_cons, Nat.mul_add, Nat.pow_add]
    omega

@[simp] theorem pread_length (s : State) (pa n : Nat) : (pread s pa n).length = n := by simp [pread, sread]
@[simp] theorem hread_length (s : State) (a n : Nat) : (hread s a n).length = n := by simp [hread, sread]

/-- SIGWAIT's comparison of eight bytes with a register (R66). -/
theorem sigCompare_iff (rel : BitVec 2) {bs : List Byte} (h : bs.length = 8) (w : DWord) :
    sigCompare rel (BitVec.ofNat 64 (leNat bs)) w = true ↔ sigHolds rel (leNat bs) w.toNat := by
  have hlt : leNat bs < 2 ^ 64 := by
    have := leNat_lt bs
    rwa [h] at this
  have hval : (BitVec.ofNat 64 (leNat bs)).toNat = leNat bs := by rw [BitVec.toNat_ofNat, Nat.mod_eq_of_lt hlt]
  have hcases : rel = 0 ∨ rel = 1 ∨ rel = 2 ∨ rel = 3 := by revert rel; decide
  unfold sigCompare sigHolds
  rcases hcases with rfl | rfl | rfl | rfl <;> simp [BitVec.ule, BitVec.ult, BitVec.toNat_eq, hval]

section Pilots
variable {s : State} {p : Partition} {x y : Queue} {pc : Nat}

/-! ### Loops (R66) -/

theorem goto_plain (h : x.loops = []) (pc : Nat) : x.goto pc = { x with pc := pc, suspended := false } := by
  unfold Queue.goto loopBack
  simp [h]

theorem goto_inside {start len pass n d : Nat} {rest : List (Nat × Nat × Nat × Nat × Nat)} (h : x.loops = (start, len, pass, n, d) :: rest)
    (hpc : pc ≠ start + len) : x.goto pc = { x with pc := pc, suspended := false } := by
  unfold Queue.goto loopBack
  simp [h, hpc]

theorem goto_again {start len pass n d : Nat} {rest : List (Nat × Nat × Nat × Nat × Nat)} (h : x.loops = (start, len, pass, n, d) :: rest)
    (hpass : pass + 1 < n) : x.goto (start + len) =
      { x with pc := start, suspended := false, loops := (start, len, pass + 1, n, d) :: rest,
               x := x.x.set d (BitVec.ofNat 64 (pass + 1)) } := by
  unfold Queue.goto loopBack
  simp [h, hpass]

theorem goto_out {start len pass n d : Nat} (h : x.loops = [(start, len, pass, n, d)]) (hpass : n ≤ pass + 1) :
    x.goto (start + len) = { x with pc := start + len, suspended := false, loops := [] } := by
  unfold Queue.goto loopBack loopBack
  simp [h, Nat.not_lt.mpr hpass]

/-! ### How an operation ends -/

/-- A step that completes goes on where it stays inside its pilot. -/
theorem stepsOn_completeStep (hq : y.q = x.q) : StepsOn s p x y pc (.next (completeStep s p y pc)) := by
  intro hlt
  rw [completeStep_runs s p y pc hlt, hq]

/-- A queue that stops its packet is faulted (R59, R63). -/
theorem stopPilot_faulted {reason : Nat} (h : parkState reason = .faulted) (extra : Nat) :
    stopPilot s p x reason extra = Faulted s p x reason extra := by
  unfold stopPilot parkQueue Faulted
  rw [h]
  rfl

/-! ### Registers, branches, loops -/

/-- An operation that computes writes its value, and a branch skips instructions (R66). -/
theorem exec_of_pilotValue {i : Instr} {d : BitVec 3} {v : DWord} (h : pilotValue x i = some (d, v)) (s : State) :
    ∃ f : Queue → DWord, f x = v ∧ exec i s = pilotReg d (fun _ _ x => f x) s := by
  unfold pilotValue at h
  split at h <;> cases h <;> exact ⟨_, rfl, rfl⟩

theorem exec_of_pilotSkip {i : Instr} {k : Nat} (h : pilotSkip x i = some k) (s : State) :
    ∃ f : Queue → Nat, f x = k ∧ exec i s = pilotOp (fun s p x => completeStep s p x (x.pc + 1 + f x)) s := by
  cases i <;> cases h
  case beq a b imm => exact ⟨fun x => if x.reg a == x.reg b then imm.toNat else 0, by simp, rfl⟩
  case bne a b imm => exact ⟨fun x => if x.reg a != x.reg b then imm.toNat else 0, by simp, rfl⟩
  case bltu a b imm => exact ⟨fun x => if (x.reg a).ult (x.reg b) then imm.toNat else 0, by simp [BitVec.ult], rfl⟩
  case pilotFence => exact ⟨fun _ => 0, rfl, rfl⟩

theorem stepsOn_value (h : PilotAt s p x) {i : Instr} {d : BitVec 3} {v : DWord} (hv : pilotValue x i = some (d, v)) :
    StepsOn s p x (x.setReg d v) (x.pc + 1) (exec i s) := by
  obtain ⟨f, rfl, hexec⟩ := exec_of_pilotValue hv s
  rw [hexec, pilotReg_runs h]
  exact stepsOn_completeStep rfl

theorem stepsOn_skip (h : PilotAt s p x) {i : Instr} {k : Nat} (hk : pilotSkip x i = some k) :
    StepsOn s p x x (x.pc + 1 + k) (exec i s) := by
  obtain ⟨f, rfl, hexec⟩ := exec_of_pilotSkip hk s
  rw [hexec, pilotOp_runs h]
  exact stepsOn_completeStep rfl

/-! ### The queue's window and signals (R64, R66, R70, R156) -/

section Window
variable {at_ n : Nat} {imm : BitVec 18} {sz : BitVec 3}

/-- LDQ waits behind a parked atomic, parks where the state block cannot be read, and reads otherwise. -/
theorem exec_ldq (h : PilotAt s p x) (d : BitVec 3) (hat : at_ = stateAt p x imm) (hn : n = 2 ^ sz.toNat) {t : State}
    (ht : t = seeSpan s x.homeDie at_ n (some p.part) 0xFF) :
    exec (.ldq d sz imm) s = .next
      (if parkedBlocks s at_ n false then suspend s p x
       else if badSpan t x.homeDie at_ n then parkSuspended t p x 9
       else completeStep t p (x.setReg d (BitVec.ofNat 64 (leNat (pread t at_ n)))) (x.pc + 1)) := by
  subst hat hn ht
  refine (show execLdq d sz imm s = _ from pilotOp_runs h).trans (congrArg Host.Outcome.next ?_)
  dsimp only [hwRead]
  split
  · rfl
  · by_cases hbad : badSpan (seeSpan s x.homeDie (stateAt p x imm) (2 ^ sz.toNat) (some p.part) 0xFF) x.homeDie (stateAt p x imm)
        (2 ^ sz.toNat) = true
    · rw [if_pos hbad, if_pos hbad] <;> rfl
    · rw [if_neg hbad, if_neg hbad] <;> rfl

theorem exec_stq (h : PilotAt s p x) (a : BitVec 3) (hat : at_ = stateAt p x imm) (hn : n = 2 ^ sz.toNat) :
    exec (.stq a sz imm) s = .next
      (if parkedBlocks s at_ n true then suspend s p x
       else completeStep (hwWrite s x.homeDie at_ (leBytes n (x.reg a).toNat)) p x (x.pc + 1)) := by
  subst hat hn
  exact show execStq a sz imm s = _ from pilotOp_runs h

end Window

/-- What a signal that is written, or read and compared, does where it goes. -/
def sigWritten (s : State) (p : Partition) (x : Queue) (addr : Nat) (d : List Byte) : SigSpot → State
  | .host => completeStep (hwrite s addr d) p x (x.pc + 1)
  | .device pa => completeStep (pwrite s pa d) p x (x.pc + 1)
  | .held => suspend s p x
  | .park r => parkSuspended s p x r
def sigDecided (s : State) (p : Partition) (x : Queue) (rel : BitVec 2) (w : DWord) (bs : List Byte) : State :=
  if sigCompare rel (BitVec.ofNat 64 (leNat bs)) w then completeStep s p x (x.pc + 1) else suspend s p x
def sigRead (s : State) (p : Partition) (x : Queue) (addr : Nat) (rel : BitVec 2) (w : DWord) : SigSpot → State
  | .host => sigDecided s p x rel w (hread s addr 8)
  | .device pa =>
    let t := seeSpan s x.homeDie pa 8 (some p.part) 0xFF
    if badSpan t x.homeDie pa 8 then parkSuspended t p x 9 else sigDecided t p x rel w (pread t pa 8)
  | .held => suspend s p x
  | .park r => parkSuspended s p x r

theorem exec_sigw (h : PilotAt s p x) {a : BitVec 3} (halign : (x.reg a).toNat % 8 = 0) (b : BitVec 3) (host : Bool) {u : State}
    (hu : u = seeSig s p x (x.reg a).toNat host) :
    exec (.sigw a b host) s = .next (sigWritten u p x (x.reg a).toNat (leBytes 8 (x.reg b).toNat)
      (sigSpot u p x (x.reg a).toNat host .write)) := by
  subst hu
  refine (show execSigw a b host s = _ from pilotOp_runs h).trans (congrArg Host.Outcome.next ?_)
  dsimp only
  rw [if_neg (not_not_intro halign)]
  cases sigSpot (seeSig s p x (x.reg a).toNat host) p x (x.reg a).toNat host .write <;> rfl

theorem exec_sigwait (h : PilotAt s p x) {a : BitVec 3} (halign : (x.reg a).toNat % 8 = 0) (b : BitVec 3) (host : Bool) (rel : BitVec 2)
    {u : State} (hu : u = seeSig s p x (x.reg a).toNat host) :
    exec (.sigwait a b host rel) s = .next (sigRead u p x (x.reg a).toNat rel (x.reg b)
      (sigSpot u p x (x.reg a).toNat host .read)) := by
  subst hu
  refine (show execSigwait a b host rel s = _ from pilotOp_runs h).trans (congrArg Host.Outcome.next ?_)
  dsimp only
  rw [if_neg (not_not_intro halign)]
  cases sigSpot (seeSig s p x (x.reg a).toNat host) p x (x.reg a).toNat host .read <;> rfl

/-- A misaligned signal stops the pilot with reason 8. -/
theorem exec_signal_misaligned (h : PilotAt s p x) {a : BitVec 3} (halign : (x.reg a).toNat % 8 ≠ 0) (b : BitVec 3) (host : Bool)
    (rel : BitVec 2) : exec (.sigw a b host) s = .next (Faulted s p x.count 8 0) ∧
      exec (.sigwait a b host rel) s = .next (Faulted s p x.count 8 0) := by
  constructor
  · refine (show execSigw a b host s = _ from pilotOp_runs h).trans ?_
    dsimp only
    rw [if_pos halign, stopPilot_faulted rfl]
  · refine (show execSigwait a b host rel s = _ from pilotOp_runs h).trans ?_
    dsimp only
    rw [if_pos halign, stopPilot_faulted rfl]

theorem seeSig_host (addr : Nat) : seeSig s p x addr true = s := rfl
theorem seeSig_device {addr : Nat} (h : walkHeld s (192 + x.homeDie) x.homeDie p.part addr = false) :
    seeSig s p x addr false = seeWalk s (192 + x.homeDie) x.homeDie p.part addr := by
  simp [seeSig, h]

theorem sigSpot_host {addr : Nat} (h : hostOk s addr 8 = true) (need : Need) : sigSpot s p x addr true need = .host := by
  simp [sigSpot, h]
theorem sigSpot_park {addr e : Nat} {need : Need} (h : walkHeld s (192 + x.homeDie) x.homeDie p.part addr = false)
    (he : xlate s x.homeDie p.part addr need = .error e) : sigSpot s p x addr false need = .park (if faultCode e = 9 then 9 else 3) := by
  simp [sigSpot, h, he]
theorem sigSpot_device {addr : Nat} {need : Need} {r : Xlat} (h : walkHeld s (192 + x.homeDie) x.homeDie p.part addr = false)
    (hr : xlate s x.homeDie p.part addr need = .ok r) (hfree : parkedBlocks s r.pa 8 (need == .write) = false) :
    sigSpot s p x addr false need = if reaches s x.homeDie r.pa then .device r.pa else .park 9 := by
  simp [sigSpot, h, hr, hfree]

/-- A comparison of eight bytes that holds completes the step, and one that fails suspends it. -/
theorem sigDecided_holds {rel : BitVec 2} {w : DWord} {bs : List Byte} (hlen : bs.length = 8) (h : sigHolds rel (leNat bs) w.toNat) :
    sigDecided s p x rel w bs = completeStep s p x (x.pc + 1) := if_pos ((sigCompare_iff rel hlen w).mpr h)
theorem sigDecided_fails {rel : BitVec 2} {w : DWord} {bs : List Byte} (hlen : bs.length = 8) (h : ¬sigHolds rel (leNat bs) w.toNat) :
    sigDecided s p x rel w bs = suspend s p x := if_neg fun hc => h ((sigCompare_iff rel hlen w).mp hc)

/-! ### LAUNCH, LOOP and EMIT -/

theorem exec_pilotLaunch_refused (h : PilotAt s p x) (d : BitVec 3) (hcode : launchCode (seeLaunch s p x.lb) p x.lb ≠ 0) :
    exec (.pilotLaunch d) s = .next (completeStep (seeLaunch s p x.lb) p
      (x.setReg d (BitVec.ofNat 64 (2 ^ 32 + launchCode (seeLaunch s p x.lb) p x.lb))) (x.pc + 1)) := by
  refine (show execPilotLaunch d s = _ from pilotOp_runs h).trans (congrArg Host.Outcome.next ?_)
  dsimp only
  split
  · contradiction
  · rfl

theorem exec_pilotLaunch_accepted (h : PilotAt s p x) (d : BitVec 3) {slot : Nat} (hcode : launchCode (seeLaunch s p x.lb) p x.lb = 0)
    (hslot : freeLaunchSlot (seeLaunch s p x.lb) p.part = some slot) :
    exec (.pilotLaunch d) s = .next (completeStep (acceptLaunch (seeLaunch s p x.lb) p slot x.lb).1 p
      ({ x with lastser := p.nextSerial }.setReg d (p.nextSerial.setWidth 64)) (x.pc + 1)) := by
  refine (show execPilotLaunch d s = _ from pilotOp_runs h).trans (congrArg Host.Outcome.next ?_)
  dsimp only
  rw [hcode, hslot]
  rfl

theorem exec_pilotLaunch_waits (h : PilotAt s p x) (d : BitVec 3) (hcode : launchCode (seeLaunch s p x.lb) p x.lb = 0)
    (hslot : freeLaunchSlot (seeLaunch s p x.lb) p.part = none) :
    exec (.pilotLaunch d) s = .next (suspend (seeLaunch s p x.lb) p x) := by
  refine (show execPilotLaunch d s = _ from pilotOp_runs h).trans (congrArg Host.Outcome.next ?_)
  dsimp only
  rw [hcode, hslot]
  rfl

theorem exec_loop (h : PilotAt s p x) (d a : BitVec 3) (imm : BitVec 18) :
    exec (.loop d a imm) s = .next
      (if 64 < (x.reg a).toNat then stopPilot s p x.count 6 0
       else if (x.reg a).toNat = 0 then completeStep s p x (x.pc + 1 + imm.toNat)
       else completeStep s p ({ x with loops := (x.pc + 1, imm.toNat, 0, (x.reg a).toNat, d.toNat) :: x.loops }.setReg d 0) (x.pc + 1)) :=
  show execLoop d a imm s = _ from pilotOp_runs h

/-- The TYPE 4 event of an EMIT. -/
def emitted (x : Queue) (a : BitVec 3) : List Byte :=
  eventEntry 4 0 (leBytes 4 x.q ++ leBytes 4 x.tag ++ leBytes 1 (field x.packet 0 1) ++ List.replicate 7 0 ++
    leBytes 8 (x.reg a).toNat ++ leBytes 4 x.head.toNat)

theorem exec_emit (h : PilotAt s p x) (a : BitVec 3) :
    exec (.emit a) s = .next (if bufferFull s p.part then suspend s p x
      else completeStep (signal (pushEvent s p.part (emitted x a)) (vectorOf p.part + 2)) p x (x.pc + 1)) :=
  show execEmit a s = _ from pilotOp_runs h

/-! ### The step count (R68) -/

theorem exec_budgetExhausted (h : PilotAt s p x) (hsteps : 512 ≤ x.steps) (hsus : x.suspended = false) :
    exec .pilotStepBudgetExhausted s = .next (Faulted s p x 5 0) := by
  change execPilotStepBudgetExhausted s = _
  unfold PilotAt at h
  unfold execPilotStepBudgetExhausted
  rw [h]
  dsimp only
  rw [if_pos ⟨hsteps, by simp [hsus]⟩, stopPilot_faulted rfl]

theorem pilotFetch_exhausted {die : Nat} (hrun : (s.die die).running = true) (htrip : (s.die die).tripped = false)
    (hvisit : (s.die die).visit = some (p.part, x.q)) (hp : s.part? p.part = some p) (hx : p.queue? x.q = some x) (hbusy : x.busy = true)
    (hst : x.st = .active) (hspent : 512 ≤ x.steps ∧ ¬ x.suspended = true) :
    pilotFetch s die = some (p.part, x.q, .pilotStepBudgetExhausted) := by
  unfold pilotFetch
  dsimp only
  rw [hrun, htrip, hvisit]
  dsimp only
  rw [hp]
  dsimp only
  rw [hx]
  dsimp only
  rw [hbusy, hst, if_pos hspent]
  rfl

end Pilots

/-- Settles O41: each operation ends in `completeStep`. -/
theorem pilotOperationsComplete : Obligations.PilotOperationsComplete := by
  unfold Obligations.PilotOperationsComplete
  intro s p x h
  refine ⟨fun i d v hv => stepsOn_value h hv, fun i k hk => stepsOn_skip h hk, fun sz imm => ?_, fun a sz imm => ?_, fun a b halign => ?_,
    fun d => ?_, fun d a imm => ?_, fun a hfull => ?_⟩
  · intro n at_
    refine ⟨fun d hfree => ?_, fun a hfree => ?_⟩
    · intro t hgood
      rw [exec_ldq h d (show at_ = stateAt p x imm from rfl) (show n = _ from rfl) (show t = _ from rfl), if_neg (Bool.eq_false_iff.mp hfree),
        if_neg (Bool.eq_false_iff.mp hgood)]
      exact stepsOn_completeStep rfl
    · rw [exec_stq h a (show at_ = stateAt p x imm from rfl) (show n = _ from rfl), if_neg (Bool.eq_false_iff.mp hfree)]
      exact stepsOn_completeStep rfl
  · rw [show exec (.stl a sz imm) s = _ from (show execStl a sz imm s = _ from pilotOp_runs h)]
    exact stepsOn_completeStep rfl
  · intro u
    refine ⟨fun r hheld hheldu hr hfree hreach => ?_, fun hok => ?_, fun rel r hheld hheldu hr hfree hreach => ?_, fun rel hok hholds => ?_⟩
    · rw [exec_sigw h halign b false (seeSig_device hheld).symm, sigSpot_device hheldu hr hfree, if_pos hreach]
      exact stepsOn_completeStep rfl
    · rw [exec_sigw h halign b true (seeSig_host _).symm, sigSpot_host hok]
      exact stepsOn_completeStep rfl
    · intro t hgood hholds
      rw [exec_sigwait h halign b false rel (seeSig_device hheld).symm, sigSpot_device hheldu hr hfree, if_pos hreach, sigRead,
        if_neg (Bool.eq_false_iff.mp hgood), sigDecided_holds (pread_length ..) hholds]
      exact stepsOn_completeStep rfl
    · rw [exec_sigwait h halign b true rel (seeSig_host _).symm, sigSpot_host hok, sigRead, sigDecided_holds (hread_length ..) hholds]
      exact stepsOn_completeStep rfl
  · intro t
    refine ⟨fun slot hcode hslot => ?_, fun hcode => ?_⟩
    · rw [exec_pilotLaunch_accepted h d hcode hslot]
      exact stepsOn_completeStep rfl
    · rw [exec_pilotLaunch_refused h d hcode]
      exact stepsOn_completeStep rfl
  · intro n
    rw [exec_loop h d a imm]
    refine ⟨fun hzero => ?_, fun hle hge => ?_⟩
    · rw [if_neg (by omega), if_pos hzero]
      exact stepsOn_completeStep rfl
    · rw [if_neg (by omega), if_neg (by omega)]
      exact stepsOn_completeStep rfl
  · rw [exec_emit h a, if_neg (Bool.eq_false_iff.mp hfull)]
    exact stepsOn_completeStep rfl

/-- Settles O42. -/
theorem pilotsStopAndRepeat : Obligations.PilotsStopAndRepeat := by
  unfold Obligations.PilotsStopAndRepeat
  constructor
  · intro x start len pass n d rest
    exact ⟨fun pc h => goto_plain h pc, goto_again, goto_out, fun pc h hpc => goto_inside h hpc⟩
  · intro s p x h waits parks
    refine ⟨?_, fun imm => ?_, fun a b host rel halign => exec_signal_misaligned h halign b host rel, fun d a imm hmany => ?_,
      fun hsteps hsus => ?_, fun die hrun htrip hvisit hp hx hbusy hst => ⟨fun hsteps hsus => ?_, fun i hbudget hdec => ?_⟩,
      fun hsus => ?_, fun hsus => ?_, fun d => ?_, fun a hfull => ?_, fun sz imm => ?_, fun a b rel halign hok hfails => ?_,
      fun a b rel halign hheld => ?_⟩
    · rw [show exec .done s = .next (finishPacket s p x.count) from (show execDone s = _ from pilotOp_runs h), finishPacket, Queue.count_q]
    · rw [show exec (.fault imm) s = _ from (show execFault imm s = _ from pilotOp_runs h), stopPilot_faulted rfl]
    · rw [exec_loop h, if_pos hmany, stopPilot_faulted rfl]
    · exact exec_budgetExhausted h hsteps hsus
    · exact pilotFetch_exhausted hrun htrip hvisit hp hx hbusy hst ⟨hsteps, by simp [hsus]⟩
    · refine pilotFetch_eq hrun htrip hvisit hp hx hbusy hst (fun ⟨hle, hnot⟩ => ?_) hdec
      exact hbudget.elim (fun hlt => absurd hle (Nat.not_le.mpr hlt)) hnot
    · simp [Queue.count, hsus]
    · simp [Queue.count, hsus]
    · intro t hcode hslot
      exact exec_pilotLaunch_waits h d hcode hslot
    · rw [exec_emit h a, if_pos hfull]
      rfl
    · intro n at_
      refine ⟨fun d hheld => ?_, fun d hfree hbad => ?_, fun a hheld => ?_⟩
      · rw [exec_ldq h d (show at_ = stateAt p x imm from rfl) (show n = _ from rfl) rfl, if_pos hheld]
        rfl
      · rw [exec_ldq h d (show at_ = stateAt p x imm from rfl) (show n = _ from rfl) rfl, if_neg (Bool.eq_false_iff.mp hfree), if_pos hbad]
        rfl
      · rw [exec_stq h a (show at_ = stateAt p x imm from rfl) (show n = _ from rfl), if_pos hheld]
        rfl
    · rw [exec_sigwait h halign b true rel (seeSig_host _).symm, sigSpot_host hok, sigRead, sigDecided_fails (hread_length ..) hfails]
      rfl
    · intro u hheldu
      refine ⟨fun e he => ?_, fun e he => ?_, fun r hr hfree hreach => ?_, fun r hr hfree => ?_⟩
      · rw [exec_sigwait h halign b false rel (seeSig_device hheld).symm, sigSpot_park hheldu he]
        rfl
      · rw [exec_sigw h halign b false (seeSig_device hheld).symm, sigSpot_park hheldu he]
        rfl
      · rw [exec_sigw h halign b false (seeSig_device hheld).symm, sigSpot_device hheldu hr hfree, hreach]
        rfl
      · intro t
        have hread := exec_sigwait h halign b false rel (seeSig_device hheld).symm
        rw [sigSpot_device hheldu hr hfree] at hread
        refine ⟨fun hreach => ?_, fun hreach hbad => ?_, fun hreach hgood hfails => ?_⟩
        · rw [hread, hreach]
          rfl
        · rw [hread, if_pos hreach, sigRead, if_pos hbad]
          rfl
        · rw [hread, if_pos hreach, sigRead, if_neg (Bool.eq_false_iff.mp hgood), sigDecided_fails (pread_length ..) hfails]
          rfl

end Sys2Proof.Machine
end

section
/-! PROOFS. Windows, and the Ferry's completions (R34, R35, R41). -/
namespace Sys2Proof.Machine

/-! ### Windows -/

section Windows
variable {s : State} {w : Nat} {x : Window}

theorem State.win_setWin (hw : w < s.windows.length) (x : Window) : (s.setWin w x).win w = x := by
  simp [State.win, State.setWin, List.getD, hw]

theorem State.setWin_length (s : State) (w : Nat) (x : Window) : (s.setWin w x).windows.length = s.windows.length := by
  simp [State.setWin]

theorem State.win_setWin_ne {v : Nat} (h : v ≠ w) (s : State) (x : Window) : (s.setWin w x).win v = s.win v := by
  simp [State.win, State.setWin, List.getD, List.getElem?_set_ne (Ne.symm h)]

theorem State.setWin_setWin (s : State) (w : Nat) (x y : Window) : (s.setWin w x).setWin w y = s.setWin w y := by
  simp [State.setWin]

theorem signal_windows (s : State) (v : Nat) : (signal s v).windows = s.windows := by
  unfold signal; split <;> rfl
theorem signal_memories (s : State) (v : Nat) : (signal s v).memories = s.memories := by
  unfold signal; split <;> rfl
theorem signal_win (s : State) (v w : Nat) : (signal s v).win w = s.win w := by
  unfold State.win; rw [signal_windows]

/-- What of a window an error record leaves as it is: everything but its events and their count. -/
def Window.rings (x : Window) : Window := { x with events := [], evlost := 0 }

theorem setWin_rings (hx : x.rings = (s.win w).rings) (v : Nat) : ((s.setWin w x).win v).rings = (s.win v).rings := by
  by_cases hv : v = w
  · subst hv
    by_cases hlt : v < s.windows.length
    · rw [State.win_setWin hlt, hx]
    · simp [State.win, State.setWin, List.getD, hlt]
  · rw [State.win_setWin_ne hv]

theorem pushRecord_rings (s : State) (w v : Nat) (e : List Byte) : ((pushRecord s w e).win v).rings = (s.win v).rings := by
  unfold pushRecord pushEvent
  dsimp only
  split
  · exact setWin_rings (by rfl) v
  · exact setWin_rings (by rfl) v

theorem writeErrTo_memories (s : State) (r : ErrRec) (own : Bool) : (writeErrTo s r own).memories = s.memories := by
  have hpart : ∀ (t : State) (e : List Byte), (match r.part with
      | some p => pushRecord t p e
      | none => t).memories = t.memories := by
    intro t e
    split
    · exact pushRecord_memories ..
    · rfl
  unfold writeErrTo
  dsimp only
  split
  · exact (pushRecord_memories ..).trans (hpart ..)
  · exact hpart ..

theorem writeErrTo_rings (s : State) (r : ErrRec) (own : Bool) (v : Nat) :
    ((writeErrTo s r own).win v).rings = (s.win v).rings := by
  have hpart : ∀ (t : State) (e : List Byte), ((match r.part with
      | some p => pushRecord t p e
      | none => t).win v).rings = (t.win v).rings := by
    intro t e
    split
    · exact pushRecord_rings ..
    · rfl
  unfold writeErrTo
  dsimp only
  split
  · exact (pushRecord_rings ..).trans (hpart ..)
  · exact (setWin_rings (by rfl) v).trans (hpart ..)

/-- A failed ring access halts its window and reaches no memory (R35). -/
theorem ringFail_memories (s : State) (w a : Nat) : (ringFail s w a).memories = s.memories := writeErrTo_memories ..

theorem ringFail_rings (hw : w < s.windows.length) (a : Nat) : ((ringFail s w a).win w).rings =
    { s.win w with run := false, halted := true, mute := (s.win w).waiting.isSome, events := [], evlost := 0 } := by
  refine (writeErrTo_rings ..).trans ?_
  rw [State.win_setWin hw]
  rfl

end Windows

/-! ### Completions (R35, R41) -/

/-- The sixteen bytes of a completion. -/
def entryBytes (d : FerryDesc) (status detail : Nat) : List Byte :=
  leBytes 1 d.op.toNat ++ leBytes 1 status ++ [0, 0] ++ leBytes 4 d.tag.toNat ++ leBytes 8 detail

@[simp] theorem leBytes_length (n v : Nat) : (leBytes n v).length = n := by simp [leBytes]

theorem entryBytes_length (d : FerryDesc) (status detail : Nat) : (entryBytes d status detail).length = 16 := by
  simp [entryBytes]

section Completions
variable {s : State} {w status detail : Nat} {d : FerryDesc}

/-- The window as a completion leaves it, but for its count. -/
def Window.idle (x : Window) : Window := { x with waiting := none, spans := [], mute := false }
/-- Where a window's next completion goes. -/
def Window.entryAt (x : Window) : Nat := x.cplbase.toNat + 16 * (x.cpltail.toNat % x.cplsize.toNat)

theorem complete_muted (h : (s.win w).mute = true) :
    complete s w d status detail = s.setWin w { (s.win w).idle with halted := (s.win w).halted || !(s.win w).run } := by
  unfold complete
  rw [if_pos h]
  rfl

theorem hwrite_windows (s : State) (a : Nat) (d : List Byte) : (hwrite s a d).windows = s.windows := rfl
theorem hwrite_signals (s : State) (a : Nat) (d : List Byte) :
    (hwrite s a d).signalled = s.signalled ∧ (hwrite s a d).pba = s.pba := ⟨rfl, rfl⟩

/-- The window after a completion's entry: counted, and halted where RUN was cleared. -/
def Window.counted (x : Window) : Window := { x.idle with cpltail := x.cpltail + 1, halted := x.halted || !x.run }
/-- The state in which a completion's entry stands in the ring and is counted. -/
def entered (s : State) (w : Nat) (d : FerryDesc) (status detail : Nat) : State :=
  (hwrite s (s.win w).entryAt (entryBytes d status detail)).setWin w (s.win w).counted

theorem complete_written (hm : (s.win w).mute = false) (hok : hostOk s (s.win w).entryAt 16 = true) :
    complete s w d status detail =
      if d.flags.getLsbD 0 then signal (entered s w d status detail) (vectorOf w) else entered s w d status detail := by
  unfold complete
  rw [if_neg (Bool.eq_false_iff.mp hm)]
  exact if_pos hok

theorem entered_win (hw : w < s.windows.length) : (entered s w d status detail).win w = (s.win w).counted := by
  rw [entered, State.win_setWin]
  rwa [hwrite_windows]

theorem entered_hostmem (s : State) (w : Nat) (d : FerryDesc) (status detail : Nat) : (entered s w d status detail).hostmem =
    swrite s.hostmem (s.win w).entryAt (entryBytes d status detail) := by
  rw [entered, State.setWin_hostmem, hwrite_hostmem]

theorem entered_mem (s : State) (w : Nat) (d : FerryDesc) (status detail : Nat) :
    (entered s w d status detail).mem = s.mem := by
  rw [entered, State.setWin_mem, hwrite_mem]

theorem entered_signals (s : State) (w : Nat) (d : FerryDesc) (status detail : Nat) :
    (entered s w d status detail).signalled = s.signalled ∧ (entered s w d status detail).pba = s.pba := by
  rw [entered, State.setWin_signalled, State.setWin_pba]
  exact hwrite_signals ..

/-- A completion that is written changes memory by its entry alone. -/
theorem complete_parts (hm : (s.win w).mute = false) (hok : hostOk s (s.win w).entryAt 16 = true) :
    (complete s w d status detail).hostmem = swrite s.hostmem (s.win w).entryAt (entryBytes d status detail) ∧
      (complete s w d status detail).mem = s.mem ∧
      (complete s w d status detail).win w = (entered s w d status detail).win w := by
  rw [complete_written hm hok]
  by_cases hflag : d.flags.getLsbD 0 = true
  · rw [if_pos hflag]
    have hsig := signal_memories (entered s w d status detail) (vectorOf w)
    simp only [State.memories, Prod.mk.injEq] at hsig
    exact ⟨hsig.2.1.trans (entered_hostmem ..), hsig.1.trans (entered_mem ..), signal_win ..⟩
  · rw [if_neg hflag]
    exact ⟨entered_hostmem .., entered_mem .., rfl⟩

/-- A completion's entry reads back. -/
theorem complete_entry (hmem : s.memOk = true) (hm : (s.win w).mute = false) (hok : hostOk s (s.win w).entryAt 16 = true) :
    hread (complete s w d status detail) (s.win w).entryAt 16 = entryBytes d status detail := by
  have hback := sread_swrite s.hostmem (s.win w).entryAt (entryBytes d status detail) (memOk_hostmem hmem)
  rw [entryBytes_length] at hback
  rw [hread, (complete_parts hm hok).1, hback]

theorem complete_elsewhere (hmem : s.memOk = true) (hm : (s.win w).mute = false) (hok : hostOk s (s.win w).entryAt 16 = true)
    {b : Nat} (hb : b < (s.win w).entryAt ∨ (s.win w).entryAt + 16 ≤ b) :
    sget (complete s w d status detail).hostmem b = sget s.hostmem b := by
  rw [(complete_parts hm hok).1]
  exact sget_swrite_other _ _ _ _ (memOk_hostmem hmem) (by rwa [entryBytes_length])

theorem complete_silent (hm : (s.win w).mute = false) (hok : hostOk s (s.win w).entryAt 16 = true)
    (hflag : d.flags.getLsbD 0 = false) : (complete s w d status detail).signalled = s.signalled ∧
      (complete s w d status detail).pba = s.pba := by
  rw [complete_written hm hok, if_neg (Bool.eq_false_iff.mp hflag)]
  exact entered_signals ..

theorem complete_failed (hm : (s.win w).mute = false) (hok : hostOk s (s.win w).entryAt 16 = false) :
    complete s w d status detail = ringFail (s.setWin w (s.win w).idle) w (s.win w).entryAt := by
  unfold complete
  rw [if_neg (Bool.eq_false_iff.mp hm)]
  exact if_neg (Bool.eq_false_iff.mp hok)

end Completions

/-- Settles O43: a completion goes through its ring, fails on it, or is muted. -/
theorem completionsAreWritten : Obligations.CompletionsAreWritten := by
  unfold Obligations.CompletionsAreWritten
  intro s w status detail d hmem hw x a t idle
  refine ⟨fun hm hok => ?_, fun hm hok => ?_, complete_muted⟩
  · obtain ⟨-, hdev, hwin⟩ := complete_parts (d := d) (status := status) (detail := detail) hm hok
    exact ⟨complete_entry hmem hm hok, hwin.trans (entered_win hw), hdev, fun b hb => complete_elsewhere hmem hm hok hb,
      complete_silent hm hok⟩
  · have ht : t = ringFail (s.setWin w x.idle) w a := complete_failed hm hok
    have hlen : w < (s.setWin w x.idle).windows.length := by rwa [State.setWin_length]
    have hrings := ringFail_rings hlen a
    have hmems := ringFail_memories (s.setWin w x.idle) w a
    rw [State.win_setWin hw, ← ht] at hrings
    rw [← ht] at hmems
    simp only [State.memories, Prod.mk.injEq] at hmems
    refine ⟨?_, ?_, ?_, hmems.2.1⟩
    · exact (congrArg Window.run hrings :)
    · exact (congrArg Window.halted hrings :)
    · exact (congrArg Window.cpltail hrings :)

end Sys2Proof.Machine
end

section
/-! PROOFS. The Ferry's WRITE, READ, TAIL, INVAL and SEAL (R36 to R40, R46, R51, R52, R58, R142). -/
namespace Sys2Proof.Machine

section Commands
variable {s : State} {w : Nat} {d : FerryDesc}

/-- A command of a descriptor that passes does what its rule says (R36, R37, R413). -/
theorem taken_runs {place : Where} {used : Nat → Bool} (h : Taken s w d place used) (go : State → State) :
    ferryCmd w d place used false go s = .next (go s) := by
  obtain ⟨hlive, hdesc, harg, hwin⟩ := h
  exact ferryCmd_runs hlive hdesc harg hwin rfl

theorem progressOf_none (h : (s.win w).waiting = none) : progressOf s w = none := by rw [progressOf, h]; rfl
theorem progressOf_some {d0 : FerryDesc} {k : Nat} (h : (s.win w).waiting = some (d0, k)) : progressOf s w = some k := by
  rw [progressOf, h]; rfl

/-- The command of a window whose partition is being torn down completes TORNDOWN (R46, R413). -/
theorem exec_torndown (hdying : dying s w = true) (h : (s.win w).waiting = none) :
    ∀ i ∈ [Instr.ferryWrite w d, .ferryRead w d, .ferryTail w d, .ferryRearm w d, .ferryLaunch w d, .sealRange w d, .inval w d,
      .service w d, .ferryBadop w d], exec i s = .next (completeOpen s w d 8) := by
  have hnone := progressOf_none h
  intro i hi
  simp only [List.mem_cons, List.not_mem_nil, or_false] at hi
  rcases hi with rfl | rfl | rfl | rfl | rfl | rfl | rfl | rfl | rfl
  · exact (show execFerryWrite w d s = _ by unfold execFerryWrite; rw [hnone]; exact ferryCmd_torndown hdying)
  · exact (show execFerryRead w d s = _ by unfold execFerryRead; rw [hnone]; exact ferryCmd_torndown hdying)
  · exact (show execFerryTail w d s = _ from ferryCmd_torndown hdying)
  · exact (show execFerryRearm w d s = _ from ferryCmd_torndown hdying)
  · exact (show execFerryLaunch w d s = _ by
      unfold execFerryLaunch; rw [hnone, if_neg (by decide)]; exact ferryCmd_torndown hdying)
  · exact (show execSealRange w d s = _ by unfold execSealRange; rw [hnone]; exact ferryCmd_torndown hdying)
  · exact (show execInval w d s = _ by unfold execInval; rw [hnone]; exact ferryCmd_torndown hdying)
  · exact (show execService w d s = _ from ferryCmd_torndown hdying)
  · exact congrArg (fun c => Host.Outcome.next (completeOpen s w d c)) (if_pos hdying)

/-! ### WRITE and READ are admitted (R38, R39) -/

/-- What WRITE or READ does once its descriptor passes. -/
def moveBegun (s : State) (w : Nat) (d : FerryDesc) (write : Bool) : State :=
  if d.len.toNat = 0 ∨ 2 ^ 24 < d.len.toNat then completeOpen s w d 5
  else
    match ferrySpans (seePages s w d.daddr.toNat d.len.toNat) w write (pageSpans d.daddr.toNat d.len.toNat) with
    | .error a => complete (seePages s w d.daddr.toNat d.len.toNat) w d 3 a
    | .ok ps =>
      if write = true ∧ ps.any (fun p => sealedPa (seePages s w d.daddr.toNat d.len.toNat) p.1) = true
      then completeOpen (seePages s w d.daddr.toNat d.len.toNat) w d 4
      else beginMove (seePages s w d.daddr.toNat d.len.toNat) w d ps

theorem exec_ferryWrite_begins (ht : Taken s w d .all fun _ => false) (h : (s.win w).waiting = none) :
    exec (.ferryWrite w d) s = .next (moveBegun s w d true) := by
  change execFerryWrite w d s = _
  unfold execFerryWrite
  rw [progressOf_none h]
  refine (taken_runs ht _).trans (congrArg Host.Outcome.next ?_)
  simp only [moveBegun, true_and] <;> rfl

theorem exec_ferryRead_begins (ht : Taken s w d .all fun _ => false) (h : (s.win w).waiting = none) :
    exec (.ferryRead w d) s = .next (moveBegun s w d false) := by
  change execFerryRead w d s = _
  unfold execFerryRead
  rw [progressOf_none h]
  refine (taken_runs ht _).trans (congrArg Host.Outcome.next ?_)
  simp only [moveBegun, Bool.false_eq_true, false_and, if_false] <;> rfl

theorem moveBegun_range (hn : d.len.toNat = 0 ∨ 2 ^ 24 < d.len.toNat) (write : Bool) :
    moveBegun s w d write = completeOpen s w d 5 := if_pos hn

section Spans
variable {u : State} (hn : 1 ≤ d.len.toNat ∧ d.len.toNat ≤ 2 ^ 24) (hu : u = seePages s w d.daddr.toNat d.len.toNat) {write : Bool}
include hn hu

theorem moveBegun_xlate {a : Nat} (h : ferrySpans u w write (pageSpans d.daddr.toNat d.len.toNat) = .error a) :
    moveBegun s w d write = complete u w d 3 a := by
  subst hu
  unfold moveBegun
  rw [if_neg (by omega), h]

theorem moveBegun_spans {ps : List (Nat × Nat)} (h : ferrySpans u w write (pageSpans d.daddr.toNat d.len.toNat) = .ok ps) :
    moveBegun s w d write = if write = true ∧ ps.any (fun p => sealedPa u p.1) = true then completeOpen u w d 4
      else u.setWin w { u.win w with waiting := some (d, 0), spans := ps } := by
  subst hu
  unfold moveBegun
  rw [if_neg (by omega), h]
  rfl

end Spans

/-! ### Their units (R39, R40, R156, R157) -/

theorem exec_ferryWrite_moves {d0 : FerryDesc} {k : Nat} (h : (s.win w).waiting = some (d0, k)) :
    exec (.ferryWrite w d) s = .next (moveUnit s w d true k) := by
  change execFerryWrite w d s = _
  unfold execFerryWrite
  rw [progressOf_some h]

theorem exec_ferryRead_moves {d0 : FerryDesc} {k : Nat} (h : (s.win w).waiting = some (d0, k)) :
    exec (.ferryRead w d) s = .next (moveUnit s w d false k) := by
  change execFerryRead w d s = _
  unfold execFerryRead
  rw [progressOf_some h]

section Units
variable {spans : List (Nat × Nat)} {k : Nat} {u : Nat × Nat}

theorem moveAt_of_unit {write : Bool} (hu : unitAt spans k = some u)
    (h : ∀ l, lineAt spans k = some l → (write && parkedBlocks s u.1 u.2 true && !parkedBlocks s l.1 l.2 true) = false) :
    moveAt s spans write k = some u := by
  unfold moveAt
  rw [hu]
  cases hl : lineAt spans k with
  | none => rfl
  | some l => exact if_neg (Bool.eq_false_iff.mp (h l hl))

theorem moveAt_of_line {l : Nat × Nat} (hu : unitAt spans k = some u) (hl : lineAt spans k = some l)
    (hheld : parkedBlocks s u.1 u.2 true = true) (hfree : parkedBlocks s l.1 l.2 true = false) : moveAt s spans true k = some l := by
  unfold moveAt
  rw [hu, hl]
  exact if_pos (by simp [hheld, hfree])

end Units

/-- After a unit the command goes on, or it completes with its last. -/
def moved (t : State) (w : Nat) (d : FerryDesc) (k : Nat) : State :=
  if d.len.toNat ≤ k then completeOpen t w d 0 else waitCmd t w d k

section Unit
variable {write : Bool} {k pa n : Nat} (h : moveAt s (s.win w).spans write k = some (pa, n))
include h

theorem moveUnit_eq : moveUnit s w d write k =
    if parkedBlocks s pa n write then s
    else if !hostOk s (d.haddr.toNat + k) n then completeOpen s w d 7
    else moved (if write then writeUnit s (d.haddr.toNat + k) pa n else readUnit s w (d.haddr.toNat + k) pa n) w d (k + n) := by
  unfold moveUnit
  rw [h]
  rfl

theorem moveUnit_waits (hp : parkedBlocks s pa n write = true) : moveUnit s w d write k = s := by
  rw [moveUnit_eq h, if_pos hp]

theorem moveUnit_fails (hp : parkedBlocks s pa n write = false) (hok : hostOk s (d.haddr.toNat + k) n = false) :
    moveUnit s w d write k = completeOpen s w d 7 := by
  rw [moveUnit_eq h, if_neg (Bool.eq_false_iff.mp hp), if_pos (by rw [hok]; rfl)]

theorem moveUnit_moves (hp : parkedBlocks s pa n write = false) (hok : hostOk s (d.haddr.toNat + k) n = true) :
    moveUnit s w d write k =
      moved (if write then writeUnit s (d.haddr.toNat + k) pa n else readUnit s w (d.haddr.toNat + k) pa n) w d (k + n) := by
  rw [moveUnit_eq h, if_neg (Bool.eq_false_iff.mp hp), if_neg (by rw [hok]; decide)]

end Unit

/-! ### TAIL (R58) -/

section Tail
variable {p : Partition} {x : Queue} (ht : Taken s w d .parts fun k => k < 2 || (4 ≤ k && k < 8)) (hp : s.part? w = some p)
  (hx : p.queue? (argN d 0 2) = some x)
include ht hp hx

/-- The tail that a TAIL names. -/
theorem exec_ferryTail_eq : exec (.ferryTail w d) s = .next (match tailBase (seeTail s p x) p x with
    | none => completeOpen (seeTail s p x) w d 5
    | some hb =>
      if hb.2 < (BitVec.ofNat 32 (argN d 4 4) - hb.1).toNat then completeOpen (seeTail s p x) w d 5
      else completeOpen (writeDesc (putQueue (seeTail s p x) w { x with tail := BitVec.ofNat 32 (argN d 4 4) }) w x 36 4
        (BitVec.ofNat 32 (argN d 4 4)).toNat) w d 0) := by
  change execFerryTail w d s = _
  unfold execFerryTail
  refine (taken_runs ht _).trans (congrArg Host.Outcome.next ?_)
  dsimp only
  rw [hp]
  dsimp only
  rw [hx] <;> rfl

end Tail

/-! ### INVAL (R142, R144) -/

/-- An INVAL of one partition. -/
theorem exec_inval_begins (ht : Taken s w d .all fun k => k == 0 && w == mgmt) (h : (s.win w).waiting = none)
    (hpart : w = mgmt → argN d 0 1 ≤ 11) {p : Nat} (hp : p = if w = mgmt then argN d 0 1 else w) :
    exec (.inval w d) s = .next
      (if translatedPending (dropTlb s p d.daddr.toNat d.len.toNat) p (invalRanges s p d.daddr.toNat d.len.toNat)
       then (dropTlb s p d.daddr.toNat d.len.toNat).setWin w { (dropTlb s p d.daddr.toNat d.len.toNat).win w with
         waiting := some (d, 0), spans := invalRanges s p d.daddr.toNat d.len.toNat }
       else completeOpen (dropTlb s p d.daddr.toNat d.len.toNat) w d 0) := by
  have hparts : invalParts w d = [p] := by
    unfold invalParts
    by_cases hw : w = mgmt
    · have := hpart hw
      rw [if_neg (fun h => h hw), if_neg (by omega), hp, if_pos hw]
    · rw [if_pos hw, hp, if_neg hw]
  have hlegal : ¬(w = mgmt ∧ (11 < argN d 0 1 ∧ ¬(argN d 0 1 = 0xFF ∧ d.len.toNat = 0))) := by
    rintro ⟨hw, hover, -⟩
    exact absurd (hpart hw) (by omega)
  change execInval w d s = _
  unfold execInval
  rw [progressOf_none h]
  refine (taken_runs ht _).trans (congrArg Host.Outcome.next ?_)
  dsimp only
  rw [if_neg hlegal, hparts]
  simp only [List.flatMap_cons, List.flatMap_nil, List.append_nil, List.foldl_cons, List.foldl_nil, List.any_cons, List.any_nil,
    Bool.or_false]

theorem exec_inval_waits {d0 : FerryDesc} {k : Nat} (h : (s.win w).waiting = some (d0, k)) : exec (.inval w d) s =
    .next (if (invalParts w d).any fun p => translatedPending s p (s.win w).spans then s else completeOpen s w d 0) := by
  change execInval w d s = _
  unfold execInval
  rw [progressOf_some h]

/-! ### SEAL (R52) -/

theorem exec_sealRange_goesOn {d0 : FerryDesc} {k : Nat} (h : (s.win w).waiting = some (d0, k)) :
    exec (.sealRange w d) s = .next (sealStep s w d (k % 16) (16 ≤ k)) := by
  change execSealRange w d s = _
  unfold execSealRange
  rw [progressOf_some h]

section Seal
variable {p : Partition} {k : Nat} (hp : s.part? w = some p)
include hp

/-- Once no write of the range is under way its digest is taken. -/
theorem sealStep_digests {r : SealReg} (hr : r = p.seals.getD k default)
    (hwrite : writeInRange s r.base (r.pages * 65536) = false) (hchecked : checkedInRange s r.base (r.pages * 65536) = false)
    {u : State} (hu : u = seeSpan s 0 r.base (r.pages * 65536) (some w) 0xFF)
    (hgood : badSpan u 0 r.base (r.pages * 65536) = false) :
    sealStep s w d k false = waitCmd (dropL1Range (setSeal u w k { r with digest := sha256 (pread u r.base (r.pages * 65536)) })
      r.base (r.pages * 65536)) w d (16 + k) := by
  have hdigest : sealDigest s w r.base (r.pages * 65536) = (sha256 (pread u r.base (r.pages * 65536)), u) := by
    unfold sealDigest
    dsimp only
    rw [← hu, if_neg (Bool.eq_false_iff.mp hgood)]
  unfold sealStep
  rw [hp]
  dsimp only
  rw [if_neg Bool.false_ne_true, ← hr, if_neg (by rw [hwrite, hchecked]; decide), hdigest]

/-- Once every call is applied the leaves are marked and the range is sealed. -/
theorem sealStep_seals {r : SealReg} (hr : r = p.seals.getD k default) (h : allApplied s p = true) :
    sealStep s w d k true = complete (setSealedBits (setSeal s w k { r with st := .sealed }) p r.base r.pages d.daddr.toNat) w d 0 k := by
  unfold sealStep
  rw [hp]
  dsimp only
  rw [if_pos rfl, if_pos h, ← hr]

end Seal

theorem exec_ferryBadop_live (h : dying s w = false) : exec (.ferryBadop w d) s = .next (completeOpen s w d 1) :=
  congrArg (fun c => Host.Outcome.next (completeOpen s w d c)) (if_neg (Bool.eq_false_iff.mp h))

end Commands

/-- Settles O44: each command is taken, and goes on, as its own rule says. -/
theorem ferryMovesAndSealsBytes : Obligations.FerryMovesAndSealsBytes := by
  unfold Obligations.FerryMovesAndSealsBytes
  intro s w d n
  refine ⟨exec_torndown, fun ht hnone => ⟨fun hn => ?_, fun h1 h2 => ?_⟩, fun d0 k pa m hwait hunit => ?_, fun p x ht hp hx => ?_,
    fun ht hnone hpart => exec_inval_begins ht hnone hpart rfl, fun hwait => ?_, fun p d0 j hp hj => ?_, exec_ferryBadop_live⟩
  · rw [exec_ferryWrite_begins ht hnone, exec_ferryRead_begins ht hnone, moveBegun_range hn, moveBegun_range hn]
    exact ⟨rfl, rfl⟩
  · intro u
    rw [exec_ferryWrite_begins ht hnone, exec_ferryRead_begins ht hnone]
    refine ⟨fun a h => ?_, fun a h => ?_, fun ps h => ?_, fun ps h => ?_⟩
    · rw [moveBegun_xlate ⟨h1, h2⟩ rfl h]
    · rw [moveBegun_xlate ⟨h1, h2⟩ rfl h]
    · rw [moveBegun_spans ⟨h1, h2⟩ rfl h]
      simp only [true_and] <;> rfl
    · rw [moveBegun_spans ⟨h1, h2⟩ rfl h, if_neg (by simp)]
  · intro h upTo after
    rw [exec_ferryWrite_moves hwait, exec_ferryRead_moves hwait]
    have hreads : moveAt s (s.win w).spans false k = some (pa, m) := moveAt_of_unit hunit fun _ _ => rfl
    have hwrites : (∀ l, lineAt (s.win w).spans k = some l → parkedBlocks s pa m true = true →
        parkedBlocks s l.1 l.2 true = true) → moveAt s (s.win w).spans true k = some (pa, m) := by
      intro hline
      refine moveAt_of_unit hunit fun l hl => ?_
      cases hpark : parkedBlocks s pa m true
      · simp
      · simp [hline l hl hpark]
    refine ⟨fun hpark hline => ?_, fun l hpark hl hfree hok hreach => ?_, fun hfree hok => ?_, fun hfree hok hreach => ?_,
      fun hpark => ?_, fun hfree hok => ?_, fun hfree hok => ?_⟩
    · rw [moveUnit_waits (hwrites fun l hl _ => hline l hl) hpark]
    · rw [moveUnit_moves (moveAt_of_line hunit hl hpark hfree) hfree hok, if_pos rfl, writeUnit, if_pos hreach] <;> rfl
    · rw [moveUnit_fails (hwrites fun l _ hpark => absurd (hpark.symm.trans hfree) (by decide)) hfree hok]
    · rw [moveUnit_moves (hwrites fun l _ hpark => absurd (hpark.symm.trans hfree) (by decide)) hfree hok, if_pos rfl, writeUnit,
        if_pos hreach] <;> rfl
    · rw [moveUnit_waits hreads hpark]
    · rw [moveUnit_fails hreads hfree hok]
    · intro t hgood
      have hunit' : readUnit s w (d.haddr.toNat + k) pa m = hwrite t (d.haddr.toNat + k) (pread t pa m) := by
        unfold readUnit
        exact if_neg (Bool.eq_false_iff.mp hgood)
      rw [moveUnit_moves hreads hfree hok, if_neg Bool.false_ne_true, hunit'] <;> rfl
  · intro v t
    rw [exec_ferryTail_eq ht hp hx]
    refine ⟨fun head size hbase hle => ?_, fun head size hbase hlt => ?_, fun hbase => ?_⟩
    · rw [show tailBase (seeTail s p x) p x = _ from hbase]
      exact congrArg Host.Outcome.next (if_neg (Nat.not_lt.mpr hle))
    · rw [show tailBase (seeTail s p x) p x = _ from hbase]
      exact congrArg Host.Outcome.next (if_pos hlt)
    · rw [show tailBase (seeTail s p x) p x = _ from hbase]
  · obtain ⟨⟨d0, k⟩, hwait⟩ := Option.ne_none_iff_exists'.mp hwait
    rw [exec_inval_waits hwait]
    refine ⟨fun hdone => ?_, fun hpend => ?_⟩
    · rw [if_neg]
      simpa using hdone
    · rw [if_pos]
      simpa using hpend
  · intro r
    refine ⟨fun hwait hwrite hchecked => ?_, fun hwait happlied => ?_⟩
    · intro u hgood
      rw [exec_sealRange_goesOn hwait, Nat.mod_eq_of_lt hj, decide_eq_false (by omega)]
      exact congrArg Host.Outcome.next (sealStep_digests hp rfl hwrite hchecked rfl hgood)
    · rw [exec_sealRange_goesOn hwait, show (16 + j) % 16 = j by omega, decide_eq_true (by omega)]
      exact congrArg Host.Outcome.next (sealStep_seals hp rfl happlied)

end Sys2Proof.Machine
end

section
/-! PROOFS. The Ferry commands that manage the machine (R26, R45 to R47, R54, R55, R60, R71, R73). -/
namespace Sys2Proof.Machine

section Commands
variable {s : State} {w : Nat} {d : FerryDesc} {p : Partition}

theorem part?_part {k : Nat} (h : s.part? k = some p) : p.part = k := by
  simpa using List.find?_some h

/-! ### LAUNCH (R37, R71) -/

theorem exec_ferryLaunch_submits (ht : Taken s w d .parts fun _ => false) (h : (s.win w).waiting = none)
    (hok : hostOk s d.haddr.toNat 64 = true) :
    exec (.ferryLaunch w d) s = .next (ferrySubmit s w d (hread s d.haddr.toNat 64)) := by
  change execFerryLaunch w d s = _
  unfold execFerryLaunch
  rw [progressOf_none h, if_neg (by decide)]
  refine (taken_runs ht _).trans (congrArg Host.Outcome.next ?_)
  exact if_pos hok

section Submit
variable {r : List Byte} {t : State} (hp : s.part? w = some p) (ht : t = seeLaunch s p r)
include hp ht

theorem ferrySubmit_accepted {slot : Nat} (hcode : launchCode t p r = 0) (hslot : freeLaunchSlot t w = some slot) :
    ferrySubmit s w d r = complete (acceptLaunch t p slot r).1 w d 0 p.nextSerial.toNat := by
  subst ht
  unfold ferrySubmit
  rw [hp]
  dsimp only
  rw [hcode, hslot] <;> rfl

theorem ferrySubmit_refused (hcode : launchCode t p r ≠ 0) : ferrySubmit s w d r = complete t w d 9 (launchCode t p r) := by
  subst ht
  unfold ferrySubmit
  rw [hp]
  dsimp only
  split
  · contradiction
  · rfl

end Submit

/-! ### REARM (R60) -/

section Rearm
variable {x y : Queue} (ht : Taken s w d .parts fun k => k < 2) (hp : s.part? w = some p) (hx : p.queue? (argN d 0 2) = some x)

/-- The queue as REARM counts itself. -/
def Queue.rearmed (x : Queue) : Queue := { x with rearmw := (x.rearmw + 1) % 2 ^ 32 }

/-- The queue that a REARM leaves where the verifier passes its descriptor. -/
def Queue.armed (x y : Queue) : Queue :=
  let z := { y with st := QSt.active, retries := 0, deferred := false }
  if resumes x y then z else { z with busy := false, suspended := false }

include ht hp hx in
theorem exec_ferryRearm_eq : exec (.ferryRearm w d) s = .next
    (if x.st == .active then complete (putQueue (putQueue s w x.rearmed) w { x.rearmed with deferred := true }) w d 0 1
     else if reloadHeld s p x.rearmed then waitCmd s w d 0
     else match reload (seeReload (putQueue s w x.rearmed) p x.rearmed) p x.rearmed with
       | .error c => complete (seeReload (putQueue s w x.rearmed) p x.rearmed) w d 9 c
       | .ok y => complete (putQueue (seeReload (putQueue s w x.rearmed) p x.rearmed) w (x.rearmed.armed y)) w d 0 0) := by
  change execFerryRearm w d s = _
  unfold execFerryRearm
  refine (taken_runs ht _).trans (congrArg Host.Outcome.next ?_)
  dsimp only
  rw [hp]
  dsimp only
  rw [hx] <;> rfl

theorem reload_tail (h : reload s p x = .ok y) : y.tail = x.tail ∧ y.busy = x.busy := by
  unfold reload at h
  dsimp only at h
  split at h
  · cases h
  · split at h
    · cases h
    · cases h
      exact ⟨rfl, rfl⟩

/-- An armed queue is active, and stays busy only where its pilot goes on (R60). -/
theorem armed_parts (x y : Queue) : (x.armed y).st = .active ∧ (x.armed y).retries = 0 ∧ (x.armed y).desc = y.desc ∧
    (x.armed y).pilot = y.pilot ∧ (x.armed y).head = y.head ∧ (x.armed y).tail = y.tail ∧
    ((x.armed y).busy = true → resumes x y = true) := by
  unfold Queue.armed
  dsimp only
  split
  case isTrue h => exact ⟨rfl, rfl, rfl, rfl, rfl, rfl, fun _ => h⟩
  case isFalse => exact ⟨rfl, rfl, rfl, rfl, rfl, rfl, fun h => absurd h Bool.false_ne_true⟩

theorem resumes_busy (h : resumes x y = true) : x.st = .fetchfault ∧ x.busy = true := by
  simp only [resumes, Bool.and_eq_true, beq_iff_eq] at h
  obtain ⟨⟨⟨⟨hst, hbusy⟩, -⟩, -⟩, -⟩ := h
  exact ⟨hst, hbusy⟩

end Rearm

/-! ### SERVICE (R55) -/

section Service
variable (ht : Taken s w d .all fun k => k < 5)
include ht

theorem exec_service_unknown (h : requestFor s w (BitVec.ofNat 32 (argN d 0 4)) = none) :
    exec (.service w d) s = .next (completeOpen s w d 5) := by
  refine (show execService w d s = _ from taken_runs ht _).trans (congrArg Host.Outcome.next ?_)
  dsimp only
  rw [h]

theorem exec_service_answers {part about : Nat} {body : List Byte}
    (h : requestFor s w (BitVec.ofNat 32 (argN d 0 4)) = some (part, about, body))
    (hfits : answerFits (field body 0 1) (argN d 4 1) = true) (hanswer : argN d 4 1 ≠ 2) :
    exec (.service w d) s = .next (completeOpen (answerRequest (dropRequest s part (BitVec.ofNat 32 (argN d 0 4))) about body
      (BitVec.ofNat 32 (argN d 0 4)) (argN d 4 1) (hread s d.haddr.toNat 864)) w d 0) := by
  refine (show execService w d s = _ from taken_runs ht _).trans (congrArg Host.Outcome.next ?_)
  dsimp only
  rw [h]
  dsimp only
  rw [if_neg (by simp [hfits, hanswer]), if_neg (by simp [hanswer])]

end Service

/-! ### BUDGET, MODESET and THRESH (R26, R47, R54) -/

theorem exec_budget_sets (ht : Taken s w d .mgmtOnly fun k => k == 0 || 4 ≤ k) (hborrow : argN d 28 4 < 64)
    (hp : s.part? (argN d 0 1) = some p) : exec (.budget w d) s = .next (completeOpen (s.setPart { p with
      budgets := (List.range 6).map (fun k => BitVec.ofNat 32 (argN d (4 + 4 * k) 4)), borrow := argN d 28 4 }) w d 0) := by
  change execBudget w d s = _
  unfold execBudget
  rw [show (argN d 28 4 / 64 != 0) = false by rw [Nat.div_eq_of_lt hborrow]; rfl]
  refine (taken_runs ht _).trans (congrArg Host.Outcome.next ?_)
  rw [hp]

theorem exec_modeset_sets (ht : Taken s w d .mgmtOnly fun k => k < 2) (hmodes : argN d 1 1 < 64)
    (hp : s.part? (argN d 0 1) = some p) :
    exec (.modeset w d) s = .next (completeOpen (s.setPart { p with modes := argN d 1 1 }) w d 0) := by
  change execModeset w d s = _
  unfold execModeset
  rw [show (argN d 1 1 / 64 != 0) = false by rw [Nat.div_eq_of_lt hmodes]; rfl]
  refine (taken_runs ht _).trans (congrArg Host.Outcome.next ?_)
  rw [hp]

theorem exec_thresh_sets (ht : Taken s w d .mgmtOnly fun k => k == 0 || (4 ≤ k && k < 8)) (hhop : argN d 0 1 ≤ 13) :
    exec (.thresh w d) s = .next (completeOpen { s with dies := s.dies.map fun x => { x with
      thresholds := x.thresholds.set (argN d 0 1) (BitVec.ofNat 32 (argN d 4 4))
      counters := x.counters.set (argN d 0 1) 0 } } w d 0) := by
  refine (show execThresh w d s = _ from taken_runs ht _).trans (congrArg Host.Outcome.next ?_)
  exact if_neg (Nat.not_lt.mpr hhop)

/-! ### PCREATE and PDESTROY (R45, R46) -/

section Create
variable {r : List Byte} (ht : Taken s w d .mgmtOnly fun _ => false) (hok : hostOk s d.haddr.toNat 64 = true)
  (hr : r = hread s d.haddr.toNat 64)
include ht hok hr

theorem exec_pcreate_refused (hcode : partRecordCode r ≠ 0) : exec (.pcreate w d) s = .next (complete s w d 9 (partRecordCode r)) := by
  subst hr
  refine (show execPcreate w d s = _ from taken_runs ht _).trans (congrArg Host.Outcome.next ?_)
  dsimp only
  rw [if_neg (by rw [hok]; decide)]
  split
  · contradiction
  · rfl

theorem exec_pcreate_eq (hcode : partRecordCode r = 0) : exec (.pcreate w d) s = .next
    (if s.parts.any fun q => q.part == field r 0 1 || q.clumask &&& field r 32 6 != 0 then completeOpen s w d 6
     else completeOpen { s with parts := s.parts ++ [partNew r] } w d 0) := by
  subst hr
  refine (show execPcreate w d s = _ from taken_runs ht _).trans (congrArg Host.Outcome.next ?_)
  dsimp only
  rw [if_neg (by rw [hok]; decide), hcode] <;> rfl

end Create

theorem exec_pdestroy_ends (ht : Taken s w d .mgmtOnly fun k => k == 0) (hp : s.part? (argN d 0 1) = some p)
    (hwait : (s.win w).waiting ≠ none) (hquiet : tornQuiet s (argN d 0 1) = true) :
    exec (.pdestroy w d) s = .next (completeOpen (clearPartition s p) w d 0) := by
  obtain ⟨⟨d0, k⟩, hwait⟩ := Option.ne_none_iff_exists'.mp hwait
  refine (show execPdestroy w d s = _ from taken_runs ht _).trans (congrArg Host.Outcome.next ?_)
  dsimp only
  rw [hp]
  dsimp only
  rw [progressOf_some hwait, if_neg (show ¬(some k).isNone = true from Bool.false_ne_true), if_pos hquiet]

/-- What is left once a partition's state goes is other partitions'. -/
theorem clearPartition_gone (s : State) (p : Partition) :
    (clearPartition s p).part? p.part = none ∧ (∀ l ∈ (clearPartition s p).launches, l.part ≠ p.part) ∧
      (∀ k ∈ (clearPartition s p).wkgs, k.part ≠ p.part) ∧ (∀ g ∈ (clearPartition s p).groups, g.part ≠ p.part) ∧
      (∀ e ∈ (clearPartition s p).tlb, e.part ≠ p.part) := by
  unfold clearPartition
  dsimp only
  refine ⟨?_, ?_, ?_, ?_, ?_⟩
  · simp [State.part?]
  · simp
  · simp
  · simp
  · simp

end Commands

/-- Settles O45: each managing command passes its checks and does its rule. -/
theorem ferryManagesTheMachine : Obligations.FerryManagesTheMachine := by
  unfold Obligations.FerryManagesTheMachine
  intro s w d
  refine ⟨fun p ht hnone hok hp => ?_, fun p x ht hp hx => ?_, fun part about body ht => ⟨fun h hfits hanswer => ?_, fun h => ?_⟩,
    fun p ht hborrow hp => exec_budget_sets ht hborrow hp, fun p ht hmodes hp => exec_modeset_sets ht hmodes hp,
    exec_thresh_sets, fun ht hok => ?_, fun p ht hp hwait hquiet => ⟨exec_pdestroy_ends ht hp hwait hquiet, clearPartition_gone s p⟩⟩
  · intro r t
    rw [exec_ferryLaunch_submits ht hnone hok]
    exact ⟨fun slot hcode hslot => congrArg Host.Outcome.next (ferrySubmit_accepted hp rfl hcode hslot),
      fun hcode => congrArg Host.Outcome.next (ferrySubmit_refused hp rfl hcode)⟩
  · intro x1 s0 s1
    rw [exec_ferryRearm_eq ht hp hx]
    refine ⟨fun hst => ?_, fun hst hfree => ?_⟩
    · rw [if_pos (by rw [hst]; rfl)] <;> rfl
    · rw [if_neg (by simpa using hst), if_neg (show ¬reloadHeld s p x.rearmed = true from Bool.eq_false_iff.mp hfree)]
      refine ⟨fun c hc => ?_, fun y hy => ⟨x.rearmed.armed y, ?_, ?_⟩⟩
      · rw [show reload (seeReload (putQueue s w x.rearmed) p x.rearmed) p x.rearmed = _ from hc] <;> rfl
      · rw [show reload (seeReload (putQueue s w x.rearmed) p x.rearmed) p x.rearmed = _ from hy] <;> rfl
      · obtain ⟨hact, hretries, hdesc, hpilot, hhead, htail, hbusy⟩ := armed_parts x.rearmed y
        exact ⟨hact, hretries, hdesc, hpilot, hhead, htail.trans (reload_tail hy).1, fun h => resumes_busy (hbusy h)⟩
  · exact exec_service_answers ht h hfits hanswer
  · exact exec_service_unknown ht h
  · intro r
    refine ⟨fun hcode hfree => ?_, fun hcode hclash => ?_, exec_pcreate_refused ht hok rfl⟩
    · rw [exec_pcreate_eq ht hok rfl hcode, if_neg]
      simpa using hfree
    · rw [exec_pcreate_eq ht hok rfl hcode, if_pos]
      simpa using hclash

end Sys2Proof.Machine
end

section
/-! PROOFS. The window registers, as the host writes and reads them (R32, R34, R35, R43). -/
namespace Sys2Proof.Machine

section Registers
variable {s : State} {w : Nat} {v : DWord}

/-- A tail or head within its ring's size is taken, one beyond it sets BADRING (R34). -/
theorem ring_bound {α : Type} (size distance : Nat) (a b : α) :
    (if size < distance then a else b) = if distance ≤ size then b else a := by
  by_cases h : distance ≤ size
  · rw [if_neg (Nat.not_lt.mpr h), if_pos h]
  · rw [if_pos (Nat.lt_of_not_le h), if_neg h]

/-! ### Registers by their addresses (R32) -/

/-- A write of 8 bytes to a window's page is that register's write. -/
theorem exec_registerWrite_page {off : Nat} (hw : w < 12) (hoff : off < 4096) (halign : off % 8 = 0) (v : DWord) (s : State) :
    exec (.registerWrite 0 (4096 * w + off) v) s = windowWrite w off v s := by
  have hpage : (4096 * w + off) / 4096 = w := by omega
  have hreg : (4096 * w + off) % 4096 = off := by omega
  change execRegisterWrite 0 (4096 * w + off) v s = _
  unfold execRegisterWrite
  rw [if_neg (by omega), if_pos ⟨rfl, by omega⟩, hpage, hreg]
  exact if_pos hw

theorem exec_registerWrite_msix {off : Nat} (hoff : off < 1024) (halign : off % 8 = 0) (v : DWord) (s : State) :
    exec (.registerWrite 2 off v) s = .next (msixWrite s off v) := by
  change execRegisterWrite 2 off v s = _
  unfold execRegisterWrite
  rw [if_neg (by omega), if_neg (by omega), if_pos ⟨rfl, hoff⟩]

/-- A read in a window's page is that register of the window. -/
theorem registerRead_page {page off : Nat} (hpage : (w < 12 ∧ page = w) ∨ (w = mgmt ∧ page = 15)) (hoff : off < 4096)
    (halign : off % 8 = 0) : registerRead s 0 (4096 * page + off) = windowRead (s.win w) off := by
  have hreg : (4096 * page + off) % 4096 = off := by omega
  have hdiv : (4096 * page + off) / 4096 = page := by omega
  unfold registerRead
  rw [if_neg (by omega), if_pos ⟨rfl, by omega⟩, hreg, hdiv]
  rcases hpage with ⟨hw, rfl⟩ | ⟨rfl, rfl⟩
  · exact if_pos hw
  · rfl

theorem registerRead_unaligned {off : Nat} (h : off % 8 ≠ 0) (s : State) (bar : Nat) : registerRead s bar off = 0 := if_pos h

/-- The offsets past the registers read as zero (R32). -/
theorem windowRead_beyond {off : Nat} (h : 0x68 ≤ off) (x : Window) : windowRead x off = 0 := by
  unfold windowRead
  split
  case h_14 => rfl
  all_goals exact absurd h (by decide)

theorem registerRead_beyond {page off : Nat} (hpage : (w < 12 ∧ page = w) ∨ (w = mgmt ∧ page = 15)) (h : 0x68 ≤ off)
    (hoff : off < 4096) : registerRead s 0 (4096 * page + off) = 0 := by
  by_cases halign : off % 8 = 0
  · rw [registerRead_page hpage hoff halign, windowRead_beyond h]
  · exact registerRead_unaligned (by omega) s 0

/-- Windows 12 to 14 read as zero (R32). -/
theorem registerRead_noWindow {off : Nat} (h : 0xC000 ≤ off) (hoff : off < 0xF000) : registerRead s 0 off = 0 := by
  by_cases halign : off % 8 = 0
  · unfold registerRead
    rw [if_neg (fun h => h halign), if_pos ⟨rfl, by omega⟩]
    dsimp only
    rw [if_neg (by omega), if_neg (by omega)]
  · exact registerRead_unaligned halign s 0

theorem registerRead_msix {off : Nat} (halign : off % 8 = 0) (hoff : off < 1024) :
    registerRead s 2 off = BitVec.ofNat 64 (leNat (takeAt s.msix off 8)) := by
  unfold registerRead
  rw [if_neg (fun h => h halign), if_neg (by omega), if_pos ⟨rfl, hoff⟩]

/-- A host read of the agenda leaves what it read. -/
theorem step_hostRead {bar off : Nat} {as : List Activity} (h : s.agenda = .hostRead bar off :: as) :
    step s = .next { s.moving as with hostRead := registerRead s bar off } := by
  rw [step_of_agenda h] <;> rfl

/-! ### Events (R43) -/

theorem exec_eventRingWrite_writes {e : List Byte} {rest : List (List Byte)} {x : Window} (hx : x = s.win w)
    (hevents : x.events = e :: rest) (hrun : (s.die 0).running = true) (hwin : x.run = true) (hhalt : x.halted = false)
    (hroom : (x.evtail - x.evhead).toNat < x.evsize.toNat) {a : Nat} (ha : a = x.evbase.toNat + 64 * (x.evtail.toNat % x.evsize.toNat))
    (hok : hostOk s a 64 = true) : exec (.eventRingWrite w) s =
      .next (signal ((hwrite s a e).setWin w { x with events := rest, evtail := x.evtail + 1 }) (vectorOf w + 1)) := by
  change execEventRingWrite w s = _
  unfold execEventRingWrite
  rw [← hx]
  dsimp only
  rw [hevents]
  dsimp only
  rw [if_neg (by simpa [hrun, hwin, hhalt, -BitVec.toNat_sub] using hroom), ← ha, if_pos hok]

end Registers

/-- Settles O46: a register's write and read go by its page and offset. -/
theorem hostRegistersAreWritten : Obligations.HostRegistersAreWritten := by
  unfold Obligations.HostRegistersAreWritten
  intro s w v x t bad
  refine ⟨congrArg Host.Outcome.next (ring_bound ..), congrArg Host.Outcome.next (ring_bound ..),
    congrArg Host.Outcome.next (ring_bound ..), fun r => ⟨fun hrun => ?_, fun hrun => ?_⟩, fun hrun => ?_, fun hrun => ?_, fun hw => ?_,
    fun off halign hoff => exec_registerWrite_msix hoff halign v s, fun e rest hevents hrun hwin hhalt hroom => ?_,
    fun page hpage => ⟨?_, fun off h hoff => registerRead_beyond hpage h hoff⟩, fun off h hoff => registerRead_noWindow h hoff,
    fun off halign hoff => registerRead_msix halign hoff, rfl, fun bar off as h => ⟨_, step_hostRead h, rfl⟩⟩
  · exact congrArg Host.Outcome.next (if_pos hrun)
  · exact congrArg Host.Outcome.next (if_neg (Bool.eq_false_iff.mp hrun))
  · exact congrArg Host.Outcome.next (if_neg (Bool.eq_false_iff.mp hrun))
  · exact congrArg Host.Outcome.next (if_pos hrun)
  · rw [exec_registerWrite_page hw (by decide) (by decide), exec_registerWrite_page hw (by decide) (by decide),
      exec_registerWrite_page hw (by decide) (by decide)]
    exact ⟨rfl, rfl, rfl⟩
  · intro a hok
    exact exec_eventRingWrite_writes rfl hevents hrun hwin hhalt hroom rfl hok
  · intro r hr
    simp only [List.mem_cons, List.not_mem_nil, or_false] at hr
    rcases hr with rfl | rfl | rfl | rfl | rfl | rfl | rfl | rfl | rfl | rfl | rfl | rfl | rfl
    all_goals exact registerRead_page hpage (by simp) (by simp)

end Sys2Proof.Machine
end

section
/-! PROOFS. A reset of the package and the boot of its dies (R16, R20, R23, R24, R48). -/
namespace Sys2Proof.Machine

/-! ### What an error record leaves of a die -/

section Dies
variable {s : State} {x : Die} {d : Nat}

/-- A die but for what its error records and its CXL port's size change. -/
def Die.booted (x : Die) : Die := { x with recSeq := 0, cxlSize := 0 }

theorem booted_running {y : Die} (h : x.booted = y.booted) : x.running = y.running :=
  (congrArg Die.running h :)

theorem booted_parts {y : Die} (h : x.booted = y.booted) : x.running = y.running ∧ x.config = y.config ∧ x.minFw = y.minFw ∧
    x.measure = y.measure ∧ x.minSeq = y.minSeq :=
  ⟨(congrArg Die.running h :), (congrArg Die.config h :), (congrArg Die.minFw h :), (congrArg Die.measure h :), (congrArg Die.minSeq h :)⟩

theorem setDie_booted (hx : x.booted = (s.die d).booted) (k : Nat) : ((s.setDie d x).die k).booted = (s.die k).booted := by
  by_cases hk : k = d
  · subst hk
    by_cases hlt : k < s.dies.length
    · rw [State.die_setDie _ _ _ _ hlt, if_pos rfl, hx]
    · simp [State.die, State.setDie, List.getD, hlt]
  · simp [State.die, State.setDie, List.getD, List.getElem?_set_ne (Ne.symm hk)]

theorem pushRecord_dies (s : State) (w : Nat) (e : List Byte) : (pushRecord s w e).dies = s.dies := by
  unfold pushRecord pushEvent
  dsimp only
  split <;> rfl

theorem pushRecord_die (s : State) (w : Nat) (e : List Byte) (k : Nat) : (pushRecord s w e).die k = s.die k := by
  unfold State.die
  rw [pushRecord_dies]

theorem writeErr_booted (s : State) (r : ErrRec) (k : Nat) : ((writeErr s r).die k).booted = (s.die k).booted := by
  unfold writeErr writeErrTo
  dsimp only
  rw [if_pos rfl, pushRecord_die]
  split
  · rw [pushRecord_die]
    exact setDie_booted (by rfl) k
  · exact setDie_booted (by rfl) k

/-! ### Enumeration (R16) -/

theorem enumerate_booted (s : State) (die : Nat) (reported : Option Nat) (k : Nat) :
    ((enumerate s die reported).die k).booted = (s.die k).booted := by
  unfold enumerate
  dsimp only
  split
  · rfl
  · split
    · exact setDie_booted (by rfl) k
    · exact writeErr_booted ..

theorem enumerate_untouched (s : State) (die : Nat) (reported : Option Nat) :
    (enumerate s die reported).untouched = s.untouched := by
  unfold enumerate
  dsimp only
  split
  · rfl
  · split
    · rfl
    · exact writeErr_untouched ..

end Dies

/-! ### The package (R23, R24, R48) -/

section Package
variable {s : State} {flash : BootFlash} {k : Nat}

/-- The records that the dies' boots accepted. -/
def bootRecords (flash : BootFlash) (s : State) : List (List Byte) := ((List.range 4).map (bootOf flash s)).filterMap Boot.rec?

/-- Every die accepted a record, and they agree in DEVID and PLIM. -/
def bootsAgree (flash : BootFlash) (s : State) : Bool :=
  (bootRecords flash s).length == 4 && (bootRecords flash s).all fun r =>
    field r 24 8 == field ((bootRecords flash s).getD 0 []) 24 8 && field r 20 2 == field ((bootRecords flash s).getD 0 []) 20 2

/-- The package once its dies' boots have ended. -/
def bootedPackage (flash : BootFlash) (s : State) : State :=
  { heldInReset s with
    dies := (List.range 4).map fun k => dieBooted ((heldInReset s).die k) (((List.range 4).map (bootOf flash s)).getD k .stopped)
      (bootsAgree flash s) k
    bootReport := (List.range 4).filter fun k => !(((List.range 4).map (bootOf flash s)).getD k .stopped).completed }

/-- The state that a package reset leaves. -/
def afterReset (flash : BootFlash) (s : State) : State :=
  (List.range 4).foldl (fun s k => enumerate s k (flash.cxl.getD k none)) (bootedPackage flash s)

theorem exec_packageReset (flash : BootFlash) (s : State) : exec (.packageReset flash) s = .next (afterReset flash s) := rfl

/-- What two states share that agree but for dies, windows, flaws and marks. -/
theorem parts_of_untouched {t : State} (h : t.untouched = s.untouched) : t.parts = s.parts ∧ t.launches = s.launches ∧
    t.wkgs = s.wkgs ∧ t.groups = s.groups ∧ t.pipe = s.pipe ∧ t.tlb = s.tlb ∧ t.mem = s.mem ∧ t.hostmem = s.hostmem ∧
    t.bootReport = s.bootReport :=
  ⟨(congrArg State.parts h :), (congrArg State.launches h :), (congrArg State.wkgs h :), (congrArg State.groups h :), (congrArg State.pipe h :),
    (congrArg State.tlb h :), (congrArg State.mem h :), (congrArg State.hostmem h :), (congrArg State.bootReport h :)⟩

theorem afterReset_untouched : (afterReset flash s).untouched = (bootedPackage flash s).untouched :=
  foldl_keeps State.untouched _ (fun _ _ => enumerate_untouched ..) _ _

theorem bootAt (hk : k < 4) : ((List.range 4).map (bootOf flash s)).getD k .stopped = bootOf flash s k := by
  simp [List.getD, hk]

/-- Each die is as its own boot left it. -/
theorem afterReset_die (hk : k < 4) : ((afterReset flash s).die k).booted =
    (dieBooted ((heldInReset s).die k) (bootOf flash s k) (bootsAgree flash s) k).booted := by
  refine (foldl_keeps (fun t : State => (t.die k).booted) _ (fun _ _ => enumerate_booted ..) _ _).trans (congrArg Die.booted ?_)
  rw [← bootAt hk]
  simp [State.die, bootedPackage, List.getD, hk]

theorem heldInReset_die (hk : k < s.dies.length) :
    (heldInReset s).die k = { State.dieReset with minSeq := (s.die k).minSeq, minFw := (s.die k).minFw } := by
  simp [State.die, heldInReset, List.getD, hk]

/-- A die in reset does not run. -/
theorem heldInReset_stopped (s : State) (k : Nat) : ((heldInReset s).die k).running = false := by
  by_cases hk : k < s.dies.length
  · rw [heldInReset_die hk]
    rfl
  · have : s.dies.length ≤ k := Nat.not_lt.mp hk
    simp [State.die, heldInReset, List.getD, this]
    rfl

theorem dieBooted_stopped {x : Die} (h : x.running = false) (b : Boot) : (dieBooted x b false k).running = false := by
  cases b with
  | stopped => exact h
  | record r => exact h
  | done r m fw => rfl

theorem bootsAgree_of_done {r : Nat → List Byte} {m : Nat → List (List Byte)} {fw : Nat → Word}
    (hdone : ∀ k < 4, bootOf flash s k = .done (r k) (m k) (fw k))
    (hsame : ∀ k < 4, field (r k) 24 8 = field (r 0) 24 8 ∧ field (r k) 20 2 = field (r 0) 20 2) : bootsAgree flash s = true := by
  have hrecs : bootRecords flash s = [r 0, r 1, r 2, r 3] := by
    have hlist : (List.range 4).map (bootOf flash s) = (List.range 4).map fun k => Boot.done (r k) (m k) (fw k) :=
      List.map_congr_left fun k hk => hdone k (List.mem_range.mp hk)
    rw [bootRecords, hlist]
    rfl
  unfold bootsAgree
  rw [hrecs]
  simp [hsame 1, hsame 2, hsame 3]

theorem bootsAgree_of_stopped (hk : k < 4) (h : bootOf flash s k = .stopped) : bootsAgree flash s = false := by
  have hlen : (bootRecords flash s).length < 4 := by
    have hmem : Boot.stopped ∈ (List.range 4).map (bootOf flash s) := List.mem_map.mpr ⟨k, List.mem_range.mpr hk, h⟩
    have hlt := (List.length_filterMap_lt_length_iff_exists (f := Boot.rec?)).mpr ⟨_, hmem, rfl⟩
    simpa [bootRecords] using hlt
  unfold bootsAgree
  rw [beq_eq_false_iff_ne.mpr (Nat.ne_of_lt hlen)]
  rfl

theorem completed_iff (b : Boot) : b.completed = true ↔ ∃ r m fw, b = .done r m fw := by
  cases b with
  | stopped => simp [Boot.completed]
  | record r => simp [Boot.completed]
  | done r m fw => simp [Boot.completed]

end Package

/-- Settles O47: each die is as its boot left it, and the rest as reset leaves it. -/
theorem resetAndBoot : Obligations.ResetAndBoot := by
  unfold Obligations.ResetAndBoot
  intro s flash
  refine ⟨⟨heldInReset s, rfl, rfl, rfl, rfl, rfl, rfl, rfl, rfl, rfl, fun k hk => ?_⟩, afterReset flash s, exec_packageReset flash s, ?_⟩
  · rw [heldInReset_die hk]
    exact ⟨rfl, rfl, rfl⟩
  · obtain ⟨hparts, hlaunches, hwkgs, hgroups, hpipe, htlb, hmem, hhost, hreport⟩ :=
      parts_of_untouched (afterReset_untouched (flash := flash) (s := s))
    refine ⟨hparts, hlaunches, hwkgs, hgroups, hpipe, htlb, hmem, hhost,
      fun r m fw hdone hsame k hk => ?_, fun ⟨j, hj, hstop⟩ k hk => ?_, fun k hk => ?_⟩
    · have hdie := afterReset_die (s := s) (flash := flash) hk
      rw [hdone k hk, bootsAgree_of_done hdone hsame] at hdie
      exact booted_parts hdie
    · have hdie := afterReset_die (s := s) (flash := flash) hk
      rw [bootsAgree_of_stopped hj hstop] at hdie
      exact (booted_running hdie).trans (dieBooted_stopped (heldInReset_stopped s k) _)
    · rw [hreport]
      have hstops : k ∈ (bootedPackage flash s).bootReport ↔ ¬(bootOf flash s k).completed = true := by
        simp [bootedPackage, hk]
      rw [hstops, completed_iff]
      simp only [not_exists, ne_eq]

end Sys2Proof.Machine
end

section
/-! PROOFS. The management cores and the links (R10 to R13, R19, R21, R22, R29, R31, R108). -/
namespace Sys2Proof.Machine

section Management
variable {s : State}

/-! ### Clusters marked (R22, R187) -/

/-- A cluster is marked for termination. -/
def marked (s : State) (k : Nat) : Bool := s.fatals.any fun f => f.clu == k

theorem marked_markCluster (s : State) (clu reason k : Nat) : marked (markCluster s clu reason) k = (marked s k || clu == k) := by
  unfold markCluster marked
  split
  case isTrue h =>
    by_cases hk : clu = k
    · subst hk
      simp [h]
    · simp [hk]
  case isFalse => simp

/-- Every cluster of a set is marked. -/
theorem marked_markClusters {mask k : Nat} (hk : k < 48) (hbit : bit mask k = true) (s : State) (reason : Nat) :
    marked (markClusters s mask reason) k = true := by
  have hmem : k ∈ (List.range 48).filter (bit mask) := List.mem_filter.mpr ⟨List.mem_range.mpr hk, hbit⟩
  have hfold : ∀ (l : List Nat) (s : State), marked (l.foldl (fun s k => markCluster s k reason) s) k = (marked s k || l.contains k) := by
    intro l
    induction l with
    | nil => intro s; simp
    | cons x xs ih =>
      intro s
      rw [List.foldl_cons, ih, marked_markCluster, List.contains_cons, Bool.or_assoc, Bool.beq_comm]
  unfold markClusters
  rw [hfold, List.contains_iff_mem.mpr hmem, Bool.or_true]

theorem markClusters_dies (s : State) (mask reason : Nat) : (markClusters s mask reason).dies = s.dies := by
  unfold markClusters
  exact foldl_keeps State.dies _ (fun a b => by unfold markCluster; split <;> rfl) _ _

theorem pushRecord_fatals (s : State) (w : Nat) (e : List Byte) : (pushRecord s w e).fatals = s.fatals := by
  unfold pushRecord pushEvent
  dsimp only
  split <;> rfl

theorem writeErr_fatals (s : State) (r : ErrRec) : (writeErr s r).fatals = s.fatals := by
  unfold writeErr writeErrTo
  dsimp only
  rw [if_pos rfl, pushRecord_fatals]
  split
  · rw [pushRecord_fatals]
    rfl
  · rfl

/-! ### A die's period (R21, R22) -/

/-- The clusters of a die are bits of its mask. -/
theorem bit_dieMask {die k : Nat} (hlo : 12 * die ≤ k) (hhi : k < 12 * die + 12) : bit ((2 ^ 12 - 1) <<< (12 * die)) k = true := by
  rw [bit, Nat.testBit_shiftLeft, Nat.testBit_two_pow_sub_one, decide_eq_true hlo, decide_eq_true (by omega)]
  rfl

theorem tripDie_marks {die k : Nat} (hlo : 12 * die ≤ k) (hhi : k < 12 * die + 12) (hk : k < 48) (s : State) :
    marked (tripDie s die) k = true := by
  unfold tripDie marked
  dsimp only
  rw [writeErr_fatals]
  exact marked_markClusters hk (bit_dieMask hlo hhi) _ _

theorem booted_tripped {x y : Die} (h : x.booted = y.booted) : x.tripped = y.tripped := (congrArg Die.tripped h :)

theorem tripDie_trips {die : Nat} (hdie : die < s.dies.length) : ((tripDie s die).die die).tripped = true := by
  unfold tripDie
  dsimp only
  rw [booted_tripped (writeErr_booted ..), State.die, markClusters_dies, ← State.die, State.die_setDie _ _ _ _ hdie, if_pos rfl]

/-- A running die's period ends (R21, R104). -/
theorem exec_arbiterPeriodEnd (die power temp : Nat) (hrun : (s.die die).running = true) (htrip : (s.die die).tripped = false)
    {x : Die} (hx : x = { s.die die with
      throttle := if 95 ≤ temp then max 4 (nextLevel (s.die die).throttle power (field (s.die die).config 20 2))
        else nextLevel (s.die die).throttle power (field (s.die die).config 20 2)
      periods := (s.die die).periods + 1 }) :
    exec (.arbiterPeriodEnd die power temp) s =
      .next (if 110 ≤ temp then tripDie (s.setDie die x) die else s.setDie die x) := by
  subst hx
  refine congrArg Host.Outcome.next ?_
  dsimp only
  rw [if_neg (by rw [hrun, htrip]; decide)]

/-! ### Scrubbing and self-test (R29, R108) -/

theorem exec_scrubLine (die : Nat) (e : LineError) (hrun : (s.die die).running = true) (htrip : (s.die die).tripped = false) :
    exec (.scrubLine die e) s = .next (if lineParked s (scrubLineAt die (s.die die).scrub) then s
      else seeLine (s.setDie die { s.die die with
        scrub := ((s.die die).scrub + 1) % ((hbmDie + benchDie + (s.die die).cxlSize) / 64) })
          (scrubLineAt die (s.die die).scrub) e none 0xFF) := by
  refine congrArg Host.Outcome.next ?_
  dsimp only
  rw [hrun, htrip]
  simp only [Bool.not_true, Bool.false_or, Bool.or_false]

theorem exec_subarraySelfTest_right (core sub : Nat) (s : State) :
    exec (.subarraySelfTest core sub Config.selfTestProduct) s = .next s :=
  congrArg Host.Outcome.next (if_pos (by simp))

theorem exec_subarraySelfTest_wrong {core sub : Nat} {product : List Byte} (hrun : (s.die (dieOfCore core)).running = true)
    (hsub : sub < 4) (hcore : core < Config.cores) (hfree : 4 * core + sub ∉ s.fenced) (hproduct : product ≠ Config.selfTestProduct) :
    exec (.subarraySelfTest core sub product) s = .next (writeErr { s with fenced := s.fenced ++ [4 * core + sub] }
      { die := dieOfCore core, kind := 2, hop := 11, part := ownerOf s (cluOfCore core), core := core % 48, addr := 0, synd := 0 }) := by
  refine congrArg Host.Outcome.next (if_neg ?_)
  simp [hrun, hproduct, hfree, Nat.not_le.mpr hsub, Nat.not_le.mpr hcore]

end Management

/-! ### Die boundaries (R10 to R13) -/

section Boundaries
variable {s : State} {b : Nat}

/-- The dies from and to which a flit crosses a boundary. -/
def flitFrom (b : Nat) (rev : Bool) : Nat := if rev then (endsOf b).2 else (endsOf b).1
def flitTo (b : Nat) (rev : Bool) : Nat := if rev then (endsOf b).1 else (endsOf b).2

/-- A boundary's flits cross it, the lower die first going forward. -/
theorem boundaryOf_flit (hb : b < 4) (rev : Bool) :
    boundaryOf (flitFrom b rev) (flitTo b rev) = b ∧ (flitFrom b rev < flitTo b rev ↔ rev = false) := by
  revert b rev
  decide

/-- One direction of a boundary. -/
def Boundary.dir (x : Boundary) (rev : Bool) : LinkDir := if rev then x.bwd else x.fwd
/-- A boundary with one direction replaced. -/
def Boundary.setDir (x : Boundary) (rev : Bool) (z : LinkDir) : Boundary := if rev then { x with bwd := z } else { x with fwd := z }

theorem linkFrom_flit (hb : b < 4) (rev : Bool) (s : State) :
    linkFrom s (flitFrom b rev) (flitTo b rev) = (s.boundaries.getD b default).dir rev := by
  obtain ⟨hbound, hlt⟩ := boundaryOf_flit hb rev
  unfold linkFrom Boundary.dir
  rw [hbound]
  cases rev with
  | false => rw [if_neg Bool.false_ne_true]; exact if_pos (hlt.mpr rfl)
  | true => rw [if_pos rfl]; exact if_neg fun h => Bool.false_ne_true (hlt.mp h).symm

theorem setLink_flit (hb : b < 4) (rev : Bool) (s : State) (z : LinkDir) : setLink s (flitFrom b rev) (flitTo b rev) z =
    { s with boundaries := s.boundaries.set b ((s.boundaries.getD b default).setDir rev z) } := by
  obtain ⟨hbound, hlt⟩ := boundaryOf_flit hb rev
  unfold setLink Boundary.setDir
  rw [hbound]
  cases rev with
  | false => rw [if_neg Bool.false_ne_true]; dsimp only; rw [if_pos (hlt.mpr rfl)]
  | true => rw [if_pos rfl]; dsimp only; rw [if_neg fun h => Bool.false_ne_true (hlt.mp h).symm]

section Receive
variable {rev : Bool} {flit : List Byte} {crc : Word} {f : Flit} {rest : List Flit} {l : LinkDir} (hb : b < 4)
  (hl : l = (s.boundaries.getD b default).dir rev) (hlen : flit.length = 64) (hup : boundaryUp s b = true) (hretries : l.retries ≤ 16)
  (hsent : l.sent = f :: rest)
include hb hl hlen hup hretries hsent

theorem exec_boundaryFlitReceive : exec (.boundaryFlitReceive b rev flit crc) s = .next
    (if Config.crc32 flit != crc then setLink s (flitFrom b rev) (flitTo b rev) { l with retries := l.retries + 1 }
     else if flit != f.data then s
     else if f.dst = flitTo b rev
       then setLink s (flitFrom b rev) (flitTo b rev) { sent := rest, recvd := l.recvd ++ [f], retries := 0 }
       else forwardFlit (setLink s (flitFrom b rev) (flitTo b rev) { sent := rest, recvd := l.recvd ++ [f], retries := 0 })
         (flitTo b rev) f) := by
  have hlink : linkFrom s (flitFrom b rev) (flitTo b rev) = l := (linkFrom_flit hb rev s).trans hl.symm
  clear hl
  subst hlink
  refine congrArg Host.Outcome.next ?_
  dsimp only
  split
  case h_1 h => exact absurd (h.symm.trans hsent) (by simp)
  case h_2 f' rest' h =>
    obtain ⟨rfl, rfl⟩ := List.cons.inj (h.symm.trans hsent)
    refine if_neg ?_
    rw [hup, hlen, decide_eq_false (Nat.not_le.mpr hb)]
    simp only [Bool.not_true, Bool.or_false, Bool.false_or, bne_self_eq_false, decide_eq_true_eq, Nat.not_le]
    exact Nat.lt_succ_of_le hretries

end Receive

/-! ### Routes (R12) -/

theorem boundaryOf_lt (a b : Nat) : boundaryOf a b < 4 := by
  unfold boundaryOf
  repeat' split
  all_goals omega

theorem pathUp_of_up (h : ∀ k < 4, boundaryUp s k = true) (a : Nat) (path : List Nat) : pathUp s a path = true := by
  induction path generalizing a with
  | nil => rfl
  | cons d ds ih => rw [pathUp, h _ (boundaryOf_lt a d), ih]; rfl

/-- The fixed route of a pair goes east-west first. -/
theorem fixedRoute_eq {a b : Nat} (ha : a < 4) (hb : b < 4) (hab : a ≠ b) :
    fixedRoute a b = if a / 2 = b / 2 ∨ a % 2 = b % 2 then [b] else [a / 2 * 2 + b % 2, b] := by
  have hall : ∀ a < 4, ∀ b < 4, a ≠ b →
      fixedRoute a b = if a / 2 = b / 2 ∨ a % 2 = b % 2 then [b] else [a / 2 * 2 + b % 2, b] := by decide
  exact hall a ha b hb hab

theorem route_up {a b : Nat} (ha : a < 4) (hb : b < 4) (hab : a ≠ b) (h : ∀ k < 4, boundaryUp s k = true) :
    route s a b = some (if a / 2 = b / 2 ∨ a % 2 = b % 2 then [b] else [a / 2 * 2 + b % 2, b]) := by
  unfold route
  rw [if_neg hab, if_pos (pathUp_of_up h a _), fixedRoute_eq ha hb hab]

/-! ### A boundary retrains (R13) -/

/-- A boundary that is up or down, with no failed checks counted. -/
def Retrained (b : Nat) (ok : Bool) (s : State) : Prop :=
  (s.boundaries.getD b default).up = ok ∧ (s.boundaries.getD b default).fwd.retries = 0 ∧ (s.boundaries.getD b default).bwd.retries = 0

/-- A boundary as a retrain leaves it. -/
def Boundary.retrained (x : Boundary) (ok : Bool) : Boundary :=
  { up := ok, fwd := { x.fwd with retries := 0 }, bwd := { x.bwd with retries := 0 } }

theorem retrained_setLink {ok : Bool} (h : Retrained b ok s) {a c : Nat} {z : LinkDir}
    (hz : z.retries = 0 ∨ z.retries = (linkFrom s a c).retries) : Retrained b ok (setLink s a c z) := by
  by_cases hb : boundaryOf a c = b
  · subst hb
    obtain ⟨hup, hfwd, hbwd⟩ := h
    have hzero : z.retries = 0 := by
      rcases hz with hz | hz
      · exact hz
      · rw [hz]
        unfold linkFrom
        dsimp only
        split
        · exact hfwd
        · exact hbwd
    by_cases hlen : boundaryOf a c < s.boundaries.length
    · have hset : ∀ x : Boundary, (s.boundaries.set (boundaryOf a c) x).getD (boundaryOf a c) default = x := by
        intro x
        simp [List.getD, hlen]
      unfold Retrained setLink
      dsimp only
      rw [hset]
      split
      · exact ⟨hup, hzero, hbwd⟩
      · exact ⟨hup, hfwd, hzero⟩
    · have hsame : (setLink s a c z).boundaries = s.boundaries := List.set_eq_of_length_le (Nat.not_lt.mp hlen)
      unfold Retrained
      rw [hsame]
      exact ⟨hup, hfwd, hbwd⟩
  · have hsame : (setLink s a c z).boundaries.getD b default = s.boundaries.getD b default := by
      simp [setLink, List.getD, List.getElem?_set_ne hb]
    unfold Retrained
    rw [hsame]
    exact h

theorem retrained_forwardFlit {ok : Bool} (h : Retrained b ok s) (at_ : Nat) (f : Flit) : Retrained b ok (forwardFlit s at_ f) := by
  unfold forwardFlit
  split
  · exact retrained_setLink h (.inr rfl)
  · exact h

theorem retrained_resend {ok : Bool} (h : Retrained b ok s) (k : Nat) : Retrained b ok (resend s k) := by
  have hagain : ∀ (t : State) (src at_ : Nat), Retrained b ok t → Retrained b ok ((linkFrom t src at_).sent.foldl
      (fun s f => forwardFlit s src f) (setLink t src at_ { linkFrom t src at_ with sent := [], retries := 0 })) :=
    fun t src at_ ht => foldl_inv (Retrained b ok) _ (fun _ f h => retrained_forwardFlit h src f) _ _ (retrained_setLink ht (.inl rfl))
  exact hagain _ _ _ (hagain _ _ _ h)

theorem retrained_of_untouched {ok : Bool} {t : State} (h : Retrained b ok s) (ht : t.untouched = s.untouched) :
    Retrained b ok t := by
  have hsame : t.boundaries = s.boundaries := (congrArg State.boundaries ht :)
  unfold Retrained
  rw [hsame]
  exact h

/-- A retrain ends with the boundary as it says, and no failed check counted. -/
theorem exec_boundaryRetrain_ends {ok : Bool} (hb : b < s.boundaries.length) (hup : (s.boundaries.getD b default).up = true)
    (hretries : 17 ≤ (s.boundaries.getD b default).fwd.retries ∨ 17 ≤ (s.boundaries.getD b default).bwd.retries) :
    ∃ t, exec (.boundaryRetrain b ok) s = .next t ∧ Retrained b ok t := by
  refine ⟨_, rfl, ?_⟩
  dsimp only
  have hcond : (!(s.boundaries.getD b default).up || (decide ((s.boundaries.getD b default).fwd.retries < retrainAt) &&
      decide ((s.boundaries.getD b default).bwd.retries < retrainAt))) = false := by
    rcases hretries with h | h
    · rw [hup, decide_eq_false (show ¬_ < retrainAt from Nat.not_lt.mpr h)]
      rfl
    · rw [hup, decide_eq_false (show ¬_ < retrainAt from Nat.not_lt.mpr h), Bool.and_false]
      rfl
  rw [if_neg (Bool.eq_false_iff.mp hcond)]
  have hset : ∀ x : Boundary, (s.boundaries.set b x).getD b default = x := by
    intro x
    simp [List.getD, hb]
  have hfirst : Retrained b ok { s with boundaries := s.boundaries.set b ((s.boundaries.getD b default).retrained ok) } := by
    unfold Retrained
    dsimp only
    rw [hset]
    exact ⟨rfl, rfl, rfl⟩
  split
  · exact hfirst
  · have hrecord : ∀ (t : State) (r : ErrRec), Retrained b ok t → Retrained b ok (writeErr t r) :=
      fun t r ht => retrained_of_untouched ht (writeErr_untouched t r)
    have hsecond := hrecord _ { die := (endsOf b).1, kind := 3, hop := 7, part := none, core := 0xFF, addr := 0, synd := 0 }
      (retrained_resend hfirst b)
    split
    · refine foldl_inv (Retrained b ok) _ (fun t p ht => retrained_of_untouched ht (markPart_untouched ..)) _ _ ?_
      refine foldl_inv (Retrained b ok) _ (fun t d ht => ?_) _ _ hsecond
      split
      · exact hrecord _ _ ht
      · exact ht
    · exact hsecond

end Boundaries

/-! ### Causeway ports (R19) -/

section Ports
variable {s : State} {port : Nat} {flit f : List Byte} {crc : Word} {rest : List (List Byte)}

theorem onPort_up (hup : portUp s port = true) (f : Port → Port) :
    onPort s port f = { s with ports := s.ports.set port (f (s.ports.getD port default)) } := if_pos hup

theorem portUp_eq (hrun : (s.die (port / 4)).running = true) (htrip : (s.die (port / 4)).tripped = false)
    (hon : bit (field (s.die (port / 4)).config 18 1) (port % 4) = true) : portUp s port = true := by
  unfold portUp
  rw [hrun, htrip, hon]
  rfl

theorem exec_causewayFlitReceive (hup : portUp s port = true) (hlen : flit.length = 256) :
    exec (.causewayFlitReceive port flit crc) s = .next { s with ports := s.ports.set port { s.ports.getD port default with
      inbound := (s.ports.getD port default).inbound.arrive flit (Config.crc32 flit == crc) } } := by
  refine congrArg Host.Outcome.next ?_
  rw [if_neg (by rw [hlen]; decide), onPort_up hup]

/-- The peer checks the oldest flit that the port sends. -/
theorem step_portPeerCheck {good : Bool} {as : List Activity} (h : s.agenda = .portPeerCheck port good :: as)
    (hup : portUp s port = true) : step s = .next { s.moving as with ports := s.ports.set port { s.ports.getD port default with
      outbound := (s.ports.getD port default).outbound.arrive ((s.ports.getD port default).outbound.sent.headD []) good } } := by
  rw [step_of_agenda h]
  change Host.Outcome.next (onPort (s.moving as) port fun x =>
    { x with outbound := x.outbound.arrive (x.outbound.sent.headD []) good }) = _
  rw [onPort_up (s := s.moving as) hup] <;> rfl

section Arrive
variable {x : PortDir} (h : x.sent = f :: rest)
include h

theorem arrive_bad (flit : List Byte) : x.arrive flit false = { x with retries := x.retries + 1 } := by
  unfold PortDir.arrive
  rw [h]
  rfl

theorem arrive_good : x.arrive f true = { sent := rest, recvd := x.recvd ++ [f], retries := 0 } := by
  unfold PortDir.arrive
  rw [h]
  simp

theorem arrive_other (hne : flit ≠ f) : x.arrive flit true = x := by
  unfold PortDir.arrive
  rw [h]
  simp [hne]

end Arrive

end Ports

/-- Settles O48: each clause is its own rule's lemma. -/
theorem managementAndLinks : Obligations.ManagementAndLinks := by
  unfold Obligations.ManagementAndLinks
  intro s
  refine ⟨fun die power temp hdie hrun htrip => ?_, fun die e hrun htrip => ?_, fun core sub product hrun hsub hcore hfree => ?_,
    fun b rev flit crc f rest hb hlen hflit => ?_, fun a b ha hb hab h => route_up ha hb hab h, fun b ok hb hup hretries => ?_,
    fun port flit crc hrun htrip hon hlen => ?_, fun width rate hwidth hrate => congrArg Host.Outcome.next (if_pos ⟨hwidth, hrate⟩)⟩
  · intro d l
    have hexec := exec_arbiterPeriodEnd die power temp hrun htrip rfl
    refine ⟨fun hcool => hexec.trans (congrArg Host.Outcome.next (if_neg (Nat.not_le.mpr hcool))), fun hhot =>
      ⟨_, hexec.trans (congrArg Host.Outcome.next (if_pos hhot)), tripDie_trips ?_, fun k hlo hhi hk => tripDie_marks hlo hhi hk _⟩⟩
    simpa [State.setDie] using hdie
  · intro d line
    have hexec := exec_scrubLine die e hrun htrip
    exact ⟨fun hpark => hexec.trans (congrArg Host.Outcome.next (if_pos hpark)),
      fun hfree => hexec.trans (congrArg Host.Outcome.next (if_neg (Bool.eq_false_iff.mp hfree)))⟩
  · refine ⟨fun hproduct => ?_, fun hproduct => ⟨_, exec_subarraySelfTest_wrong hrun hsub hcore hfree hproduct, ?_⟩⟩
    · rw [hproduct]
      exact exec_subarraySelfTest_right core sub s
    · exact (congrArg State.fenced (writeErr_untouched ..) :)
  · intro x dir dest put taken hup hretries hsent
    have hexec := exec_boundaryFlitReceive (flit := flit) (crc := crc) hb (rev := rev) rfl hflit hup hretries hsent
    refine ⟨fun hcrc => ?_, fun hcrc hsame => ?_⟩
    · rw [hexec, if_pos (by simpa using hcrc), setLink_flit hb]
      rfl
    · rw [hexec, if_neg (by simpa using hcrc), if_neg (by simpa using hsame), setLink_flit hb]
      rfl
  · obtain ⟨t, hexec, hup, hfwd, hbwd⟩ := exec_boundaryRetrain_ends (ok := ok) hb hup hretries
    exact ⟨t, hexec, hup, hfwd, hbwd⟩
  · intro x put
    have hup := portUp_eq hrun htrip hon
    refine ⟨fun f rest hsent => ⟨fun hcrc => ?_, fun hcrc hsame => ?_, fun hcrc hother => ?_⟩, fun f rest as hsent hport hagenda => ?_⟩
    · rw [exec_causewayFlitReceive hup hlen, beq_eq_false_iff_ne.mpr hcrc, arrive_bad hsent]
    · subst hsame
      rw [exec_causewayFlitReceive hup hlen, beq_iff_eq.mpr hcrc, arrive_good hsent]
    · rw [exec_causewayFlitReceive hup hlen, beq_iff_eq.mpr hcrc, arrive_other hsent hother]
    · refine ⟨_, step_portPeerCheck hagenda hup, ?_⟩
      rw [show x.outbound.sent.headD [] = f by rw [hsent]; rfl, arrive_good hsent]
      simp [List.getD, hport]

end Sys2Proof.Machine
end

section
/-! PROOFS. SPDM over the DOE mailbox (R49, R50). -/
namespace Sys2Proof.Machine

section Spdm
variable {s : State} {r : SpdmReq}

/-- What an answer leaves. -/
def spdmAnswered (s : State) (x : Die) (a : List Byte) : State := { s.setDie 0 x with doe := a }

/-! ### A request that belongs to a phase (R50) -/

section Serve
variable {phase least : Nat} {answer : State} (hon : spdmOn s = true)
include hon

theorem spdmServe_unexpected (h : spdmPhase s ≠ phase) : spdmServe s r phase least answer = spdmError s 0x04 := by
  unfold spdmServe
  rw [if_neg (by rw [hon]; decide), if_pos (by simpa using h)]

theorem spdmServe_mismatch (h : spdmPhase s = phase) (hphase : 2 ≤ phase) (hv : r.version ≠ spdmVersion s) :
    spdmServe s r phase least answer = spdmError s 0x41 := by
  unfold spdmServe
  rw [if_neg (by rw [hon]; decide), if_neg (by simpa using h), if_pos (by simp [hphase, hv])]

theorem spdmServe_answers (h : spdmPhase s = phase) (hv : phase < 2 ∨ r.version = spdmVersion s) (hlen : least ≤ r.body.length) :
    spdmServe s r phase least answer = answer := by
  unfold spdmServe
  rw [if_neg (by rw [hon]; decide), if_neg (by simpa using h), if_neg, if_neg (Nat.not_lt.mpr hlen)]
  rcases hv with hv | hv
  · simp [Nat.not_le.mpr hv]
  · simp [hv]

end Serve

/-! ### Negotiation -/

/-- What GET_VERSION is answered. -/
def versionBytes : List Byte := [0x10, 0x04, 0, 0, 0, 2, 0x00, 0x12, 0x00, 0x13]

theorem exec_spdmVersion (hon : spdmOn s = true) : exec (.spdmVersionRequest r) s = .next
    (if r.version = 0x10 then spdmAnswered s { s.die 0 with
      spdm := [], spdmVca := spdmBytes 0x84 r ++ versionBytes, spdmCerts := [], spdmMeas := [] } versionBytes
     else spdmError s 0x41) := by
  refine congrArg Host.Outcome.next ?_
  rw [if_neg (by rw [hon]; decide)]
  by_cases hv : r.version = 0x10
  · rw [if_neg (by simpa using hv), if_pos hv]
    rfl
  · rw [if_pos (by simpa using hv), if_neg hv]

/-- What GET_CAPABILITIES is answered. -/
def capabilityBytes (r : SpdmReq) : List Byte :=
  [r.version, 0x61, 0, 0, 0, (Config.spdmLimit 0).setWidth 8, 0, 0] ++ leBytes 4 0x16 ++ leBytes 4 (Config.spdmLimit 1).toNat ++
    leBytes 4 (Config.spdmLimit 2).toNat

theorem capabilityBytes_parts (r : SpdmReq) : (capabilityBytes r).take 2 = [r.version, 0x61] ∧
    takeAt (capabilityBytes r) 8 4 = leBytes 4 0x16 ∧ (capabilityBytes r).length = 20 := by
  refine ⟨rfl, rfl, ?_⟩
  simp [capabilityBytes]

theorem exec_spdmCapabilities (hon : spdmOn s = true) (hphase : spdmPhase s = 1) (hlen : 16 ≤ r.body.length) :
    exec (.spdmCapabilitiesRequest r) s = .next
      (if r.version = 0x12 ∨ r.version = 0x13 then spdmAnswered s { s.die 0 with
        spdm := [r.version], spdmVca := (s.die 0).spdmVca ++ spdmBytes 0xE1 r ++ capabilityBytes r } (capabilityBytes r)
       else spdmError s 0x41) := by
  refine congrArg Host.Outcome.next ((spdmServe_answers hon hphase (.inl (by decide)) hlen).trans ?_)
  by_cases hv : r.version = 0x12 ∨ r.version = 0x13
  · rw [if_neg (by rcases hv with hv | hv <;> simp [hv]), if_pos hv]
    rfl
  · rw [if_pos (by simpa using hv), if_neg hv]

/-- What NEGOTIATE_ALGORITHMS is answered. -/
def algorithmBytes (r : SpdmReq) : List Byte :=
  [r.version, 0x63, 0, 0, 36, 0, r.body.getD 2 0 &&& 0x01, 0, (if r.body.getD 2 0 &&& 0x01 = 0 then 0 else 2), 0, 0, 0,
    r.body.getD 4 0 &&& 0x10, 0, 0, 0, r.body.getD 8 0 &&& 0x01, 0, 0, 0] ++ List.replicate 16 0

/-- The 32 bytes of a nonce. -/
def nonceOf (s : State) : List Byte := (freshNonce s).1

theorem freshNonce_eq (s : State) : freshNonce s = (nonceOf s, { s with tick := s.tick + 4 }) := rfl

theorem nonceOf_length (s : State) : (nonceOf s).length = 32 := by simp [nonceOf, freshNonce, State.fresh]

/-- What CHALLENGE is answered, but for its signature. -/
def challengeBytes (s : State) (r : SpdmReq) : List Byte :=
  [spdmVersion s, 0x03, 0, 1] ++ sha256 (s.die 0).cert ++ nonceOf s ++ measurementSummary s r.param2 ++ [0, 0] ++ takeAt r.body 32 (contextLen r)

/-- What GET_MEASUREMENTS of one index is answered, but for its signature. -/
def oneMeasurementBytes (s : State) (r : SpdmReq) (own : Nat) : List Byte :=
  [spdmVersion s, 0x60, 0, 0, 1] ++ leBytes 3 (measurementBlock s r.param2.toNat).length ++ measurementBlock s r.param2.toNat ++ nonceOf s ++
    [0, 0] ++ takeAt r.body own (contextLen r)

/-- The requester's context is what of its request stands behind the other fields. -/
theorem spdmContext_eq (r : SpdmReq) (own : Nat) : spdmContext r own = takeAt r.body own (contextLen r) := by
  unfold spdmContext contextLen
  split <;> rfl

section Agreed
variable (hon : spdmOn s = true) (hv : r.version = spdmVersion s)
include hon hv

theorem exec_spdmAlgorithms (hphase : spdmPhase s = 2) (hlen : 28 ≤ r.body.length) : exec (.spdmAlgorithmsRequest r) s =
    .next (spdmAnswered s { s.die 0 with
      spdm := [r.version, r.body.getD 4 0 &&& 0x10, r.body.getD 8 0 &&& 0x01, r.body.getD 2 0 &&& 0x01]
      spdmVca := (s.die 0).spdmVca ++ spdmBytes 0xE3 r ++ algorithmBytes r } (algorithmBytes r)) :=
  congrArg Host.Outcome.next ((spdmServe_answers hon hphase (.inr hv) hlen).trans rfl)

/-! ### Certificates -/

section Certificates
variable (hphase : spdmPhase s = 3)
include hphase

theorem exec_spdmDigests : exec (.spdmDigestsRequest r) s = .next
    (certAnswer s 0x81 r ([spdmVersion s, 0x01, if spdmVersion s = 0x13 then 1 else 0, 1] ++ sha256 (s.die 0).cert)) :=
  congrArg Host.Outcome.next ((spdmServe_answers hon hphase (.inr hv) (Nat.zero_le _)).trans (by rw [hv]))

variable (hlen : 4 ≤ r.body.length)
include hlen

theorem exec_spdmCertificate_badSlot (hslot : r.param1 &&& 0x0F ≠ 0) :
    exec (.spdmCertificateRequest r) s = .next (spdmError s 0x01) := by
  refine congrArg Host.Outcome.next ((spdmServe_answers hon hphase (.inr hv) hlen).trans (if_pos ?_))
  rw [bne_iff_ne.mpr hslot, Bool.true_or]

/-- A portion of the chain. -/
theorem exec_spdmCertificate_portion (hslot : r.param1 &&& 0x0F = 0) (hoff : field r.body 0 2 < (s.die 0).cert.length)
    (hportion : ¬(r.version = 0x13 ∧ r.param2.getLsbD 0 = true)) {p : List Byte}
    (hp : p = ((s.die 0).cert.drop (field r.body 0 2)).take (field r.body 2 2)) :
    exec (.spdmCertificateRequest r) s = .next (certAnswer s 0x82 r ([spdmVersion s, 0x02, 0, 0] ++ leBytes 2 p.length ++
      leBytes 2 ((s.die 0).cert.length - field r.body 0 2 - p.length) ++ p)) := by
  subst hp
  have hsize : (decide (r.version = 0x13) && r.param2.getLsbD 0) = false := by
    rw [Bool.eq_false_iff]
    simpa using hportion
  refine congrArg Host.Outcome.next ((spdmServe_answers hon hphase (.inr hv) hlen).trans ?_)
  dsimp only
  rw [hsize, hslot, decide_eq_false (Nat.not_le.mpr hoff), hv] <;> rfl

/-- The size of the chain alone. -/
theorem exec_spdmCertificate_size (hslot : r.param1 &&& 0x0F = 0) (hversion : r.version = 0x13) (hflag : r.param2.getLsbD 0 = true) :
    exec (.spdmCertificateRequest r) s = .next (certAnswer s 0x82 r ([spdmVersion s, 0x02, 0, 0] ++ leBytes 2 0 ++
      leBytes 2 (s.die 0).cert.length)) := by
  have hsize : (decide (r.version = 0x13) && r.param2.getLsbD 0) = true := by rw [decide_eq_true hversion, hflag]; rfl
  refine congrArg Host.Outcome.next ((spdmServe_answers hon hphase (.inr hv) hlen).trans ?_)
  dsimp only
  rw [hsize, hslot, Bool.not_true, Bool.false_and]
  refine (if_neg (by decide)).trans ?_
  rw [if_pos rfl, if_pos rfl, List.append_nil, hv] <;> rfl

end Certificates

/-! ### Signed answers -/

section Signed
variable (hphase : spdmPhase s = 3)
include hphase

theorem exec_spdmChallenge (hlen : 32 + contextLen r ≤ r.body.length) (hslot : r.param1 = 0)
    (hsummary : r.param2 = 0 ∨ r.param2 = 1 ∨ r.param2 = 0xFF) : exec (.spdmChallengeRequest r) s =
      .next { s.setDie 0 { s.die 0 with spdmCerts := [], spdmMeas := [] } with
        tick := s.tick + 4
        doe := challengeBytes s r ++ spdmSign (spdmVersion s) (ascii "responder-challenge_auth signing")
          ((s.die 0).spdmVca ++ (s.die 0).spdmCerts ++ spdmBytes 0x83 r ++ challengeBytes s r) } := by
  refine congrArg Host.Outcome.next ((spdmServe_answers hon hphase (.inr hv) hlen).trans ?_)
  rw [if_neg (by rcases hsummary with h | h | h <;> simp [hslot, h]), freshNonce_eq, hv]
  dsimp only
  rw [spdmContext_eq] <;> rfl

variable {own : Nat} (hown : own = if r.param1.getLsbD 0 then 33 else 0) (hlen : own + contextLen r ≤ r.body.length)
  (hzero : r.param2.toNat ≠ 0) (hall : r.param2.toNat ≠ 255)
include hown hlen hzero hall

theorem exec_spdmMeasurements_absent (h : measurement s r.param2.toNat = none) :
    exec (.spdmMeasurementsRequest r) s = .next (spdmError s 0x01) := by
  subst hown
  refine congrArg Host.Outcome.next ((spdmServe_answers hon hphase (.inr hv) hlen).trans ?_)
  dsimp only
  rw [if_neg hall, if_neg hzero]
  refine if_pos ?_
  simp [h]

theorem exec_spdmMeasurements_one {body : List Byte} (h : measurement s r.param2.toNat = some body)
    (hslot : r.param1.getLsbD 0 = true → r.body.getD 32 0 &&& 0x0F = 0) : exec (.spdmMeasurementsRequest r) s =
      .next { s.setDie 0 { s.die 0 with
          spdmCerts := []
          spdmMeas := if r.param1.getLsbD 0 then [] else (s.die 0).spdmMeas ++ spdmBytes 0xE0 r ++ oneMeasurementBytes s r own } with
        tick := s.tick + 4
        doe := oneMeasurementBytes s r own ++ (if r.param1.getLsbD 0 then spdmSign (spdmVersion s) (ascii "responder-measurements signing")
          ((s.die 0).spdmVca ++ ((s.die 0).spdmMeas ++ spdmBytes 0xE0 r ++ oneMeasurementBytes s r own)) else []) } := by
  subst hown
  refine congrArg Host.Outcome.next ((spdmServe_answers hon hphase (.inr hv) hlen).trans ?_)
  dsimp only
  rw [if_neg hall, if_neg hzero, if_neg hzero, freshNonce_eq, hv]
  dsimp only
  rw [spdmContext_eq]
  refine (if_neg ?_).trans ?_
  · simp only [List.any_cons, h, Option.isNone_some, List.any_nil, Bool.or_false, Bool.false_or, Bool.and_eq_true, bne_iff_ne, ne_eq,
      not_and, Classical.not_not]
    exact hslot
  · simp only [List.flatMap_cons, List.flatMap_nil, List.append_nil, List.length_cons, List.length_nil]
    rfl

end Signed

end Agreed

end Spdm

/-- Settles O49: each request is answered in its phase, version and length. -/
theorem spdmIsAnswered : Obligations.SpdmIsAnswered := by
  unfold Obligations.SpdmIsAnswered
  intro s r hrun htrip d v answers error more last certs
  have hon : spdmOn s = true := by
    unfold spdmOn
    rw [hrun, htrip]
    rfl
  have hlast : ∀ i ∈ last, ∃ least answer, exec i s = .next (spdmServe s r 3 least answer) := by
    intro i hi
    simp only [last, List.mem_cons, List.not_mem_nil, or_false] at hi
    rcases hi with rfl | rfl | rfl | rfl <;> exact ⟨_, _, rfl⟩
  refine ⟨⟨fun hv => (exec_spdmVersion hon).trans (congrArg Host.Outcome.next (if_pos hv)),
      fun hv => (exec_spdmVersion hon).trans (congrArg Host.Outcome.next (if_neg hv))⟩,
    fun hphase => congrArg Host.Outcome.next (spdmServe_unexpected hon hphase),
    fun hphase => congrArg Host.Outcome.next (spdmServe_unexpected hon hphase), fun hphase i hi => ?_, fun hphase hv i hi => ?_,
    fun hphase hlen => ⟨fun hv => ⟨capabilityBytes r, ?_, capabilityBytes_parts r⟩, fun h12 h13 => ?_⟩,
    fun hphase hv hlen => exec_spdmAlgorithms hon hv hphase hlen, fun hphase hv => ⟨exec_spdmDigests hon hv hphase, fun hlen => ?_,
      fun hlen hslot hsummary => ⟨nonceOf s, nonceOf_length s, exec_spdmChallenge hon hv hphase hlen hslot hsummary⟩, ?_⟩,
    fun code => congrArg Host.Outcome.next (if_pos hon)⟩
  · obtain ⟨least, answer, hexec⟩ := hlast i hi
    rw [hexec, spdmServe_unexpected hon hphase]
    rfl
  · obtain ⟨least, answer, hexec⟩ := hlast i hi
    rw [hexec, spdmServe_mismatch hon hphase (by decide) hv]
    rfl
  · rw [exec_spdmCapabilities hon hphase hlen, if_pos hv]
    rfl
  · rw [exec_spdmCapabilities hon hphase hlen, if_neg (not_or.mpr ⟨h12, h13⟩)]
    rfl
  · intro off
    exact ⟨exec_spdmCertificate_badSlot hon hv hphase hlen,
      fun hslot hoff hportion => exec_spdmCertificate_portion hon hv hphase hlen hslot hoff (hv ▸ hportion) rfl,
      fun hslot h13 hflag => exec_spdmCertificate_size hon hv hphase hlen hslot (hv.trans h13) hflag⟩
  · intro signed own index hlen hzero hall hslot
    refine ⟨exec_spdmMeasurements_absent hon hv hphase rfl hlen hzero hall, fun body hbody => ⟨nonceOf s, ?_⟩⟩
    have hblock : measurementBlock s index = leBytes 1 index ++ [1] ++ leBytes 2 35 ++ [measurementType index] ++ leBytes 2 32 ++ body := by
      unfold measurementBlock
      rw [hbody]
      rfl
    intro block a said
    have ha : a = oneMeasurementBytes s r own := by
      unfold oneMeasurementBytes
      rw [show measurementBlock s r.param2.toNat = block from hblock]
      rfl
    have hexec := exec_spdmMeasurements_one hon hv hphase rfl hlen hzero hall hbody hslot
    rw [← ha] at hexec
    exact ⟨nonceOf_length s, hexec⟩

end Sys2Proof.Machine
end

section
/-! PROOFS. The scheduler: visits, retries, placement, gathering and the end of a grid (R59 to R63, R74, R76 to R82, R90, R93, R94). -/
namespace Sys2Proof.Machine

/-! ### The fetcher's visits and retries (R59 to R63) -/

section Fetcher
variable {s : State} {die part q : Nat} {x : Queue} {rest : List (Nat × Queue)}

/-- The visit of a queue is open on its die. -/
def visitOpened (s : State) (die part q : Nat) : State := s.setDie die { s.die die with visit := some (part, q), visitSteps := 0 }

section Visit
variable (hrun : (s.die die).running = true) (htrip : (s.die die).tripped = false) (hvisit : (s.die die).visit = none)
  (horder : visitOrder s die = (part, x) :: rest) {s1 : State} (hs1 : s1 = s.setDie die { s.die die with lastQ := (part, x.q) })
include hrun htrip hvisit horder hs1

/-- A visit of a queue whose pilot is under way goes on with it. -/
theorem exec_fetcherVisit_busy (hbusy : x.busy = true) : exec (.fetcherVisit die) s = .next (visitOpened s1 die part x.q) := by
  subst hs1
  refine congrArg Host.Outcome.next ?_
  rw [if_neg (by rw [hrun, htrip, hvisit]; decide), horder]
  exact if_pos hbusy

/-- A visit of a queue at a packet boundary starts its packet at HEAD. -/
theorem exec_fetcherVisit_starts (hbusy : x.busy = false) (hdeferred : x.deferred = false) {b : List Byte}
    (hpacket : packetAt (seePacket s1 part x) part x = .bytes b) :
    exec (.fetcherVisit die) s = .next (visitOpened (putQueue (seePacket s1 part x) part (x.start b)) die part x.q) := by
  subst hs1
  have hreload : ∀ t : State, boundaryReload t part x = (t, some x) := by
    intro t
    unfold boundaryReload
    exact if_neg (Bool.eq_false_iff.mp hdeferred)
  refine congrArg Host.Outcome.next ?_
  rw [if_neg (by rw [hrun, htrip, hvisit]; decide), horder]
  dsimp only
  rw [if_neg (Bool.eq_false_iff.mp hbusy), hreload]
  dsimp only
  rw [hpacket] <;> rfl

end Visit

theorem exec_fetchFaultRetry_meets {p : Partition} (hp : s.part? part = some p) (hx : p.queue? q = some x) (hst : x.st = .fetchfault)
    (hhost : x.byHost = false) (hretries : x.retries < 16) : exec (.fetchFaultRetry part q) s = .next (match retryMeets s p x with
      | .parks reason => putQueue s part { x with retries := x.retries + 1, reason := reason }
      | .waits => s
      | .goes => putQueue s part { x with st := .active, retries := 0 }) := by
  refine congrArg Host.Outcome.next ?_
  rw [hp]
  dsimp only
  rw [hx]
  dsimp only
  rw [if_neg (by rw [hst, hhost, decide_eq_false (Nat.not_le.mpr hretries)]; decide)] <;> rfl

end Fetcher

/-! ### Slots of a core (R79, R82) -/

section Placement
variable {s : State} {l : Launch} {core gid : Nat}

/-- Free slots go by the groups alone. -/
theorem freeSlots_congr {t : State} (h : t.groups = s.groups) (core pipe : Nat) : freeSlots t core pipe = freeSlots s core pipe := by
  unfold freeSlots onCore
  rw [h]

theorem mem_freeSlots {pipe k : Nat} (h : k ∈ freeSlots s core pipe) : k < 48 ∧ k % 4 = pipe := by
  simp only [freeSlots, List.mem_filter, List.mem_range, Bool.and_eq_true, beq_iff_eq] at h
  exact ⟨h.1, h.2.1⟩

theorem freeSlots_nodup (s : State) (core pipe : Nat) : (freeSlots s core pipe).Nodup := List.nodup_range.filter _

/-- A group that a launch starts at entry. -/
def entryGroup (l : Launch) (wkg core gid slot uid stamp : Nat) : Group :=
  groupAtEntry l wkg gid core slot uid stamp (l.fld 0 8) (entryNode (maskOf (List.range 96)) (l.fld 0 8) (s63Of 0 0 0 0))

/-- Start one group of a workgroup. -/
def startAt (l : Launch) (w : Nat × Nat) (s : State) (gid : Nat) : State := startGroup s (entryGroup l w.1 w.2 gid) w.2 gid

/-- A group takes its slot from the core's free ones. -/
theorem freeSlots_append {g : Group} (hg : g.landing = none) {t : State} (ht : t.groups = s.groups ++ [g]) (core pipe : Nat) :
    freeSlots t core pipe = (freeSlots s core pipe).filter fun k => !(g.core == core && g.slot == k) := by
  unfold freeSlots onCore
  rw [ht, List.filter_filter]
  refine List.filter_congr fun k _ => ?_
  rw [List.filter_append, List.any_append]
  by_cases hcore : g.core = core
  · simp [hcore, hg, Bool.and_comm, Bool.and_left_comm]
  · simp [hcore]

section Start
variable {w : Nat × Nat}

theorem startAt_groups (l : Launch) (w : Nat × Nat) (s : State) (gid : Nat) : (startAt l w s gid).groups = s.groups ∨
    ∃ slot ∈ freeSlots s w.2 (gid % 4), (startAt l w s gid).groups = s.groups ++ [entryGroup l w.1 w.2 gid slot s.nextId s.stampNext] := by
  unfold startAt startGroup
  split
  case h_1 => exact .inl rfl
  case h_2 slot rest h => exact .inr ⟨slot, by rw [h]; exact List.mem_cons_self, rfl⟩

theorem startAt_starts {slot : Nat} {rest : List Nat} (h : freeSlots s w.2 (gid % 4) = slot :: rest) :
    (startAt l w s gid).groups = s.groups ++ [entryGroup l w.1 w.2 gid slot s.nextId s.stampNext] := by
  unfold startAt startGroup
  rw [h]

theorem startAt_mono {g : Group} (hg : g ∈ s.groups) : g ∈ (startAt l w s gid).groups := by
  rcases startAt_groups l w s gid with h | ⟨slot, -, h⟩ <;> simp [h, hg]

/-- A group leaves the other pipelines and cores as they were. -/
theorem startAt_otherSlots {pipe : Nat} (h : core ≠ w.2 ∨ pipe ≠ gid % 4) :
    freeSlots (startAt l w s gid) core pipe = freeSlots s core pipe := by
  rcases startAt_groups l w s gid with hgroups | ⟨slot, hslot, hgroups⟩
  · exact freeSlots_congr hgroups core pipe
  · rw [freeSlots_append rfl hgroups, List.filter_eq_self]
    intro k hk
    rw [Bool.not_eq_true', Bool.and_eq_false_iff]
    rcases h with h | h
    · exact .inl (beq_eq_false_iff_ne.mpr fun he => h he.symm)
    · refine .inr (beq_eq_false_iff_ne.mpr fun he => h ?_)
      have he : slot = k := he
      rw [← (mem_freeSlots hk).2, ← he, (mem_freeSlots hslot).2]

/-- A group that starts takes the lowest free slot of its pipeline. -/
theorem startAt_tail : freeSlots (startAt l w s gid) w.2 (gid % 4) = (freeSlots s w.2 (gid % 4)).tail := by
  cases hfree : freeSlots s w.2 (gid % 4) with
  | nil =>
    rcases startAt_groups l w s gid with hgroups | ⟨slot, hslot, -⟩
    · rw [freeSlots_congr hgroups, hfree]
      rfl
    · rw [hfree] at hslot
      cases hslot
  | cons slot rest =>
    have hnodup := freeSlots_nodup s w.2 (gid % 4)
    rw [hfree, List.nodup_cons] at hnodup
    rw [freeSlots_append rfl (startAt_starts hfree), hfree, List.filter_cons_of_neg (by simp [entryGroup, groupAtEntry]),
      List.filter_eq_self.mpr]
    · rfl
    · intro k hk
      have hne : slot ≠ k := fun h => hnodup.1 (h ▸ hk)
      simp [entryGroup, groupAtEntry, hne]

/-- Each pipeline of a core has a free slot for each group. -/
def HasRoom (s : State) (core : Nat) (gids : List Nat) : Prop :=
  ∀ pipe < 4, (gids.filter (· % 4 == pipe)).length ≤ (freeSlots s core pipe).length

theorem hasRoom_congr {t : State} (h : t.groups = s.groups) {gids : List Nat} (hroom : HasRoom s core gids) :
    HasRoom t core gids := fun pipe hpipe => by
  rw [freeSlots_congr h]
  exact hroom pipe hpipe

theorem hasRoom_startAt_other (h : core ≠ w.2) {gids : List Nat} (hroom : HasRoom s core gids) :
    HasRoom (startAt l w s gid) core gids := fun pipe hpipe => by
  rw [startAt_otherSlots (.inl h)]
  exact hroom pipe hpipe

theorem hasRoom_startAt_rest {gids : List Nat} (hroom : HasRoom s w.2 (gid :: gids)) : HasRoom (startAt l w s gid) w.2 gids := by
  intro pipe hpipe
  have hneed := hroom pipe hpipe
  by_cases hgid : pipe = gid % 4
  · subst hgid
    rw [List.filter_cons_of_pos (by simp), List.length_cons] at hneed
    rw [startAt_tail, List.length_tail]
    omega
  · rw [List.filter_cons_of_neg (by simpa using fun h => hgid h.symm)] at hneed
    rw [startAt_otherSlots (.inr hgid)]
    exact hneed

theorem startAll_mono {g : Group} (hg : g ∈ s.groups) (gids : List Nat) : g ∈ (gids.foldl (startAt l w) s).groups := by
  induction gids generalizing s with
  | nil => exact hg
  | cons gid gids ih => exact ih (startAt_mono hg)

theorem hasRoom_startAll (h : core ≠ w.2) {need : List Nat} (gids : List Nat) (hroom : HasRoom s core need) :
    HasRoom (gids.foldl (startAt l w) s) core need := by
  induction gids generalizing s with
  | nil => exact hroom
  | cons gid gids ih => exact ih (hasRoom_startAt_other h hroom)

/-- Where there is room every group starts. -/
theorem startAll_starts {gids : List Nat} (hroom : HasRoom s w.2 gids) : ∀ gid ∈ gids, ∃ slot uid stamp, slot < 48 ∧
    slot % 4 = gid % 4 ∧ entryGroup l w.1 w.2 gid slot uid stamp ∈ (gids.foldl (startAt l w) s).groups := by
  induction gids generalizing s with
  | nil => intro gid h; cases h
  | cons first gids ih =>
    intro gid hgid
    rcases List.mem_cons.mp hgid with rfl | hgid
    · have hneed := hroom (gid % 4) (Nat.mod_lt _ (by decide))
      rw [List.filter_cons_of_pos (by simp), List.length_cons] at hneed
      obtain ⟨slot, rest, hfree⟩ := List.exists_cons_of_length_pos (Nat.lt_of_lt_of_le (Nat.succ_pos _) hneed)
      obtain ⟨hlt, hpipe⟩ := mem_freeSlots (hfree ▸ List.mem_cons_self (a := slot) (l := rest))
      refine ⟨slot, s.nextId, s.stampNext, hlt, hpipe, startAll_mono ?_ gids⟩
      rw [startAt_starts hfree]
      exact List.mem_append_right _ List.mem_cons_self
    · exact ih (hasRoom_startAt_rest hroom) gid hgid

end Start

/-! ### A workgroup, and all of a launch's (R78 to R82) -/

/-- A workgroup that a launch places. -/
def newWkg (l : Launch) (w : Nat × Nat) : Workgroup :=
  { part := l.part, serial := l.serial, wkg := w.1, core := w.2, share := 4096 * l.fld 33 1, data := [], flaws := [], bars := [],
    st := .running, ended := [], saves := [] }

/-- Its core as it receives it. -/
def received (l : Launch) (s : State) (w : Nat × Nat) : State :=
  { clearCore s w.2 with wkgs := (clearCore s w.2).wkgs ++ [newWkg l w] }

theorem placeWkg_eq (l : Launch) (s : State) (w : Nat × Nat) : placeWkg l s w =
    if l.bound then received l s w else (List.range l.groups).foldl (startAt l w) (received l s w) := rfl

theorem startAt_kept (l : Launch) (w : Nat × Nat) (s : State) (gid : Nat) :
    (startAt l w s gid).launches = s.launches ∧ (startAt l w s gid).wkgs = s.wkgs := by
  unfold startAt startGroup
  split <;> exact ⟨rfl, rfl⟩

theorem placeWkg_kept (l : Launch) (s : State) (w : Nat × Nat) :
    (placeWkg l s w).launches = s.launches ∧ (placeWkg l s w).wkgs = s.wkgs ++ [newWkg l w] := by
  rw [placeWkg_eq]
  split
  · exact ⟨rfl, rfl⟩
  · exact ⟨foldl_keeps State.launches _ (fun t gid => (startAt_kept l w t gid).1) _ _,
      foldl_keeps State.wkgs _ (fun t gid => (startAt_kept l w t gid).2) _ _⟩

theorem placeWkg_mono {w : Nat × Nat} {g : Group} (hg : g ∈ s.groups) : g ∈ (placeWkg l s w).groups := by
  rw [placeWkg_eq]
  split
  · exact hg
  · exact startAll_mono (s := received l s w) hg _

/-- A group that stands there once a workgroup is placed is an older one, or one of its own at entry. -/
theorem placeWkg_groups {w : Nat × Nat} {g : Group} (hg : g ∈ (placeWkg l s w).groups) : g ∈ s.groups ∨
    (l.bound = false ∧ ∃ gid slot uid stamp, gid < l.groups ∧ g = entryGroup l w.1 w.2 gid slot uid stamp) := by
  rw [placeWkg_eq] at hg
  split at hg
  case isTrue => exact .inl hg
  case isFalse hbound =>
    revert hg
    refine List.foldlRecOn (motive := fun t : State => g ∈ t.groups → g ∈ s.groups ∨ (l.bound = false ∧
      ∃ gid slot uid stamp, gid < l.groups ∧ g = entryGroup l w.1 w.2 gid slot uid stamp)) (List.range l.groups) (startAt l w)
      (fun hg => .inl hg) fun t ih gid hgid hg => ?_
    rcases startAt_groups l w t gid with h | ⟨slot, -, h⟩
    · exact ih (h ▸ hg)
    · rw [h, List.mem_append, List.mem_singleton] at hg
      rcases hg with hg | hg
      · exact ih hg
      · exact .inr ⟨Bool.eq_false_iff.mpr hbound, gid, slot, t.nextId, t.stampNext, List.mem_range.mp hgid, hg⟩

theorem hasRoom_placeWkg {w : Nat × Nat} (h : core ≠ w.2) {need : List Nat} (hroom : HasRoom s core need) :
    HasRoom (placeWkg l s w) core need := by
  have hfirst : HasRoom (received l s w) core need := hasRoom_congr rfl hroom
  rw [placeWkg_eq]
  split
  · exact hfirst
  · exact hasRoom_startAll h _ hfirst

/-- The workgroups of a launch, each on its core. -/
def placeAll (l : Launch) (ws : List (Nat × Nat)) (s : State) : State := ws.foldl (placeWkg l) s

theorem placeAll_kept (l : Launch) (ws : List (Nat × Nat)) (s : State) :
    (placeAll l ws s).launches = s.launches ∧ (placeAll l ws s).wkgs = s.wkgs ++ ws.map (newWkg l) := by
  induction ws generalizing s with
  | nil => exact ⟨rfl, (List.append_nil _).symm⟩
  | cons w ws ih =>
    obtain ⟨hlaunches, hwkgs⟩ := ih (placeWkg l s w)
    rw [(placeWkg_kept l s w).1] at hlaunches
    rw [(placeWkg_kept l s w).2, List.append_assoc] at hwkgs
    exact ⟨hlaunches, hwkgs⟩

theorem placeAll_mono {ws : List (Nat × Nat)} {g : Group} (hg : g ∈ s.groups) : g ∈ (placeAll l ws s).groups := by
  induction ws generalizing s with
  | nil => exact hg
  | cons w ws ih => exact ih (placeWkg_mono hg)

theorem placeAll_groups {ws : List (Nat × Nat)} {g : Group} (hg : g ∈ (placeAll l ws s).groups) : g ∈ s.groups ∨
    (l.bound = false ∧ ∃ w ∈ ws, ∃ gid slot uid stamp, gid < l.groups ∧ g = entryGroup l w.1 w.2 gid slot uid stamp) := by
  induction ws generalizing s with
  | nil => exact .inl hg
  | cons w ws ih =>
    rcases ih hg with hg | ⟨hbound, v, hv, hentry⟩
    · rcases placeWkg_groups hg with hg | ⟨hbound, hentry⟩
      · exact .inl hg
      · exact .inr ⟨hbound, w, List.mem_cons_self, hentry⟩
    · exact .inr ⟨hbound, v, List.mem_cons_of_mem _ hv, hentry⟩

/-- Where every core has room every group of every workgroup starts. -/
theorem placeAll_starts (hbound : l.bound = false) {ws : List (Nat × Nat)} (hcores : (ws.map Prod.snd).Nodup)
    (hroom : ∀ w ∈ ws, HasRoom s w.2 (List.range l.groups)) : ∀ w ∈ ws, ∀ gid < l.groups, ∃ slot uid stamp, slot < 48 ∧
      slot % 4 = gid % 4 ∧ entryGroup l w.1 w.2 gid slot uid stamp ∈ (placeAll l ws s).groups := by
  induction ws generalizing s with
  | nil => intro w h; cases h
  | cons first ws ih =>
    rw [List.map_cons, List.nodup_cons] at hcores
    intro w hw gid hgid
    rcases List.mem_cons.mp hw with rfl | hw
    · have hfirst : HasRoom (received l s w) w.2 (List.range l.groups) := hasRoom_congr rfl (hroom w List.mem_cons_self)
      obtain ⟨slot, uid, stamp, hlt, hpipe, hmem⟩ := startAll_starts (l := l) hfirst gid (List.mem_range.mpr hgid)
      refine ⟨slot, uid, stamp, hlt, hpipe, placeAll_mono (s := placeWkg l s w) ?_⟩
      rw [placeWkg_eq, if_neg (Bool.eq_false_iff.mp hbound)]
      exact hmem
    · refine ih hcores.2 (fun v hv => hasRoom_placeWkg (fun h => hcores.1 ?_) (hroom v (List.mem_cons_of_mem _ hv))) w hw gid hgid
      exact h ▸ List.mem_map_of_mem hv

/-- A grid has each of its cores once (R78). -/
theorem coresOf_nodup (l : Launch) : (coresOf l).Nodup := by
  have hpicked (p : Nat → Bool) (n : Nat) : ((List.range n).filter p).Pairwise (· ≠ ·) := List.Pairwise.filter p List.nodup_range
  unfold coresOf
  refine List.pairwise_flatMap.mpr ⟨fun k _ => List.pairwise_map.mpr ((hpicked ..).imp fun hab h => hab (by omega)), ?_⟩
  refine (hpicked ..).imp fun {a b} hab c ha d hb hcd => ?_
  subst hcd
  simp only [List.mem_map, List.mem_filter, List.mem_range] at ha hb
  obtain ⟨i, ⟨hi, -⟩, rfl⟩ := ha
  obtain ⟨j, ⟨hj, -⟩, hij⟩ := hb
  omega

theorem hasRoom_of_roomFor (hbound : l.bound = false) (h : roomFor s l core = true) : HasRoom s core (List.range l.groups) := by
  simp only [roomFor, roomForGroups, hbound, Bool.false_or, Bool.and_eq_true, List.all_eq_true, List.mem_range, decide_eq_true_eq] at h
  exact h.2.1

theorem exec_launchPlacement_places {part : Nat} (h : nextWaiting s part = some l) (hplace : placeable s l = true) :
    exec (.launchPlacement part) s =
      .next (placeAll l ((coresOf l).mapIdx fun i c => (i, c)) (s.setLaunch { l with st := .placed })) := by
  refine congrArg Host.Outcome.next ?_
  rw [h]
  dsimp only
  rw [if_neg (by rw [hplace]; decide)] <;> rfl

/-! ### The end of a grid (R74, R88) -/

theorem launch?_key {part : Nat} {serial : Word} (h : s.launch? part serial = some l) : l.part = part ∧ l.serial = serial := by
  simpa using List.find?_some h

theorem exec_gridTermination_ends {part : Nat} {serial : Word} (h : s.launch? part serial = some l) (hst : l.st = .placed)
    (hended : gridEnded s l = true) (hquiet : gridQuiet s l = true) (hfree : donesigBlocked s l = false) :
    exec (.gridTermination part serial) s = .next (removeLaunch (unbind (writeDonesig s l) l) l) := by
  refine congrArg Host.Outcome.next ?_
  rw [h]
  dsimp only
  rw [if_neg (by rw [hst, hended, hquiet, hfree]; decide)]

theorem writeDonesig_writes {u : State} (hu : u = seeWalk s (192 + tollhouseDie l) (tollhouseDie l) l.part (l.fld 16 8)) {r : Xlat}
    (hsig : l.fld 16 8 ≠ 0) (hr : xlate u (tollhouseDie l) l.part (l.fld 16 8) .write = .ok r)
    (hreach : reaches u (tollhouseDie l) r.pa = true) :
    writeDonesig s l = pwrite u r.pa (leBytes 8 (l.fld 56 4 + if l.fatal then 2 ^ 32 else 0)) := by
  subst hu
  unfold writeDonesig
  dsimp only
  rw [if_neg hsig, hr]
  exact if_pos hreach

/-- The launch that leaves is gone. -/
theorem removeLaunch_gone (s : State) (l : Launch) :
    ∀ k ∈ (removeLaunch s l).launches, ¬(k.part = l.part ∧ k.serial = l.serial) := by
  intro k hk
  unfold removeLaunch at hk
  rw [foldl_keeps State.launches leaveRemains (fun t w => rfl)] at hk
  obtain ⟨m, hm, rfl⟩ := List.mem_map.mp hk
  have hother := (List.mem_filter.mp hm).2
  have hkey : ¬(m.part = l.part ∧ m.serial = l.serial) := fun h => by simp [h.1, h.2] at hother
  split <;> exact hkey

/-! ### The gatherer (R93, R94) -/

section Gather
variable {part q : Nat} {p : Partition} {tq : TaskQ} {w : Workgroup} {b : List Byte} (hp : s.part? part = some p)
  (hq : p.taskq? q = some tq) (hl : s.launch? part tq.serial = some l) (hst : l.st = .placed) (hcounts : tq.headc ≠ tq.tailc)
  (hplace : nextPlace s l = some (w, gid)) {s0 : State} (hs0 : s0 = seeTasks s w.core part tq [tq.headc])
  (hread : readTask s0 w.core part tq tq.headc = some b)
include hp hq hl hst hcounts hplace hs0 hread

/-- The batch that the slot at HEADC begins. -/
def batchAt (s : State) (w : Workgroup) (part : Nat) (tq : TaskQ) (b : List Byte) : Batch :=
  takeBatch s w.core part tq (taskEntry b) (tq.tailc - tq.headc).toNat { tasks := [], next := tq.headc }

theorem exec_taskGather_eq : exec (.taskGather part q) s = .next
    (if taskState b = 3 then consumeTasks s0 w.core part tq (tq.headc + 1)
     else if taskState b ≠ 2 then s0
     else
       let s1 := seeTasks s0 w.core part tq (countsTo tq.headc (batchAt s0 w part tq b).next)
       (startGroup (l1DropAll (consumeTasks s1 w.core part tq (batchAt s1 w part tq b).next) w.core)
         (fun slot uid stamp => taskGroup l w gid slot uid stamp (taskEntry b) (batchAt s1 w part tq b) tq.headc) w.core gid).setLaunch
           { l with lastTask := (w.core, gid) }) := by
  subst hs0
  refine congrArg Host.Outcome.next ?_
  rw [hp]
  dsimp only
  rw [hq]
  dsimp only
  rw [hl]
  dsimp only
  rw [if_neg (by simp [hst, hcounts]), hplace]
  dsimp only
  rw [hread] <;> rfl

end Gather

end Placement

/-- Settles O50: each activity of the scheduler is its rule's lemma; a launch is placed group by group. -/
theorem workIsScheduled : Obligations.WorkIsScheduled := by
  unfold Obligations.WorkIsScheduled
  intro s
  refine ⟨fun die part x rest hrun htrip hvisit horder => ?_, fun part q p x hp hx hst hhost hretries => ?_,
    fun part l hnext hplace => ?_, fun part serial l hl hst hended hquiet hfree => ⟨exec_gridTermination_ends hl hst hended hquiet hfree,
      fun r hsig hr hreach => writeDonesig_writes rfl hsig hr hreach, fun k hk => ?_⟩,
    fun part q p tq l w gid b hp hq hl hst hcounts hplace => ?_⟩
  · intro s1 opened s3
    exact ⟨exec_fetcherVisit_busy hrun htrip hvisit horder rfl, 
      fun b hbusy hdeferred hpacket => exec_fetcherVisit_starts hrun htrip hvisit horder rfl hbusy hdeferred hpacket⟩
  · rw [exec_fetchFaultRetry_meets hp hx hst hhost hretries]
    refine ⟨fun h => ?_, fun h => ?_, fun reason h => ?_⟩
    · rw [h]
    · rw [h]
    · rw [h]
  · refine ⟨_, exec_launchPlacement_places hnext hplace, ?_⟩
    obtain ⟨hlaunches, hwkgs⟩ := placeAll_kept l ((coresOf l).mapIdx fun i c => (i, c)) (s.setLaunch { l with st := .placed })
    refine ⟨hlaunches, ?_, ?_⟩
    · rw [hwkgs, State.setLaunch_wkgs]
      exact congrArg (s.wkgs ++ ·) (List.ext_getElem (by simp) fun i _ _ => by simp [newWkg])
    · intro entry
      refine ⟨fun g hg => ?_, fun hbound i c gid hc hgid => ?_⟩
      · rcases placeAll_groups hg with hg | ⟨hbound, ⟨i, c⟩, hw, gid, slot, uid, stamp, hgid, rfl⟩
        · exact .inl hg
        · obtain ⟨j, hj, hij⟩ := List.mem_mapIdx.mp hw
          obtain ⟨rfl, rfl⟩ := Prod.mk.inj hij
          exact .inr ⟨hbound, j, _, gid, slot, uid, stamp, List.getElem?_eq_getElem hj, hgid, rfl⟩
      · have hcores : (((coresOf l).mapIdx fun i c => (i, c)).map Prod.snd).Nodup := by
          rw [show ((coresOf l).mapIdx fun i c => (i, c)).map Prod.snd = coresOf l from
            List.ext_getElem (by simp) fun i _ _ => by simp]
          exact coresOf_nodup l
        have hroom : ∀ w ∈ (coresOf l).mapIdx fun i c => (i, c), HasRoom (s.setLaunch { l with st := .placed }) w.2 (List.range l.groups) := by
          intro w hw
          obtain ⟨j, hj, rfl⟩ := List.mem_mapIdx.mp hw
          have hcore := List.all_eq_true.mp hplace _ (List.getElem_mem hj)
          exact hasRoom_congr (State.setLaunch_groups ..) (hasRoom_of_roomFor hbound hcore)
        obtain ⟨hlt, hget⟩ := List.getElem?_eq_some_iff.mp hc
        exact placeAll_starts hbound hcores hroom (i, c) (List.mem_mapIdx.mpr ⟨i, hlt, by rw [hget]⟩) gid hgid
  · obtain ⟨hpart, hserial⟩ := launch?_key hl
    rw [← hpart, ← hserial]
    exact removeLaunch_gone _ l k hk
  · intro s0 batch hread
    rw [exec_taskGather_eq hp hq hl hst hcounts hplace rfl hread]
    refine ⟨fun hvoid => ?_, fun hready => ?_⟩
    · rw [if_pos hvoid]
    · rw [if_neg (by rw [hready]; decide), if_neg (by rw [hready]; decide)]
      rfl

end Sys2Proof.Machine
end

section
/-! PROOFS. The statement on cluster termination fails: two groups that bear one number let a rollback elsewhere write into the
termination log's count (R92, R131, R189). -/
namespace Sys2Proof.Machine

/-- Partition 0, whose TERMCNT stands at the physical page that virtual page 1 maps, and whose task queue's first slot has its state
there. -/
def loggingPart : Partition :=
  { State.probePart with
    savebase := 0x3C008
    taskqs := [{ q := 0, serial := 1, base := 0xFFE8, size := 16, tailc := 1, headc := 0, reserved := [0] }] }

/-- A group on core 4, of workgroup 5, whose open trace has reserved the slot. -/
def reservingGroup : Group :=
  let g := { State.probeGroup 7 false with core := 4, wkg := 5 }
  let spawn : Eff := { ix := 1, op := .spawn 0 0, elems := [{ lane := 0, addr := 0, data := [], b := 0, c := 0, pa := 0, st := .fresh }] }
  { g with nodes := g.nodes.map fun n => { n with ctx := n.ctx.map fun c => { c with effs := [spawn] } } }

/-- A group at rest of the workgroup that ends, which bears the same number. -/
def restingGroup : Group := { State.probeGroup 7 true with core := 4 }

/-- Cluster 0 is marked. -/
def clusterMark : Fatal := { clu := 0, reason := 1, code := 0, part := 0, serial := 1, wkg := 0, gid := 0xFFFF, stops := [] }

/-- The machine whose cluster 0 is to end. -/
def endingState : State :=
  { State.reset.placeCore 32 0 with
    parts := [loggingPart], groups := [reservingGroup, restingGroup], fatals := [clusterMark] }

/-- What TERMCNT reads once the cluster has ended. -/
def endedCount : List Byte :=
  match execClusterTermination 0 endingState with
  | .next t => pread t 0x40000 8
  | _ => []

theorem endedCount_eq : endedCount = leBytes 8 4 := by decide +kernel

theorem endingState_wkgs : endingState.wkgs.filter (onCluster 0) = [State.probeWkg] := by decide +kernel

theorem endingState_running :
    (endingState.groups.filter fun g => g.landing.isNone && cluOfCore g.core == 0) = [] := by decide +kernel

/-- The termination log's page is memory of die 0. -/
theorem tierOf_log {a : Nat} (hlo : 0x40000 ≤ a) (hhi : a < 0x44008) : tierOf a = some (.hbm, 0) := by
  unfold tierOf
  rw [if_pos (by simp only [hbmDie]; omega), Nat.div_eq_of_lt (by simp only [hbmDie]; omega)]

theorem endingState_log {a : Nat} (hlo : 0x40000 ≤ a) (hhi : a < 0x44008) :
    populated endingState a = true ∧ sealHolds endingState a = false ∧ reaches endingState 0 a = true := by
  have htier := tierOf_log hlo hhi
  refine ⟨?_, ?_, ?_⟩
  · unfold populated
    rw [htier]
  · have hseals : (endingState.parts.all fun p => p.seals.all fun r => r.st == .empty) = true := by decide +kernel
    unfold sealHolds
    rw [List.any_eq_false]
    intro p hp
    rw [Bool.not_eq_true, List.any_eq_false]
    intro r hr
    have := List.all_eq_true.mp (List.all_eq_true.mp hseals p hp) r hr
    simp [beq_iff_eq.mp this]
  · unfold reaches homeDie
    rw [htier]
    decide +kernel

/-- Refutes O51: as the workgroup ends, the number of its group at rest is that of a group elsewhere whose open trace is rolled back, and
the slot that becomes void is a byte of TERMCNT. -/
theorem not_clustersTerminate : ¬ Obligations.ClustersTerminate := by
  unfold Obligations.ClustersTerminate
  intro h
  obtain ⟨-, h⟩ := h endingState 0 clusterMark (by decide +kernel)
  rw [endingState_running, endingState_wkgs] at h
  obtain ⟨t, hexec, -, -, -, -, -, h⟩ := h (by decide +kernel)
  obtain ⟨hcount, -⟩ := h loggingPart 0 (by decide +kernel) (by decide +kernel) (by decide) rfl (by decide +kernel) (by decide)
    (fun w hw => by
      obtain rfl := List.mem_singleton.mp hw
      exact ⟨rfl, by decide, by decide, by decide +kernel, fun a hlo hhi => (endingState_log hlo hhi).2.2, by decide +kernel⟩)
    (fun a hlo hhi => ⟨(endingState_log hlo hhi).1, (endingState_log hlo hhi).2.1⟩) (by decide +kernel) (by decide)
  have hended : endedCount = pread t 0x40000 8 := by
    unfold endedCount
    rw [show execClusterTermination 0 endingState = .next t from hexec]
  rw [endedCount_eq, show pread t 0x40000 8 = leBytes 8 1 from hcount] at hended
  exact absurd hended (by decide)

end Sys2Proof.Machine
end

section
/-! PROOFS. Commits of traces that hold stores, load returns, fusion and spill (R98, R99, R116, R120, R124, R126, R146). -/
namespace Sys2Proof.Machine

/-- Replacing the entries of a key finds the new one under it, where there was one. -/
theorem find?_replaced {α κ : Type} [BEq κ] [ReflBEq κ] (key : α → κ) {x : α} {l : List α}
    (h : (l.find? fun y => key y == key x).isSome = true) :
    (l.map fun y => if key y == key x then x else y).find? (fun y => key y == key x) = some x := by
  induction l with
  | nil => cases h
  | cons y ys ih =>
    rw [List.map_cons]
    by_cases hy : (key y == key x) = true
    · rw [if_pos hy, List.find?_cons_of_pos (p := fun y => key y == key x) BEq.rfl]
    · rw [List.find?_cons_of_neg (p := fun y => key y == key x) hy] at h
      rw [if_neg hy, List.find?_cons_of_neg (p := fun y => key y == key x) hy, ih h]

/-! ### A fragment in its group -/

section Standing
variable {s : State} {uid ix : Nat} {g g' : Group} {n n' : Node} {c : Ctx}

/-- A fragment stands in a group of the machine. -/
structure StandsIn (s : State) (uid ix : Nat) (g : Group) (n : Node) : Prop where
  group : s.group? uid = some g
  node : g.node? ix = some n

theorem group?_uid (h : s.group? uid = some g) : g.uid = uid := by simpa using List.find?_some h
theorem node?_ix (h : g.node? ix = some n) : n.ix = ix := by simpa using List.find?_some h

theorem node?_setNode (h : g.node? n'.ix = some n) : (g.setNode n').node? n'.ix = some n' :=
  find?_replaced Node.ix (Option.isSome_of_eq_some h)

/-- A fragment that is put back stands in its group. -/
theorem StandsIn.put (h : StandsIn s uid ix g n) (hu : g'.uid = g.uid) (hns : g'.nodes = g.nodes) (hix : n'.ix = n.ix) :
    StandsIn (s.setGroup (g'.setNode n')) uid ix (g'.setNode n') n' := by
  have huid := group?_uid h.group
  have hnix := node?_ix h.node
  refine ⟨?_, ?_⟩
  · rw [← huid, ← hu] at h ⊢
    exact State.group?_setGroup (x := g'.setNode n') (by rw [Group.setNode_uid, h.group]; rfl)
  · have hnode : g'.node? n'.ix = some n := by
      unfold Group.node?
      rw [hns, hix, hnix]
      exact h.node
    rw [← hnix, ← hix]
    exact node?_setNode hnode

theorem StandsIn.trace (h : StandsIn s uid ix g n) (hc : n.ctx = some c) : traceOf s uid ix = some (g, n, c) := by
  unfold traceOf
  rw [h.group]
  dsimp only
  rw [h.node]
  dsimp only
  rw [hc]
  rfl

theorem StandsIn.onTrace (h : StandsIn s uid ix g n) (hc : n.ctx = some c) (f : State → Group → Node → Ctx → State) :
    onTrace s uid ix f = f s g n c := by
  unfold Machine.onTrace
  rw [h.trace hc]

end Standing

/-! ### Stores enter the pipeline (R120, R124, R146) -/

section Stores
variable {s : State} {uid ix : Nat} {g : Group} {n : Node} {c : Ctx}

/-- An effect that is a store, each of whose elements commits. -/
def CommittingStore (c : Ctx) (e : Eff) : Prop :=
  (∃ sp w rel sc uni, e.op = .store sp w rel sc uni) ∧ e.elems ≠ [] ∧
    ∀ x ∈ e.elems, x.lane = uniLane ∨ c.active.getLsbD x.lane = true

/-- What of an item in the pipeline comes from its trace. -/
def Item.told (it : Item) : Nat × Nat × EffOp × List (Nat × Nat × List Byte) :=
  (it.group, it.eff.ix, it.eff.op, it.eff.elems.map fun x => (x.lane, x.addr, x.data))

/-- What of an effect its item keeps. -/
def Eff.told (e : Eff) (uid : Nat) : Nat × Nat × EffOp × List (Nat × Nat × List Byte) :=
  (uid, e.ix, e.op, e.elems.map fun x => (x.lane, x.addr, x.data))

theorem committing_all {e : Eff} (h : CommittingStore c e) : committing c e = e.elems := by
  obtain ⟨-, -, hlanes⟩ := h
  unfold committing
  rw [List.filter_eq_self]
  intro x hx
  rcases hlanes x hx with h | h <;> simp [h]

/-- One store enters: an item at the pipeline's end, one more in ST. -/
theorem enterEff_store {e : Eff} (h : CommittingStore c e) (hg : s.group? uid = some g) (hlanding : g.landing = none)
    (mma : State → Group → Eff → State) : ∃ t, enterEff mma c n s g e = t ∧ t.group? uid = some { g with st := g.st + 1 } ∧
      t.mem = s.mem ∧ t.pipe.map Item.told = s.pipe.map Item.told ++ [e.told uid] := by
  refine ⟨_, rfl, ?_⟩
  have huid := group?_uid hg
  have hall := committing_all h
  obtain ⟨⟨sp, w, rel, sc, uni, hop⟩, hne, -⟩ := h
  have hitem : ∀ it : Item, it.told = e.told uid → ∀ t, t = onGroup (addItem s it) g.uid (fun g => { g with st := g.st + 1 }) →
      t.group? uid = some { g with st := g.st + 1 } ∧ t.mem = s.mem ∧ t.pipe.map Item.told = s.pipe.map Item.told ++ [e.told uid] := by
    rintro it hit t rfl
    have hgroup : (addItem s it).group? g.uid = some g := by rw [huid]; exact hg
    unfold onGroup
    rw [hgroup]
    refine ⟨?_, rfl, ?_⟩
    · rw [← huid]
      exact State.group?_setGroup (x := { g with st := g.st + 1 }) (by rw [hgroup]; rfl)
    · rw [← hit]
      simp [addItem, Item.told]
  cases e with
  | mk op eix elems =>
    subst hop
    unfold enterEff
    dsimp only
    rw [hall, if_neg (by simpa using hne), if_neg (by simp [hlanding])]
    refine hitem _ ?_ _ rfl
    split <;> simp [itemOf, Item.told, Eff.told, huid, Function.comp_def]

/-- A trace that holds nothing but stores. -/
def OnlyStores (c : Ctx) : Prop := ∀ e ∈ c.effs, ∃ sp w rel sc uni, e.op = .store sp w rel sc uni

/-- What the entering of a trace's stores leaves: its fragment as it stands, the group's ST counting them, items in program order. -/
structure StoresEntered (s t : State) (uid ix : Nat) (g g' : Group) (n : Node) (es : List Eff) : Prop where
  stands : StandsIn t uid ix g' n
  pend : g'.pend = g.pend
  mem : t.mem = s.mem
  counted : g'.st = g.st + BitVec.ofNat 32 es.length
  items : t.pipe.map Item.told = s.pipe.map Item.told ++ es.map (·.told uid)

theorem storesEntered_nil (h : StandsIn s uid ix g n) : StoresEntered s s uid ix g g n [] where
  stands := h
  pend := rfl
  mem := rfl
  counted := by simp
  items := by simp

theorem foldl_enterEff_stores (mma : State → Group → Eff → State) (es : List Eff) : ∀ {s : State} {g : Group}, StandsIn s uid ix g n →
    g.landing = none → (∀ e ∈ es, CommittingStore c e) → ∃ g', StoresEntered s (es.foldl (fun s e => match s.group? uid with
      | some g => enterEff mma c n s g e
      | none => s) s) uid ix g g' n es := by
  induction es with
  | nil => exact fun h _ _ => ⟨_, storesEntered_nil h⟩
  | cons e es ih =>
    intro s g h hlanding hes
    obtain ⟨t, ht, hgroup, hmem, hitems⟩ := enterEff_store (n := n) (hes e List.mem_cons_self) h.group hlanding mma
    obtain ⟨g', hgo⟩ := ih (s := t) (g := { g with st := g.st + 1 }) ⟨hgroup, h.node⟩ hlanding fun x hx => hes x (List.mem_cons_of_mem e hx)
    refine ⟨g', ?_⟩
    rw [List.foldl_cons, h.group]
    dsimp only
    rw [ht]
    exact {
      stands := hgo.stands
      pend := hgo.pend
      mem := hgo.mem.trans hmem
      counted := by
        rw [hgo.counted, List.length_cons, Nat.add_comm, BitVec.ofNat_add, ← BitVec.add_assoc]
        rfl
      items := by rw [hgo.items, hitems, List.append_assoc]; rfl }

theorem enterTrace_stores (h : StandsIn s uid ix g n) (hc : n.ctx = some c) (hlanding : g.landing = none)
    (hes : ∀ e ∈ c.effs, CommittingStore c e) (mma : State → Group → Eff → State) :
    ∃ g', StoresEntered s (enterTrace mma s uid ix) uid ix g g' n c.effs := by
  unfold enterTrace
  rw [h.trace hc]
  exact foldl_enterEff_stores mma c.effs h hlanding hes

theorem enterTrace_nothing (h : StandsIn s uid ix g n) (hc : n.ctx = some c) (hes : c.effs = []) (mma : State → Group → Eff → State) :
    enterTrace mma s uid ix = s := by
  unfold enterTrace
  rw [h.trace hc]
  dsimp only
  unfold eachEff
  rw [hes]
  rfl

/-- Stores have nothing to enter behind the commit. -/
theorem enterTraceLate_stores (h : StandsIn s uid ix g n) (hc : n.ctx = some c) (hes : OnlyStores c) : enterTraceLate s uid ix = s := by
  unfold enterTraceLate
  rw [h.trace hc]
  dsimp only
  unfold eachEff
  refine List.foldlRecOn (motive := fun t => t = s) c.effs _ rfl ?_
  rintro t rfl e he
  obtain ⟨sp, w, rel, sc, uni, hop⟩ := hes e he
  split
  · unfold enterLate
    dsimp only
    rw [hop]
  · rfl

end Stores

/-! ### The commit of a trace that holds nothing but stores -/

section Commit
variable {s : State} {uid ix target : Nat} {g g' : Group} {n : Node} {c : Ctx}

theorem dlogCount_stores (h : OnlyStores c) : dlogCount c = 0 := by
  unfold dlogCount
  refine List.foldlRecOn (motive := fun k => k = 0) c.effs _ rfl ?_
  rintro k rfl e he
  obtain ⟨sp, w, rel, sc, uni, hop⟩ := h e he
  rw [hop]

theorem firstMma_stores (h : OnlyStores c) : firstMma c = none := by
  unfold firstMma
  rw [List.findSome?_eq_none_iff]
  intro e he
  obtain ⟨sp, w, rel, sc, uni, hop⟩ := h e he
  rw [hop]

theorem hasIcinv_stores (h : OnlyStores c) : hasIcinv c = false := by
  unfold hasIcinv
  rw [List.any_eq_false]
  intro e he
  obtain ⟨sp, w, rel, sc, uni, hop⟩ := h e he
  rw [hop]
  exact Bool.false_ne_true

/-- The trace of a fragment that has come to its end: its terminator names a trace, all its lanes are there, and it is not checked. -/
structure Ends (s : State) (uid ix target : Nat) (g : Group) (n : Node) (c : Ctx) : Prop where
  stands : StandsIn s uid ix g n
  ctx : n.ctx = some c
  term : c.term = some (.fin target)
  issues : canIssue s g n = true
  fails : c.fails = []
  entered : c.entered = none
  arrival : c.arrival = none
  active : c.active = n.mask
  lanes : n.mask ≠ 0
  flow : c.flow = none
  mode : c.hdr.mode = false
  pend : g.pend = false
  loads : ∀ l ∈ g.loads, l.node ≠ ix
  stores : OnlyStores c

theorem Ends.commitHeld (h : Ends s uid ix target g n c) (hl : g.landing = none ∨ c.effs = []) : commitHeld s g c = false := by
  unfold Machine.commitHeld
  rw [Bool.and_eq_false_iff]
  right
  rw [List.any_eq_false]
  intro e he
  rcases hl with hl | hl
  · obtain ⟨sp, w, rel, sc, uni, hop⟩ := h.stores e he
    rw [hop]
    simp [hl, h.mode]
  · rw [hl] at he
    cases he

/-- Neither a check nor a fault comes before this commit. -/
theorem Ends.beforeCommit (h : Ends s uid ix target g n c) : beforeCommit s uid ix = s := by
  have hcheck : checkTrace s uid ix = s := by
    unfold checkTrace
    rw [h.stands.trace h.ctx]
    dsimp only
    rw [if_neg (by rw [h.mode]; decide)]
  have hwindow : checkWindow s uid ix = s := by
    unfold checkWindow
    rw [h.stands.onTrace h.ctx]
    dsimp only
    rw [h.fails, h.term]
    rfl
  unfold Machine.beforeCommit
  rw [hcheck, hwindow]
  unfold checkPark
  rw [h.stands.onTrace h.ctx, h.fails]
  rfl

theorem Ends.claimEndx (h : Ends s uid ix target g n c) : claimEndx s uid ix = some s := by
  unfold Machine.claimEndx
  rw [h.stands.trace h.ctx]
  dsimp only
  rw [h.term]

/-- A commit of a trace that ends is its stores' entering, the lanes', and what follows. -/
theorem Ends.commits (h : Ends s uid ix target g n c) (hl : g.landing = none ∨ c.effs = []) : exec (.traceCommit uid ix) s =
    .next (afterCommit (commitLanes (enterTraceLate (enterTrace (fun s _ _ => s) s uid ix) uid ix) uid ix) uid ix) := by
  have hlog : dlogCount c = 0 := dlogCount_stores h.stores
  have hack : seeAck s g (dlogCount c) = s := by
    unfold seeAck
    rw [hlog]
    split <;> rfl
  have hfits : logFits s g c = true := by
    unfold logFits logRoom
    rw [hlog]
    split <;> rfl
  refine congrArg Host.Outcome.next ?_
  rw [h.stands.trace h.ctx]
  dsimp only
  rw [if_neg (by simp [h.term, h.issues]), if_neg (by simp [h.entered]), if_neg (by simpa [h.arrival, h.commitHeld hl] using h.loads),
    h.claimEndx]
  dsimp only
  rw [h.beforeCommit, hack, h.stands.trace h.ctx]
  dsimp only
  rw [if_neg (by simp [h.issues, hfits]), if_neg (by rw [h.active]; exact h.lanes), if_neg (by simp [hasMma, firstMma_stores h.stores])]

/-- Lanes that all stay leave the group's fragments, its counters and the machine as they are. -/
theorem leaveLanes_none {ls : LaneMask} (h : StandsIn s uid ix g n) (hc : n.ctx = some c) (hfails : c.fails = []) (hlanes : ls = n.mask)
    (hstores : OnlyStores c) : ∃ g' : Group, leaveLanes s uid ix ls = s.setGroup (g'.setNode n) ∧ g'.uid = g.uid ∧ g'.nodes = g.nodes ∧
      g'.pend = g.pend ∧ g'.st = g.st := by
  subst hlanes
  have hvoid : ∀ gone, voidSlots s g c gone = s := voidSlots_none fun e he q a hop => by
    obtain ⟨sp, w, rel, sc, uni, hstore⟩ := hstores e he
    rw [hstore] at hop
    cases hop
  refine ⟨(restoreLanes g c ((n.mask &&& ~~~n.mask) ||| c.helpers)).noteSeqs [], ?_, rfl, rfl, rfl, rfl⟩
  unfold leaveLanes
  rw [h.onTrace hc]
  dsimp only
  rw [hvoid, hfails]
  rfl

/-- What the commit of a trace without failed lanes leaves. -/
structure Committed (s t : State) (uid ix target : Nat) (g g' : Group) (n n' : Node) (c' : Ctx) : Prop where
  stands : StandsIn t uid ix g' n'
  ctx : n'.ctx = some c'
  mask : n'.mask = n.mask
  term : c'.term = some (.fin target)
  flow : c'.flow = none
  entered : c'.entered.isSome = true
  effs : OnlyStores c'
  pend : g'.pend = g.pend
  counted : g'.st = g.st
  mem : t.mem = s.mem
  pipe : t.pipe = s.pipe

theorem commitLanes_committed (h : StandsIn s uid ix g n) (hc : n.ctx = some c) (hterm : c.term = some (.fin target))
    (hfails : c.fails = []) (hactive : c.active = n.mask) (hflow : c.flow = none) (hstores : OnlyStores c) :
    ∃ g' n' c', Committed s (commitLanes s uid ix) uid ix target g g' n n' c' := by
  unfold commitLanes
  rw [h.onTrace hc]
  generalize hg1 : ({ g with fstat := g.fstat ||| BitVec.ofNat 32 (commitFlags c),
                             grant := if c.ticket then { g.grant with st := 0 } else g.grant } : Group) = g1
  generalize hc1 : ({ c with owned := [], ticket := false, term := c.readTerm g n } : Ctx) = c1
  have hread : c.readTerm g n = some (.fin target) := by
    unfold Ctx.readTerm
    rw [hterm]
  have h1 : StandsIn (putCtx s g1 n c1) uid ix (g1.setNode { n with ctx := some c1 }) { n with ctx := some c1 } :=
    h.put (by rw [← hg1]) (by rw [← hg1]) rfl
  obtain ⟨g2, hleave, huid, hns, hpend, hst⟩ := leaveLanes_none (c := c1) (ls := c1.active) h1 rfl (by rw [← hc1]; exact hfails)
    (by rw [← hc1]; exact hactive) (by rw [← hc1]; exact hstores)
  have h2 := h1.put (n' := { n with ctx := some c1 }) huid hns rfl
  dsimp only
  rw [h1.trace rfl]
  dsimp only
  rw [hleave, h2.onTrace rfl]
  refine ⟨_, _, _, {
    stands := h2.put rfl rfl rfl
    ctx := rfl
    mask := rfl
    term := by rw [← hc1]; exact hread
    flow := by rw [← hc1]; exact hflow
    entered := rfl
    effs := by rw [← hc1]; exact hstores
    pend := by rw [Group.setNode_pend, Group.setNode_pend, hpend, Group.setNode_pend, ← hg1]
    counted := by rw [Group.setNode_st, Group.setNode_st, hst, Group.setNode_st, ← hg1]
    mem := rfl
    pipe := rfl }⟩

/-- The fragment of a commit that is done goes on at its successor. -/
theorem afterCommit_goes {t : State} {n' : Node} {c' : Ctx} (h : Committed s t uid ix target g g' n n' c') (hpend : g.pend = false) :
    afterCommit t uid ix = t.setGroup (g'.setNode { n'.free c'.hdr.kind.toNat with trace := target }) := by
  unfold afterCommit
  rw [h.stands.onTrace h.ctx]
  obtain ⟨mark, hmark⟩ := Option.isSome_iff_exists.mp h.entered
  dsimp only
  rw [hmark, h.flow]
  dsimp only
  rw [if_neg (by simp [hasIcinv_stores h.effs]), if_neg (by simp [hasIcinv_stores h.effs])]
  unfold finishTerm
  rw [h.term]
  dsimp only
  unfold goOn
  rw [if_neg (by simp [delivers, h.pend, hpend]), h.flow]

/-- Where the commit of a trace of stores leaves its fragment and its group. -/
structure WentOn (s t : State) (uid ix target : Nat) (g g' : Group) (n n' : Node) : Prop where
  stands : StandsIn t uid ix g' n'
  st : n'.st = .ready
  trace : n'.trace = target
  mask : n'.mask = n.mask
  s63 : n'.s63 = s63Of 2 0 0 0
  ctx : n'.ctx = none
  counted : g'.st = g.st
  mem : t.mem = s.mem
  pipe : t.pipe = s.pipe

/-- Once its stores are entered, a trace commits and its fragment goes on. -/
theorem Ends.goes (h : Ends s uid ix target g n c) {t : State} {g1 : Group} (h1 : StandsIn t uid ix g1 n) (hpend : g1.pend = g.pend) :
    ∃ g' n', WentOn t (afterCommit (commitLanes (enterTraceLate t uid ix) uid ix) uid ix) uid ix target g1 g' n n' := by
  rw [enterTraceLate_stores h1 h.ctx h.stores]
  obtain ⟨g2, n2, c2, hdone⟩ := commitLanes_committed h1 h.ctx h.term h.fails h.active h.flow h.stores
  rw [afterCommit_goes hdone (hpend.trans h.pend)]
  refine ⟨_, _, {
    stands := hdone.stands.put rfl rfl rfl
    st := rfl
    trace := rfl
    mask := hdone.mask
    s63 := rfl
    ctx := rfl
    counted := hdone.counted
    mem := hdone.mem
    pipe := hdone.pipe }⟩

end Commit

/-! ### Load returns, fusion, and the split table -/

section Tree
variable {s : State} {uid ix : Nat} {g : Group} {n : Node} {c : Ctx}

/-- The data of a load without an error reaches its registers. -/
theorem returnLoad_clean {l : Load} (hbad : badLanes s g l = []) (hiv : l.iv = 0) : returnLoad s g n c l =
    (let r := l.writes.foldl loadWrite ({ g with loads := g.loads.filter (·.id != l.id) }, n, { c with ix := l.ix })
     putCtx s r.1 r.2.1 { r.2.2 with ix := c.ix }.settle) := by
  unfold returnLoad badIntervals
  simp only [hbad, hiv, if_true, List.filter_nil, List.append_nil, List.find?_nil, List.any_nil, Bool.not_false, filter_always,
    faultLanes_nil]

/-- A fragment that survives the collapse of join nodes: none of them has its index. -/
def Survives (ns : List Node) (x : Node) : Prop :=
  (∃ y ∈ ns, y.ix = x.ix ∧ y.mask = x.mask ∧ y.s63 = x.s63 ∧ y.st = .ready ∧ y.trace = x.trace ∧ y.rank = x.rank) ∧
    ∀ y ∈ ns, y.st = .joinNode → y.ix ≠ x.ix

theorem collapse_survives {x : Node} (k : Nat) : ∀ ns, Survives ns x → Survives (collapse k ns) x := by
  induction k with
  | zero => exact fun ns h => h
  | succ k ih =>
    intro ns h
    unfold collapse
    split
    · exact h
    · next j hj =>
      refine ih _ ?_
      obtain ⟨⟨y, hy, hix, hmask, hs63, hst, htrace, hrank⟩, hjoins⟩ := h
      have hjoin : j.st = .joinNode := by
        have := List.find?_some hj
        simp only [Bool.and_eq_true, beq_iff_eq] at this
        exact this.1
      have hne : y.ix ≠ j.ix := hix ▸ (hjoins j (List.mem_of_find?_eq_some hj) hjoin).symm
      have hkept : y ∈ ns.filter fun n => n.ix != j.ix := List.mem_filter.mpr ⟨hy, by simpa using hne⟩
      refine ⟨?_, ?_⟩
      · refine ⟨_, List.mem_map_of_mem hkept, ?_⟩
        split
        · rw [if_neg (by simp [hst])]
          exact ⟨hix, hmask, hs63, hst, htrace, hrank⟩
        · exact ⟨hix, hmask, hs63, hst, htrace, hrank⟩
      · intro z hz hzst
        obtain ⟨w, hw, rfl⟩ := List.mem_map.mp hz
        have hwns := mem_of_mem_filtered hw
        revert hzst
        refine iteInduction (motive := fun z : Node => z.st = .joinNode → z.ix ≠ x.ix) (fun _ => ?_) (fun _ => hjoins w hwns)
        exact iteInduction (motive := fun z : Node => z.st = .joinNode → z.ix ≠ x.ix) (fun _ hzst => nomatch hzst) fun _ => hjoins w hwns

/-- The lowest of some fragments. -/
theorem foldl_lowest (ns : List Node) : ∀ b : Node,
    ns.foldl (fun (b : Node) m => if m.rank < b.rank then m else b) b ∈ b :: ns ∧
      ∀ k ∈ b :: ns, (ns.foldl (fun (b : Node) m => if m.rank < b.rank then m else b) b).rank ≤ k.rank := by
  induction ns with
  | nil => simp
  | cons m ns ih =>
    intro b
    rw [List.foldl_cons]
    obtain ⟨hmem, hle⟩ := ih (if m.rank < b.rank then m else b)
    have hboth : (if m.rank < b.rank then m else b).rank ≤ m.rank ∧ (if m.rank < b.rank then m else b).rank ≤ b.rank := by
      split <;> omega
    refine ⟨?_, ?_⟩
    · rcases List.mem_cons.mp hmem with h | h
      · rw [h]
        split <;> simp
      · exact List.mem_cons_of_mem _ (List.mem_cons_of_mem _ h)
    · intro k hk
      have hfirst := hle _ List.mem_cons_self
      rcases List.mem_cons.mp hk with rfl | hk
      · exact Nat.le_trans hfirst hboth.2
      rcases List.mem_cons.mp hk with rfl | hk
      · exact Nat.le_trans hfirst hboth.1
      · exact hle k (List.mem_cons_of_mem _ hk)

/-- Where every child of a join node waits at its JOIN, one fragment of all their lanes goes on from the lowest one's successor. -/
theorem rejoinFusion_fuses (h : StandsIn s uid ix g n) (hmay : mayFuse g n = true) : ∃ (t : State) (g' : Group),
    exec (.rejoinFusion uid ix) s = .next t ∧ t.group? uid = some g' ∧
      ∃ n' ∈ g'.nodes, n'.mask = (childrenOf g.nodes ix).foldl (fun m x => m ||| x.mask) 0 ∧ n'.s63 = s63Of 10 0 0 0 ∧
        n'.st = .ready ∧ ∃ m ∈ childrenOf g.nodes ix, n'.trace = m.next ∧ n'.rank = m.rank ∧
          ∀ k ∈ childrenOf g.nodes ix, m.rank ≤ k.rank := by
  have hix := node?_ix h.node
  have huid := group?_uid h.group
  have hlen : 2 ≤ (childrenOf g.nodes ix).length := by
    simp only [mayFuse, Bool.and_eq_true, decide_eq_true_eq, hix] at hmay
    exact hmay.1.2
  obtain ⟨c0, rest, hcs⟩ : ∃ c0 rest, childrenOf g.nodes ix = c0 :: rest := by
    cases hcs : childrenOf g.nodes ix with
    | nil => rw [hcs] at hlen; simp at hlen
    | cons c0 rest => exact ⟨c0, rest, rfl⟩
  obtain ⟨hmem, hlow⟩ := foldl_lowest rest c0
  generalize hl : rest.foldl (fun (b : Node) m => if m.rank < b.rank then m else b) c0 = low at hmem hlow
  let fused : Node := { low with
    mask := (c0 :: rest).foldl (fun m x => m ||| x.mask) 0, trace := low.next, rejoin := n.rejoin, parent := n.parent, st := .ready,
    s63 := s63Of 10 0 0 0, next := 0, toHandler := false, ctx := none }
  let kept : List Node := g.nodes.filter fun m => m.ix != n.ix && !(c0 :: rest).any fun x => x.ix == m.ix
  refine ⟨s.setGroup { g with nodes := collapseAll (kept ++ [fused]) }, { g with nodes := collapseAll (kept ++ [fused]) }, ?_, ?_, ?_⟩
  · refine congrArg Host.Outcome.next ?_
    rw [h.group]
    dsimp only
    rw [h.node]
    dsimp only
    rw [if_neg (by simp [hmay]), hix, hcs]
    dsimp only
    rw [hl, ← hix]
  · rw [← huid]
    exact State.group?_setGroup (x := { g with nodes := collapseAll (kept ++ [fused]) }) (by rw [huid, h.group]; rfl)
  · have hstart : Survives (kept ++ [fused]) fused := by
      refine ⟨⟨fused, by simp, rfl, rfl, rfl, rfl, rfl, rfl⟩, ?_⟩
      intro y hy hyst heq
      rcases List.mem_append.mp hy with hy | hy
      · have hno := (List.mem_filter.mp hy).2
        simp only [Bool.and_eq_true, Bool.not_eq_true', List.any_eq_false, beq_iff_eq] at hno
        exact hno.2 low hmem heq.symm
      · rw [List.mem_singleton.mp hy] at hyst
        cases hyst
    obtain ⟨⟨y, hy, -, hmask, hs63, hst, htrace, hrank⟩, -⟩ := collapse_survives ((kept ++ [fused]).length + 1) _ hstart
    refine ⟨y, hy, ?_⟩
    rw [hcs]
    exact ⟨hmask, hs63, hst, low, hmem, htrace, hrank, hlow⟩

/-- A spilled fragment takes an entry of the split table, or the youngest at rest gives its own. -/
theorem fragmentSpillMove_takes (h : StandsIn s uid ix g n) (htabled : n.tabled = false) (hst : n.st = .ready) :
    (hasEntry s g = true → exec (.fragmentSpillMove uid ix) s = .next (s.setGroup (g.setNode { n with tabled := true }))) ∧
    (∀ m, hasEntry s g = false → youngestAtRest g = some m → exec (.fragmentSpillMove uid ix) s =
      .next (s.setGroup ((g.setNode { m with tabled := false }).setNode { n with tabled := true }))) := by
  have hmoves : ¬ (n.tabled || !n.leaf || n.st != .ready) = true := by simp [htabled, hst, Node.leaf]
  refine ⟨fun hroom => ?_, fun m hroom hm => ?_⟩
  · refine congrArg Host.Outcome.next ?_
    rw [h.group]
    dsimp only
    rw [h.node]
    dsimp only
    rw [if_neg hmoves, if_pos hroom]
  · refine congrArg Host.Outcome.next ?_
    rw [h.group]
    dsimp only
    rw [h.node]
    dsimp only
    rw [if_neg hmoves, if_neg (by simp [hroom]), hm]

end Tree

/-- A line whose flaw is that it has none stays as it is. -/
theorem firstFlaw_clean (s : State) (l : Load) : (match l.spans with
    | [] => s
    | sp :: _ => setFlaw s (sp.2.1 / 64 * 64) .clean) = s := by
  split <;> rfl

/-- A load returns in the state in which its lines have met their check codes. -/
def returnSeen (uid : Nat) (g : Group) (n : Node) (c : Ctx) (l : Load) (s : State) : State :=
  let s1 := l.spans.foldl (fun s sp => seeSpan s g.die sp.2.1 sp.2.2 (some g.part) g.coreNo) s
  match s1.group? uid with
  | some g1 => returnLoad s1 g1 n c l
  | none => s1

theorem loadDataReturn_seen {s : State} {uid ix : Nat} {g : Group} {n : Node} {c : Ctx} {l : Load} (h : StandsIn s uid ix g n)
    (hc : n.ctx = some c) (hl : (g.loads.find? fun y => y.id == l.id && y.rread.isNone) = some l) (hnode : l.node = ix) :
    exec (.loadDataReturn uid l.id .clean) s = .next (returnSeen uid g n c l s) := by
  refine congrArg Host.Outcome.next ?_
  rw [h.group]
  dsimp only
  rw [hl]
  dsimp only
  rw [hnode, h.trace hc]
  exact congrArg (returnSeen uid g n c l) (firstFlaw_clean s l)

/-- Settles O52: the two clauses on commits share one course, in which the entered stores make the difference. -/
theorem tracesCommitAndFuse : Obligations.TracesCommitAndFuse := by
  unfold Obligations.TracesCommitAndFuse
  intro s uid ix g n hg hn
  have hin : StandsIn s uid ix g n := ⟨hg, hn⟩
  refine ⟨?_, ?_, ?_, rejoinFusion_fuses hin, fragmentSpillMove_takes hin⟩
  · intro c target hctx hterm hissue heffs hfails hentered harrival hactive hmask _ hflow hmode hpend hloads
    have hends : Ends s uid ix target g n c := ⟨hin, hctx, hterm, hissue, hfails, hentered, harrival, hactive, hmask, hflow, hmode, hpend,
      hloads, by simp [OnlyStores, heffs]⟩
    have hexec := hends.commits (Or.inr heffs)
    rw [enterTrace_nothing hin hctx heffs] at hexec
    obtain ⟨g', n', hgo⟩ := hends.goes hin rfl
    exact ⟨_, g', n', hexec, hgo.stands.group, hgo.stands.node, hgo.st, hgo.trace, hgo.mask, hgo.s63, hgo.ctx, hgo.mem, hgo.pipe⟩
  · intro c target hctx hterm hissue hfails hentered harrival hactive hmask _ hflow hmode hpend hlanding hloads heffs
    have hends : Ends s uid ix target g n c := ⟨hin, hctx, hterm, hissue, hfails, hentered, harrival, hactive, hmask, hflow, hmode, hpend,
      hloads, fun e he => (heffs e he).1⟩
    obtain ⟨g1, hstores⟩ := enterTrace_stores hin hctx hlanding heffs fun s _ _ => s
    obtain ⟨g', n', hgo⟩ := hends.goes hstores.stands hstores.pend
    refine ⟨_, g', n', hends.commits (Or.inl hlanding), hgo.stands.group, hgo.stands.node, hgo.st, hgo.trace, hgo.ctx, ?_, ?_, ?_⟩
    · exact hgo.mem.trans hstores.mem
    · exact hgo.counted.trans hstores.counted
    · exact (congrArg (List.map Item.told) hgo.pipe).trans hstores.items
  · intro c l hctx hl hnode hiv t g1 hg1 hbad
    rw [loadDataReturn_seen hin hctx hl hnode]
    refine congrArg Host.Outcome.next ?_
    unfold returnSeen
    dsimp only
    rw [hg1]
    exact returnLoad_clean hbad hiv


end Sys2Proof.Machine
end

section
/-! PROOFS. The gangway latch, barriers and rings complete (R131, R172, R220, R228, R229, R305, R306, R308). -/
namespace Sys2Proof.Machine

/-! ### The gangway latch (R229) -/

section Latch
variable {s s0 : State} {uid k : Nat} {gr : Group} {js : List Arrival}

/-- The waiting fragments of each member of a group's gang. -/
def membersOf (s : State) (gr : Group) : List (List (Nat × Nat × Nat × Ctx)) :=
  (List.range (gangCount gr.gang)).map fun i => arrivedOf s gr (gangBase gr.gang + i)

/-- The fragments that hold the first `k` arrivals of each member, in the order in which they arrived. -/
def committers (ms : List (List (Nat × Nat × Nat × Ctx))) (k : Nat) : List (Nat × Nat × Nat × Ctx) :=
  let arr := ms.map fun ws => (arrivalsOf ws).take k
  (ms.flatMap fun ws => ws.filter fun w => arr.any fun a => a.any fun j => j.uid == w.2.1 && j.nix == w.2.2.1).foldl
    (fun acc w => insertArrived w acc) []

theorem membersOf_fold (s : State) (gr : Group) :
    ((List.range (gangCount gr.gang)).map fun i => arrivedOf s gr (gangBase gr.gang + i)) = membersOf s gr := rfl

/-- Where the fragments are whole and a joint operation's vote fails, its members take its code. -/
theorem latchOpen_faults (hg : s.group? uid = some gr) (hk : opening ((membersOf s gr).map prefixCounts) = some k)
    (hjs : ((jointOps (membersOf s gr)).take k).find? (fun js => voteCode js != 0) = some js) :
    exec (.gangwayLatchOpen uid) s = .next (js.foldl (voteFault (voteCode js)) s) := by
  refine congrArg Host.Outcome.next ?_
  rw [hg]
  dsimp only
  rw [membersOf_fold, hk]
  split
  case h_3 heq =>
    cases heq
    rw [hjs]
  all_goals contradiction

/-- So they do as soon as a vote fails, before the fragments are whole. -/
theorem latchOpen_faults_early (hg : s.group? uid = some gr) (hk : opening ((membersOf s gr).map prefixCounts) = none)
    (hjs : (jointOps (membersOf s gr)).find? (fun js => voteCode js != 0) = some js) :
    exec (.gangwayLatchOpen uid) s = .next (js.foldl (voteFault (voteCode js)) s) := by
  refine congrArg Host.Outcome.next ?_
  rw [hg]
  dsimp only
  rw [membersOf_fold, hk, hjs]

/-- What all do once the latch opens: they leave it, enter and commit one after another, and go on. -/
def openLatch (ops : List (List Arrival)) (frs : List (Nat × Nat × Nat × Ctx)) (s0 : State) : State :=
  let s1 := frs.foldl (fun s w => onTrace s w.2.1 w.2.2.1 fun s g n c => putCtx s g n { c with arrival := none }) s0
  let s2 := frs.foldl (fun s w => commitLanes (enterTraceLate (enterTrace (fun s g e => match jointFor ops w.2.1 w.2.2.1 e with
    | some js => postJoint js s g
    | none => s) s w.2.1 w.2.2.1) w.2.1 w.2.2.1) w.2.1 w.2.2.1) s1
  frs.foldl (fun s w => afterCommit s w.2.1 w.2.2.1) s2

/-- Where every vote passes and no member is stuck, all commit. -/
theorem latchOpen_commits (hg : s.group? uid = some gr) (hk : opening ((membersOf s gr).map prefixCounts) = some k)
    (hvotes : ∀ js ∈ (jointOps (membersOf s gr)).take k, voteCode js = 0)
    (hready : ∀ w ∈ committers (membersOf s gr) k,
      ∃ h n c, traceOf s w.2.1 w.2.2.1 = some (h, n, c) ∧ canIssue s h n = true ∧ commitHeld s h c = false)
    (hroom : logRoom s gr.die gr.part ((committers (membersOf s gr) k).foldl (fun k w => k + dlogCount w.2.2.2) 0) = true)
    (hclaim : (committers (membersOf s gr) k).foldl (fun (t : Option State) w => t.bind fun s => claimEndx s w.2.1 w.2.2.1) (some s) =
      some s0) :
    exec (.gangwayLatchOpen uid) s = .next (openLatch ((jointOps (membersOf s gr)).take k) (committers (membersOf s gr) k) s0) := by
  have hpass : ((jointOps (membersOf s gr)).take k).find? (fun js => voteCode js != 0) = none := by
    rw [List.find?_eq_none]
    intro js hjs
    simp [hvotes js hjs]
  have hfree : ((committers (membersOf s gr) k).any fun w => match traceOf s w.2.1 w.2.2.1 with
      | some (h, n, c) => !canIssue s h n || commitHeld s h c
      | none => true) = false := by
    rw [List.any_eq_false]
    intro w hw
    obtain ⟨h, n, c, htrace, hissue, hheld⟩ := hready w hw
    simp [htrace, hissue, hheld]
  unfold committers at hfree hroom hclaim
  refine congrArg Host.Outcome.next ?_
  rw [hg]
  dsimp only at hfree hroom hclaim ⊢
  rw [membersOf_fold, hk]
  split
  case h_3 heq =>
    cases heq
    rw [hpass]
    dsimp only
    rw [if_neg (by rw [hroom, Bool.not_true, Bool.or_false]; exact Bool.eq_false_iff.mp hfree), hclaim]
    rfl
  all_goals contradiction

end Latch

/-! ### Barriers (R305) -/

theorem barrierComplete_goes {s : State} {b : BarrierRef} {g : Group} {rest : List Group} (hexp : expectedOf s b = g :: rest)
    (hdone : barDone s b (barOf s g b.cluster b.num) (g :: rest) = true) : exec (.barrierComplete b) s =
      .next ((waitersAt b (g :: rest)).foldl (fun s w => completeSync s w.1 w.2)
        ((g :: rest).foldl (fun s h => acquire s h (if b.cluster then 2 else 1))
          (putBar s g b.cluster { barOf s g b.cluster b.num with
            gen := (barOf s g b.cluster b.num).gen + 1
            arrived := [] }))) := by
  refine congrArg Host.Outcome.next ?_
  rw [hexp]
  dsimp only
  rw [if_neg (by simp [hdone])]

/-! ### Rings (R306, R308) -/

section Rings
variable {s : State} {uid nix ring va pd mark : Nat} {bench : Bool} {gr : Group} {nd : Node}

/-- A push into a ring that is closed, broken or cannot be read gives F. -/
theorem ringPush_refused (hw : ringWaiter s uid nix = some (gr, nd)) (hsync : nd.sync = some (.push bench ring va pd mark))
    (hrel : releasedTo s uid gr.core mark (ringScope bench) = true)
    (hpark : spotParked s gr { bench := bench, addr := ring } 64 = false) {t : State}
    (ht : seeSpot s gr { bench := bench, addr := ring } 64 = t)
    (hbad : spotBad t gr { bench := bench, addr := ring } 64 = true ∨ RingHdr.ok (spotRead t gr { bench := bench, addr := ring } 64) = false ∨
      bit (RingHdr.flags (spotRead t gr { bench := bench, addr := ring } 64)) 1 = true) :
    exec (.ringPush uid nix) s = .next (ringStatus t gr nd pd 0) := by
  refine congrArg Host.Outcome.next ?_
  rw [hw]
  dsimp only
  rw [hsync]
  dsimp only
  rw [if_neg (by simp [hrel, hpark]), ht, if_pos (by simpa [or_assoc] using hbad)]

/-- A push into an open ring with room writes its slot and the count of the tail. -/
theorem ringPush_pushes (hw : ringWaiter s uid nix = some (gr, nd)) (hsync : nd.sync = some (.push bench ring va pd mark))
    (hrel : releasedTo s uid gr.core mark (ringScope bench) = true)
    (hpark : spotParked s gr { bench := bench, addr := ring } 64 = false) {t : State}
    (ht : seeSpot s gr { bench := bench, addr := ring } 64 = t)
    (hgood : spotBad t gr { bench := bench, addr := ring } 64 = false) {h : RingHdr}
    (hh : spotRead t gr { bench := bench, addr := ring } 64 = h) (hok : RingHdr.ok h = true) (hopen : bit (RingHdr.flags h) 1 = false)
    (hroom : (RingHdr.tailc h - RingHdr.headc h).toNat < 2 ^ RingHdr.logslots h)
    (hfree : bench = true → vaHeld t gr.core gr.die gr.part (ring + RingHdr.slotAt h (RingHdr.tailc h)) (4 * RingHdr.words h) .write = false) :
    exec (.ringPush uid nix) s = .next (ringStatus (spotWrite
      (spotWrite t gr { bench := bench, addr := ring + RingHdr.slotAt h (RingHdr.tailc h) } (pushSlot gr nd va (RingHdr.words h))) gr
      { bench := bench, addr := ring + 4 } (leBytes 4 (RingHdr.tailc h + 1).toNat)) gr nd pd 1) := by
  refine congrArg Host.Outcome.next ?_
  rw [hw]
  dsimp only
  rw [hsync]
  dsimp only
  rw [if_neg (by simp [hrel, hpark]), ht, hh, if_neg (by simp [hgood, hok, hopen]), if_neg (Nat.not_le.mpr hroom),
    if_neg (by simpa using hfree)]

/-- A pop of a ring that is broken or cannot be read gives F. -/
theorem ringPop_refused (hw : ringWaiter s uid nix = some (gr, nd)) (hsync : nd.sync = some (.pop bench ring va pd))
    (hready : acquireReady s gr = true) (hcounts : countsMade s gr = true)
    (hpark : spotParked s gr { bench := bench, addr := ring } 64 = false) {t : State}
    (ht : seeSpot s gr { bench := bench, addr := ring } 64 = t)
    (hbad : spotBad t gr { bench := bench, addr := ring } 64 = true ∨ RingHdr.ok (spotRead t gr { bench := bench, addr := ring } 64) = false) :
    exec (.ringPop uid nix) s = .next (ringStatus t gr nd pd 0) := by
  refine congrArg Host.Outcome.next ?_
  rw [hw]
  dsimp only
  rw [hsync]
  dsimp only
  rw [if_neg (by simp [hready, hcounts, hpark]), ht, if_pos (by simpa using hbad)]

/-- A pop of an empty ring that is closed acquires and gives F. -/
theorem ringPop_closed (hw : ringWaiter s uid nix = some (gr, nd)) (hsync : nd.sync = some (.pop bench ring va pd))
    (hready : acquireReady s gr = true) (hcounts : countsMade s gr = true)
    (hpark : spotParked s gr { bench := bench, addr := ring } 64 = false) {t : State}
    (ht : seeSpot s gr { bench := bench, addr := ring } 64 = t)
    (hgood : spotBad t gr { bench := bench, addr := ring } 64 = false) {h : RingHdr}
    (hh : spotRead t gr { bench := bench, addr := ring } 64 = h) (hok : RingHdr.ok h = true)
    (hempty : RingHdr.tailc h = RingHdr.headc h) (hclosed : bit (RingHdr.flags h) 0 = true) :
    exec (.ringPop uid nix) s = .next (ringStatus (acquire t gr (ringScope bench)) gr nd pd 0) := by
  refine congrArg Host.Outcome.next ?_
  rw [hw]
  dsimp only
  rw [hsync]
  dsimp only
  rw [if_neg (by simp [hready, hcounts, hpark]), ht, hh, if_neg (by simp [hgood, hok]), if_pos hempty, if_pos hclosed]

/-- A pop of a ring with a slot takes it and counts the head. -/
theorem ringPop_pops (hw : ringWaiter s uid nix = some (gr, nd)) (hsync : nd.sync = some (.pop bench ring va pd))
    (hready : acquireReady s gr = true) (hcounts : countsMade s gr = true)
    (hpark : spotParked s gr { bench := bench, addr := ring } 64 = false) {t u : State}
    (ht : seeSpot s gr { bench := bench, addr := ring } 64 = t)
    (hgood : spotBad t gr { bench := bench, addr := ring } 64 = false) {h : RingHdr} {slot : Spot}
    (hh : spotRead t gr { bench := bench, addr := ring } 64 = h) (hok : RingHdr.ok h = true)
    (hfull : RingHdr.tailc h ≠ RingHdr.headc h)
    (hslot : ({ bench := bench, addr := ring + RingHdr.slotAt h (RingHdr.headc h) } : Spot) = slot)
    (hfree : spotParked t gr slot (4 * RingHdr.words h) = false) (hu : seeSpot t gr slot (4 * RingHdr.words h) = u)
    (hread : spotBad u gr slot (4 * RingHdr.words h) = false) :
    exec (.ringPop uid nix) s = .next (ringStatus
      (spotWrite (acquire u gr (ringScope bench)) gr { bench := bench, addr := ring } (leBytes 4 (RingHdr.headc h + 1).toNat))
      (popSlot gr nd va (spotRead u gr slot (4 * RingHdr.words h)) (RingHdr.words h)) nd pd 1) := by
  refine congrArg Host.Outcome.next ?_
  rw [hw]
  dsimp only
  rw [hsync]
  dsimp only
  rw [if_neg (by simp [hready, hcounts, hpark]), ht, hh, if_neg (by simp [hgood, hok]), if_neg hfull, hslot, if_neg (by simp [hfree]), hu,
    if_neg (by simp [hread])]

end Rings

/-- Settles O53. -/
theorem synchronisationsComplete : Obligations.SynchronisationsComplete := by
  unfold Obligations.SynchronisationsComplete
  intro s
  refine ⟨?_, ?_, fun b g rest hexp hdone => barrierComplete_goes hexp hdone, ?_, ?_⟩
  · intro uid gr k hg ms arr ops frs hk
    exact ⟨fun js hjs => latchOpen_faults hg hk hjs, fun hvotes hready hroom s0 hclaim => latchOpen_commits hg hk hvotes hready hroom hclaim⟩
  · intro uid gr js hg ms hk hjs
    exact latchOpen_faults_early hg hk hjs
  · intro uid nix gr nd bench ring va pd mark hw hsync x t h hrel hpark
    exact ⟨fun hbad => ringPush_refused hw hsync hrel hpark rfl hbad,
      fun hgood hok hopen hroom hfree => ringPush_pushes hw hsync hrel hpark rfl hgood rfl hok hopen hroom hfree⟩
  · intro uid nix gr nd bench ring va pd hw hsync x t h slot size hready hcounts hpark
    exact ⟨fun hbad => ringPop_refused hw hsync hready hcounts hpark rfl hbad,
      fun hgood hok hempty hclosed => ringPop_closed hw hsync hready hcounts hpark rfl hgood rfl hok hempty hclosed,
      fun hgood hok hfull hfree hread => ringPop_pops hw hsync hready hcounts hpark rfl hgood rfl hok hfull rfl hfree rfl hread⟩

end Sys2Proof.Machine
end

section
/-! PROOFS. Posted effects are checked and accepted, or refused with a store-fault record (R125, R143, R181, R182). -/
namespace Sys2Proof.Machine

/-! ### Items of the pipeline -/

section Items
variable {s : State} {id : Nat} {it : Item}

theorem item?_id (h : s.item? id = some it) : it.id = id := by simpa using List.find?_some h

/-- An item that is put back stands in the pipeline. -/
theorem State.item?_setItem {x : Item} (h : (s.item? x.id).isSome = true) : (s.setItem x).item? x.id = some x :=
  find?_replaced Item.id h

/-- What FENCEs that take effect leave alone: all but the pipeline and the L1 copies. -/
def State.unfenced (s : State) : State := { s with pipe := [], l1 := [] }

@[simp] theorem tidy_unfenced (s : State) : (tidy s).unfenced = s.unfenced := by
  unfold tidy
  dsimp only
  refine List.foldlRecOn (motive := fun t => State.unfenced t = s.unfenced) _ _ rfl ?_
  intro t ht it _
  split
  · split
    · exact ht
    · exact ht
  · exact ht

theorem tidy_groups (s : State) : (tidy s).groups = s.groups := (congrArg State.groups (tidy_unfenced s) :)
theorem tidy_mem (s : State) : (tidy s).mem = s.mem := (congrArg State.mem (tidy_unfenced s) :)

theorem tidy_group? (s : State) (uid : Nat) : (tidy s).group? uid = s.group? uid := by
  unfold State.group?
  rw [tidy_groups]

@[simp] theorem seeItem_untouched (s : State) (it : Item) (pick : Elem → Bool) : (seeItem s it pick).untouched = s.untouched := by
  unfold seeItem
  split
  · rfl
  · refine List.foldlRecOn (motive := fun t => State.untouched t = s.untouched) _ _ rfl ?_
    intro t ht x _
    rw [seeWalk_untouched, ht]

end Items

/-! ### Every element accepted -/

section Check
variable {s u : State} {id : Nat} {it : Item}

/-- The item once all its elements are translated. -/
def acceptedItem (it : Item) (f : Elem → Xlat) : Item :=
  { it with
    eff := { it.eff with elems := it.eff.elems.map fun x => { x with st := ElemSt.checked, pa := (f x).pa } }
    kind := strongest ((if it.kind = 3 then [] else [it.kind]) ++ it.eff.elems.map fun x => (f x).ord) }

theorem checkedItem_accepted {f : Elem → Xlat} (hrefused : it.refused = []) (assisted : Bool)
    (hall : ∀ x ∈ it.eff.elems, x.st = .fresh ∧ checkElem u it x = .ok (f x)) :
    acceptElems (checkedItem u it assisted .checked fun x => x.st == .fresh) = acceptedItem it f := by
  have hrs : (it.eff.elems.map fun x => (x, if (x.st == .fresh) = true then some (checkElem u it x) else none)) =
      it.eff.elems.map fun x => (x, some (.ok (f x))) := by
    refine List.map_congr_left fun x hx => ?_
    obtain ⟨hst, hok⟩ := hall x hx
    rw [hst, hok]
    rfl
  unfold acceptElems checkedItem acceptedItem
  dsimp only
  rw [hrs]
  simp [List.filterMap_map, Function.comp_def, hrefused, List.any_map]

/-- An item with an element accepted and none held or refused stands as it is after its check. -/
theorem checkDone_accepted (hid : (s.item? it.id).isSome = true) (hrefused : it.refused = []) (hne : it.eff.elems ≠ [])
    (hall : ∀ x ∈ it.eff.elems, x.st = .checked) : checkDone s it = tidy (s.setItem it) := by
  have hitem : (s.setItem it).item? it.id = some it := State.item?_setItem hid
  have hheld : it.eff.elems.filter (fun x => x.st == .held) = [] := by
    rw [List.filter_eq_nil_iff]
    intro x hx
    rw [hall x hx]
    decide
  have hopen : ¬ it.closed = true := by
    obtain ⟨x, hx⟩ := List.exists_mem_of_ne_nil _ hne
    unfold Item.closed
    rw [List.all_eq_true]
    intro h
    have := h x hx
    simp [Elem.open, hall x hx] at this
  have hsettle : settleRecord (s.setItem it) it.id = s.setItem it := by
    unfold settleRecord
    rw [hitem]
    simp [hrefused]
  unfold checkDone heldRequest
  dsimp only
  rw [hheld]
  dsimp only
  rw [hsettle]
  unfold closeItem
  rw [hitem]
  dsimp only
  rw [if_neg hopen]

/-! ### One element refused -/

/-- The item once its only element is refused. -/
def refusedItem (it : Item) (x : Elem) (e : Nat) : Item :=
  { it with
    eff := { it.eff with elems := [{ x with st := ElemSt.refused }] }
    kind := strongest (if it.kind = 3 then [] else [it.kind])
    refused := [(x.lane, faultCode e, x.addr)] }

theorem checkedItem_refused {x : Elem} {e : Nat} (hrefused : it.refused = []) (helems : it.eff.elems = [x]) (hst : x.st = .fresh)
    (herr : checkElem u it x = .error e) :
    acceptElems (checkedItem u it false .checked fun x => x.st == .fresh) = refusedItem it x e := by
  unfold acceptElems checkedItem refusedItem
  simp [helems, hst, herr, hrefused]

/-- An element that fails its check has a code of Table 8.3, or a data error's. -/
theorem checkElem_error {x : Elem} {e : Nat} (h : checkElem u it x = .error e) : faultCode e ∈ [1, 2, 3, 4] ∨ faultCode e = 9 := by
  unfold checkElem at h
  split at h
  · next htrans =>
    cases h
    refine (translate_error htrans).imp (fun hcode => ?_) And.left
    have hsmall : e < 256 := by
      simp only [List.mem_cons, List.not_mem_nil, or_false] at hcode
      omega
    rwa [show faultCode e = e from Nat.mod_eq_of_lt hsmall]
  · dsimp only at h
    obtain ⟨-, h⟩ | ⟨-, h⟩ := of_ite_eq h
    · cases h
      exact Or.inl (by decide)
    obtain ⟨-, h⟩ | ⟨-, h⟩ := of_ite_eq h
    · cases h
    · cases h
      exact Or.inr (faultCode_dataError ..)

/-- A refused item leaves the pipeline and its record in its group's SFRQ. -/
theorem checkDone_refused {x : Elem} {e : Nat} {g : Group} (hid : (s.item? it.id).isSome = true)
    (hg : s.group? it.group = some g) : ∃ g', (checkDone s (refusedItem it x e)).group? it.group = some g' ∧
      (checkDone s (refusedItem it x e)).mem = s.mem ∧ g'.pend = true ∧
      g'.sfrq = (pushSfrq g (sfrqRec (refusedItem it x e))).sfrq ∧ g'.lost = (pushSfrq g (sfrqRec (refusedItem it x e))).lost := by
  have huid := group?_uid hg
  generalize hjt : refusedItem it x e = jt
  have hjid : jt.id = it.id := by rw [← hjt]; rfl
  have hjgroup : jt.group = it.group := by rw [← hjt]; rfl
  have hitem : (s.setItem jt).item? jt.id = some jt := State.item?_setItem (by rw [hjid]; exact hid)
  let s1 := (s.setItem jt).setItem { jt with refused := [] }
  have hitem1 : s1.item? jt.id = some { jt with refused := [] } :=
    State.item?_setItem (s := s.setItem jt) (x := { jt with refused := [] }) (by rw [hitem]; rfl)
  have hg1 : s1.group? jt.group = some g := by rw [hjgroup]; exact hg
  have hpuid : (pushSfrq g (sfrqRec jt)).uid = g.uid := by
    unfold pushSfrq
    split <;> rfl
  have hppend : (pushSfrq g (sfrqRec jt)).pend = true := by
    unfold pushSfrq
    split <;> rfl
  have hheld : heldRequest (s.setItem jt) jt = none := by
    rw [← hjt]
    rfl
  have hsettle : settleRecord (s.setItem jt) jt.id = s1.setGroup (pushSfrq g (sfrqRec jt)) := by
    unfold settleRecord
    rw [hitem]
    dsimp only
    rw [if_neg (by rw [← hjt]; simp [refusedItem]), show State.group? _ jt.group = some g from hg1]
  have hclosed : ({ jt with refused := [] } : Item).closed = true := by rw [← hjt]; rfl
  have hput : ∀ (t : State) (g' : Group), t.group? jt.group = some g → g'.uid = g.uid → (t.setGroup g').group? jt.group = some g' := by
    intro t g' ht hu
    rw [hjgroup, ← huid, ← hu] at ht ⊢
    exact State.group?_setGroup (by rw [ht]; rfl)
  unfold checkDone
  dsimp only
  rw [hheld]
  dsimp only
  rw [hsettle]
  unfold closeItem
  rw [show State.item? (s1.setGroup (pushSfrq g (sfrqRec jt))) jt.id = _ from hitem1]
  dsimp only
  rw [if_pos hclosed, tidy_mem, tidy_group?, ← hjgroup]
  generalize ht2 : ({ s1.setGroup (pushSfrq g (sfrqRec jt)) with
    pipe := (s1.setGroup (pushSfrq g (sfrqRec jt))).pipe.filter fun y => y.id != jt.id } : State) = t2
  have hg2 : t2.group? jt.group = some (pushSfrq g (sfrqRec jt)) := by
    rw [← ht2]
    exact hput s1 _ hg1 hpuid
  have hmem2 : t2.mem = s.mem := by rw [← ht2]; rfl
  rw [hg2]
  have hduid : (dropCounter (pushSfrq g (sfrqRec jt)) jt.eff.op).uid = (pushSfrq g (sfrqRec jt)).uid := by
    unfold dropCounter
    split <;> rfl
  have hd : (t2.setGroup (dropCounter (pushSfrq g (sfrqRec jt)) jt.eff.op)).group? jt.group =
      some (dropCounter (pushSfrq g (sfrqRec jt)) jt.eff.op) := by
    have hu : (dropCounter (pushSfrq g (sfrqRec jt)) jt.eff.op).uid = jt.group := by rw [hduid, hpuid, huid, hjgroup]
    rw [← hu] at hg2 ⊢
    exact State.group?_setGroup (by rw [hg2]; rfl)
  refine ⟨_, hd, hmem2, ?_, ?_, ?_⟩
  · rw [← hppend]
    unfold dropCounter
    split <;> rfl
  · unfold dropCounter
    split <;> rfl
  · unfold dropCounter
    split <;> rfl

end Check

/-- Settles O54. -/
theorem postedEffectsAreChecked : Obligations.PostedEffectsAreChecked := by
  unfold Obligations.PostedEffectsAreChecked
  intro s id it hitem hready hrefused u
  have hid := item?_id hitem
  have hu : u.untouched = s.untouched := seeItem_untouched s it _
  have hpipe : u.pipe = s.pipe := (congrArg State.pipe hu :)
  have hhere : (u.item? it.id).isSome = true := by
    unfold State.item?
    rw [hpipe, hid]
    exact Option.isSome_of_eq_some hitem
  have hexec : (it.eff.elems.any fun x => x.st == .fresh || x.st == .translated) = true →
      exec (.postedStoreCheck id) s = .next (checkItem s it) := by
    intro hany
    refine congrArg Host.Outcome.next ?_
    rw [hitem]
    dsimp only
    rw [if_pos (by rw [hany, hready]; rfl)]
  constructor
  · intro f hne hall elems
    obtain ⟨x, hx⟩ := List.exists_mem_of_ne_nil _ hne
    rw [hexec (List.any_eq_true.mpr ⟨x, hx, by rw [(hall x hx).1]; rfl⟩)]
    refine congrArg Host.Outcome.next ?_
    unfold checkItem
    dsimp only
    rw [checkedItem_accepted (f := f) hrefused _ hall]
    refine checkDone_accepted hhere hrefused (by simpa [acceptedItem] using hne) ?_
    intro y hy
    obtain ⟨z, -, rfl⟩ := List.mem_map.mp hy
    rfl
  · intro x e g helems hst herr hlane hg hassist
    refine ⟨checkElem_error herr, ?_⟩
    have hserved : it.served u = false := by
      unfold Item.served
      have hparts : u.part? it.part = s.part? it.part := (congrArg (fun t => State.part? t it.part) hu :)
      rw [hparts]
      cases hp : s.part? it.part with
      | none => rfl
      | some p => exact hassist p hp
    have hgu : u.group? it.group = some g := ((congrArg (fun t => State.group? t it.group) hu).trans hg :)
    have hmem : u.mem = s.mem := (congrArg State.mem hu :)
    obtain ⟨g', hg', hmem', hpend, hsfrq, hlost⟩ := checkDone_refused (x := x) (e := e) hhere hgu
    have hrec : sfrqRec (refusedItem it x e) = leBytes 8 x.addr ++ leBytes 1 1 ++ leBytes 1 x.lane ++ leBytes 1 it.eff.ix ++
        leBytes 1 (faultCode e) ++ leBytes 4 it.trace := by
      unfold sfrqRec refusedItem
      dsimp only
      rw [if_neg hlane, if_neg hlane]
      rfl
    refine ⟨_, g', hexec (by rw [helems]; simp [hst]), ?_⟩
    unfold checkItem
    dsimp only
    rw [hserved, checkedItem_refused hrefused helems hst herr]
    refine ⟨hg', hmem'.trans hmem, hpend, fun hroom => ?_, fun hfull => ?_⟩
    · rw [hsfrq, hlost, hrec]
      unfold pushSfrq
      rw [if_pos hroom]
      exact ⟨rfl, rfl⟩
    · rw [hsfrq, hlost]
      unfold pushSfrq
      rw [if_neg (by omega)]
      exact ⟨rfl, rfl⟩

end Sys2Proof.Machine
end

section
/-! PROOFS. Accepted elements are performed (R87, R91, R92, R146, R159, R255, R307, R348, R357, R358). -/
namespace Sys2Proof.Machine

/-! ### Counts of a launch's releases (R87) -/

section Release
variable {s : State} {id part : Nat} {serial : Word} {l : Launch} {it : Item} {n : Nat}

/-- Every launch of a name has counted so many releases. -/
def Released (s : State) (part : Nat) (serial : Word) (n : Nat) : Prop :=
  ∀ l ∈ s.launches, l.part = part → l.serial = serial → l.release = n

theorem setLaunch_released (s : State) (l : Launch) : Released (s.setLaunch l) l.part l.serial l.release := by
  intro k hk hkp hks
  obtain ⟨k0, -, rfl⟩ := List.mem_map.mp hk
  revert hkp hks
  split
  · exact fun _ _ => rfl
  · next hkey =>
    intro hkp hks
    exact absurd (by simp [hkp, hks]) hkey

theorem Released.openGates (h : Released s part serial n) (l : Launch) : Released (openGates s l) part serial n := by
  intro k hk
  obtain ⟨k0, hk0, rfl⟩ := List.mem_map.mp hk
  split
  · exact h k0 hk0
  · exact h k0 hk0

theorem countRelease_released (h : s.launch? part serial = some l) :
    Released (countRelease s part serial) part serial (min (2 ^ 32 - 1) (l.release + 1)) := by
  obtain ⟨rfl, rfl⟩ := launch?_key h
  unfold countRelease
  rw [h]
  exact (setLaunch_released s { l with release := min (2 ^ 32 - 1) (l.release + 1) }).openGates _

theorem wkgMaybeEnd_launches (s : State) (part : Nat) (serial : Word) (k : Nat) : (wkgMaybeEnd s part serial k).launches = s.launches := by
  unfold wkgMaybeEnd
  split
  · rfl
  · dsimp only
    repeat' split
    all_goals rfl

theorem closeItem_launches (s : State) (id : Nat) : (closeItem s id).launches = s.launches := by
  have htidy : ∀ t : State, (tidy t).launches = t.launches := fun t => (congrArg State.launches (tidy_unfenced t) :)
  unfold closeItem
  split
  · rfl
  · split
    · dsimp only
      rw [htidy]
      split
      · rfl
      · rw [wkgMaybeEnd_launches]
    · exact htidy s

theorem resolve_launches (s : State) (it : Item) (k : Nat) (x : Elem) (st : ElemSt) : (resolve s it k x st).launches = s.launches :=
  closeItem_launches ..

theorem Released.resolve (h : Released s part serial n) (it : Item) (k : Nat) (x : Elem) (st : ElemSt) :
    Released (resolve s it k x st) part serial n := by
  unfold Released
  rw [resolve_launches]
  exact h

end Release

/-! ### An accepted element -/

section Perform
variable {s : State} {id k : Nat} {it : Item} {x : Elem}

/-- An element of an item in the pipeline that its core has accepted. -/
structure Accepted (s : State) (id k : Nat) (it : Item) (x : Elem) : Prop where
  item : s.item? id = some it
  elem : it.elem? k = some x
  st : x.st = .checked

theorem Accepted.notOther (h : Accepted s id k it x) : ¬ (x.st != .checked) = true := by simp [h.st]

theorem storePerformed_global {w : Nat} {rel : Bool} {sc : Nat} {uni : Bool} (h : Accepted s id k it x)
    (hop : it.eff.op = .store .global w rel sc uni) (hready : elemReady s it k x = true)
    (hfree : parkedBlocks s x.pa x.data.length true = false) (hreach : reaches s it.die x.pa = true) :
    exec (.storePerformed id k) s = .next (resolve (writeGlobal s it x) it k x .done) := by
  refine congrArg Host.Outcome.next ?_
  rw [h.item]
  dsimp only
  rw [h.elem]
  dsimp only
  rw [if_neg h.notOther, hop]
  dsimp only
  rw [if_pos (by rw [hready, hfree]; rfl)]
  unfold performStore
  rw [if_pos hreach]

/-- What a store writes to global memory is read back. -/
theorem pread_writeGlobal (hok : s.memOk = true) (it : Item) (x : Elem) : pread (writeGlobal s it x) x.pa x.data.length = x.data :=
  pread_pwrite s x.pa x.data (memOk_mem hok)

theorem storePerformed_scratch {w : Nat} {rel : Bool} {sc : Nat} {uni : Bool} {a : Workgroup × Nat} (h : Accepted s id k it x)
    (hop : it.eff.op = .store .scratch w rel sc uni) (hready : elemReady s it k x = true)
    (ha : scratchAt s it.asGroup x.addr x.data.length = some a) :
    exec (.storePerformed id k) s = .next (resolve (s.setWkg (a.1.put a.2 x.data)) it k x .done) := by
  refine congrArg Host.Outcome.next ?_
  rw [h.item]
  dsimp only
  rw [h.elem]
  dsimp only
  rw [if_neg h.notOther, hop]
  dsimp only
  rw [if_pos hready]
  unfold writeScratch
  rw [ha]

theorem storePerformed_record {n : Nat} (h : Accepted s id k it x) (hop : it.eff.op = .dlog n) (hready : logReady s it x = true) :
    exec (.storePerformed id k) s = .next (resolve (writeLog s it x) it k x .done) := by
  refine congrArg Host.Outcome.next ?_
  rw [h.item]
  dsimp only
  rw [h.elem]
  dsimp only
  rw [if_neg h.notOther, hop]
  dsimp only
  rw [if_pos hready]

theorem storePerformed_release (h : Accepted s id k it x) (hop : it.eff.op = .release) (hready : releaseReady s it = true) :
    exec (.storePerformed id k) s = .next (resolve (countRelease s it.part it.serial) it k x .done) := by
  refine congrArg Host.Outcome.next ?_
  rw [h.item]
  dsimp only
  rw [h.elem]
  dsimp only
  rw [if_neg h.notOther, hop]
  dsimp only
  rw [if_pos hready]

theorem storePerformed_task {q entry : Nat} (h : Accepted s id k it x) (hop : it.eff.op = .spawn q entry)
    (hready : releaseReady s it = true) (hfree : taskHeld s it q x = false) :
    exec (.storePerformed id k) s = .next (resolve (readySlot s it q entry x) it k x .done) := by
  refine congrArg Host.Outcome.next ?_
  rw [h.item]
  dsimp only
  rw [h.elem]
  dsimp only
  rw [if_neg h.notOther, hop]
  dsimp only
  rw [if_pos (by rw [hready, hfree]; rfl)]

/-- A ring's count is made exactly when its turn has come. -/
theorem storePerformed_count {attach cons bench : Bool} {addr : Nat} (h : Accepted s id k it x)
    (hop : it.eff.op = .ring attach cons bench addr) (hone : it.eff.elems = [x]) : exec (.storePerformed id k) s =
      .next (if countReady s it { bench := bench, addr := addr } = true then
        resolve (ringCount s it.asGroup cons bench addr attach it.id) it 0 x .done else s) := by
  have hopen : x.open = true := by simp [Elem.open, h.st]
  refine congrArg Host.Outcome.next ?_
  rw [h.item]
  dsimp only
  rw [h.elem]
  dsimp only
  rw [if_neg h.notOther, hop]
  dsimp only
  unfold makeCount
  rw [h.item]
  dsimp only
  rw [hop, hone]
  dsimp only
  rw [hopen, Bool.true_and]

end Perform

/-! ### Atomics and LDA elements -/

section Atomic
variable {s : State} {id k sub ty sc d : Nat} {x4 acq rel : Bool} {peer : Option Nat} {it : Item} {x : Elem} {mf : Option MemFault}

theorem deferredAtomic_scratch (h : Accepted s id k it x) (hop : it.eff.op = .atomic .atoms sub ty x4 acq rel sc d peer)
    (hready : elemReady s it k x = true) {t : State} (ht : seeOffset s it.asGroup x.addr (atomBytes ty) = t)
    (hgood : ((scratchAt t it.asGroup x.addr (atomBytes ty)).bind fun w => w.1.badWord w.2 (atomBytes ty)) = none) :
    exec (.deferredAtomicPerform id k mf) s = .next (resolve (atomAcquire (updateScratch t it x) it) it k x .done) := by
  refine congrArg Host.Outcome.next ?_
  rw [h.item]
  dsimp only
  rw [h.elem]
  dsimp only
  rw [if_neg (by simp [h.st, hready]), hop]
  dsimp only
  unfold performAtoms
  dsimp only
  rw [ht, hgood]

theorem deferredAtomic_performs {kind : AtomKind} (h : Accepted s id k it x)
    (hop : it.eff.op = .atomic kind sub ty x4 acq rel sc d peer) (hready : elemReady s it k x = true) (hatoms : kind ≠ .atoms)
    (hsred : kind ≠ .sred) : exec (.deferredAtomicPerform id k mf) s =
      .next (performAtomic s it k x (if x4 then 16 else atomBytes ty) mf) := by
  refine congrArg Host.Outcome.next ?_
  rw [h.item]
  dsimp only
  rw [h.elem]
  dsimp only
  rw [if_neg (by simp [h.st, hready]), hop]
  cases kind with
  | atoms => exact absurd rfl hatoms
  | sred => exact absurd rfl hsred
  | atom => rfl
  | red => rfl
  | bop => rfl

/-- An atomic whose home answers is performed there, or parks for its cause. -/
theorem performAtomic_home {n : Nat} (hfree : parkedBlocks s x.pa n false = false) (hreach : reaches s it.die x.pa = true) {t : State}
    (ht : seeSpan s it.die x.pa n (some it.part) (it.core % 48) = t) : 
    performAtomic s it k x n mf = match parkCause t x.pa n mf with
      | some cause => park t it k x cause
      | none => resolve (atomAcquire (updateGlobal t it x) it) it k x .done := by
  unfold performAtomic
  rw [if_neg (by rw [hfree]; decide), if_neg (by rw [hreach]; decide)]
  dsimp only
  rw [ht] <;> rfl

theorem ldaElement_writes {w : Nat} (h : Accepted s id k it x) (hop : it.eff.op = .lda w) (hready : ldaReady s it k x w = true) {t : State}
    (ht : seeSpan s it.die x.pa w (some it.part) (it.core % 48) = t) (hgood : badSpan t it.die x.pa w = false) :
    exec (.ldaElementWrite id k .clean) s = .next (resolve (writeScratch t it.asGroup x.b (pread t x.pa w)) it k x .done) := by
  have hclean : setFlaw s (x.pa / 64 * 64) .clean = s := rfl
  refine congrArg Host.Outcome.next ?_
  rw [h.item]
  dsimp only
  rw [h.elem, hop]
  dsimp only
  rw [if_neg (by simp [h.st, hready]), hclean, ht, if_neg (by rw [hgood]; decide)]

end Atomic

/-- Settles O55. -/
theorem acceptedElementsArePerformed : Obligations.AcceptedElementsArePerformed := by
  unfold Obligations.AcceptedElementsArePerformed
  intro s id k it x hitem helem hst
  have h : Accepted s id k it x := ⟨hitem, helem, hst⟩
  refine ⟨?_, ?_, fun n hop hready => storePerformed_record h hop hready, ?_, ?_, fun q entry hop => storePerformed_task h hop, ?_,
    fun w hop hready => ?_⟩
  · intro w rel sc uni hop hready hfree hreach hok
    exact ⟨storePerformed_global h hop hready hfree hreach, pread_writeGlobal hok it x⟩
  · intro w rel sc uni a hop hready ha
    exact ⟨storePerformed_scratch h hop hready ha, rfl⟩
  · intro l hop hready hl
    exact ⟨_, storePerformed_release h hop hready, (countRelease_released hl).resolve it k x .done⟩
  · intro attach cons bench addr hop hone
    rw [storePerformed_count h hop hone]
    exact ⟨fun hready => by rw [if_pos hready], fun hwaits => by rw [if_neg (by simp [hwaits])]⟩
  · intro kind sub ty x4 acq rel sc d peer mf hop hready n
    refine ⟨fun hkind => ?_, fun hatoms hsred hfree hreach => ?_⟩
    · subst hkind
      exact fun hgood => deferredAtomic_scratch h hop hready rfl hgood
    · intro t
      rw [deferredAtomic_performs h hop hready hatoms hsred, performAtomic_home hfree hreach rfl]
      exact ⟨fun hcause => by rw [hcause], fun c hcause => by rw [hcause]⟩
  · exact fun hgood => ldaElement_writes h hop hready rfl hgood

end Sys2Proof.Machine
end

section
/-! PROOFS. Parked atomics, merge windows and elements of a peer (R156, R168, R360). -/
namespace Sys2Proof.Machine

/-! ### The fault queue -/

section Parked
variable {s : State} {die k : Nat} {p : Parked} {it : Item} {x : Elem}

theorem atomicRepair_repairs (hp : (s.die die).parked[k]? = some p) (hitem : s.item? p.id = some it) (hstage : p.stage = 0)
    (hcore : p.assisted = false) : exec (.atomicRepair die k) s = .next (setParked s die { p with stage := 2 }) := by
  refine congrArg Host.Outcome.next ?_
  rw [hp]
  dsimp only
  rw [hitem]
  dsimp only
  rw [if_neg (by simp [hstage]), if_neg (by simp [hcore])]

theorem atomicRepair_asks (hp : (s.die die).parked[k]? = some p) (hitem : s.item? p.id = some it) (hstage : p.stage = 0)
    (hhost : p.assisted = true) (hx : it.elem? p.elem = some x) : exec (.atomicRepair die k) s =
      .next (raiseService (setParked s die { p with stage := 1 }) it.part (it.id * 128 + p.elem)
        { class_ := 3, access := 2, cause := p.cause, who := whoIs s it.group, addr := x.pa / 64 * 64, count := 1,
          serial := it.serial }).1 := by
  refine congrArg Host.Outcome.next ?_
  rw [hp]
  dsimp only
  rw [hitem]
  dsimp only
  rw [if_neg (by simp [hstage]), if_pos hhost, hx]
  rfl

/-- A parked atomic that is repaired, or whose word is good again, takes effect. -/
theorem atomicReplay_performs {kind : AtomKind} {sub ty sc d : Nat} {x4 acq rel : Bool} {peer : Option Nat}
    (hp : (s.die die).parked[k]? = some p) (hitem : s.item? p.id = some it)
    (hdue : p.stage = 2 ∨ (p.cause = 3 ∧ p.assisted = false)) (hx : it.elem? p.elem = some x)
    (hop : it.eff.op = .atomic kind sub ty x4 acq rel sc d peer) (hreach : reaches s it.die x.pa = true)
    (hgood : badSpan s die x.pa (if x4 then 16 else atomBytes ty) = false) : exec (.atomicReplay die k) s =
      .next (resolve (atomAcquire (updateGlobal (dropParked s die p) it x) it) it p.elem x .done) := by
  have hgoes : ¬ (p.stage != 2 && (p.cause != 3 || p.assisted)) = true := by
    rcases hdue with hstage | ⟨hcause, hcore⟩
    · simp [hstage]
    · simp [hcause, hcore]
  refine congrArg Host.Outcome.next ?_
  rw [hp]
  dsimp only
  rw [hitem]
  dsimp only
  rw [hx, hop]
  dsimp only
  rw [if_neg (by rw [hreach]; decide), if_neg (by rw [hgood, Bool.false_or]; exact hgoes)]

end Parked

/-! ### The merge window of a die's switch -/

section Merge
variable {s : State} {id k sub ty sc d : Nat} {x4 acq rel : Bool} {it : Item} {x : Elem} {m : MergePair} {mf : Option MemFault}

/-- An SRED's pair is applied at its home, where no cause parks it. -/
theorem sredApply_pair (h : Accepted s id k it x) (hop : it.eff.op = .atomic .sred sub ty x4 acq rel sc d none)
    (hm : (s.merge.find? fun m => m.from_.contains (id, k)) = some m) (hfree : parkedBlocks s m.addr (atomBytes ty) false = false)
    {t : State} (ht : seeSpan s it.die m.addr (atomBytes ty) (some it.part) (it.core % 48) = t)
    (hcause : parkCause t m.addr (atomBytes ty) mf = none) : exec (.sredElementApply id k (.applies mf)) s = .next (applyPair t m) := by
  refine congrArg Host.Outcome.next ?_
  rw [h.item]
  dsimp only
  rw [h.elem]
  dsimp only
  rw [if_neg h.notOther, hop]
  dsimp only
  rw [hm]
  dsimp only
  rw [if_neg (by rw [hfree]; decide), ht, if_neg (by rw [hcause]; simp)]

/-- An SRED in no pair is applied on its own. -/
theorem sredApply_alone (h : Accepted s id k it x) (hop : it.eff.op = .atomic .sred sub ty x4 acq rel sc d none)
    (hm : (s.merge.find? fun m => m.from_.contains (id, k)) = none) (hready : itemReady s it = true)
    (hfirst : elemFirst s it k x = true) :
    exec (.sredElementApply id k (.applies mf)) s = .next (performAtomic s it k x (atomBytes ty) mf) := by
  refine congrArg Host.Outcome.next ?_
  rw [h.item]
  dsimp only
  rw [h.elem]
  dsimp only
  rw [if_neg h.notOther, hop]
  dsimp only
  rw [hm]
  dsimp only
  rw [if_pos (by rw [hready, hfirst]; rfl)]

/-- An SRED joins the pair of its address, operation and type. -/
theorem sredJoin_pair (h : Accepted s id k it x) (hop : it.eff.op = .atomic .sred sub ty x4 acq rel sc d none)
    (hm : (s.merge.find? fun m => m.from_.contains (id, k)) = none) (hready : itemReady s it = true)
    (hpair : (s.merge.find? fun m => m.die == it.die && m.addr == x.pa && m.sub == sub && m.ty == ty) = some m)
    (hfirst : elemFirstBut s m.from_ it k x = true) : exec (.sredElementApply id k .joins) s =
      .next { s with merge := s.merge.map fun y =>
        if y == m then { m with value := atomNew sub ty m.value x.b 0, from_ := m.from_ ++ [(id, k)] } else y } := by
  refine congrArg Host.Outcome.next ?_
  rw [h.item]
  dsimp only
  rw [h.elem]
  dsimp only
  rw [if_neg h.notOther, hop]
  dsimp only
  rw [hm]
  dsimp only
  rw [if_neg (by rw [hready]; decide), hpair]
  dsimp only
  rw [if_neg (by rw [hfirst]; decide)]
  rfl

/-- Where no pair is of its kind and the window has room, an SRED opens one. -/
theorem sredJoin_opens (h : Accepted s id k it x) (hop : it.eff.op = .atomic .sred sub ty x4 acq rel sc d none)
    (hm : (s.merge.find? fun m => m.from_.contains (id, k)) = none) (hready : itemReady s it = true)
    (hnone : ∀ m ∈ s.merge, ¬ (m.die = it.die ∧ m.addr = x.pa ∧ m.sub = sub ∧ m.ty = ty)) (hfirst : elemFirst s it k x = true)
    (hroom : (s.merge.filter fun m => m.die == it.die).length < 512) : exec (.sredElementApply id k .joins) s =
      .next { s with merge := s.merge ++ [{ die := it.die, addr := x.pa, sub := sub, ty := ty, value := x.b, from_ := [(id, k)] }] } := by
  have hpair : (s.merge.find? fun m => m.die == it.die && m.addr == x.pa && m.sub == sub && m.ty == ty) = none := by
    rw [List.find?_eq_none]
    intro m hmem heq
    simp only [Bool.and_eq_true, beq_iff_eq] at heq
    obtain ⟨⟨⟨hdie, haddr⟩, hsub⟩, hty⟩ := heq
    exact hnone m hmem ⟨hdie, haddr, hsub, hty⟩
  refine congrArg Host.Outcome.next ?_
  rw [h.item]
  dsimp only
  rw [h.elem]
  dsimp only
  rw [if_neg h.notOther, hop]
  dsimp only
  rw [hm]
  dsimp only
  rw [if_neg (by rw [hready]; decide), hpair]
  dsimp only
  rw [if_pos (by rw [hfirst, decide_eq_true hroom]; rfl)]

end Merge

/-! ### A peer's element -/

section Peer
variable {s s0 t : State} {part die : Nat} {addr value : DWord} {op ty : BitVec 3} {r : Xlat}

/-- A peer's element that is in form, translates and reaches its home is applied there, or parked for its cause. -/
theorem sredPeer_home (hrun : (s.die die).running = true) (htrip : (s.die die).tripped = false)
    (halign : addr.toNat % atomBytes ty.toNat = 0) (hop : op.toNat ≤ 2) (hty : ty.toNat ≤ 5)
    (hwalk : walkHeld s (192 + die) die part addr.toNat = false) (hs0 : seeWalk s (192 + die) die part addr.toNat = s0)
    (hx : xlate s0 die part addr.toNat .write = .ok r) (ht : seeSpan s0 die r.pa (atomBytes ty.toNat) (some part) 0xFF = t)
    (hreach : reaches s0 die r.pa = true) (hfree : parkedBlocks s0 r.pa (atomBytes ty.toNat) false = false) :
    exec (.sredPeerElement part die addr op ty value) s = .next (match parkCause t r.pa (atomBytes ty.toNat) none with
      | some cause =>
        let it := peerItem part die addr.toNat r.pa op.toNat ty.toNat (value.toNat % 2 ^ (8 * atomBytes ty.toNat))
        parkPeer t it (it.eff.elems.headD default) cause
      | none => pwrite t r.pa (leBytes (atomBytes ty.toNat) (atomNew op.toNat ty.toNat (leNat (pread t r.pa (atomBytes ty.toNat)))
          (value.toNat % 2 ^ (8 * atomBytes ty.toNat)) 0))) := by
  refine congrArg Host.Outcome.next ?_
  rw [if_neg (by rw [hrun, htrip, hwalk]; decide), hs0, if_neg (by simp [halign, hop, hty])]
  dsimp only
  rw [hx]
  dsimp only
  rw [if_neg (by rw [hreach]; decide), if_neg (by rw [hfree]; decide), ht] <;> rfl

end Peer

/-- Settles O56. -/
theorem parkedAndMergedAtomics : Obligations.ParkedAndMergedAtomics := by
  unfold Obligations.ParkedAndMergedAtomics
  intro s
  refine ⟨?_, ?_, ?_, ?_⟩
  · intro die k p it hp hitem hstage
    exact ⟨atomicRepair_repairs hp hitem hstage, fun hhost x hx => atomicRepair_asks hp hitem hstage hhost hx⟩
  · intro die k p it x kind sub ty x4 acq rel sc d peer hp hitem hdue hx hop hreach hgood
    exact atomicReplay_performs hp hitem hdue hx hop hreach hgood
  · intro id k it x sub ty x4 acq rel sc d hitem helem hst hop die
    have h : Accepted s id k it x := ⟨hitem, helem, hst⟩
    refine ⟨fun m mf hm hfree => sredApply_pair h hop hm hfree rfl, fun hm hready => ⟨?_, ?_, ?_⟩⟩
    · exact fun mf hfirst => sredApply_alone h hop hm hready hfirst
    · exact fun m hpair hfirst => sredJoin_pair h hop hm hready hpair hfirst
    · exact fun hnone hfirst hroom => sredJoin_opens h hop hm hready hnone hfirst hroom
  · intro part die addr op ty value r hrun htrip halign hop hty hwalk s0 hx n t v hreach hfree
    have hexec := sredPeer_home (value := value) hrun htrip halign hop hty hwalk rfl hx rfl hreach hfree
    refine ⟨fun hcause => ?_, fun cause x hcause hone => ?_⟩
    · rw [hexec, hcause]
    · rw [hexec, hcause]
      dsimp only
      rw [hone]
      rfl

end Sys2Proof.Machine
end

section
/-! PROOFS. The engines take, do and complete their queues' entries (R150 to R153, R170, R171, R219, R226, R234, R235, R242, R243). -/
namespace Sys2Proof.Machine

/-! ### Completing an entry (R151) -/

section Queues
variable {s t : State} {r : QueueRef} {e : EngEntry} {q q' : EngQ} {p : Partition}

theorem engq?_ref (h : p.engq? r = some q) : q.ref = r := by simpa using List.find?_some h

theorem part?_setPart (h : (s.part? p.part).isSome = true) : (s.setPart p).part? p.part = some p := find?_replaced Partition.part h

/-- A queue that is put back stands in its partition. -/
theorem engq?_setEngq (hp : s.part? r.part = some p) (hq : p.engq? r = some q) (href : q'.ref = q.ref) :
    engq? (s.setPart (p.setEngq q')) r = some q' := by
  have hqr := engq?_ref hq
  have hpart : (p.setEngq q').part = r.part := part?_part (p := p) hp
  have hput : (s.setPart (p.setEngq q')).part? r.part = some (p.setEngq q') := by
    rw [← hpart]
    exact part?_setPart (by rw [hpart, hp]; rfl)
  have hfind : (p.setEngq q').engq? q'.ref = some q' :=
    find?_replaced EngQ.ref (by rw [href, hqr]; exact Option.isSome_of_eq_some hq)
  unfold engq?
  rw [hput]
  dsimp only
  rw [← hqr, ← href]
  exact hfind

theorem engq?_of_parts (h : t.parts = s.parts) (r : QueueRef) : engq? t r = engq? s r := by
  unfold engq? State.part?
  rw [h]

theorem part?_of_parts (h : t.parts = s.parts) (k : Nat) : t.part? k = s.part? k := by
  unfold State.part?
  rw [h]

theorem placePut_parts (x : Eng) (s : State) (p : Place) (b : Byte) : (p.put x s b).parts = s.parts := by
  unfold Place.put
  split
  · rfl
  · split <;> rfl

theorem healPlaces_parts (x : Eng) (s : State) (ps : List Place) : (healPlaces x s ps).parts = s.parts := by
  unfold healPlaces
  refine List.foldlRecOn (motive := fun t => State.parts t = s.parts) ps _ rfl ?_
  intro t ht p _
  split
  · split
    · exact (parts_of_untouched (healWords_untouched ..)).1.trans ht
    · exact ht
  · split
    · split <;> exact ht
    · exact ht

theorem entryWrite_parts (s : State) (x : Eng) (r : QueueRef) (e : EngEntry) (off : Nat) (d : List Byte) :
    (entryWrite s x r e off d).parts = s.parts := by
  unfold entryWrite
  dsimp only
  rw [healPlaces_parts]
  refine List.foldlRecOn (motive := fun t => State.parts t = s.parts) _ _ rfl ?_
  intro t ht w _
  split
  · exact (placePut_parts ..).trans ht
  · exact ht

theorem wkgMaybeEnd_parts (s : State) (part : Nat) (serial : Word) (k : Nat) : (wkgMaybeEnd s part serial k).parts = s.parts := by
  unfold wkgMaybeEnd
  split
  · rfl
  · dsimp only
    repeat' split
    all_goals rfl

theorem onGroups_parts (f : Group → Group) (ks : List Nat) (s : State) : (ks.foldl (fun s k => onGroup s k f) s).parts = s.parts := by
  refine List.foldlRecOn (motive := fun t => State.parts t = s.parts) ks _ rfl ?_
  intro t ht k _
  unfold onGroup
  split <;> exact ht

/-- Completing an entry takes it from its queue and puts its sequence, and whether it failed, into the completion word. -/
theorem finishEntry_queue (h : engq? s r = some q) (st reason : Nat) : engq? (finishEntry s r e st reason) r =
    some { q with entries := q.entries.tail, word := e.seq, err := st != 0 } := by
  unfold finishEntry
  dsimp only
  generalize hs2 : entryWrite (if st = 5 then entryWrite s (engFor s r e) r e 16 (leBytes 1 reason) else s) (engFor s r e) r e 13
    (leBytes 1 st) = s2
  have hparts : s2.parts = s.parts := by
    rw [← hs2, entryWrite_parts]
    split
    · exact entryWrite_parts ..
    · rfl
  obtain ⟨p, hp, hq⟩ : ∃ p, s.part? r.part = some p ∧ p.engq? r = some q := by
    unfold engq? at h
    split at h
    · exact ⟨_, ‹_›, h⟩
    · cases h
  rw [part?_of_parts hparts, engq?_of_parts hparts, hp, h]
  dsimp only
  rw [engq?_of_parts (wkgMaybeEnd_parts ..), engq?_of_parts (onGroups_parts ..)]
  exact engq?_setEngq ((part?_of_parts hparts r.part).trans hp) hq rfl

end Queues

/-! ### Taking an entry (R150, R152, R170) -/

section Take
variable {s : State} {r : QueueRef} {e : EngEntry} {q : EngQ} {op got : Nat} {run : State → Eng → EngEntry → List Byte → State}

/-- Entry e is first in queue r of an engine that runs, and no parked atomic holds it up. -/
structure FirstAt (s : State) (r : QueueRef) (e : EngEntry) (q : EngQ) : Prop where
  queue : engq? s r = some q
  first : q.entries.head? = some e
  up : (s.die (queueDie r)).running = true
  free : regionHeld s (engFor s r e) (entryRegion r e, 64) = false

theorem firstAt_of_entryAt (h : EntryAt s r op e q) : FirstAt s r e q := ⟨h.queue, h.first, h.up, h.free⟩

theorem takeEntry_first (h : FirstAt s r e q) : takeEntry s r op run =
    if e.broken then finishEntry s r e 4 0
    else if !entryReleased s e then s
    else if e.taken.isEmpty then readFirst s r e
    else if field e.taken 12 1 = op then run s (engFor s r e) e e.taken
    else if knownOp r.kind (field e.taken 12 1) then s
    else finishEntry s r e 5 1 := by
  unfold takeEntry
  rw [h.queue]
  dsimp only [Option.bind_some]
  rw [h.first]
  dsimp only
  rw [if_neg (by rw [h.up, h.free]; decide)]

/-- What the engine does once it has taken the entry. -/
theorem takeEntry_taken (h : EntryAt s r got e q) : takeEntry s r op run =
    if got = op then run s (engFor s r e) e e.taken
    else if knownOp r.kind got then s
    else finishEntry s r e 5 1 := by
  rw [takeEntry_first (firstAt_of_entryAt h), h.op, if_neg (by rw [h.chain]; decide), if_neg (by rw [h.released]; decide),
    if_neg (by rw [h.taken]; decide)]

theorem takeEntry_runs (h : EntryAt s r op e q) : takeEntry s r op run = run s (engFor s r e) e e.taken := by
  rw [takeEntry_taken h, if_pos rfl]

/-- An OP of no meaning is completed. -/
theorem takeEntry_unknown (h : EntryAt s r got e q) (hop : knownOp r.kind op = true) (hgot : knownOp r.kind got = false) :
    takeEntry s r op run = finishEntry s r e 5 1 := by
  have hne : got ≠ op := by
    rintro rfl
    rw [hop] at hgot
    cases hgot
  rw [takeEntry_taken h, if_neg hne, if_neg (by rw [hgot]; decide)]

theorem takeEntry_broken (h : FirstAt s r e q) (hchain : e.broken = true) : takeEntry s r op run = finishEntry s r e 4 0 := by
  rw [takeEntry_first h, if_pos hchain]

theorem takeEntry_reads (h : FirstAt s r e q) (hchain : e.broken = false) (hreleased : entryReleased s e = true) (htaken : e.taken = []) :
    takeEntry s r op run = readFirst s r e := by
  rw [takeEntry_first h, if_neg (by rw [hchain]; decide), if_neg (by rw [hreleased]; decide), if_pos (by rw [htaken]; rfl)]

end Take

/-! ### The activities that serve a queue -/

section Serving
variable {s : State} {r : QueueRef} {k : Nat} {kind : QueueKind}

theorem queueOwner_kind (h : queueOwner s kind k = some r) : r.kind = kind := by
  obtain ⟨p, -, hp⟩ := List.exists_of_findSome?_eq_some h
  obtain ⟨q, hq, rfl⟩ := Option.map_eq_some_iff.mp hp
  rw [engq?_ref hq]

/-- An activity takes entries of a queue with an OP that the queue knows, and does `run` with what it has taken. -/
def Takes (s : State) (r : QueueRef) (i : Instr) (op : Nat) (run : State → Eng → EngEntry → List Byte → State) : Prop :=
  exec i s = .next (takeEntry s r op run) ∧ knownOp r.kind op = true

theorem mmaEntry_takes (h : queueOwner s .mq k = some r) : Takes s r (.mmaEntry k) 1 fun s x e b => runMma s x r e b := by
  refine ⟨congrArg Host.Outcome.next ?_, by rw [queueOwner_kind h]; rfl⟩
  rw [h]

theorem layoutEntry_takes (h : queueOwner s .lq k = some r) :
    Takes s r (.layoutEntry k) 1 fun s x e b => runPlan s x r e (layoutPlan s x b) := by
  refine ⟨congrArg Host.Outcome.next ?_, by rw [queueOwner_kind h]; rfl⟩
  rw [h]

theorem copyEntry_takes (h : queueOwner s .cq k = some r) :
    Takes s r (.copyEntry k .clean) 1 fun s x e b => runPlan (flawSource s x b .clean) x r e (copyPlan (flawSource s x b .clean) x b) := by
  refine ⟨congrArg Host.Outcome.next ?_, by rw [queueOwner_kind h]; rfl⟩
  rw [h]

theorem gatherEntry_takes (h : queueOwner s .cq k = some r) :
    Takes s r (.gatherEntry k) 2 fun s x e b => runPlan s x r e (gatherPlan s x b) := by
  refine ⟨congrArg Host.Outcome.next ?_, by rw [queueOwner_kind h]; rfl⟩
  rw [h]

theorem scatterEntry_takes (h : queueOwner s .cq k = some r) :
    Takes s r (.scatterEntry k) 3 fun s x e b => runPlan s x r e (scatterPlan s x b) := by
  refine ⟨congrArg Host.Outcome.next ?_, by rw [queueOwner_kind h]; rfl⟩
  rw [h]

/-- What a COLL does once it is taken. -/
def runColl (peers : List PeerContribution) (r : QueueRef) (s : State) (x : Eng) (e : EngEntry) (b : List Byte) : State :=
  match collChecked s x b with
  | .inl p => runPlan s x r e p
  | .inr (m, g) =>
    let others := peers.filter fun p => p.rank != GroupRec.rank g && p.rank < GroupRec.nrank g
    if !collLinked s g then s
    else if others.any fun p => !peerMatches m g p then collEnd s x r e g { st := 5, reason := 6, reads := [m.record], writes := [] }
    else
      match contributions s x m g others with
      | none => s
      | some rows =>
        let out := collResult m g rows
        collEnd s x r e g
          { st := statusesOf out, reason := 0, writes := runWrites m.dst 0 out
            reads := m.record :: (if m.ctype = 2 && GroupRec.rank g != m.root then [] else [(m.src, m.len)]) }

/-- What a COLL does whose neighbours make no progress. -/
def runCollTimeout (r : QueueRef) (s : State) (x : Eng) (e : EngEntry) (b : List Byte) : State :=
  match collChecked s x b with
  | .inl p => runPlan s x r e p
  | .inr (m, g) => collEnd s x r e g { st := 5, reason := 7, reads := [m.record], writes := [] }

theorem queueRef_kq (h : r.kind = .kq) : ({ kind := .kq, unit := r.unit, part := r.part } : QueueRef) = r := by rw [← h]

theorem collEntry_takes (h : r.kind = .kq) (peers : List PeerContribution) :
    Takes s r (.collEntry r.part r.unit peers) 1 (runColl peers r) := by
  refine ⟨congrArg Host.Outcome.next ?_, by rw [h]; rfl⟩
  dsimp only
  rw [queueRef_kq h]
  refine congrArg (takeEntry s r 1) (funext fun s => funext fun x => funext fun e => funext fun b => ?_)
  unfold runColl
  generalize collChecked s x b = checked
  rcases checked with p | ⟨m, g⟩ <;> rfl

theorem collTimeout_takes (h : r.kind = .kq) : Takes s r (.collPeerTimeout r.part r.unit) 1 (runCollTimeout r) := by
  refine ⟨congrArg Host.Outcome.next ?_, by rw [h]; rfl⟩
  dsimp only
  rw [queueRef_kq h]
  refine congrArg (takeEntry s r 1) (funext fun s => funext fun x => funext fun e => funext fun b => ?_)
  unfold runCollTimeout
  generalize collChecked s x b = checked
  rcases checked with p | ⟨m, g⟩ <;> rfl

/-- What a QFENCE does once it is taken. -/
def runQfence (r : QueueRef) (s : State) (_ : Eng) (e : EngEntry) (b : List Byte) : State :=
  if bits (field b 17 1) 7 4 ≠ 0 ∨ leNat (takeAt b 18 46) ≠ 0 then finishEntry s r e 5 1
  else if (fenceWaits e b).all (entryDone s) then finishEntry s r e 0 0
  else s

theorem qfenceEntry_takes (s : State) (r : QueueRef) : Takes s r (.qfenceEntry r) 0x0F (runQfence r) := ⟨rfl, rfl⟩

/-- Every activity that serves a queue takes its entries. -/
theorem serves_takes {i : Instr} (h : Serves s r i) : ∃ op run, Takes s r i op run := by
  rcases h with ⟨k, ⟨hown, rfl⟩ | ⟨hown, rfl⟩ | ⟨hown, hi⟩⟩ | rfl | ⟨hkind, rfl | ⟨peers, rfl⟩⟩
  · exact ⟨_, _, mmaEntry_takes hown⟩
  · exact ⟨_, _, layoutEntry_takes hown⟩
  · simp only [List.mem_cons, List.not_mem_nil, or_false] at hi
    rcases hi with rfl | rfl | rfl
    · exact ⟨_, _, copyEntry_takes hown⟩
    · exact ⟨_, _, gatherEntry_takes hown⟩
    · exact ⟨_, _, scatterEntry_takes hown⟩
  · exact ⟨_, _, qfenceEntry_takes s r⟩
  · exact ⟨_, _, collTimeout_takes hkind⟩
  · exact ⟨_, _, collEntry_takes hkind peers⟩

end Serving

/-! ### What each engine does -/

section Done
variable {s t : State} {x : Eng} {r : QueueRef} {e : EngEntry} {b : List Byte} {m : MmaCmd} {fa fb : ZFmt}

theorem flawSource_clean (s : State) (x : Eng) (b : List Byte) : flawSource s x b .clean = s := by
  unfold flawSource
  split
  · rfl
  · split <;> rfl

/-- An MMA with a period left promotes every cell once. -/
theorem runMma_promotes (hbody : mmaBodyCheck b = none) (hm : mmaOf b = m) (hfa : aFmt (m.fmt % 256) = some fa)
    (hfb : bFmt (bits m.fmt 15 8) = some fb)
    (ht : seeTile (seeTile s x 96 m.ksl fa m.aexp m.apl) x (16 * m.gcnt) m.ksl fb m.bexp m.bpl = t) {ta tb : TileMem × Nat}
    (hta : readTile t x 96 m.ksl fa m.aexp m.apl = ta) (htb : readTile t x (16 * m.gcnt) m.ksl fb m.bexp m.bpl = tb)
    (hleft : e.done < ceilDiv m.ksl m.p) (ha : ta.2 = 0) (hb : tb.2 = 0) (harr : workingArrays t r.unit ≠ 0) : runMma s x r e b =
      setFirst (promote m e (bits m.fmt 23 16 == 1 && e.done == 0) (periodAcc ta.1 tb.1 m.ksl m.p e.done) t) r
        { e with done := e.done + 1 } := by
  unfold runMma
  rw [hbody]
  dsimp only
  rw [hm, hfa, hfb]
  dsimp only
  rw [ht, hta, htb, if_neg (Nat.not_le.mpr hleft), ha, hb, if_neg harr, if_neg (by decide)]

/-- An MMA whose periods are all promoted completes. -/
theorem runMma_completes (hbody : mmaBodyCheck b = none) (hm : mmaOf b = m) (hfa : aFmt (m.fmt % 256) = some fa)
    (hfb : bFmt (bits m.fmt 15 8) = some fb) (hdone : ceilDiv m.ksl m.p ≤ e.done) : runMma s x r e b = finishEntry s r e 0 0 := by
  unfold runMma
  rw [hbody]
  dsimp only
  rw [hm, hfa, hfb]
  dsimp only
  rw [if_pos hdone]

theorem runMma_rejected {p : Plan} (hbody : mmaBodyCheck b = some p) : runMma s x r e b = runPlan s x r e p := by
  unfold runMma
  rw [hbody]

theorem runQfence_waits (hnames : bits (field b 17 1) 7 4 = 0) (hrest : leNat (takeAt b 18 46) = 0) : runQfence r s x e b =
    if (e.waits.filter fun w => bit (field b 17 1) (queueBit w.1.kind)).all (entryDone s) then finishEntry s r e 0 0 else s := by
  unfold runQfence
  rw [if_neg (by simp [hnames, hrest])]
  rfl

end Done

section Coll
variable {s : State} {x : Eng} {r : QueueRef} {e : EngEntry} {b : List Byte} {m : CollCmd} {g : GroupRec} {peers others : List PeerContribution}

theorem collEnd_runs {p : Plan} (hfree : planBlocked s x p = false) :
    collEnd s x r e g p = runPlan (countColl s r.part (GroupRec.gid g)) x r e p := by
  unfold collEnd
  rw [if_neg (by rw [hfree]; decide)]

/-- A COLL with a peer whose command or record differs completes with REASON 6. -/
theorem runColl_mismatch (hm : collChecked s x b = .inr (m, g)) (hlink : collLinked s g = true)
    (hothers : (peers.filter fun p => p.rank != GroupRec.rank g && p.rank < GroupRec.nrank g) = others)
    (hbad : ∃ p ∈ others, peerMatches m g p = false)
    (hfree : planBlocked s x { st := 5, reason := 6, reads := [m.record], writes := [] } = false) : runColl peers r s x e b =
      runPlan (countColl s r.part (GroupRec.gid g)) x r e { st := 5, reason := 6, reads := [m.record], writes := [] } := by
  unfold runColl
  rw [hm]
  dsimp only
  rw [hothers, if_neg (by rw [hlink]; decide), if_pos (by simpa using hbad), collEnd_runs hfree]

/-- A COLL with every contribution writes its result. -/
theorem runColl_result (hm : collChecked s x b = .inr (m, g)) (hlink : collLinked s g = true)
    (hothers : (peers.filter fun p => p.rank != GroupRec.rank g && p.rank < GroupRec.nrank g) = others)
    (hgood : ∀ p ∈ others, peerMatches m g p = true) {rows : List (List (Byte × Nat))}
    (hrows : contributions s x m g others = some rows) {plan : Plan}
    (hplan : ({ st := statusesOf (collResult m g rows), reason := 0
                reads := m.record :: (if m.ctype = 2 && GroupRec.rank g != m.root then [] else [(m.src, m.len)])
                writes := runWrites m.dst 0 (collResult m g rows) } : Plan) = plan)
    (hfree : planBlocked s x plan = false) : runColl peers r s x e b = runPlan (countColl s r.part (GroupRec.gid g)) x r e plan := by
  subst hplan
  unfold runColl
  rw [hm]
  dsimp only
  rw [hothers, if_neg (by rw [hlink]; decide), if_neg (by simpa using hgood), hrows]
  exact collEnd_runs hfree

theorem runCollTimeout_fails (hm : collChecked s x b = .inr (m, g))
    (hfree : planBlocked s x { st := 5, reason := 7, reads := [m.record], writes := [] } = false) : runCollTimeout r s x e b =
      runPlan (countColl s r.part (GroupRec.gid g)) x r e { st := 5, reason := 7, reads := [m.record], writes := [] } := by
  unfold runCollTimeout
  rw [hm]
  exact collEnd_runs hfree

end Coll

/-- An activity does with the entry it has taken what its `run` says. -/
theorem Takes.runs {s : State} {r : QueueRef} {i : Instr} {op : Nat} {run : State → Eng → EngEntry → List Byte → State} {e : EngEntry}
    {q : EngQ} {t : State} (h : Takes s r i op run) (hat : EntryAt s r op e q) (ht : run s (engFor s r e) e e.taken = t) :
    exec i s = .next t := by
  rw [h.1, takeEntry_runs hat, ht]

/-- Reading an entry once: it completes unread, is taken, or breaks the chain. -/
theorem readFirst_cases {s t : State} {r : QueueRef} {e : EngEntry} {bs : List (Byte × Nat)}
    (ht : seeRegion s (engFor s r e) (entryRegion r e, 64) = t) (hbs : readRegion t (engFor s r e) (entryRegion r e) 64 = bs) :
    (statusesOf bs ≠ 0 → readFirst s r e = finishEntry t r e (statusesOf bs) 0) ∧
    (statusesOf bs = 0 → field (dataOf bs) 8 4 = e.seq.toNat → readFirst s r e = setFirst t r { e with taken := dataOf bs }) ∧
    (statusesOf bs = 0 → field (dataOf bs) 8 4 ≠ e.seq.toNat →
      readFirst s r e = finishEntry (breakChain t r) r { e with broken := true } 4 0) := by
  unfold readFirst
  dsimp only
  rw [ht, hbs]
  refine ⟨fun hst => by rw [if_pos hst], fun hst hseq => ?_, fun hst hseq => ?_⟩
  · rw [if_neg (not_not_intro hst), if_neg (not_not_intro hseq)]
  · rw [if_neg (not_not_intro hst), if_pos hseq]

/-- Settles O57. -/
theorem engineEntriesAreDone : Obligations.EngineEntriesAreDone := by
  unfold Obligations.EngineEntriesAreDone
  constructor
  · intro s r e q x b
    refine ⟨?_, ?_, ?_, ?_, ?_, ?_⟩
    · intro core m fa fb hown hat hbody hm hfa hfb t ta tb
      exact ⟨fun hleft ha hb harr =>
          (mmaEntry_takes hown).runs hat (runMma_promotes hbody hm.symm hfa hfb rfl rfl rfl hleft ha hb harr),
        fun hdone => (mmaEntry_takes hown).runs hat (runMma_completes hbody hm.symm hfa hfb hdone)⟩
    · exact fun core p hown hat hbody => (mmaEntry_takes hown).runs hat (runMma_rejected hbody)
    · exact fun clu hown hat => (layoutEntry_takes hown).runs hat rfl
    · exact fun core hown => ⟨fun hat => (copyEntry_takes hown).runs hat (by rw [flawSource_clean]),
        fun hat => (gatherEntry_takes hown).runs hat rfl, fun hat => (scatterEntry_takes hown).runs hat rfl⟩
    · exact fun hat hnames hrest => (qfenceEntry_takes s r).runs hat (runQfence_waits hnames hrest)
    · intro m g peers rows hkind hat hm others u fails
      exact ⟨fun hlink hbad hfree => (collEntry_takes hkind peers).runs hat (runColl_mismatch hm hlink rfl hbad hfree),
        fun hlink hgood hrows hfree => (collEntry_takes hkind peers).runs hat (runColl_result hm hlink rfl hgood hrows rfl hfree),
        fun hfree => (collTimeout_takes hkind).runs hat (runCollTimeout_fails hm hfree)⟩
  · intro s r e q
    refine ⟨fun st reason hq => ⟨_, finishEntry_queue hq st reason, rfl, rfl, rfl, rfl⟩, ?_⟩
    intro i hserves hq hfirst hup hfree
    obtain ⟨op, run, hexec, hknown⟩ := serves_takes hserves
    have hat : FirstAt s r e q := ⟨hq, hfirst, hup, hfree⟩
    rw [hexec]
    refine ⟨fun hchain => by rw [takeEntry_broken hat hchain], fun hchain hreleased htaken => ?_,
      fun got hgot hunknown => by rw [takeEntry_unknown hgot hknown hunknown]⟩
    intro t bs
    rw [takeEntry_reads hat hchain hreleased htaken]
    obtain ⟨hbad, htakes, hbreaks⟩ := readFirst_cases (s := s) (r := r) (e := e) rfl rfl
    exact ⟨fun hst => congrArg _ (hbad hst), fun hst hseq => congrArg _ (htakes hst hseq), fun hst hseq => congrArg _ (hbreaks hst hseq)⟩

end Sys2Proof.Machine
end

section
/-! PROOFS. Pre-emption: stopping, freezing, the handler's start, YIELD's save and the restore (R194 to R202). -/
namespace Sys2Proof.Machine

/-! ### Groups under a name -/

section Names
variable {s : State} {uid k : Nat} {g g' : Group} {P : Group → Prop}

/-- Every group of a name meets P. -/
def NamedAll (s : State) (k : Nat) (P : Group → Prop) : Prop := ∀ h ∈ s.groups, h.uid = k → P h

/-- A group that is put back is the only one of its name. -/
theorem setGroup_namedAll (s : State) (hP : P g) : NamedAll (s.setGroup g) g.uid P := by
  intro h hh hk
  obtain ⟨y, -, rfl⟩ := List.mem_map.mp hh
  revert hk
  split
  · exact fun _ => hP
  · next hy => exact fun hk => absurd (by simpa using hk) hy

theorem NamedAll.setGroup_other (h : NamedAll s k P) (hne : g.uid ≠ k) : NamedAll (s.setGroup g) k P := by
  intro x hx hk
  obtain ⟨y, hy, rfl⟩ := List.mem_map.mp hx
  revert hk
  split
  · exact fun hk => absurd hk hne
  · exact h y hy

theorem NamedAll.of_groups {t : State} (h : NamedAll s k P) (ht : t.groups = s.groups) : NamedAll t k P := by
  unfold NamedAll
  rw [ht]
  exact h

/-- Where some group has a name, the one found under it meets P. -/
theorem NamedAll.found (h : NamedAll s k P) (hg : s.group? k = some g) : P g := h g (List.mem_of_find?_eq_some hg) (group?_uid hg)

end Names

/-! ### Freezing (R195, R196) -/

section Freeze
variable {s : State} {k uid : Nat} {g : Group} {w : Workgroup}

/-- Every fragment of a group is frozen. -/
def Group.allFrozen (g : Group) : Prop := ∀ n ∈ g.nodes, n.frozen = true

theorem withdraw_groups (s : State) (g : Group) : (withdraw s g).groups = s.groups := by
  unfold withdraw
  dsimp only
  split <;> split <;> rfl

/-- What freezing makes of a group: the same name and leaves, all fragments frozen. -/
def FrozenFrom (g g' : Group) : Prop :=
  g'.uid = g.uid ∧ leafLanes g' = leafLanes g ∧ g'.allFrozen

theorem leafLanes_mapIdx (ns : List Node) (f : Nat → Node → Node) (hleaf : ∀ i n, (f i n).leaf = n.leaf)
    (hmask : ∀ i n, (f i n).mask = n.mask) : ∀ m : LaneMask,
    (ns.mapIdx f).foldl (fun m n => if n.leaf then m ||| n.mask else m) m = ns.foldl (fun m n => if n.leaf then m ||| n.mask else m) m := by
  induction ns generalizing f with
  | nil => exact fun m => rfl
  | cons n ns ih =>
    intro m
    rw [List.mapIdx_cons, List.foldl_cons, List.foldl_cons, hleaf, hmask]
    exact ih (fun i => f (i + 1)) (fun i => hleaf (i + 1)) (fun i => hmask (i + 1)) _

theorem freeze_frozen (s : State) (g : Group) :
    ∃ (g' : Group) (t : State), freeze s g = t.setGroup g' ∧ t.groups = s.groups ∧ FrozenFrom g g' := by
  refine ⟨_, _, rfl, rfl, rfl, ?_, ?_⟩
  · unfold leafLanes
    dsimp only
    refine leafLanes_mapIdx g.nodes _ ?_ ?_ 0
    · exact fun _ _ => rfl
    · exact fun _ _ => rfl
  · intro n hn
    obtain ⟨i, hi, rfl⟩ := List.mem_mapIdx.mp hn
    rfl

/-- Freeze the group of a name. -/
def freezeOne (s : State) (k : Nat) : State :=
  match s.group? k with
  | some g => freeze (withdraw s g) g
  | none => s

/-- Freezing a name puts a frozen group in the place of the one found, or finds none. -/
theorem freezeOne_cases (s : State) (k : Nat) :
    (∃ (g g' : Group) (t : State), s.group? k = some g ∧ freezeOne s k = t.setGroup g' ∧ t.groups = s.groups ∧ FrozenFrom g g') ∨
      (freezeOne s k = s ∧ s.group? k = none) := by
  unfold freezeOne
  cases hg : s.group? k with
  | none => exact Or.inr ⟨rfl, rfl⟩
  | some g =>
    obtain ⟨g', t, hput, hgroups, hfrozen⟩ := freeze_frozen (withdraw s g) g
    exact Or.inl ⟨g, g', t, rfl, hput, hgroups.trans (withdraw_groups s g), hfrozen⟩

theorem freezeOne_frozen (s : State) (k : Nat) : NamedAll (freezeOne s k) k Group.allFrozen := by
  rcases freezeOne_cases s k with ⟨g, g', t, hg, hput, -, huid, -, hfrozen⟩ | ⟨hsame, hnone⟩
  · have hk : g'.uid = k := huid.trans (group?_uid hg)
    rw [hput, ← hk]
    exact setGroup_namedAll t hfrozen
  · rw [hsame]
    intro h hh hk
    exact absurd (List.find?_eq_none.mp hnone h hh) (by simp [hk])

theorem freezeOne_keeps {j : Nat} (h : NamedAll s j Group.allFrozen) (k : Nat) : NamedAll (freezeOne s k) j Group.allFrozen := by
  by_cases hjk : j = k
  · subst hjk
    exact freezeOne_frozen s j
  · rcases freezeOne_cases s k with ⟨g, g', t, hg, hput, hgroups, huid, -, -⟩ | ⟨hsame, -⟩
    · rw [hput]
      exact (h.of_groups hgroups).setGroup_other (by rw [huid, group?_uid hg]; exact Ne.symm hjk)
    · rw [hsame]
      exact h

theorem group?_of_groups {t : State} (h : t.groups = s.groups) (k : Nat) : t.group? k = s.group? k := by
  unfold State.group?
  rw [h]

theorem group?_setGroup_ne {x : Group} (s : State) (h : x.uid ≠ k) : (s.setGroup x).group? k = s.group? k := by
  unfold State.group? State.setGroup
  dsimp only
  induction s.groups with
  | nil => rfl
  | cons y ys ih =>
    rw [List.map_cons, List.find?_cons, List.find?_cons, ih]
    by_cases hy : (y.uid == x.uid) = true
    · rw [if_pos hy]
      have hyx : y.uid = x.uid := by simpa using hy
      have hxk : (x.uid == k) = false := by simpa using h
      rw [hyx, hxk]
    · rw [if_neg hy]

theorem freezeOne_leafLanes (h : s.group? uid = some g) (k : Nat) :
    ∃ g', (freezeOne s k).group? uid = some g' ∧ leafLanes g' = leafLanes g := by
  rcases freezeOne_cases s k with ⟨x, x', t, hx, hput, hgroups, huid, hlanes, -⟩ | ⟨hsame, -⟩
  · have hxk := group?_uid hx
    have hg : t.group? uid = some g := (group?_of_groups hgroups uid).trans h
    rw [hput]
    by_cases hk : uid = k
    · rw [hk] at h hg ⊢
      rw [hx] at h
      cases h
      have hx'k : x'.uid = k := huid.trans hxk
      refine ⟨x', ?_, hlanes⟩
      rw [← hx'k] at hg ⊢
      exact State.group?_setGroup (by rw [hg]; rfl)
    · exact ⟨g, (group?_setGroup_ne t (by rw [huid, hxk]; exact Ne.symm hk)).trans hg, rfl⟩
  · rw [hsame]
    exact ⟨g, h, rfl⟩

theorem freezeOne_others {h : Group} (hh : h ∈ (freezeOne s k).groups) (hne : h.uid ≠ k) : h ∈ s.groups := by
  rcases freezeOne_cases s k with ⟨g, g', t, hg, hput, hgroups, huid, -, -⟩ | ⟨hsame, -⟩
  · rw [hput] at hh
    obtain ⟨y, hy, rfl⟩ := List.mem_map.mp hh
    revert hne
    split
    · exact fun hne => absurd (huid.trans (group?_uid hg)) hne
    · exact fun _ => hgroups ▸ hy
  · rwa [hsame] at hh

theorem freezeAll_keeps (ks : List Nat) {s : State} {j : Nat} (h : NamedAll s j Group.allFrozen) :
    NamedAll (ks.foldl freezeOne s) j Group.allFrozen :=
  List.foldlRecOn (motive := fun t => NamedAll t j Group.allFrozen) ks freezeOne h fun _ ht k _ => freezeOne_keeps ht k

theorem freezeAll_frozen (ks : List Nat) : ∀ {s : State} {k : Nat}, k ∈ ks → NamedAll (ks.foldl freezeOne s) k Group.allFrozen := by
  induction ks with
  | nil => exact fun h => absurd h List.not_mem_nil
  | cons j js ih =>
    intro s k hk
    rw [List.foldl_cons]
    rcases List.mem_cons.mp hk with rfl | hk
    · exact freezeAll_keeps js (freezeOne_frozen s k)
    · exact ih hk

theorem freezeAll_leafLanes (ks : List Nat) : ∀ {s : State} {g : Group}, s.group? uid = some g →
    ∃ g', (ks.foldl freezeOne s).group? uid = some g' ∧ leafLanes g' = leafLanes g := by
  induction ks with
  | nil => exact fun h => ⟨_, h, rfl⟩
  | cons j js ih =>
    intro s g h
    obtain ⟨g1, hg1, hlanes1⟩ := freezeOne_leafLanes h j
    obtain ⟨g2, hg2, hlanes2⟩ := ih hg1
    exact ⟨g2, hg2, hlanes2.trans hlanes1⟩

theorem freezeAll_others (ks : List Nat) : ∀ {s : State} {h : Group}, h ∈ (ks.foldl freezeOne s).groups → h.uid ∉ ks → h ∈ s.groups := by
  induction ks with
  | nil => exact fun hh _ => hh
  | cons j js ih =>
    intro s h hh hne
    rw [List.mem_cons, not_or] at hne
    exact freezeOne_others (ih hh hne.2) hne.1

theorem startSaving_freezes (s : State) (w : Workgroup) : startSaving s w =
    ((s.groups.filter (inWkg w)).map (·.uid)).foldl freezeOne (s.setWkg { w with st := .saving }) := rfl

/-- Every fragment of a workgroup that is being saved is frozen. -/
theorem startSaving_frozen {h : Group} (hh : h ∈ (startSaving s w).groups) (hin : inWkg w h = true) : h.allFrozen := by
  rw [startSaving_freezes] at hh
  by_cases hmem : h.uid ∈ (s.groups.filter (inWkg w)).map (·.uid)
  · exact freezeAll_frozen _ hmem h hh rfl
  · have hs : h ∈ s.groups := freezeAll_others (s := s.setWkg { w with st := .saving }) _ hh hmem
    exact absurd (List.mem_map_of_mem (List.mem_filter.mpr ⟨hs, hin⟩)) hmem

end Freeze

/-! ### The handler's start (R197) -/

section Handler
variable {s : State} {uid entry : Nat} {g : Group} {w : Workgroup} {l : Launch}

/-- Renumbering changes ranks alone. -/
theorem withRank_frozen (h : g.allFrozen) : ∀ n ∈ (withRank g.nodes).1, n.frozen = true := by
  unfold withRank
  dsimp only
  split
  · exact h
  · intro n hn
    obtain ⟨m, hm, rfl⟩ := List.mem_map.mp hn
    split
    · exact h m hm
    · exact h m hm

/-- The handler's fragment is added to a group whose fragments are frozen. -/
theorem startHandler_starts (hg : s.group? uid = some g) (hfrozen : g.allFrozen) (hlanes : leafLanes g ≠ 0) :
    ∃ g', startHandler s uid entry = s.setGroup g' ∧ g'.uid = uid ∧
      (∃ n ∈ g'.nodes, n.saver = true ∧ n.mask = leafLanes g ∧ n.s63 = s63Of 7 0 0 0 ∧ n.trace = entry ∧ n.st = .ready) ∧
      ∀ n ∈ g'.nodes, n.saver = true ∨ n.frozen = true := by
  unfold startHandler
  rw [hg]
  dsimp only
  rw [if_neg hlanes]
  refine ⟨_, rfl, group?_uid (g := g) hg, ⟨_, List.mem_append_right _ List.mem_cons_self, rfl, rfl, rfl, rfl, rfl⟩, ?_⟩
  intro n hn
  rcases List.mem_append.mp hn with hn | hn
  · exact Or.inr (withRank_frozen hfrozen n hn)
  · rw [List.mem_singleton.mp hn]
    exact Or.inl rfl

theorem wkg?_key {part k : Nat} {serial : Word} (h : s.wkg? part serial k = some w) :
    w.part = part ∧ w.serial = serial ∧ w.wkg = k := by
  have hk := List.find?_some h
  simp only [Bool.and_eq_true, beq_iff_eq] at hk
  exact ⟨hk.1.1, hk.1.2, hk.2⟩

theorem preemptHandlerStart_starts (hg : s.group? uid = some g) (hw : s.wkg? g.part g.serial g.wkg = some w)
    (hl : s.launch? g.part g.serial = some l) (hready : (w.st = .stopping ∧ atBoundary s w = true) ∨ w.st = .saving)
    (hyield : g.yield = .no) (hlanding : g.landing = none) (hsaver : ∀ n ∈ g.nodes, n.saver = false) :
    exec (.preemptHandlerStart uid) s =
      .next (startHandler (if w.st = .saving then s else startSaving s w) uid ((l.preempting).getD (l.fld 8 8))) := by
  have hgo : ((w.st == .stopping && atBoundary s w) || w.st == .saving) = true := by
    rcases hready with ⟨hst, hbound⟩ | hst
    · simp [hst, hbound]
    · simp [hst]
  have hnosaver : g.nodes.any (·.saver) = false := by
    rw [List.any_eq_false]
    intro n hn
    rw [hsaver n hn]
    decide
  refine congrArg Host.Outcome.next ?_
  rw [hg]
  dsimp only
  rw [hw, hl]
  dsimp only
  rw [if_neg (by rw [hgo, hyield, hlanding, hnosaver]; decide)]

/-- The handler of a group starts, in a workgroup all of whose other fragments are frozen. -/
theorem preemptHandlerStart_result (hg : s.group? uid = some g) (hw : s.wkg? g.part g.serial g.wkg = some w)
    (hl : s.launch? g.part g.serial = some l) (hready : (w.st = .stopping ∧ atBoundary s w = true) ∨ w.st = .saving)
    (hyield : g.yield = .no) (hlanding : g.landing = none) (hsaver : ∀ n ∈ g.nodes, n.saver = false)
    (hsaving : w.st = .saving → ∀ n ∈ g.nodes, n.frozen = true) (hlanes : leafLanes g ≠ 0) :
    ∃ (t : State) (g' : Group), exec (.preemptHandlerStart uid) s = .next t ∧ t.group? uid = some g' ∧
      (∃ n ∈ g'.nodes, n.saver = true ∧ n.mask = leafLanes g ∧ n.s63 = s63Of 7 0 0 0 ∧
        n.trace = l.preempting.getD (l.fld 8 8) ∧ n.st = .ready) ∧ (∀ n ∈ g'.nodes, n.saver = true ∨ n.frozen = true) ∧
      (w.st = .stopping → ∀ h ∈ t.groups, inWkg w h = true → h.uid ≠ uid → ∀ n ∈ h.nodes, n.frozen = true) := by
  rw [preemptHandlerStart_starts hg hw hl hready hyield hlanding hsaver]
  have hput : ∀ {t : State} {x y : Group}, t.group? uid = some x → y.uid = uid → (t.setGroup y).group? uid = some y := by
    rintro t x y hx rfl
    exact State.group?_setGroup (by rw [hx]; rfl)
  rcases hready with ⟨hst, -⟩ | hst
  · have hne : ¬ w.st = .saving := by rw [hst]; decide
    obtain ⟨hpart, hserial, hwkg⟩ := wkg?_key hw
    have hin : inWkg w g = true := by simp [inWkg, hpart, hserial, hwkg, hlanding]
    obtain ⟨g1, hg1, hlanes1⟩ := freezeAll_leafLanes ((s.groups.filter (inWkg w)).map (·.uid))
      (s := s.setWkg { w with st := .saving }) (uid := uid) (g := g) hg
    rw [← startSaving_freezes] at hg1
    have hmem : uid ∈ (s.groups.filter (inWkg w)).map (·.uid) := by
      rw [← group?_uid hg]
      exact List.mem_map_of_mem (List.mem_filter.mpr ⟨List.mem_of_find?_eq_some hg, hin⟩)
    have hfrozen1 : g1.allFrozen := (freezeAll_frozen _ hmem).found hg1
    obtain ⟨g', hstart, huid, hhandler, hrest⟩ :=
      startHandler_starts (entry := l.preempting.getD (l.fld 8 8)) hg1 hfrozen1 (hlanes1 ▸ hlanes)
    rw [if_neg hne]
    refine ⟨_, g', rfl, ?_, hlanes1 ▸ hhandler, hrest, ?_⟩
    · rw [hstart]
      exact hput hg1 huid
    · intro _ h hh hinh hhne
      rw [hstart] at hh
      obtain ⟨y, hy, rfl⟩ := List.mem_map.mp hh
      revert hinh hhne
      split
      · exact fun _ hhne => absurd huid hhne
      · exact fun hinh _ => startSaving_frozen hy hinh
  · obtain ⟨g', hstart, huid, hhandler, hrest⟩ :=
      startHandler_starts (entry := l.preempting.getD (l.fld 8 8)) hg (hsaving hst) hlanes
    rw [if_pos hst]
    refine ⟨_, g', rfl, ?_, hhandler, hrest, fun hstop => ?_⟩
    · rw [hstart]
      exact hput hg huid
    · rw [hst] at hstop
      cases hstop

end Handler

/-! ### Stopping, saving and restoring -/

section Saving
variable {s : State} {part core uid ix : Nat} {serial : Word} {l : Launch} {w : Workgroup} {g : Group} {n : Node} {c : Ctx} {p : Partition}

theorem preemptArrival_stops (hl : s.launch? part serial = some l) (hpre : l.preempting ≠ none)
    (hw : (s.wkgs.find? fun w => w.part == part && w.serial == serial && w.core == core && w.st == .running) = some w) :
    exec (.preemptRequestArrival part serial core) s =
      .next (wkgMaybeEnd (s.setWkg { w with st := .stopping }) part serial w.wkg) := by
  refine congrArg Host.Outcome.next ?_
  rw [hl, hw]
  dsimp only
  rw [if_neg (by simpa using hpre)]

theorem preemptExpiry_rollsBack (ht : traceOf s uid ix = some (g, n, c)) (hst : wkgIn s g .stopping = true) (hopen : c.entered = none) :
    exec (.preemptAllowanceExpiry uid ix) s = .next (rollBack s uid ix) := by
  refine congrArg Host.Outcome.next ?_
  unfold onTrace
  rw [ht]
  dsimp only
  rw [if_pos (by rw [hst, hopen]; rfl)]

theorem wkgMaybeEnd_groups (s : State) (part : Nat) (serial : Word) (k : Nat) : (wkgMaybeEnd s part serial k).groups = s.groups := by
  unfold wkgMaybeEnd
  split
  · rfl
  · dsimp only
    repeat' split
    all_goals rfl

/-- A saved group has left its core. -/
theorem saveGroup_gone (s : State) (g : Group) : (saveGroup s g).group? g.uid = none := by
  unfold saveGroup
  dsimp only
  rw [group?_of_groups (wkgMaybeEnd_groups ..)]
  unfold State.group?
  rw [List.find?_eq_none]
  intro y hy
  simpa using (List.mem_filter.mp hy).2

theorem yieldSave_saves {u : State} {ls : List (Nat × List Byte)} (hg : s.group? uid = some g) (hyield : g.yield = .waiting)
    (hready : yieldReady s g = true) (hheld : saveHeld s g = false) (hu : seeSave s g = u) (hspans : saveSpans u g (saveLines g) = .ok ls)
    (hfree : ∀ x ∈ ls, parkedBlocks u x.1 64 true = false) : exec (.yieldSave uid) s =
      .next (saveGroup (ls.foldl (fun s x => if reaches s g.die x.1 then pwrite s x.1 x.2 else s) u) g) := by
  have hnone : (ls.any fun x => parkedBlocks u x.1 64 true) = false := by
    rw [List.any_eq_false]
    intro x hx
    rw [hfree x hx]
    decide
  refine congrArg Host.Outcome.next ?_
  rw [hg]
  dsimp only
  rw [if_neg (by rw [hyield, hready, hheld]; decide), hu, hspans]
  dsimp only
  rw [if_neg (by rw [hnone]; decide)]

theorem yieldSave_ends {e : Nat} (hg : s.group? uid = some g) (hyield : g.yield = .waiting) (hready : yieldReady s g = true)
    (hheld : saveHeld s g = false) (hspans : saveSpans (seeSave s g) g (saveLines g) = .error e) :
    exec (.yieldSave uid) s = .next (addFatal (seeSave s g) g 1 64) := by
  refine congrArg Host.Outcome.next ?_
  rw [hg]
  dsimp only
  rw [if_neg (by rw [hyield, hready, hheld]; decide), hspans]

/-- The cores that a restored launch may take, from a place that a free value gives. -/
def candidateCores (s : State) (p : Partition) : List Nat :=
  let cores := ((List.range 48).filter (bit p.clumask)).flatMap fun k => (List.range 4).map fun c => 4 * k + c
  let k := (Config.freeValue s.tick).toNat % (cores.length + 1)
  cores.drop k ++ cores.take k

/-- What a restore leaves: the launch on its cores, or the end of a launch whose blocks fail their checks. -/
def afterRestore (s : State) (part : Nat) (serial : Word) (l : Launch) (restored : Option State) : State :=
  match restored with
  | some t => t.setLaunch { l with preempting := none }
  | none => failRestore { s with tick := s.tick + 1 } part serial

theorem launchRestore_restores {as : List (Workgroup × Nat)} {t s1 : State} (hp : s.part? part = some p)
    (hl : (s.launches.find? fun l => l.part == part && launchSaved s l) = some l) (hserial : l.serial = serial)
    (hfirst : ∀ k, nextWaiting s part = some k → placeable s k = false) (hs1 : ({ s with tick := s.tick + 1 } : State) = s1)
    (has : assignCores (fitsCore s1 l (s1.wkgs.filter fun w => w.part == part && w.serial == serial)) (candidateCores s p)
      (s1.wkgs.filter fun w => w.part == part && w.serial == serial) [] = some as)
    (hfree : ∀ a ∈ as, ∀ x ∈ a.1.saves, blockHeld s1 a.2 part x.addr = false)
    (ht : as.foldl (fun (acc : Option State) a => match acc with
      | some t => restoreWkg p l t a.1 a.2
      | none => none) (some s1) = some t) :
    exec (.launchRestore part serial) s = .next (t.setLaunch { l with preempting := none }) := by
  have hblocked : (match nextWaiting s part with
      | some k => placeable s k
      | none => false) = false := by
    split
    · exact hfirst _ ‹_›
    · rfl
  have hnone : (as.any fun a => a.1.saves.any fun x => blockHeld s1 a.2 part x.addr) = false := by
    simp only [List.any_eq_false, Bool.not_eq_true]
    exact hfree
  subst hs1
  refine congrArg Host.Outcome.next ?_
  rw [hp, hl]
  dsimp only
  rw [if_neg (by rw [hserial, bne_self_eq_false, Bool.false_or]; exact Bool.eq_false_iff.mp hblocked)]
  unfold State.fresh
  dsimp only
  unfold candidateCores at has
  dsimp only at has
  rw [has]
  dsimp only
  rw [if_neg (by rw [hnone]; decide)]
  exact congrArg (afterRestore s part serial l) ht

end Saving

/-- Settles O58. -/
theorem groupsAreSavedAndRestored : Obligations.GroupsAreSavedAndRestored := by
  unfold Obligations.GroupsAreSavedAndRestored
  intro s
  refine ⟨?_, ?_, ?_, ?_, ?_, ?_⟩
  · exact fun part serial core l w hl hpre hw => preemptArrival_stops hl hpre hw
  · exact fun uid ix g n c ht hst hopen => preemptExpiry_rollsBack ht hst hopen
  · exact fun uid g w l hg hw hl hready hyield hlanding hsaver hsaving hlanes =>
      preemptHandlerStart_result hg hw hl hready hyield hlanding hsaver hsaving hlanes
  · intro uid g ls hg hyield hready hheld u hspans hfree _ s1
    exact ⟨yieldSave_saves hg hyield hready hheld rfl hspans hfree, group?_uid hg ▸ saveGroup_gone s1 g⟩
  · exact fun uid g e hg hyield hready hheld hspans => yieldSave_ends hg hyield hready hheld hspans
  · intro part serial p l as t hp hl hserial hfirst s1 cores k ws has hfree ht
    exact launchRestore_restores hp hl hserial hfirst rfl has hfree ht

end Sys2Proof.Machine
end

section
/-! PROOFS. The emulation of instructions that are architected, later (R190 to R193, R283). -/
namespace Sys2Proof.Machine

/-! ### Parking (R191) -/

section Park
variable {s : State} {g : Group} {n : Node} {c : Ctx} {i : Instr} {k : Comp} {o : LOp} {lanes : List Nat}

/-- An instruction that is emulated issues as such. -/
theorem exec_emulated (h : emulated i = some (k, o)) :
    exec i s = coreOp false (k.spec o (lenWords o.w2) 0).used 0 (parkEmul i k o) s := by
  have hop : emulOp i s = coreOp false (k.spec o (lenWords o.w2) 0).used 0 (parkEmul i k o) s := by
    unfold emulOp
    rw [h]
  rw [← hop]
  cases i <;> cases h <;> rfl

/-- Where no selected lane faults, the fragment is parked for all of them. -/
theorem parkEmul_parks (hlanes : selected g o.ps.toNat o.pm.toNat (c.active ||| c.helpers) = lanes) (hcheck : k.check o g.nregs = 0)
    (hactive : c.active ≠ 0) (hne : lanes ≠ []) (hroom : overShadow c (k.dstRegs o) = false)
    (hgood : ∀ l ∈ lanes, (k.lane o g n c l).code = 0) : parkEmul i k o s g n c = putCtx s g n { c.shadow (k.dstRegs o) with
      emul := some { insn := insnWords i, instr := i, lanes := maskOf lanes, next := 0, done := 0, v := g.v, s := g.s,
                     fmode := g.fmode } } := by
  let outs := lanes.map fun l => (l, k.lane o g n c l)
  have hcodes : ∀ x ∈ outs, x.2.code = 0 := by
    intro x hx
    obtain ⟨l, hl, rfl⟩ := List.mem_map.mp hx
    exact hgood l hl
  have hbad : outs.filter (fun x => x.2.code != 0) = [] := by
    rw [List.filter_eq_nil_iff]
    intro x hx
    simp [hcodes x hx]
  have hall : outs.filter (fun x => x.2.code == 0) = outs := by
    rw [List.filter_eq_self]
    intro x hx
    simp [hcodes x hx]
  have hempty : lanes.isEmpty = false := by simpa using hne
  have hemptyOuts : outs.isEmpty = false := by simpa [outs] using hne
  have hmask : outs.map (·.1) = lanes := by simp [outs, Function.comp_def]
  unfold parkEmul
  dsimp only [Comp.spec]
  rw [hlanes, if_neg (by simp [hcheck, hroom]), hbad, hall, hempty, hmask, hemptyOuts]
  exact congrArg (putCtx s g n) (if_neg fun h => hactive h.1)

end Park

/-! ### Frames and their results -/

section Frames
variable {s : State} {uid ix : Nat} {e : Emulating} {slot off : Nat} {f : Frame}

/-- The next element goes to the lowest free frame, which is computed or carried by a request. -/
theorem emulationFrame_frames (he : emulating s uid ix = some e) (hissue : canIssue s e.g e.n = true)
    (hslot : freeSlot (s.die e.g.die) = some slot) (hoff : (e.o.offs e.k.paired)[e.m.next]? = some off) {s2 : State}
    (hs2 : putCtx (pwriteLong s (frameAt e.g.die slot) (frameBytes e.m e.k e.o e.g e.n (whoOf e.g) e.m.next off)) e.g e.n
      { e.c with emul := some { e.m with next := e.m.next + 1 } } = s2)
    (hf : ({ slot := slot, g := uid, n := ix, elem := e.m.next, ready := false, ticket := none } : Frame) = f) {r : State × Word}
    (hr : raiseService s2 e.g.part uid
      { class_ := 4, access := 4, cause := 0, who := whoOf e.g, addr := frameAt e.g.die slot, count := (lanesOf e.m.lanes).length,
        serial := e.g.serial } = r) :
    exec (.emulationFrame uid ix) s = .next (if formatAssisted s e.g.part then addFrame r.1 e.g.die { f with ticket := some r.2 }
      else computeFrame (addFrame s2 e.g.die f) e.g.die f) := by
  subst hf
  refine congrArg Host.Outcome.next ?_
  rw [he]
  dsimp only
  rw [hslot, hoff]
  dsimp only
  rw [if_neg (by rw [hissue]; decide), hs2, hr]

/-- A ready frame's results reach its lanes. -/
theorem emulationResult_writes (he : emulating s uid ix = some e) (hissue : canIssue s e.g e.n = true) (hf : nextFrame s e = some f)
    (hoff : (e.o.offs e.k.paired)[e.m.done]? = some off) (hready : f.ready = true) {outs : List (Nat × LaneOut)}
    (houts : ((lanesOf (e.m.lanes &&& (e.c.active ||| e.c.helpers))).map fun l => (l, frameLane s e (frameAt e.g.die f.slot) off l)) = outs)
    {r : (Group × Node × Ctx) × List (Nat × Nat)} (hr : outs.foldl (applyOut e.m.fmode) ((e.g, e.n, e.c), []) = r) :
    exec (.emulationResultWrite uid ix) s =
      .next (endEmul (faultLanes (freeFrame s e.g.die f) r.1.1 r.1.2.1 r.1.2.2 r.2 fun c : Ctx =>
        if (e.o.offs e.k.paired).length ≤ e.m.done + 1 then { c with emul := none }.advance (lenWords e.o.w2)
        else { c with emul := some { e.m with done := e.m.done + 1 } }) uid ix) := by
  refine congrArg Host.Outcome.next ?_
  rw [he]
  dsimp only
  rw [hf, hoff]
  dsimp only
  rw [if_neg (by rw [hready, hissue]; decide), houts, hr]

end Frames

/-- Settles O59. -/
theorem laterInstructionsAreEmulated : Obligations.LaterInstructionsAreEmulated := by
  unfold Obligations.LaterInstructionsAreEmulated
  constructor
  · intro i k o s g n c hi hissues hcheck hactive lanes hne hroom hgood
    rw [exec_emulated hi, coreOp_issues hissues 0 (.inl rfl)]
    exact congrArg Host.Outcome.next (parkEmul_parks rfl hcheck hactive hne hroom hgood)
  · intro s uid ix e he hissue
    refine ⟨fun slot off hslot hoff => ?_, fun f off hf hoff hready => ?_⟩
    · intro s2 f req r
      exact emulationFrame_frames he hissue hslot hoff rfl rfl rfl
    · intro outs r next
      exact emulationResult_writes he hissue hf hoff hready rfl rfl

end Sys2Proof.Machine
end

section
/-! PROOFS. Replayed calls take positions, are applied, end, and are read (R245 to R252, R375, R376). -/
namespace Sys2Proof.Machine

/-! ### Positions (R247, R375) -/

section Positions
variable {s s1 u : State} {uid ix : Nat} {h : HomeWait} {o : Obj}

theorem manifestAppend_appends (hreq : requestOf s uid ix = some h) (hrecord : recordHeld s h.part h.obj = false)
    (hs1 : trim (meetObj s h.part h.obj) h.part h.obj = s1) (ho : obj? s1 h.part h.obj = some o) (hobj : objectHeld s1 h.part o = false)
    (hu : seeObject s1 h.part o = u) (hrel : releasedTo u uid h.core h.mark 4 = true)
    (hhorizon : ∀ g, u.group? uid = some g → horizonReady u g h.obj = true) (hseal : sealHold u h.part = false)
    (hentry : entryHeld u h.part o o.next = false) (hroom : hasRoom u h.part o = true) (hserves : homeServes u o h.core = true) :
    exec (.manifestAppend uid ix) s = .next (appendCall u h o) := by
  have hready : (match u.group? uid with
      | some gr => horizonReady u gr h.obj
      | none => true) = true := by
    split
    · exact hhorizon _ ‹_›
    · rfl
  have hgoes : (releasedTo u uid h.core h.mark 4 && (match u.group? uid with
      | some gr => horizonReady u gr h.obj
      | none => true) && !sealHold u h.part && !entryHeld u h.part o o.next && hasRoom u h.part o && homeServes u o h.core) = true := by
    rw [hready, hrel, hseal, hentry, hroom, hserves]
    rfl
  refine congrArg Host.Outcome.next ?_
  rw [hreq]
  dsimp only
  rw [if_neg (by rw [hrecord]; decide), hs1, ho]
  dsimp only
  rw [if_neg (by rw [hobj]; decide), hu]
  exact if_pos hgoes

end Positions

/-! ### Applying (R248, R250) -/

section Applying
variable {s s1 s2 : State} {part d obj m : Nat} {o : Obj} {pos : Word} {b : List Byte} {g : Group} {c : Call} {l : LandingAt}

/-- A die without a call in progress applies the next position of the object. -/
theorem landingApply_next (hrun : (s.die d).running = true) (htrip : (s.die d).tripped = false) (hidle : landingGroup s part d = none)
    (ho : obj? s part obj = some o) : exec (.landingApply part d obj) s = .next (applyNext s part d o) := by
  refine congrArg Host.Outcome.next ?_
  rw [if_neg (by rw [hrun, htrip]; decide), hidle]
  dsimp only
  rw [ho]

/-- The next position of an object on a die can be applied: it has an entry, no RREAD goes first, its home serves and its tables can be
walked. -/
structure Applies (s : State) (part d : Nat) (o : Obj) (pos : Word) : Prop where
  next : o.applied.getD d 0 + 1 = pos
  entry : pos ∈ o.entries
  reads : readWaits s part d o = false
  serves : homeServes s o (48 * d) = true
  object : objectHeld s part o = false

theorem Applies.goes (h : Applies s part d o pos) :
    ¬ (!o.entries.contains pos || readWaits s part d o || !homeServes s o (48 * d) || objectHeld s part o) = true := by
  simp [h.entry, h.reads, h.serves, h.object]

theorem applyNext_unwritten (h : Applies s part d o pos) (hun : pos ∈ o.unwritten) :
    applyNext s part d o = recordOutcome s part d o.obj pos 7 0 0 := by
  unfold applyNext
  rw [h.next]
  dsimp only
  rw [if_neg h.goes, if_pos (by simpa using hun)]

/-- A position with an entry is read, and its method starts or it is rejected. -/
theorem applyNext_reads (h : Applies s part d o pos) (hun : pos ∉ o.unwritten) (hs1 : seeVa s o.home part (o.entryVa pos) 64 = s1)
    (hb : readEntry s1 part o pos = b) (hm : field b 11 1 = m) (hentry : entryHeld s part o pos = false)
    (hmethod : methodHeld s part d o m = false) : applyNext s part d o =
      if manifestOk s1 part o && entryBad s1 part o pos then recordOutcome s1 part d o.obj pos 4 9 0
      else match methodStart (seeMethod s1 part d o m) part d o m false with
        | none => recordOutcome (seeMethod s1 part d o m) part d o.obj pos 7 0 0
        | some a => startCall (seeMethod s1 part d o m) part d o m pos
            ((List.range 10).map fun i => BitVec.ofNat 32 (field b (24 + 4 * i) 4)) none a := by
  unfold applyNext
  rw [h.next]
  dsimp only
  rw [if_neg h.goes, if_neg (by simpa using hun), hs1, hb, hm, if_neg (by rw [hentry, hmethod]; decide)] <;> rfl

/-- A call that has ended leaves its outcome. -/
theorem landingApply_ends (hrun : (s.die d).running = true) (htrip : (s.die d).tripped = false) (hg : landingGroup s part d = some g)
    (hc : (s.calls.find? fun c => c.g == g.uid) = some c) (hl : g.landing = some l) (hcaller : c.caller = none) (hobj : l.obj = obj)
    (hended : callEnded g c = true) (hentry : ∀ o, obj? s part obj = some o → entryHeld s part o l.pos = false) :
    exec (.landingApply part d obj) s = .next (recordOutcome
      (dropCall (if c.reason = 0 then s else undoCall s g.uid) g) g.part l.die l.obj l.pos c.reason c.code c.result) := by
  have hthere : callerGone s c = false := by
    unfold callerGone
    rw [hcaller]
  have hfree : ¬ ((obj? s part obj).any fun o => entryHeld s part o l.pos) = true := by
    cases ho : obj? s part obj with
    | none => simp
    | some o => simp [hentry o ho]
  refine congrArg Host.Outcome.next ?_
  rw [if_neg (by rw [hrun, htrip]; decide), hg]
  dsimp only
  rw [hc, hl]
  dsimp only
  rw [if_neg (by rw [hthere]; decide), if_neg (by simp [hobj, hcaller, hended]), if_neg hfree]
  rfl

end Applying

/-! ### RREAD (R251, R375, R376) -/

section Reads
variable {s s1 : State} {uid id : Nat} {gr g1 lg : Group} {l : Load} {r : Nat × Nat × List Word × Nat} {o : Obj} {c : Call} {pos : Word}

/-- An RREAD's method starts once the die has applied the group's horizon. -/
theorem rreadRun_starts (hcall : (s.calls.find? fun c => c.caller == some (uid, id)) = none) (hg : s.group? uid = some gr)
    (hl : (gr.loads.find? fun x => x.id == id) = some l) (hr : l.rread = some r) (hopen : l.answered = none)
    (hrecord : recordHeld s gr.part r.1 = false) (hs1 : meetObj s gr.part r.1 = s1) (ho : obj? s1 gr.part r.1 = some o)
    (hg1 : s1.group? uid = some g1) (hrun : (s1.die g1.die).running = true) (htrip : (s1.die g1.die).tripped = false)
    (hidle : landingGroup s1 g1.part g1.die = none) (hreached : seqReached (o.applied.getD g1.die 0) (horizonOf g1 r.1) = true)
    (hready : horizonReady s1 g1 r.1 = true) (hobj : objectHeld s1 g1.part o = false)
    (hmethod : methodHeld s1 g1.part g1.die o r.2.1 = false) :
    exec (.rreadMethodRun uid id) s = .next (startRead (seeMethod s1 g1.part g1.die o r.2.1) g1 id r o) := by
  refine congrArg Host.Outcome.next ?_
  rw [hcall]
  dsimp only
  rw [hg]
  dsimp only
  rw [hl, Option.bind_some, hr, Option.map_some, hopen]
  dsimp only
  rw [if_neg (by rw [hrecord]; decide), hs1, ho, hg1]
  dsimp only
  rw [if_neg (by rw [hrun, htrip, hidle, hreached, hready]; decide), if_neg (by rw [hobj, hmethod]; decide)]

/-- An answered RREAD's horizon rises. -/
theorem rreadRun_rises (hcall : (s.calls.find? fun c => c.caller == some (uid, id)) = none) (hg : s.group? uid = some gr)
    (hl : (gr.loads.find? fun x => x.id == id) = some l) (hr : l.rread = some r) (hdone : l.answered = some pos)
    (hready : horizonReady s gr r.1 = true) : exec (.rreadMethodRun uid id) s = .next (s.setGroup (raiseHorizon
      { gr with loads := gr.loads.map fun x => if x.id == l.id then { x with rread := none } else x } r.1 pos)) := by
  refine congrArg Host.Outcome.next ?_
  rw [hcall]
  dsimp only
  rw [hg]
  dsimp only
  rw [hl, Option.bind_some, hr, Option.map_some, hdone]
  dsimp only
  unfold noteRead
  rw [if_pos hready]

/-- A method that an RREAD waits for returns its result. -/
theorem rreadRun_answers {k : LandingAt} (hcall : (s.calls.find? fun c => c.caller == some (uid, id)) = some c)
    (hlg : s.group? c.g = some lg) (hthere : callerGone s c = false) (hended : callEnded lg c = true) (hg : s.group? uid = some gr)
    (hk : lg.landing = some k) (hr : ((gr.loads.find? fun x => x.id == id).bind (·.rread)) = some r) :
    exec (.rreadMethodRun uid id) s = .next (answerRead
      (dropCall (if c.reason = 0 then s else undoCall s lg.uid) lg) uid id k.obj r.2.2.2 c.reason c.code c.result) := by
  refine congrArg Host.Outcome.next ?_
  rw [hcall]
  dsimp only
  rw [hlg]
  dsimp only
  rw [if_neg (by rw [hthere]; decide), if_neg (by rw [hended]; decide), hg, hk]
  dsimp only
  rw [hr]

end Reads

/-- Settles O60. -/
theorem callsAreReplayed : Obligations.CallsAreReplayed := by
  unfold Obligations.CallsAreReplayed
  intro s
  refine ⟨?_, ?_, ?_, ?_, ?_, ?_⟩
  · intro uid ix h o hreq hrecord s1 ho hobj u hrel hhorizon hseal hentry hroom hserves
    exact manifestAppend_appends hreq hrecord rfl ho hobj rfl hrel hhorizon hseal hentry hroom hserves
  · intro part d obj o hrun htrip hidle ho pos s1 b m s2 hpos hreads hserves hobj
    have h : Applies s part d o pos := ⟨rfl, hpos, hreads, hserves, hobj⟩
    rw [landingApply_next hrun htrip hidle ho]
    refine ⟨fun hun => by rw [applyNext_unwritten h hun], fun hun hentry hmethod => ?_⟩
    rw [applyNext_reads h hun rfl rfl rfl hentry hmethod]
    refine ⟨fun hbad => by rw [if_pos (by simpa using hbad)], fun hgood => ?_⟩
    rw [if_neg (by simpa using hgood)]
    exact ⟨fun a ha => by rw [ha], fun hnone => by rw [hnone]⟩
  · intro part d obj g c l hrun htrip hg hc hl hcaller hobj hended hentry
    exact landingApply_ends hrun htrip hg hc hl hcaller hobj hended hentry
  · intro uid id gr l r o g1 hcall hg hl hr hopen hrecord s1 ho hg1 hrun htrip hidle hreached hready hobj hmethod
    exact rreadRun_starts hcall hg hl hr hopen hrecord rfl ho hg1 hrun htrip hidle hreached hready hobj hmethod
  · intro uid id gr l r pos hcall hg hl hr hdone hready
    exact rreadRun_rises hcall hg hl hr hdone hready
  · intro uid id c lg gr l r hcall hlg hthere hended hg hk hr
    exact rreadRun_answers hcall hlg hthere hended hg hk hr

end Sys2Proof.Machine
end

section
/-! PROOFS. What a step keeps: canonical memories, and who issues; the rules of the operations on the state. -/
namespace Sys2Proof.Machine

/-! ### The form that is kept -/

/-- Canonical memories, with `k` issuing. -/
structure Kept (k : Cur) (mem hostmem : Memory) (wkgs : List Workgroup) (remains : List Remains) (cur : Cur) : Prop where
  mem : Memory.wf mem = true
  hostmem : Memory.wf hostmem = true
  wkgs : ∀ w ∈ wkgs, Memory.wf w.data = true
  remains : ∀ r ∈ remains, Memory.wf r.data = true
  cur : cur = k

/-- A state whose memories are canonical, in which `k` issues. -/
def State.kept (s : State) (k : Cur) : Prop := Kept k s.mem s.hostmem s.wkgs s.remains s.cur

section Base
variable {s t : State} {k : Cur} {m hm : Memory} {ws : List Workgroup} {rs : List Remains} {c : Cur}

theorem kept_of_untouched (e : t.untouched = s.untouched) (h : s.kept k) : t.kept k := by
  have hm : t.mem = s.mem := (congrArg State.mem e :)
  have hh : t.hostmem = s.hostmem := (congrArg State.hostmem e :)
  have hw : t.wkgs = s.wkgs := (congrArg State.wkgs e :)
  have hr : t.remains = s.remains := (congrArg State.remains e :)
  have hc : t.cur = s.cur := (congrArg State.cur e :)
  unfold State.kept
  rw [hm, hh, hw, hr, hc]
  exact h

theorem Kept.swrite_mem (h : Kept k m hm ws rs c) (a : Nat) (d : List Byte) : Kept k (swrite m a d) hm ws rs c :=
  { h with mem := swrite_wf m a d h.mem }
theorem Kept.sset_mem (h : Kept k m hm ws rs c) (a : Nat) (b : Byte) : Kept k (sset m a b) hm ws rs c :=
  h.swrite_mem a [b]
theorem Kept.swrite_hostmem (h : Kept k m hm ws rs c) (a : Nat) (d : List Byte) : Kept k m (swrite hm a d) ws rs c :=
  { h with hostmem := swrite_wf hm a d h.hostmem }
theorem Kept.filter_wkgs (h : Kept k m hm ws rs c) (p : Workgroup → Bool) : Kept k m hm (ws.filter p) rs c :=
  { h with
    wkgs := fun w hw => h.wkgs w (mem_of_mem_filtered hw) }
theorem Kept.map_wkgs (h : Kept k m hm ws rs c) {f : Workgroup → Workgroup} (hf : ∀ w, (f w).data = w.data) :
    Kept k m hm (ws.map f) rs c :=
  { h with
    wkgs := fun w hw => by
      obtain ⟨y, hy, rfl⟩ := List.mem_map.mp hw
      rw [hf]
      exact h.wkgs y hy }
theorem Kept.snoc_wkgs (h : Kept k m hm ws rs c) {w : Workgroup} (hw : Memory.wf w.data = true) :
    Kept k m hm (ws ++ [w]) rs c :=
  { h with
    wkgs := fun x hx => by
      rcases List.mem_append.mp hx with hx | hx
      · exact h.wkgs x hx
      · rw [List.mem_singleton.mp hx]
        exact hw }
theorem Kept.filter_remains (h : Kept k m hm ws rs c) (p : Remains → Bool) : Kept k m hm ws (rs.filter p) c :=
  { h with remains := fun r hr => h.remains r (mem_of_mem_filtered hr) }

/-- Storing a share with a canonical memory. -/
theorem State.kept.setWkg (h : s.kept k) {w : Workgroup} (hw : Memory.wf w.data = true) : (s.setWkg w).kept k :=
  { h with
    wkgs := fun x hx => by
      obtain ⟨y, hy, rfl⟩ := List.mem_map.mp hx
      split
      · exact hw
      · exact h.wkgs y hy }

/-- A workgroup of the state has a canonical share. -/
theorem State.kept.wkg (h : s.kept k) {w : Workgroup} (hw : w ∈ s.wkgs) : Memory.wf w.data = true := h.wkgs w hw
theorem State.kept.found (h : s.kept k) {part n : Nat} {serial : Word} {w : Workgroup} (hw : s.wkg? part serial n = some w) :
    Memory.wf w.data = true := h.wkgs w (List.mem_of_find?_eq_some hw)

/-- A fold whose every step keeps the form keeps it. -/
theorem State.kept.foldl {α : Type} {f : State → α → State} (h : s.kept k) (l : List α) (hf : ∀ t x, t.kept k → (f t x).kept k) :
    (l.foldl f s).kept k := foldl_inv (fun t => State.kept t k) f hf l s h

/-- Whichever of two states stands, it has the form where both have. -/
theorem ite_kept {p : Prop} [Decidable p] (hs : s.kept k) (ht : t.kept k) : (if p then s else t).kept k := by
  split
  · exact hs
  · exact ht

end Base

/-- What an execution that goes on leaves has the form. -/
def Leaves (k : Cur) : Host.Outcome State Fault Refusal → Prop
  | .next t => t.kept k
  | .fault _ => True
  | .refused _ => True

theorem Leaves.next {s : State} {k : Cur} {o : Host.Outcome State Fault Refusal} (h : Leaves k o) (e : o = .next s) : s.kept k := by
  subst e
  exact h

theorem ite_leaves {k : Cur} {o o' : Host.Outcome State Fault Refusal} {p : Prop} [Decidable p] (h : Leaves k o) (h' : Leaves k o') :
    Leaves k (if p then o else o') := by
  split
  · exact h
  · exact h'

/-! ### The state's own operations -/

section Setters
variable {s : State} {k : Cur}

theorem setDie_kept (h : s.kept k) (d : Nat) (x : Die) : (s.setDie d x).kept k := h
theorem setWin_kept (h : s.kept k) (w : Nat) (x : Window) : (s.setWin w x).kept k := h
theorem setGroup_kept (h : s.kept k) (x : Group) : (s.setGroup x).kept k := h
theorem setPart_kept (h : s.kept k) (x : Partition) : (s.setPart x).kept k := h
theorem setLaunch_kept (h : s.kept k) (x : Launch) : (s.setLaunch x).kept k := h
theorem setItem_kept (h : s.kept k) (x : Item) : (s.setItem x).kept k := h
theorem putCtx_kept (h : s.kept k) (g : Group) (n : Node) (c : Ctx) : (putCtx s g n c).kept k := h
theorem hwrite_kept (h : s.kept k) (a : Nat) (d : List Byte) : (hwrite s a d).kept k := Kept.swrite_hostmem h a d
theorem healWords_kept (h : s.kept k) (pa n : Nat) : (healWords s pa n).kept k := kept_of_untouched (healWords_untouched s pa n) h
theorem pwrite_kept (h : s.kept k) (pa : Nat) (d : List Byte) : (pwrite s pa d).kept k :=
  healWords_kept (s := { s with mem := swrite s.mem pa d }) (Kept.swrite_mem h pa d) pa d.length

theorem setWkg_kept (h : s.kept k) {w : Workgroup} (hw : Memory.wf w.data = true) : (s.setWkg w).kept k := h.setWkg hw

/-- Bytes put into a canonical share leave it canonical. -/
theorem put_wf {w : Workgroup} (hw : Memory.wf w.data = true) (o : Nat) (d : List Byte) : Memory.wf (w.put o d).data = true :=
  swrite_wf w.data o d hw

/-- A scratchpad address leads to a workgroup of the state. -/
theorem State.kept.scratch (h : s.kept k) {g : Group} {off n : Nat} {x : Workgroup × Nat} (e : scratchAt s g off n = some x) :
    Memory.wf x.1.data = true := by
  unfold scratchAt at e
  split at e
  · simp at e
  · next own hown =>
    simp only at e
    split at e
    · next w hw =>
      obtain ⟨-, e⟩ | ⟨-, e⟩ := of_ite_eq e <;> cases e
      obtain ⟨-, hw⟩ | ⟨-, hw⟩ := of_ite_eq hw
      · cases hw
      obtain ⟨-, hw⟩ | ⟨-, hw⟩ := of_ite_eq hw
      · obtain ⟨-, hw⟩ | ⟨-, hw⟩ := of_ite_eq hw
        · exact Option.some.inj hw ▸ h.found hown
        · cases hw
      obtain ⟨-, hw⟩ | ⟨-, hw⟩ := of_ite_eq hw
      · exact Option.some.inj hw ▸ h.found hown
      obtain ⟨-, hw⟩ | ⟨-, hw⟩ := of_ite_eq hw
      · exact h.wkg (List.mem_of_find?_eq_some hw)
      · cases hw
    · simp at e

end Setters

end Sys2Proof.Machine
end

section
/-! PROOFS. What a step keeps: the die, the host, queues and pilots. -/
namespace Sys2Proof.Machine

section Keeps
variable {s : State} {κ : Cur} (hs : s.kept κ)
include hs

/-! ### Entries, faults and reads of the state -/

theorem fresh_kept : (State.fresh s).2.kept κ := by
  unfold State.fresh
  exact hs

theorem pwriteLong_kept (pa : Nat) (d : List Byte) : (pwriteLong s pa d).kept κ := by
  unfold pwriteLong
  refine State.kept.foldl ?_ _ (fun t _ ht => ite_kept (healWords_kept ht ..) ht)
  exact Kept.swrite_mem hs ..

theorem addFatal_kept (g : Group) (reason code : Nat) : (addFatal s g reason code).kept κ := by
  unfold addFatal
  refine ite_kept hs ?_
  exact hs

theorem rejectCall_kept (g : Group) (reason code : Nat) : (rejectCall s g reason code).kept κ := by
  unfold rejectCall
  exact hs

theorem faultLanes_kept (g : Group) (n : Node) (c : Ctx) (fs : List (Nat × Nat)) (next : Ctx → Ctx) :
    (faultLanes s g n c fs next).kept κ := by
  unfold faultLanes
  split
  · exact putCtx_kept hs ..
  · exact ite_kept (rejectCall_kept (putCtx_kept hs ..) ..) (ite_kept (addFatal_kept (putCtx_kept hs ..) ..) (putCtx_kept hs ..))

theorem groupFault_kept (g : Group) (n : Node) (c : Ctx) (code : Nat) : (groupFault s g n c code).kept κ := by
  unfold groupFault
  exact faultLanes_kept hs ..

theorem entryFault_kept (g : Group) (n : Node) (fault : Nat) : (entryFault s g n fault).kept κ := by
  unfold entryFault
  exact ite_kept (rejectCall_kept hs ..) (ite_kept (addFatal_kept hs ..) (ite_kept (addFatal_kept hs ..) (setGroup_kept hs _)))

theorem l1Drop_kept (core pa : Nat) : (l1Drop s core pa).kept κ := by
  unfold l1Drop
  exact hs

theorem l1DropAll_kept (core : Nat) : (l1DropAll s core).kept κ := by
  unfold l1DropAll
  exact hs

theorem l1Write_kept (core pa : Nat) (d : List Byte) : (l1Write s core pa d).kept κ := by
  unfold l1Write
  exact hs

/-! ### Events, errors and requests -/

theorem signal_kept (v : Nat) : (signal s v).kept κ := by
  unfold signal
  refine ite_kept ?_ ?_
  all_goals exact hs

theorem pushEvent_kept (w : Nat) (e : List Byte) : (pushEvent s w e).kept κ := by
  unfold pushEvent
  exact setWin_kept hs ..

theorem pushRecord_kept (w : Nat) (e : List Byte) : (pushRecord s w e).kept κ := by
  unfold pushRecord
  exact ite_kept (setWin_kept hs ..) (pushEvent_kept hs ..)

theorem writeErrTo_kept (r : ErrRec) (own : Bool) : (writeErrTo s r own).kept κ := by
  unfold writeErrTo
  refine ite_kept (pushRecord_kept ?_ ..) (setWin_kept ?_ ..)
  · split
    · exact pushRecord_kept (setDie_kept hs ..) ..
    · exact setDie_kept hs ..
  · split
    · exact pushRecord_kept (setDie_kept hs ..) ..
    · exact setDie_kept hs ..

theorem writeErr_kept (r : ErrRec) : (writeErr s r).kept κ := by
  unfold writeErr
  exact writeErrTo_kept hs ..

theorem raiseService_kept (part about : Nat) (r : SvcReq) : (raiseService s part about r).1.kept κ := by
  unfold raiseService
  split
  · exact pushEvent_kept (setPart_kept hs _) ..
  · exact hs

theorem markCluster_kept (clu reason : Nat) : (markCluster s clu reason).kept κ := by
  unfold markCluster
  refine ite_kept hs ?_
  exact hs

theorem markClusters_kept (mask reason : Nat) : (markClusters s mask reason).kept κ := by
  unfold markClusters
  exact hs.foldl _ fun t _ ht => markCluster_kept ht ..

theorem markPart_kept (part reason : Nat) : (markPart s part reason).kept κ := by
  unfold markPart
  split
  · exact markClusters_kept hs ..
  · exact hs

theorem countCorrected_kept (die hop synd addr : Nat) (part : Option Nat) (core : Nat) :
    (countCorrected s die hop synd addr part core).kept κ := by
  unfold countCorrected
  exact ite_kept (setDie_kept hs ..) (ite_kept (writeErr_kept (setDie_kept hs ..) _) (setDie_kept hs ..))

theorem setFlaw_kept (line : Nat) (e : LineError) : (setFlaw s line e).kept κ := by
  unfold setFlaw
  dsimp only
  split
  · exact hs
  · refine ite_kept ?_ hs
    exact hs
  · refine ite_kept hs ?_
    exact hs

theorem enterHeld_kept (line : Nat) (mask : Byte) (seq : Word) (part : Option Nat) : (enterHeld s line mask seq part).kept κ := by
  unfold enterHeld
  refine ite_kept ?_ (ite_kept ?_ ?_)
  · exact hs
  · exact hs
  · split
    · refine markPart_kept ?_ ..
      exact hs
    · exact writeErr_kept hs _

theorem seeFlaw_kept (line : Nat) (part : Option Nat) (core : Nat) : (seeFlaw s line part core).kept κ := by
  unfold seeFlaw
  dsimp only
  split
  · refine countCorrected_kept ?_ ..
    exact hs
  · exact enterHeld_kept (writeErr_kept hs _) ..
  · exact hs

theorem seeLine_kept (line : Nat) (e : LineError) (part : Option Nat) (core : Nat) : (seeLine s line e part core).kept κ := by
  unfold seeLine
  exact seeFlaw_kept (setFlaw_kept hs ..) ..

theorem seeSpan_kept (fromDie pa n : Nat) (part : Option Nat) (core : Nat) : (seeSpan s fromDie pa n part core).kept κ := by
  unfold seeSpan
  exact ite_kept hs (hs.foldl _ (fun t _ ht => seeFlaw_kept ht ..))

theorem seeWalk_kept (core die part va : Nat) : (seeWalk s core die part va).kept κ := by
  unfold seeWalk
  exact ite_kept hs (hs.foldl _ (fun t _ ht => seeSpan_kept ht ..))

theorem seeVaOf_kept (core die part va n : Nat) (need : Need) : (seeVaOf s core die part va n need).kept κ := by
  unfold seeVaOf
  refine ite_kept hs ?_
  dsimp only
  split
  · exact seeSpan_kept (seeWalk_kept hs ..) ..
  · exact seeWalk_kept hs ..

theorem hwWrite_kept (die pa : Nat) (d : List Byte) : (hwWrite s die pa d).kept κ := by
  unfold hwWrite
  exact ite_kept (pwriteLong_kept hs ..) hs

/-! ### What issues, rolls back and leaves a trace -/

theorem writeVa_kept (core die part va : Nat) (d : List Byte) : (writeVa s core die part va d).kept κ := by
  unfold writeVa
  dsimp only
  split
  · exact ite_kept (pwrite_kept (seeWalk_kept hs ..) ..) (seeWalk_kept hs ..)
  · exact seeWalk_kept hs ..

theorem setSlotState_kept (g : Group) (q : TaskQ) (c : Word) (st : Nat) : (setSlotState s g q c st).kept κ := by
  unfold setSlotState
  split
  · exact writeVa_kept hs ..
  · exact seeWalk_kept hs ..

theorem voidSlots_kept (g : Group) (c : Ctx) (lanes : LaneMask) : (voidSlots s g c lanes).kept κ := by
  unfold voidSlots
  refine hs.foldl _ fun t _ ht => ?_
  split
  · split
    · split
      · exact State.kept.foldl (setPart_kept ht _) _ (fun t _ ht => setSlotState_kept ht ..)
      · exact ht
    · exact ht
  · exact ht

theorem dropFrames_kept (gid nix : Nat) : (dropFrames s gid nix).kept κ := by
  unfold dropFrames
  exact hs

theorem rollBack_kept (gid nix : Nat) : (rollBack s gid nix).kept κ := by
  unfold rollBack
  split
  · exact hs
  · split
    · exact hs
    · split
      · exact hs
      · exact setGroup_kept (dropFrames_kept (voidSlots_kept hs ..) ..) _

theorem meetFlaws_kept (uid : Nat) (rs : List Reads) : (meetFlaws s uid rs).kept κ := by
  unfold meetFlaws
  split
  · exact hs
  · refine hs.foldl _ fun t _ ht => ite_kept ht (ite_kept (ite_kept ht ?_) (countCorrected_kept ?_ ..))
    · dsimp only
      split
      · exact setGroup_kept (writeErr_kept ht _) _
      · exact writeErr_kept ht _
    · dsimp only
      split
      · exact setGroup_kept ht _
      · exact ht

theorem countCall_kept (g : Group) : (countCall s g).kept κ := by
  unfold countCall
  refine ite_kept ?_ hs
  exact hs

theorem operandFault_kept (g : Group) (n : Node) (c : Ctx) (dst pdst help hit : List Nat) (code : Nat) (next : Ctx → Ctx) :
    (operandFault s g n c dst pdst help hit code next).kept κ := by
  unfold operandFault
  exact faultLanes_kept hs ..

theorem laneEffect_kept (g0 : Group) (n : Node) (c : Ctx) (d : LaneSpec) : (laneEffect s g0 n c d).kept κ := by
  unfold laneEffect
  exact ite_kept (operandFault_kept hs ..) (ite_kept (groupFault_kept hs ..) (faultLanes_kept (ite_kept hs (meetFlaws_kept hs ..)) ..))

/-- The form of what the check before an instruction leaves. -/
def Pre.kept (k : Cur) : Pre → Prop
  | .stop s => s.kept k
  | .go s _ _ _ => s.kept k

theorem regCheck_keeps (g : Group) (n : Node) (c : Ctx) (u : Use) : (regCheck s g n c u).kept κ := by
  have h1 (rs : List Reads) : (meetFlaws s g.uid rs).kept κ := meetFlaws_kept hs ..
  have h2 (g1 : Group) (rs : List Reads) (fs : List (Nat × Nat)) : (faultLanes (meetFlaws s g.uid rs) g1 n c fs id).kept κ :=
    faultLanes_kept (h1 rs) ..
  unfold regCheck
  dsimp only
  split
  · exact hs
  · split
    · exact h1 _
    · split
      · exact h1 _
      · split
        · split <;> exact h2 ..
        · exact h2 ..

theorem precheck_keeps (g : Group) (n : Node) (b : Bool) (u : Use) : (precheck s g n b u).kept κ := by
  have hr : ((owners g n u.sr).foldl (fun s m => rollBack s g.uid m.ix) s).kept κ := hs.foldl _ fun t _ ht => rollBack_kept ht ..
  unfold precheck
  dsimp only
  repeat' split
  · exact hs
  · exact entryFault_kept hs ..
  · exact hs
  · exact rejectCall_kept hs ..
  · exact groupFault_kept hs ..
  · exact hs
  · exact hr
  · exact regCheck_keeps hr ..
  · exact hr

theorem precheck_stop {t : State} {g : Group} {n : Node} {b : Bool} {u : Use} (h : precheck s g n b u = .stop t) :
    t.kept κ := by
  have := precheck_keeps hs g n b u
  rwa [h] at this

theorem precheck_go {t : State} {g g1 : Group} {n n1 : Node} {c1 : Ctx} {b : Bool} {u : Use}
    (h : precheck s g n b u = .go t g1 n1 c1) : t.kept κ := by
  have := precheck_keeps hs g n b u
  rwa [h] at this

theorem laneStep_kept (g : Group) (n : Node) (d : LaneSpec) : (laneStep s g n d).kept κ := by
  unfold laneStep
  split
  · next hp => exact precheck_stop hs hp
  · next hp => exact ite_kept (rejectCall_kept (precheck_go hs hp) ..) (laneEffect_kept (countCall_kept (precheck_go hs hp) ..) ..)

theorem reserveSlots_kept (g : Group) (q : Nat) (lanes : List Nat) : (reserveSlots s g q lanes).s.kept κ := by
  unfold reserveSlots
  split
  · exact hs
  · split
    · exact hs
    · exact State.kept.foldl (setPart_kept hs _) _ fun t _ ht => setSlotState_kept ht ..

theorem laneOp_leaves (d : LaneSpec) : Leaves κ (laneOp d s) := by
  unfold laneOp
  split
  · exact laneStep_kept hs ..
  · exact trivial

theorem coreOp_leaves {f : State → Group → Node → Ctx → State}
    (hf : ∀ t g n c, t.kept κ → (f t g n c).kept κ) (isTerm : Bool) (u : Use) (noMethod : Nat) : Leaves κ
      (coreOp isTerm u noMethod f s) := by
  unfold coreOp
  split
  · next g n _ =>
    unfold Leaves
    dsimp only
    split
    · next hp => exact precheck_stop hs hp
    · next hp =>
      have h1 := precheck_go hs hp
      exact ite_kept (rejectCall_kept h1 ..) (hf _ _ _ _ (countCall_kept h1 ..))
  · trivial

theorem waitOp_leaves {f : State → Group → Node → Ctx → State}
    (hf : ∀ t g n c, t.kept κ → (f t g n c).kept κ) (isTerm : Bool) (u : Use) (noMethod : Nat) (ready : State → Group → Node → Ctx → Bool) :
    Leaves κ (waitOp isTerm u noMethod ready f s) := by
  unfold waitOp
  split
  · next g n _ =>
    unfold Leaves
    dsimp only
    split
    · next hp => exact precheck_stop hs hp
    · next hp =>
      have h1 := precheck_go hs hp
      exact ite_kept (rejectCall_kept h1 ..) (ite_kept (hf _ _ _ _ (countCall_kept h1 ..)) h1)
  · trivial

/-! ### Fetching words -/

theorem seeWord_kept (g : Group) (got : Fetches) (va : Nat) : (seeWord s g got va).kept κ := by
  unfold seeWord
  exact ite_kept hs (ite_kept (seeWalk_kept hs ..) (seeVaOf_kept hs ..))

theorem seeWords_kept (g : Group) (got : Fetches) (va : Nat) : (seeWords s g got va).kept κ := by
  unfold seeWords
  dsimp only
  split
  · exact State.kept.foldl (seeWord_kept hs ..) _ (fun t _ ht => seeWord_kept ht ..)
  · exact seeWord_kept hs ..

/-! ### Queues, their descriptors and packets -/

theorem seeLaunch_kept (p : Partition) (r : List Byte) : (seeLaunch s p r).kept κ := by
  unfold seeLaunch
  exact ite_kept hs (ite_kept (State.kept.foldl (seeSpan_kept hs ..) _ (fun t _ ht => seeWalk_kept ht ..)) (seeSpan_kept hs ..))

theorem acceptLaunch_kept (p : Partition) (slot : Nat) (r : List Byte) : (acceptLaunch s p slot r).1.kept κ := by
  unfold acceptLaunch
  exact hs

theorem putQueue_kept (part : Nat) (x : Queue) : (putQueue s part x).kept κ := by
  have hw {t : State} (ht : t.kept κ) (same : Bool) (a n v : Nat) :
      (if same then t else hwWrite t x.homeDie a (leBytes n v)).kept κ := ite_kept ht (hwWrite_kept ht ..)
  unfold putQueue
  split
  · exact hs
  · next p _ =>
    split
    · exact hs
    · exact hw (hw (hw (hw (hw (hw (setPart_kept hs (p.setQueue x)) ..) ..) ..) ..) ..) ..

theorem writeDesc_kept (part : Nat) (x : Queue) (off n v : Nat) : (writeDesc s part x off n v).kept κ := by
  unfold writeDesc
  split
  · exact hwWrite_kept hs ..
  · exact hs

theorem parkQueue_kept (part : Nat) (x : Queue) (reason tag extra : Nat) : (parkQueue s part x reason tag extra).kept κ := by
  unfold parkQueue
  exact pushEvent_kept (writeDesc_kept (putQueue_kept hs ..) ..) ..

theorem seeReload_kept (p : Partition) (x : Queue) : (seeReload s p x).kept κ := by
  unfold seeReload
  exact ite_kept hs (State.kept.foldl (seeSpan_kept hs ..) _ (fun t _ ht => seeVaOf_kept ht ..))

theorem seeSlot_kept (part : Nat) (x : Queue) (n : Word) : (seeSlot s part x n).kept κ := by
  unfold seeSlot
  exact ite_kept hs (seeVaOf_kept hs ..)

theorem seePacket_kept (part : Nat) (x : Queue) : (seePacket s part x).kept κ := by
  unfold seePacket
  refine ite_kept hs ?_
  dsimp only
  split
  · exact seeSlot_kept hs ..
  · exact ite_kept (seeSlot_kept hs ..) (State.kept.foldl (seeSlot_kept hs ..) _ (fun t _ ht => seeSlot_kept ht ..))

/-! ### Pilot operations -/

theorem endVisit_kept (part q : Nat) : (endVisit s part q).kept κ := by
  unfold endVisit
  exact hs

theorem stopPilot_kept (p : Partition) (x : Queue) (reason extra : Nat) : (stopPilot s p x reason extra).kept κ := by
  unfold stopPilot
  exact endVisit_kept (parkQueue_kept hs ..) ..

theorem suspend_kept (p : Partition) (x : Queue) : (suspend s p x).kept κ := by
  unfold suspend
  exact endVisit_kept (putQueue_kept hs ..) ..

theorem parkSuspended_kept (p : Partition) (x : Queue) (reason : Nat) : (parkSuspended s p x reason).kept κ := by
  unfold parkSuspended
  exact endVisit_kept (parkQueue_kept hs ..) ..

theorem visitStep_kept (part q : Nat) : (visitStep s part q).kept κ := by
  unfold visitStep
  exact hs

theorem finishPacket_kept (p : Partition) (x : Queue) : (finishPacket s p x).kept κ := by
  unfold finishPacket
  exact endVisit_kept (putQueue_kept hs ..) ..

theorem completeStep_kept (p : Partition) (x : Queue) (pc : Nat) : (completeStep s p x pc).kept κ := by
  unfold completeStep
  exact ite_kept (visitStep_kept (putQueue_kept hs ..) ..) (finishPacket_kept hs ..)

theorem pilotOp_leaves {f : State → Partition → Queue → State}
    (hf : ∀ t p x, t.kept κ → (f t p x).kept κ) : Leaves κ (pilotOp f s) := by
  unfold pilotOp
  split
  · exact hf _ _ _ hs
  · exact trivial

theorem pilotReg_leaves (d : BitVec 3) (f : State → Partition → Queue → DWord) : Leaves κ (pilotReg d f s) := by
  unfold pilotReg
  exact pilotOp_leaves hs (fun t _ _ ht => completeStep_kept ht ..)

theorem execLdp_leaves (d sz : BitVec 3) (imm : BitVec 18) : Leaves κ (execLdp d sz imm s) := by
  unfold execLdp
  exact pilotReg_leaves hs ..

theorem execLdq_leaves (d sz : BitVec 3) (imm : BitVec 18) : Leaves κ (execLdq d sz imm s) := by
  unfold execLdq
  refine pilotOp_leaves hs (fun t _ _ ht => ite_kept (suspend_kept ht ..) ?_)
  dsimp only
  split
  · exact completeStep_kept (seeSpan_kept ht ..) ..
  · exact parkSuspended_kept (seeSpan_kept ht ..) ..

theorem execStq_leaves (a sz : BitVec 3) (imm : BitVec 18) : Leaves κ (execStq a sz imm s) := by
  unfold execStq
  exact pilotOp_leaves hs (fun t _ _ ht => ite_kept (suspend_kept ht ..) (completeStep_kept (hwWrite_kept ht ..) ..))

theorem execLdi_leaves (d : BitVec 3) (imm : BitVec 18) : Leaves κ (execLdi d imm s) := by
  unfold execLdi
  exact pilotReg_leaves hs ..

theorem execPilotAdd_leaves (d a b : BitVec 3) : Leaves κ (execPilotAdd d a b s) := by
  unfold execPilotAdd
  exact pilotReg_leaves hs ..

theorem execPilotSub_leaves (d a b : BitVec 3) : Leaves κ (execPilotSub d a b s) := by
  unfold execPilotSub
  exact pilotReg_leaves hs ..

theorem execPilotAddi_leaves (d a : BitVec 3) (imm : BitVec 18) : Leaves κ (execPilotAddi d a imm s) := by
  unfold execPilotAddi
  exact pilotReg_leaves hs ..

theorem execPilotAnd_leaves (d a b : BitVec 3) : Leaves κ (execPilotAnd d a b s) := by
  unfold execPilotAnd
  exact pilotReg_leaves hs ..

theorem execPilotOr_leaves (d a b : BitVec 3) : Leaves κ (execPilotOr d a b s) := by
  unfold execPilotOr
  exact pilotReg_leaves hs ..

theorem execPilotXor_leaves (d a b : BitVec 3) : Leaves κ (execPilotXor d a b s) := by
  unfold execPilotXor
  exact pilotReg_leaves hs ..

theorem execPilotShl_leaves (d a : BitVec 3) (imm : BitVec 18) : Leaves κ (execPilotShl d a imm s) := by
  unfold execPilotShl
  exact pilotReg_leaves hs ..

theorem execPilotShr_leaves (d a : BitVec 3) (imm : BitVec 18) : Leaves κ (execPilotShr d a imm s) := by
  unfold execPilotShr
  exact pilotReg_leaves hs ..

theorem pilotBranch_leaves (imm : BitVec 18) (taken : Queue → Bool) : Leaves κ (pilotBranch imm taken s) := by
  unfold pilotBranch
  exact pilotOp_leaves hs (fun t _ _ ht => completeStep_kept ht ..)

theorem execBeq_leaves (a b : BitVec 3) (imm : BitVec 18) : Leaves κ (execBeq a b imm s) := by
  unfold execBeq
  exact pilotBranch_leaves hs ..

theorem execBne_leaves (a b : BitVec 3) (imm : BitVec 18) : Leaves κ (execBne a b imm s) := by
  unfold execBne
  exact pilotBranch_leaves hs ..

theorem execBltu_leaves (a b : BitVec 3) (imm : BitVec 18) : Leaves κ (execBltu a b imm s) := by
  unfold execBltu
  exact pilotBranch_leaves hs ..

theorem execLoop_leaves (d a : BitVec 3) (imm : BitVec 18) : Leaves κ (execLoop d a imm s) := by
  unfold execLoop
  exact pilotOp_leaves hs (fun t _ _ ht => ite_kept (stopPilot_kept ht ..) (ite_kept (completeStep_kept ht ..) (completeStep_kept ht ..)))

theorem execStl_leaves (a sz : BitVec 3) (imm : BitVec 18) : Leaves κ (execStl a sz imm s) := by
  unfold execStl
  exact pilotOp_leaves hs (fun t _ _ ht => completeStep_kept ht ..)

theorem execPilotLaunch_leaves (d : BitVec 3) : Leaves κ (execPilotLaunch d s) := by
  unfold execPilotLaunch
  refine pilotOp_leaves hs (fun t _ _ ht => ?_)
  dsimp only
  split
  · split
    · exact suspend_kept (seeLaunch_kept ht ..) ..
    · refine completeStep_kept ?_ ..
      exact seeLaunch_kept ht ..
  · exact completeStep_kept (seeLaunch_kept ht ..) ..

theorem seeSig_kept (p : Partition) (x : Queue) (addr : Nat) (host : Bool) : (seeSig s p x addr host).kept κ := by
  unfold seeSig
  exact ite_kept hs (seeWalk_kept hs ..)

theorem execSigw_leaves (a b : BitVec 3) (host : Bool) : Leaves κ (execSigw a b host s) := by
  unfold execSigw
  refine pilotOp_leaves hs (fun t _ _ ht => ite_kept (stopPilot_kept ht ..) ?_)
  dsimp only
  split
  · exact completeStep_kept (hwrite_kept (seeSig_kept ht ..) ..) ..
  · exact completeStep_kept (pwrite_kept (seeSig_kept ht ..) ..) ..
  · exact suspend_kept (seeSig_kept ht ..) ..
  · exact parkSuspended_kept (seeSig_kept ht ..) ..

theorem execSigwait_leaves (a b : BitVec 3) (host : Bool) (rel : BitVec 2) : Leaves κ (execSigwait a b host rel s) := by
  unfold execSigwait
  refine pilotOp_leaves hs (fun t _ _ ht => ite_kept (stopPilot_kept ht ..) ?_)
  dsimp only
  split
  · exact ite_kept (completeStep_kept (seeSig_kept ht ..) ..) (suspend_kept (seeSig_kept ht ..) ..)
  · exact ite_kept (parkSuspended_kept (seeSpan_kept (seeSig_kept ht ..) ..) ..) (ite_kept (completeStep_kept (seeSpan_kept
      (seeSig_kept ht ..) ..) ..) (suspend_kept (seeSpan_kept (seeSig_kept ht ..) ..) ..))
  · exact suspend_kept (seeSig_kept ht ..) ..
  · exact parkSuspended_kept (seeSig_kept ht ..) ..

theorem execPilotFence_leaves : Leaves κ (execPilotFence s) := by
  unfold execPilotFence
  exact pilotOp_leaves hs (fun t _ _ ht => completeStep_kept ht ..)

theorem execEmit_leaves (a : BitVec 3) : Leaves κ (execEmit a s) := by
  unfold execEmit
  exact pilotOp_leaves hs (fun t _ _ ht => ite_kept (suspend_kept ht ..) (completeStep_kept (signal_kept (pushEvent_kept ht ..) _) ..))

theorem execDone_leaves : Leaves κ (execDone s) := by
  unfold execDone
  exact pilotOp_leaves hs (fun t _ _ ht => finishPacket_kept ht ..)

theorem execFault_leaves (imm : BitVec 18) : Leaves κ (execFault imm s) := by
  unfold execFault
  exact pilotOp_leaves hs (fun t _ _ ht => stopPilot_kept ht ..)

theorem execPilotStepBudgetExhausted_leaves : Leaves κ (execPilotStepBudgetExhausted s) := by
  unfold execPilotStepBudgetExhausted
  split
  · exact ite_kept (stopPilot_kept hs ..) hs
  · exact hs

theorem boundaryReload_kept (part : Nat) (x : Queue) : (boundaryReload s part x).1.kept κ := by
  unfold boundaryReload
  split
  · split
    · exact hs
    · dsimp only
      split
      · exact putQueue_kept (seeReload_kept hs ..) ..
      · exact parkQueue_kept (seeReload_kept hs ..) ..
  · exact hs

theorem execFetcherVisit_leaves (die : Nat) : Leaves κ (execFetcherVisit die s) := by
  unfold execFetcherVisit
  refine ite_kept hs ?_
  split
  · exact hs
  · next part x _ _ =>
    dsimp only
    refine ite_kept hs ?_
    have h1 (lastQ : Nat × Nat) : (boundaryReload (s.setDie die { s.die die with lastQ := lastQ }) part x).1.kept κ :=
      boundaryReload_kept (setDie_kept hs ..) ..
    split
    · next s2 h2 => exact (congrArg Prod.fst h2 ▸ h1 _ :)
    · next s2 y h2 =>
      have h3 : s2.kept κ := (congrArg Prod.fst h2 ▸ h1 _ :)
      split
      · exact seePacket_kept h3 ..
      · exact parkQueue_kept (seePacket_kept h3 ..) ..
      · exact setDie_kept (putQueue_kept (seePacket_kept h3 ..) ..) ..

theorem execFetchFaultRetry_leaves (part q : Nat) : Leaves κ (execFetchFaultRetry part q s) := by
  unfold execFetchFaultRetry
  split
  · exact hs
  · split
    · exact hs
    · refine ite_kept hs ?_
      split
      · exact putQueue_kept hs ..
      · exact hs
      · exact putQueue_kept hs ..

/-! ### The front end -/

theorem entryFetchFault_kept (g : Group) (n : Node) (fault : Nat) : (entryFetchFault s g n fault).kept κ := by
  unfold entryFetchFault
  refine ite_kept (setGroup_kept ?_ _) (entryFault_kept hs ..)
  split
  · exact pushEvent_kept (setPart_kept hs _) ..
  · exact hs

end Keeps

end Sys2Proof.Machine
end

section
/-! PROOFS. What a step keeps: the instructions of a fragment. -/
namespace Sys2Proof.Machine

section Keeps
variable {s : State} {κ : Cur} (hs : s.kept κ)
include hs

/-! ### Operands -/

theorem compOp_leaves (k : Comp) (o : LOp) (words : Nat) : Leaves κ (compOp k o words s) := by
  unfold compOp
  exact laneOp_leaves hs _

/-! ### Integer instructions -/

theorem execIadd_leaves (o : LOp) : Leaves κ (execIadd o s) := by
  unfold execIadd
  exact compOp_leaves hs ..

theorem execIaddS_leaves (o : SOp) : Leaves κ (execIaddS o s) := by
  unfold execIaddS
  exact compOp_leaves hs ..

theorem execIsub_leaves (o : LOp) : Leaves κ (execIsub o s) := by
  unfold execIsub
  exact compOp_leaves hs ..

theorem execIsubS_leaves (o : SOp) : Leaves κ (execIsubS o s) := by
  unfold execIsubS
  exact compOp_leaves hs ..

theorem execImul_leaves (o : LOp) : Leaves κ (execImul o s) := by
  unfold execImul
  exact compOp_leaves hs ..

theorem execImulS_leaves (o : SOp) : Leaves κ (execImulS o s) := by
  unfold execImulS
  exact compOp_leaves hs ..

theorem execImulh_leaves (o : LOp) : Leaves κ (execImulh o s) := by
  unfold execImulh
  exact compOp_leaves hs ..

theorem execImulhS_leaves (o : SOp) : Leaves κ (execImulhS o s) := by
  unfold execImulhS
  exact compOp_leaves hs ..

theorem execImad_leaves (o : LOp) : Leaves κ (execImad o s) := by
  unfold execImad
  exact compOp_leaves hs ..

theorem execImin_leaves (o : LOp) : Leaves κ (execImin o s) := by
  unfold execImin
  exact compOp_leaves hs ..

theorem execIminS_leaves (o : SOp) : Leaves κ (execIminS o s) := by
  unfold execIminS
  exact compOp_leaves hs ..

theorem execImax_leaves (o : LOp) : Leaves κ (execImax o s) := by
  unfold execImax
  exact compOp_leaves hs ..

theorem execImaxS_leaves (o : SOp) : Leaves κ (execImaxS o s) := by
  unfold execImaxS
  exact compOp_leaves hs ..

theorem execIabs_leaves (o : LOp) : Leaves κ (execIabs o s) := by
  unfold execIabs
  exact compOp_leaves hs ..

theorem execIabsS_leaves (o : SOp) : Leaves κ (execIabsS o s) := by
  unfold execIabsS
  exact compOp_leaves hs ..

theorem execIneg_leaves (o : LOp) : Leaves κ (execIneg o s) := by
  unfold execIneg
  exact compOp_leaves hs ..

theorem execInegS_leaves (o : SOp) : Leaves κ (execInegS o s) := by
  unfold execInegS
  exact compOp_leaves hs ..

theorem execAnd_leaves (o : LOp) : Leaves κ (execAnd o s) := by
  unfold execAnd
  exact compOp_leaves hs ..

theorem execAndS_leaves (o : SOp) : Leaves κ (execAndS o s) := by
  unfold execAndS
  exact compOp_leaves hs ..

theorem execOr_leaves (o : LOp) : Leaves κ (execOr o s) := by
  unfold execOr
  exact compOp_leaves hs ..

theorem execOrS_leaves (o : SOp) : Leaves κ (execOrS o s) := by
  unfold execOrS
  exact compOp_leaves hs ..

theorem execXor_leaves (o : LOp) : Leaves κ (execXor o s) := by
  unfold execXor
  exact compOp_leaves hs ..

theorem execXorS_leaves (o : SOp) : Leaves κ (execXorS o s) := by
  unfold execXorS
  exact compOp_leaves hs ..

theorem execAndn_leaves (o : LOp) : Leaves κ (execAndn o s) := by
  unfold execAndn
  exact compOp_leaves hs ..

theorem execAndnS_leaves (o : SOp) : Leaves κ (execAndnS o s) := by
  unfold execAndnS
  exact compOp_leaves hs ..

theorem execNot_leaves (o : LOp) : Leaves κ (execNot o s) := by
  unfold execNot
  exact compOp_leaves hs ..

theorem execNotS_leaves (o : SOp) : Leaves κ (execNotS o s) := by
  unfold execNotS
  exact compOp_leaves hs ..

theorem execShl_leaves (o : LOp) : Leaves κ (execShl o s) := by
  unfold execShl
  exact compOp_leaves hs ..

theorem execShlS_leaves (o : SOp) : Leaves κ (execShlS o s) := by
  unfold execShlS
  exact compOp_leaves hs ..

theorem execShr_leaves (o : LOp) : Leaves κ (execShr o s) := by
  unfold execShr
  exact compOp_leaves hs ..

theorem execShrS_leaves (o : SOp) : Leaves κ (execShrS o s) := by
  unfold execShrS
  exact compOp_leaves hs ..

theorem execSar_leaves (o : LOp) : Leaves κ (execSar o s) := by
  unfold execSar
  exact compOp_leaves hs ..

theorem execSarS_leaves (o : SOp) : Leaves κ (execSarS o s) := by
  unfold execSarS
  exact compOp_leaves hs ..

theorem execRot_leaves (o : LOp) : Leaves κ (execRot o s) := by
  unfold execRot
  exact compOp_leaves hs ..

theorem execRotS_leaves (o : SOp) : Leaves κ (execRotS o s) := by
  unfold execRotS
  exact compOp_leaves hs ..

theorem execBfe_leaves (o : LOp) : Leaves κ (execBfe o s) := by
  unfold execBfe
  exact compOp_leaves hs ..

theorem execBfi_leaves (o : LOp) : Leaves κ (execBfi o s) := by
  unfold execBfi
  exact compOp_leaves hs ..

theorem execPopc_leaves (o : LOp) : Leaves κ (execPopc o s) := by
  unfold execPopc
  exact compOp_leaves hs ..

theorem execPopcS_leaves (o : SOp) : Leaves κ (execPopcS o s) := by
  unfold execPopcS
  exact compOp_leaves hs ..

theorem execClz_leaves (o : LOp) : Leaves κ (execClz o s) := by
  unfold execClz
  exact compOp_leaves hs ..

theorem execClzS_leaves (o : SOp) : Leaves κ (execClzS o s) := by
  unfold execClzS
  exact compOp_leaves hs ..

theorem execBrev_leaves (o : LOp) : Leaves κ (execBrev o s) := by
  unfold execBrev
  exact compOp_leaves hs ..

theorem execBrevS_leaves (o : SOp) : Leaves κ (execBrevS o s) := by
  unfold execBrevS
  exact compOp_leaves hs ..

theorem execIcmp_leaves (o : LOp) : Leaves κ (execIcmp o s) := by
  unfold execIcmp
  exact compOp_leaves hs ..

theorem execLea_leaves (o : LOp) : Leaves κ (execLea o s) := by
  unfold execLea
  exact compOp_leaves hs ..

theorem execMov_leaves (o : LOp) : Leaves κ (execMov o s) := by
  unfold execMov
  exact compOp_leaves hs ..

theorem execMovS_leaves (o : SOp) : Leaves κ (execMovS o s) := by
  unfold execMovS
  exact compOp_leaves hs ..

theorem execMovi_leaves (o : LOp) : Leaves κ (execMovi o s) := by
  unfold execMovi
  exact compOp_leaves hs ..

theorem execIaddc_leaves (o : LOp) : Leaves κ (execIaddc o s) := by
  unfold execIaddc
  exact laneOp_leaves hs _

theorem execSel_leaves (o : LOp) : Leaves κ (execSel o s) := by
  unfold execSel
  exact laneOp_leaves hs _

/-! ### Floating-point instructions -/

theorem execFadd_leaves (o : LOp) : Leaves κ (execFadd o s) := by
  unfold execFadd
  exact compOp_leaves hs ..

theorem execFaddS_leaves (o : SOp) : Leaves κ (execFaddS o s) := by
  unfold execFaddS
  exact compOp_leaves hs ..

theorem execFsub_leaves (o : LOp) : Leaves κ (execFsub o s) := by
  unfold execFsub
  exact compOp_leaves hs ..

theorem execFsubS_leaves (o : SOp) : Leaves κ (execFsubS o s) := by
  unfold execFsubS
  exact compOp_leaves hs ..

theorem execFmul_leaves (o : LOp) : Leaves κ (execFmul o s) := by
  unfold execFmul
  exact compOp_leaves hs ..

theorem execFmulS_leaves (o : SOp) : Leaves κ (execFmulS o s) := by
  unfold execFmulS
  exact compOp_leaves hs ..

theorem execFmulz_leaves (o : LOp) : Leaves κ (execFmulz o s) := by
  unfold execFmulz
  exact compOp_leaves hs ..

theorem execFmulzS_leaves (o : SOp) : Leaves κ (execFmulzS o s) := by
  unfold execFmulzS
  exact compOp_leaves hs ..

theorem execFma_leaves (o : LOp) : Leaves κ (execFma o s) := by
  unfold execFma
  exact compOp_leaves hs ..

theorem execFmaz_leaves (o : LOp) : Leaves κ (execFmaz o s) := by
  unfold execFmaz
  exact compOp_leaves hs ..

theorem execFmin_leaves (o : LOp) : Leaves κ (execFmin o s) := by
  unfold execFmin
  exact compOp_leaves hs ..

theorem execFminS_leaves (o : SOp) : Leaves κ (execFminS o s) := by
  unfold execFminS
  exact compOp_leaves hs ..

theorem execFmax_leaves (o : LOp) : Leaves κ (execFmax o s) := by
  unfold execFmax
  exact compOp_leaves hs ..

theorem execFmaxS_leaves (o : SOp) : Leaves κ (execFmaxS o s) := by
  unfold execFmaxS
  exact compOp_leaves hs ..

theorem execFcmp_leaves (o : LOp) : Leaves κ (execFcmp o s) := by
  unfold execFcmp
  exact compOp_leaves hs ..

theorem execFclass_leaves (o : LOp) : Leaves κ (execFclass o s) := by
  unfold execFclass
  exact compOp_leaves hs ..

theorem execFrnd_leaves (o : LOp) : Leaves κ (execFrnd o s) := by
  unfold execFrnd
  exact compOp_leaves hs ..

theorem execFscale_leaves (o : LOp) : Leaves κ (execFscale o s) := by
  unfold execFscale
  exact compOp_leaves hs ..

theorem execFrcp_leaves (o : LOp) : Leaves κ (execFrcp o s) := by
  unfold execFrcp
  exact compOp_leaves hs ..

theorem execFrcpS_leaves (o : SOp) : Leaves κ (execFrcpS o s) := by
  unfold execFrcpS
  exact compOp_leaves hs ..

theorem execFrsq_leaves (o : LOp) : Leaves κ (execFrsq o s) := by
  unfold execFrsq
  exact compOp_leaves hs ..

theorem execFrsqS_leaves (o : SOp) : Leaves κ (execFrsqS o s) := by
  unfold execFrsqS
  exact compOp_leaves hs ..

theorem execFsqrt_leaves (o : LOp) : Leaves κ (execFsqrt o s) := by
  unfold execFsqrt
  exact compOp_leaves hs ..

theorem execFsqrtS_leaves (o : SOp) : Leaves κ (execFsqrtS o s) := by
  unfold execFsqrtS
  exact compOp_leaves hs ..

theorem execFexp2_leaves (o : LOp) : Leaves κ (execFexp2 o s) := by
  unfold execFexp2
  exact compOp_leaves hs ..

theorem execFexp2S_leaves (o : SOp) : Leaves κ (execFexp2S o s) := by
  unfold execFexp2S
  exact compOp_leaves hs ..

theorem execFlog2_leaves (o : LOp) : Leaves κ (execFlog2 o s) := by
  unfold execFlog2
  exact compOp_leaves hs ..

theorem execFlog2S_leaves (o : SOp) : Leaves κ (execFlog2S o s) := by
  unfold execFlog2S
  exact compOp_leaves hs ..

theorem execFsin_leaves (o : LOp) : Leaves κ (execFsin o s) := by
  unfold execFsin
  exact compOp_leaves hs ..

theorem execFsinS_leaves (o : SOp) : Leaves κ (execFsinS o s) := by
  unfold execFsinS
  exact compOp_leaves hs ..

theorem execFcos_leaves (o : LOp) : Leaves κ (execFcos o s) := by
  unfold execFcos
  exact compOp_leaves hs ..

theorem execFcosS_leaves (o : SOp) : Leaves κ (execFcosS o s) := by
  unfold execFcosS
  exact compOp_leaves hs ..

theorem execFtanh_leaves (o : LOp) : Leaves κ (execFtanh o s) := by
  unfold execFtanh
  exact compOp_leaves hs ..

theorem execFtanhS_leaves (o : SOp) : Leaves κ (execFtanhS o s) := by
  unfold execFtanhS
  exact compOp_leaves hs ..

/-! ### Conversions -/

theorem execCvt_leaves (o : LOp) : Leaves κ (execCvt o s) := by
  unfold execCvt
  exact compOp_leaves hs ..

theorem execPack_leaves (o : LOp) : Leaves κ (execPack o s) := by
  unfold execPack
  exact laneOp_leaves hs _

theorem execUnpack_leaves (o : LOp) : Leaves κ (execUnpack o s) := by
  unfold execUnpack
  exact laneOp_leaves hs _

theorem execDot4_leaves (o : LOp) : Leaves κ (execDot4 o s) := by
  unfold execDot4
  exact compOp_leaves hs ..

theorem execDot8_leaves (o : LOp) : Leaves κ (execDot8 o s) := by
  unfold execDot8
  exact compOp_leaves hs ..

theorem execBscale_leaves (o : LOp) : Leaves κ (execBscale o s) := by
  unfold execBscale
  exact compOp_leaves hs ..

/-! ### Interval instructions -/

theorem execIvmake_leaves (o : LOp) : Leaves κ (execIvmake o s) := by
  unfold execIvmake
  exact compOp_leaves hs ..

theorem execIvmakeIv16_leaves (o : LOp) : Leaves κ (execIvmakeIv16 o s) := by
  unfold execIvmakeIv16
  exact compOp_leaves hs ..

theorem execIvadd_leaves (o : LOp) : Leaves κ (execIvadd o s) := by
  unfold execIvadd
  exact compOp_leaves hs ..

theorem execIvaddIv16_leaves (o : LOp) : Leaves κ (execIvaddIv16 o s) := by
  unfold execIvaddIv16
  exact compOp_leaves hs ..

theorem execIvsub_leaves (o : LOp) : Leaves κ (execIvsub o s) := by
  unfold execIvsub
  exact compOp_leaves hs ..

theorem execIvsubIv16_leaves (o : LOp) : Leaves κ (execIvsubIv16 o s) := by
  unfold execIvsubIv16
  exact compOp_leaves hs ..

theorem execIvmul_leaves (o : LOp) : Leaves κ (execIvmul o s) := by
  unfold execIvmul
  exact compOp_leaves hs ..

theorem execIvmulIv16_leaves (o : LOp) : Leaves κ (execIvmulIv16 o s) := by
  unfold execIvmulIv16
  exact compOp_leaves hs ..

theorem execIvdiv_leaves (o : LOp) : Leaves κ (execIvdiv o s) := by
  unfold execIvdiv
  exact compOp_leaves hs ..

theorem execIvsqr_leaves (o : LOp) : Leaves κ (execIvsqr o s) := by
  unfold execIvsqr
  exact compOp_leaves hs ..

theorem execIvsqrIv16_leaves (o : LOp) : Leaves κ (execIvsqrIv16 o s) := by
  unfold execIvsqrIv16
  exact compOp_leaves hs ..

theorem execIvsqrt_leaves (o : LOp) : Leaves κ (execIvsqrt o s) := by
  unfold execIvsqrt
  exact compOp_leaves hs ..

theorem execIvhull_leaves (o : LOp) : Leaves κ (execIvhull o s) := by
  unfold execIvhull
  exact compOp_leaves hs ..

theorem execIvhullIv16_leaves (o : LOp) : Leaves κ (execIvhullIv16 o s) := by
  unfold execIvhullIv16
  exact compOp_leaves hs ..

theorem execIvisect_leaves (o : LOp) : Leaves κ (execIvisect o s) := by
  unfold execIvisect
  exact laneOp_leaves hs _

theorem execIvisectIv16_leaves (o : LOp) : Leaves κ (execIvisectIv16 o s) := by
  unfold execIvisectIv16
  exact laneOp_leaves hs _

theorem execIvmid_leaves (o : LOp) : Leaves κ (execIvmid o s) := by
  unfold execIvmid
  exact compOp_leaves hs ..

theorem execIvmidIv16_leaves (o : LOp) : Leaves κ (execIvmidIv16 o s) := by
  unfold execIvmidIv16
  exact compOp_leaves hs ..

theorem execIvwid_leaves (o : LOp) : Leaves κ (execIvwid o s) := by
  unfold execIvwid
  exact compOp_leaves hs ..

theorem execIvwidIv16_leaves (o : LOp) : Leaves κ (execIvwidIv16 o s) := by
  unfold execIvwidIv16
  exact compOp_leaves hs ..

theorem execIvcmp_leaves (o : LOp) : Leaves κ (execIvcmp o s) := by
  unfold execIvcmp
  exact compOp_leaves hs ..

theorem execIvcmpIv16_leaves (o : LOp) : Leaves κ (execIvcmpIv16 o s) := by
  unfold execIvcmpIv16
  exact compOp_leaves hs ..

theorem execIvsplit_leaves (o : LOp) : Leaves κ (execIvsplit o s) := by
  unfold execIvsplit
  exact laneOp_leaves hs _

theorem execIvsplitIv16_leaves (o : LOp) : Leaves κ (execIvsplitIv16 o s) := by
  unfold execIvsplitIv16
  exact laneOp_leaves hs _

/-! ### Headers, guards and flow -/

theorem openTrace_kept (g : Group) (n : Node) (h : TraceHdr) : (openTrace s g n h).kept κ := by
  unfold openTrace
  exact ite_kept (entryFault_kept hs ..) (ite_kept (addFatal_kept hs ..) (setGroup_kept (countCall_kept hs _) _))

theorem execTrace_leaves (h : TraceHdr) : Leaves κ (execTrace h s) := by
  unfold execTrace
  split
  · trivial
  · unfold Leaves
    dsimp only
    split
    · split
      · next hp => exact precheck_stop hs hp
      · next hp => exact groupFault_kept (precheck_go hs hp) ..
    · exact ite_kept (openTrace_kept hs ..) hs

theorem execUnallocatedOpcode_leaves (_why : DecodeError) (_w : List Word) : Leaves κ (execUnallocatedOpcode _why _w s) := by
  unfold execUnallocatedOpcode
  exact coreOp_leaves hs (fun t _ _ _ ht => groupFault_kept ht ..) ..

theorem terminate_kept (g : Group) (n : Node) (c : Ctx) (t : Term) (targets : List Nat) : (terminate s g n c t targets).kept κ := by
  unfold terminate
  exact ite_kept (groupFault_kept hs ..) (ite_kept (groupFault_kept hs ..) (putCtx_kept hs ..))

theorem execEndTrace_leaves (o : CtlOp) : Leaves κ (execEndTrace o s) := by
  unfold execEndTrace
  exact coreOp_leaves hs (fun t _ _ _ ht => terminate_kept ht ..) ..

theorem execEndx_leaves (o : LOp) : Leaves κ (execEndx o s) := by
  unfold execEndx
  exact coreOp_leaves hs (fun t _ _ _ ht => ite_kept (groupFault_kept ht ..) (terminate_kept ht ..)) ..

theorem execJoin_leaves (o : CtlOp) : Leaves κ (execJoin o s) := by
  unfold execJoin
  exact coreOp_leaves hs (fun t _ _ _ ht => terminate_kept ht ..) ..

theorem execExit_leaves : Leaves κ (execExit s) := by
  unfold execExit
  exact coreOp_leaves hs (fun t _ _ _ ht => terminate_kept ht ..) ..

theorem applyGuard_kept (g : Group) (n : Node) (c : Ctx) (o : CtlOp) (outs : List (Nat × Nat × Option Fail)) :
    (applyGuard s g n c o outs).kept κ := by
  unfold applyGuard
  exact putCtx_kept hs ..

theorem execGuard_leaves (o : CtlOp) : Leaves κ (execGuard o s) := by
  unfold execGuard
  exact coreOp_leaves hs (fun t _ _ _ ht => applyGuard_kept ht ..) ..

theorem execGuardc_leaves (o : CtlOp) : Leaves κ (execGuardc o s) := by
  unfold execGuardc
  exact coreOp_leaves hs (fun t _ _ _ ht => applyGuard_kept ht ..) ..

theorem setFlow_kept (f : Flow) (g : Group) (n : Node) (c : Ctx) : (setFlow f s g n c).kept κ := by
  unfold setFlow
  exact ite_kept (groupFault_kept hs ..) (putCtx_kept hs ..)

theorem execCallt_leaves (o : CtlOp) : Leaves κ (execCallt o s) := by
  unfold execCallt
  exact coreOp_leaves hs (fun t _ _ _ ht => ite_kept (groupFault_kept ht ..) (faultLanes_kept ht ..)) ..

theorem execRett_leaves : Leaves κ (execRett s) := by
  unfold execRett
  exact coreOp_leaves hs (fun t _ _ _ ht => ite_kept (groupFault_kept ht ..) (faultLanes_kept ht ..)) ..

theorem execKill_leaves : Leaves κ (execKill s) := by
  unfold execKill
  exact coreOp_leaves hs (fun t _ _ _ ht => ite_kept (groupFault_kept ht ..) (setFlow_kept ht ..)) ..

theorem execYield_leaves : Leaves κ (execYield s) := by
  unfold execYield
  exact coreOp_leaves hs (fun t _ _ _ ht => ite_kept (setFlow_kept ht ..) (groupFault_kept ht ..)) ..

theorem execResume_leaves : Leaves κ (execResume s) := by
  unfold execResume
  exact coreOp_leaves hs (fun t _ _ _ ht => ite_kept (putCtx_kept ht ..) (groupFault_kept ht ..)) ..

theorem execTrap_leaves (o : LOp) : Leaves κ (execTrap o s) := by
  unfold execTrap
  exact laneOp_leaves hs _

theorem execBrk_leaves (o : LOp) : Leaves κ (execBrk o s) := by
  unfold execBrk
  exact laneOp_leaves hs _

theorem nopOp_leaves (words : Nat) : Leaves κ (nopOp words s) := by
  unfold nopOp
  exact coreOp_leaves hs (fun t _ _ _ ht => putCtx_kept ht ..) ..

theorem execNop_leaves : Leaves κ (execNop s) := by
  unfold execNop
  exact nopOp_leaves hs _

theorem execNopLong_leaves : Leaves κ (execNopLong s) := by
  unfold execNopLong
  exact nopOp_leaves hs _

theorem execHintKeep_leaves (o : LOp) : Leaves κ (execHintKeep o s) := by
  unfold execHintKeep
  exact nopOp_leaves hs _

theorem execHintStream_leaves (o : LOp) : Leaves κ (execHintStream o s) := by
  unfold execHintStream
  exact nopOp_leaves hs _

theorem execHintUnimplemented_leaves (_k : BitVec 4) (o : LOp) : Leaves κ (execHintUnimplemented _k o s) := by
  unfold execHintUnimplemented
  exact nopOp_leaves hs _

theorem hintWrite_leaves (o : LOp) (val : State → Group → Word) : Leaves κ (hintWrite o val s) := by
  unfold hintWrite
  exact ite_leaves (coreOp_leaves hs (fun t _ _ _ ht => putCtx_kept ht ..) ..) (nopOp_leaves hs _)

theorem execHintOcc_leaves (o : LOp) : Leaves κ (execHintOcc o s) := by
  unfold execHintOcc
  exact hintWrite_leaves hs ..

theorem execHintThr_leaves (o : LOp) : Leaves κ (execHintThr o s) := by
  unfold execHintThr
  exact hintWrite_leaves hs ..

/-! ### Accesses of memory -/

theorem acquire_kept (g : Group) (scope : Nat) : (acquire s g scope).kept κ := by
  unfold acquire
  exact ite_kept (l1DropAll_kept hs _) hs

theorem addItem_kept (it : Item) : (addItem s it).kept κ := by
  unfold addItem
  exact hs

theorem tidy_kept : (tidy s).kept κ := by
  unfold tidy
  refine State.kept.foldl ?_ _ (fun t _ ht => ?_)
  · exact hs
  · split
    · exact ite_kept (l1DropAll_kept ht _) ht
    · exact ht

theorem seeLoad_kept (g : Group) (va n : Nat) (home : Bool) : (seeLoad s g va n home).kept κ := by
  unfold seeLoad
  refine ite_kept hs ?_
  dsimp only
  split
  · exact seeSpan_kept (seeWalk_kept hs ..) ..
  · exact seeWalk_kept hs ..

theorem seeScratch_kept (w0 : Workgroup) (o n : Nat) : (seeScratch s w0 o n).kept κ := by
  unfold seeScratch
  refine ite_kept hs (hs.foldl _ fun t _ ht => ite_kept ht ?_)
  split
  · exact ht
  · next w hw =>
    have h1 (fs : List WordFlaw) : (t.setWkg { w with flaws := fs }).kept κ := setWkg_kept ht (ht.found hw :)
    exact ite_kept (ite_kept ht (writeErr_kept (h1 _) _)) (countCorrected_kept (h1 _) ..)

theorem seeOffset_kept (g : Group) (off n : Nat) : (seeOffset s g off n).kept κ := by
  unfold seeOffset
  split
  · exact seeScratch_kept hs ..
  · exact hs

theorem seeSpotWalk_kept (g : Group) (x : Spot) : (seeSpotWalk s g x).kept κ := by
  unfold seeSpotWalk
  exact ite_kept (seeWalk_kept hs ..) hs

theorem journalled_kept (g : Group) (pa n : Nat) : (journalled s g pa n).kept κ := by
  unfold journalled
  refine ite_kept ?_ hs
  exact hs

theorem spotWrite_kept (g : Group) (x : Spot) (d : List Byte) : (spotWrite s g x d).kept κ := by
  unfold spotWrite
  refine ite_kept ?_ ?_
  · split
    · exact pwriteLong_kept (journalled_kept hs ..) ..
    · exact hs
  · split
    · next w hw => exact setWkg_kept hs (put_wf (hs.scratch hw :) ..)
    · exact hs

theorem uniFault_kept (g : Group) (n : Node) (c : Ctx) (code : Nat) (next : Ctx → Ctx) : (uniFault s g n c code next).kept κ := by
  unfold uniFault
  exact faultLanes_kept hs ..

/-! ### Waits, fences, tickets and spawns -/

theorem passWait_kept (g : Group) (n : Node) (c : Ctx) : (passWait s g n c).kept κ := by
  unfold passWait
  exact putCtx_kept (acquire_kept hs ..) ..

theorem execWaitc_leaves (c : WaitCounts) : Leaves κ (execWaitc c s) := by
  unfold execWaitc
  exact waitOp_leaves hs (fun t _ _ _ ht => passWait_kept ht ..) ..

theorem execWaitp_leaves (o : LOp) : Leaves κ (execWaitp o s) := by
  unfold execWaitp
  exact waitOp_leaves hs (fun t _ _ _ ht => ite_kept (passWait_kept ht ..) (uniFault_kept ht ..)) ..

theorem execWaitseq_leaves (o : LOp) : Leaves κ (execWaitseq o s) := by
  unfold execWaitseq
  exact waitOp_leaves hs (fun t _ _ _ ht => ite_kept (passWait_kept ht ..) (uniFault_kept ht ..)) ..

theorem execGate_leaves : Leaves κ (execGate s) := by
  unfold execGate
  exact waitOp_leaves hs (fun t _ _ _ ht => passWait_kept ht ..) ..

theorem execFence_leaves (o : LOp) : Leaves κ (execFence o s) := by
  unfold execFence
  exact coreOp_leaves hs (fun t _ _ _ ht => putCtx_kept ht ..) ..

theorem execRelease_leaves : Leaves κ (execRelease s) := by
  unfold execRelease
  exact coreOp_leaves hs (fun t _ _ _ ht => putCtx_kept ht ..) ..

theorem execBar_leaves (o : CtlOp) : Leaves κ (execBar o s) := by
  unfold execBar
  exact coreOp_leaves hs (fun t _ _ _ ht => ite_kept (groupFault_kept ht ..) (terminate_kept ht ..)) ..

theorem execCbar_leaves (o : CtlOp) : Leaves κ (execCbar o s) := by
  unfold execCbar
  exact coreOp_leaves hs (fun t _ _ _ ht => ite_kept (groupFault_kept ht ..) (terminate_kept ht ..)) ..

theorem seeSpot_kept (g : Group) (x : Spot) (n : Nat) : (seeSpot s g x n).kept κ := by
  unfold seeSpot
  exact ite_kept (seeLoad_kept hs ..) (seeOffset_kept hs ..)

theorem execQopen_leaves (o : LOp) : Leaves κ (execQopen o s) := by
  unfold execQopen
  refine waitOp_leaves hs (fun t _ _ _ ht => ite_kept (uniFault_kept ht ..) ?_) ..
  dsimp only
  split
  · exact uniFault_kept (seeSpot_kept ht ..) ..
  · exact rejectCall_kept (seeSpot_kept ht ..) ..
  · exact ite_kept (uniFault_kept (seeSpot_kept ht ..) ..) (putCtx_kept (seeSpot_kept ht ..) ..)

theorem execQclose_leaves (o : LOp) : Leaves κ (execQclose o s) := by
  unfold execQclose
  exact coreOp_leaves hs (fun t _ _ _ ht => ite_kept (uniFault_kept ht ..) (putCtx_kept ht ..)) ..

theorem execQstat_leaves (o : LOp) : Leaves κ (execQstat o s) := by
  unfold execQstat
  refine waitOp_leaves hs (fun t _ _ _ ht => ite_kept (uniFault_kept ht ..) ?_) ..
  dsimp only
  split
  · exact uniFault_kept (seeSpot_kept ht ..) ..
  · exact rejectCall_kept (seeSpot_kept ht ..) ..
  · exact putCtx_kept (seeSpot_kept ht ..) ..

theorem ringTerm_leaves (cons : Bool) (o : CtlOp) (mk : Bool → Nat → Nat → Nat → Nat → Term) : Leaves κ (ringTerm cons o mk s) := by
  unfold ringTerm
  refine waitOp_leaves hs (fun t _ _ _ ht => ite_kept (groupFault_kept ht ..) (ite_kept (groupFault_kept (seeSpot_kept ht ..) ..) ?_)) ..
  split
  · exact groupFault_kept (seeSpot_kept ht ..) ..
  · exact rejectCall_kept (seeSpot_kept ht ..) ..
  · exact terminate_kept (seeSpot_kept ht ..) ..

theorem execPushq_leaves (o : CtlOp) : Leaves κ (execPushq o s) := by
  unfold execPushq
  exact ringTerm_leaves hs ..

theorem execPopq_leaves (o : CtlOp) : Leaves κ (execPopq o s) := by
  unfold execPopq
  exact ringTerm_leaves hs ..

theorem execTicket_leaves (o : LOp) : Leaves κ (execTicket o s) := by
  unfold execTicket
  refine waitOp_leaves hs (fun t _ _ _ ht => ite_kept (uniFault_kept ht ..) ?_) ..
  split
  · exact putCtx_kept ht ..
  · exact putCtx_kept (ite_kept (setLaunch_kept ht _) ht) ..

theorem execSpawn_leaves (o : LOp) : Leaves κ (execSpawn o s) := by
  unfold execSpawn
  exact coreOp_leaves hs (fun t _ _ _ ht => ite_kept (groupFault_kept ht ..) (ite_kept (operandFault_kept ht ..) (putCtx_kept
    (reserveSlots_kept ht ..) ..))) ..

theorem bisectOp_leaves (h : Bool) (o : LOp) : Leaves κ (bisectOp h o s) := by
  unfold bisectOp
  exact coreOp_leaves hs (fun t _ _ _ ht => ite_kept (groupFault_kept ht ..) (ite_kept (operandFault_kept ht ..) (ite_kept
    (groupFault_kept ht ..) (faultLanes_kept (reserveSlots_kept ht ..) ..)))) ..

theorem execIvbis_leaves (o : LOp) : Leaves κ (execIvbis o s) := by
  unfold execIvbis
  exact bisectOp_leaves hs ..

theorem execIvbisIv16_leaves (o : LOp) : Leaves κ (execIvbisIv16 o s) := by
  unfold execIvbisIv16
  exact bisectOp_leaves hs ..

/-! ### Loads and stores -/

theorem issueLoad_kept (g : Group) (n : Node) (c : Ctx) (dst : List RegRef) (l : Load) : (issueLoad s g n c dst l).1.kept κ := by
  unfold issueLoad
  exact hs

theorem seeLanes_kept (o : MemOp) (m : MemForm) (home : Bool) (g : Group) (n : Node) (c : Ctx) : (seeLanes o m home s g n c).kept κ := by
  unfold seeLanes
  exact hs.foldl _ fun t _ ht => ite_kept (seeOffset_kept ht ..) (seeLoad_kept ht ..)

theorem loadEffect_kept (o : MemOp) (m : MemForm) (g : Group) (n : Node) (c : Ctx) : (loadEffect o m s g n c).kept κ := by
  unfold loadEffect
  refine ite_kept (faultLanes_kept hs ..) ?_
  dsimp only
  split
  · exact rejectCall_kept hs ..
  · refine ite_kept (faultLanes_kept (seeLanes_kept (ite_kept (acquire_kept hs ..) hs) ..) ..) (ite_kept (groupFault_kept hs ..)
      (faultLanes_kept ?_ ..))
    exact ite_kept (State.kept.foldl (seeLanes_kept (ite_kept (acquire_kept hs ..) hs) ..) _ (fun t _ ht => l1Drop_kept ht ..))
      (seeLanes_kept (ite_kept (acquire_kept hs ..) hs) ..)

theorem loadOp_leaves (o : MemOp) (m : MemForm) : Leaves κ (loadOp o m s) := by
  unfold loadOp
  exact waitOp_leaves hs (fun t _ _ _ ht => loadEffect_kept ht ..) ..

theorem execLd_leaves (o : MemOp) : Leaves κ (execLd o s) := by
  unfold execLd
  exact loadOp_leaves hs ..

theorem execLdu_leaves (o : MemOp) : Leaves κ (execLdu o s) := by
  unfold execLdu
  exact loadOp_leaves hs ..

theorem execLds_leaves (o : MemOp) : Leaves κ (execLds o s) := by
  unfold execLds
  exact loadOp_leaves hs ..

theorem execIvld_leaves (o : MemOp) : Leaves κ (execIvld o s) := by
  unfold execIvld
  exact loadOp_leaves hs ..

theorem execIvldIv16_leaves (o : MemOp) : Leaves κ (execIvldIv16 o s) := by
  unfold execIvldIv16
  exact loadOp_leaves hs ..

theorem storeOp_leaves (o : MemOp) (m : MemForm) : Leaves κ (storeOp o m s) := by
  unfold storeOp
  exact coreOp_leaves hs (fun t _ _ _ ht => ite_kept (faultLanes_kept ht ..) (ite_kept (groupFault_kept ht ..) (faultLanes_kept ht ..))) ..

theorem execSt_leaves (o : MemOp) : Leaves κ (execSt o s) := by
  unfold execSt
  exact storeOp_leaves hs ..

theorem execStu_leaves (o : MemOp) : Leaves κ (execStu o s) := by
  unfold execStu
  exact storeOp_leaves hs ..

theorem execSts_leaves (o : MemOp) : Leaves κ (execSts o s) := by
  unfold execSts
  exact storeOp_leaves hs ..

theorem execIvst_leaves (o : MemOp) : Leaves κ (execIvst o s) := by
  unfold execIvst
  exact storeOp_leaves hs ..

theorem execIvstIv16_leaves (o : MemOp) : Leaves κ (execIvstIv16 o s) := by
  unfold execIvstIv16
  exact storeOp_leaves hs ..

theorem seeWalks_kept (o : MemOp) (g : Group) (n : Node) (c : Ctx) : (seeWalks o s g n c).kept κ := by
  unfold seeWalks
  exact ite_kept hs (hs.foldl _ (fun t _ ht => seeWalk_kept ht ..))

theorem execLda_leaves (o : MemOp) : Leaves κ (execLda o s) := by
  unfold execLda
  exact waitOp_leaves hs (fun t _ _ _ ht => ite_kept (faultLanes_kept ht ..) (ite_kept (groupFault_kept ht ..) (faultLanes_kept
    (seeWalks_kept ht ..) ..))) ..

theorem execLdlit_leaves (o : LitOp) : Leaves κ (execLdlit o s) := by
  unfold execLdlit
  refine waitOp_leaves hs (fun t _ _ _ ht => ite_kept (uniFault_kept (ht.foldl _ (fun t _ ht => seeWord_kept ht ..)) ..) (ite_kept
    (uniFault_kept (ht.foldl _ (fun t _ ht => seeWord_kept ht ..)) ..) (ite_kept (uniFault_kept (ht.foldl _
    (fun t _ ht => seeWord_kept ht ..)) ..) ?_))) ..
  split
  · exact uniFault_kept (ht.foldl _ (fun t _ ht => seeWord_kept ht ..)) ..
  · refine ite_kept (rejectCall_kept (ht.foldl _ (fun t _ ht => seeWord_kept ht ..)) ..) (ite_kept (groupFault_kept (ht.foldl _
      (fun t _ ht => seeWord_kept ht ..)) ..) (putCtx_kept ?_ ..))
    exact ht.foldl _ fun t _ ht => seeWord_kept ht ..

theorem execPref_leaves (o : MemOp) : Leaves κ (execPref o s) := by
  unfold execPref
  exact coreOp_leaves hs (fun t _ _ _ ht => putCtx_kept ht ..) ..

theorem execCctl_leaves (o : MemOp) : Leaves κ (execCctl o s) := by
  unfold execCctl
  refine waitOp_leaves hs (fun t _ _ _ ht => putCtx_kept (ite_kept (l1DropAll_kept ht _) (ite_kept (State.kept.foldl (seeWalks_kept ht ..) _
    (fun t _ ht => ?_)) ht)) ..) ..
  split
  · exact l1Drop_kept ht ..
  · exact ht

theorem execIcinv_leaves (o : LOp) : Leaves κ (execIcinv o s) := by
  unfold execIcinv
  exact coreOp_leaves hs (fun t _ _ _ ht => ite_kept (uniFault_kept ht ..) (ite_kept (uniFault_kept ht ..) (putCtx_kept ht ..))) ..

theorem execDrain_leaves : Leaves κ (execDrain s) := by
  unfold execDrain
  exact waitOp_leaves hs (fun t _ _ _ ht => tidy_kept (addItem_kept (putCtx_kept ht ..) _)) ..

/-! ### Deferred atomics -/

theorem atomOp_leaves (o : AtomOp) (m : AtomForm) : Leaves κ (atomOp o m s) := by
  unfold atomOp
  exact coreOp_leaves hs (fun t _ _ _ ht => ite_kept (faultLanes_kept ht ..) (ite_kept (groupFault_kept ht ..) (ite_kept
    (groupFault_kept ht ..) (faultLanes_kept ht ..)))) ..

theorem execAtom_leaves (o : AtomOp) : Leaves κ (execAtom o s) := by
  unfold execAtom
  exact atomOp_leaves hs ..

theorem execAtoms_leaves (o : AtomOp) : Leaves κ (execAtoms o s) := by
  unfold execAtoms
  exact atomOp_leaves hs ..

theorem execRed_leaves (o : AtomOp) : Leaves κ (execRed o s) := by
  unfold execRed
  exact atomOp_leaves hs ..

theorem execSred_leaves (o : AtomOp) : Leaves κ (execSred o s) := by
  unfold execSred
  exact atomOp_leaves hs ..

theorem execBop_leaves (o : AtomOp) : Leaves κ (execBop o s) := by
  unfold execBop
  exact atomOp_leaves hs ..

end Keeps

end Sys2Proof.Machine
end

section
/-! PROOFS. What a step keeps: effects, commits and returns. -/
namespace Sys2Proof.Machine

section Keeps
variable {s : State} {κ : Cur} (hs : s.kept κ)
include hs

/-! ### The pipeline of effects -/

theorem leaveRemains_kept {w : Workgroup} (hw : Memory.wf w.data = true) :
    (leaveRemains s w).kept κ :=
  { hs with
    wkgs := fun x hx => hs.wkgs x (mem_of_mem_filtered hx)
    remains := fun r hr => by
      rcases List.mem_append.mp hr with hr | hr
      · exact hs.remains r hr
      · rw [List.mem_singleton.mp hr]
        exact hw }

theorem wkgMaybeEnd_kept (part : Nat) (serial : Word) (k : Nat) : (wkgMaybeEnd s part serial k).kept κ := by
  unfold wkgMaybeEnd
  split
  · exact hs
  · next w hw => exact ite_kept hs (ite_kept (ite_kept hs (leaveRemains_kept hs (hs.found hw :))) (ite_kept (leaveRemains_kept hs
      (hs.found hw :)) (setWkg_kept hs rfl)))

theorem closeItem_kept (id : Nat) : (closeItem s id).kept κ := by
  unfold closeItem
  split
  · exact hs
  · refine ite_kept (tidy_kept ?_) (tidy_kept hs)
    split
    · refine setGroup_kept ?_ _
      exact hs
    · refine wkgMaybeEnd_kept ?_ ..
      exact hs

theorem resolve_kept (it : Item) (k : Nat) (x : Elem) (st : ElemSt) : (resolve s it k x st).kept κ := by
  unfold resolve
  exact closeItem_kept (setItem_kept hs _) _

theorem settleRecord_kept (id : Nat) : (settleRecord s id).kept κ := by
  unfold settleRecord
  split
  · exact hs
  · refine ite_kept hs ?_
    dsimp only
    split
    · exact setGroup_kept (setItem_kept hs _) _
    · exact setItem_kept hs _

theorem checkDone_kept (it : Item) : (checkDone s it).kept κ := by
  unfold checkDone
  refine closeItem_kept (settleRecord_kept ?_ _) _
  split
  · exact raiseService_kept (setItem_kept hs _) ..
  · exact setItem_kept hs _

theorem seeItem_kept (it : Item) (pick : Elem → Bool) : (seeItem s it pick).kept κ := by
  unfold seeItem
  exact ite_kept hs (hs.foldl _ (fun t _ ht => seeWalk_kept ht ..))

theorem checkItem_kept (it : Item) : (checkItem s it).kept κ := by
  unfold checkItem
  exact checkDone_kept (seeItem_kept hs ..) _

theorem execPostedStoreCheck_leaves (id : Nat) : Leaves κ (execPostedStoreCheck id s) := by
  unfold execPostedStoreCheck
  split
  · exact hs
  · exact ite_kept (checkItem_kept hs _) hs

theorem refuseElem_kept (it : Item) (k : Nat) (x : Elem) (code : Nat) : (refuseElem s it k x code).kept κ := by
  unfold refuseElem
  exact closeItem_kept (settleRecord_kept (setItem_kept hs _) _) _

theorem writeGlobal_kept (it : Item) (x : Elem) : (writeGlobal s it x).kept κ := by
  unfold writeGlobal
  exact l1Write_kept (pwrite_kept hs ..) ..

theorem performStore_kept (it : Item) (k : Nat) (x : Elem) : (performStore s it k x).kept κ := by
  unfold performStore
  exact ite_kept (resolve_kept (writeGlobal_kept hs ..) ..) (refuseElem_kept hs ..)

theorem writeScratch_kept (g : Group) (off : Nat) (d : List Byte) : (writeScratch s g off d).kept κ := by
  unfold writeScratch
  split
  · next w hw => exact setWkg_kept hs (put_wf (hs.scratch hw :) ..)
  · exact hs

theorem openGates_kept (l : Launch) : (openGates s l).kept κ := by
  unfold openGates
  exact hs

theorem countRelease_kept (part : Nat) (serial : Word) : (countRelease s part serial).kept κ := by
  unfold countRelease
  split
  · exact openGates_kept (setLaunch_kept hs _) _
  · exact hs

theorem readySlot_kept (it : Item) (q entry : Nat) (x : Elem) : (readySlot s it q entry x).kept κ := by
  unfold readySlot
  split
  · exact hs
  · split
    · exact hs
    · exact writeVa_kept (setPart_kept hs _) ..

theorem writeLog_kept (it : Item) (x : Elem) : (writeLog s it x).kept κ := by
  unfold writeLog
  split
  · exact hwWrite_kept (hwWrite_kept hs ..) ..
  · exact hs

theorem landOwn_kept (g : Group) (x : Spot) (n mark : Nat) : (landOwn s g x n mark).kept κ := by
  unfold landOwn
  exact hs.foldl _ fun t _ ht => ht.foldl _ (fun t _ ht => spotWrite_kept ht ..)

theorem ringCount_kept (g : Group) (cons bench : Bool) (addr : Nat) (up : Bool) (mark : Nat) :
    (ringCount s g cons bench addr up mark).kept κ := by
  unfold ringCount
  exact ite_kept (landOwn_kept (seeSpot_kept hs ..) ..) (spotWrite_kept (spotWrite_kept (landOwn_kept (seeSpot_kept hs ..) ..) ..) ..)

theorem makeCount_kept (id : Nat) : (makeCount s id).kept κ := by
  unfold makeCount
  split
  · exact hs
  · split
    · exact ite_kept (resolve_kept (ringCount_kept hs ..) ..) hs
    · exact hs

theorem sendRing_kept (g : Group) (attach cons bench : Bool) (addr : Nat) : (sendRing s g attach cons bench addr).kept κ := by
  unfold sendRing
  exact makeCount_kept (addItem_kept hs _) _

theorem execStorePerformed_leaves (id elem : Nat) : Leaves κ (execStorePerformed id elem s) := by
  unfold execStorePerformed
  split
  · exact hs
  · split
    · exact hs
    · refine ite_kept hs ?_
      split
      · exact ite_kept (performStore_kept hs ..) hs
      · exact ite_kept (resolve_kept (writeScratch_kept hs ..) ..) hs
      · exact ite_kept (resolve_kept (countRelease_kept hs ..) ..) hs
      · exact makeCount_kept hs _
      · exact ite_kept (resolve_kept (readySlot_kept hs ..) ..) hs
      · exact ite_kept (resolve_kept (writeLog_kept hs ..) ..) hs
      · exact hs

theorem writeVreg_kept (core part block lane reg : Nat) (w : Word) : (writeVreg s core part block lane reg w).kept κ := by
  unfold writeVreg
  dsimp only
  split
  · exact l1Write_kept (writeVa_kept hs ..) ..
  · exact writeVa_kept hs ..

theorem returnV_kept (it : Item) (lane reg : Nat) (w : Word) : (returnV s it lane reg w).kept κ := by
  unfold returnV
  dsimp only
  split
  · refine ite_kept (writeVreg_kept ?_ ..) ?_
    · split
      · exact setGroup_kept hs _
      · exact hs
    · split
      · refine ite_kept (writeVreg_kept ?_ ..) ?_
        · split
          · exact setGroup_kept hs _
          · exact hs
        · split
          · exact setGroup_kept hs _
          · exact hs
      · split
        · exact setGroup_kept hs _
        · exact hs
  · refine writeVreg_kept ?_ ..
    split
    · exact setGroup_kept hs _
    · exact hs
  · split
    · exact setGroup_kept hs _
    · exact hs

theorem returnOld_kept (it : Item) (x : Elem) (old : Nat) : (returnOld s it x old).kept κ := by
  unfold returnOld
  split
  · exact ite_kept (ite_kept (returnV_kept (returnV_kept hs ..) ..) (returnV_kept hs ..)) hs
  · exact hs

theorem updateGlobal_kept (it : Item) (x : Elem) : (updateGlobal s it x).kept κ := by
  unfold updateGlobal
  split
  · exact returnOld_kept (l1Write_kept (pwrite_kept hs ..) ..) ..
  · exact hs

theorem updateScratch_kept (it : Item) (x : Elem) : (updateScratch s it x).kept κ := by
  unfold updateScratch
  split
  · split
    · next w hw => exact returnOld_kept (setWkg_kept hs (put_wf (hs.scratch hw :) ..)) ..
    · exact hs
  · exact hs

theorem atomAcquire_kept (it : Item) : (atomAcquire s it).kept κ := by
  unfold atomAcquire
  split
  · exact ite_kept (l1DropAll_kept hs _) hs
  · exact hs

theorem park_kept (it : Item) (k : Nat) (x : Elem) (cause : Nat) : (park s it k x cause).kept κ := by
  unfold park
  exact ite_kept hs (setItem_kept (setDie_kept hs ..) _)

theorem performAtomic_kept (it : Item) (k : Nat) (x : Elem) (n : Nat) (mf : Option MemFault) : (performAtomic s it k x n mf).kept κ := by
  unfold performAtomic
  refine ite_kept hs (ite_kept (refuseElem_kept hs ..) ?_)
  dsimp only
  split
  · exact park_kept (seeSpan_kept hs ..) ..
  · exact resolve_kept (atomAcquire_kept (updateGlobal_kept (seeSpan_kept hs ..) ..) _) ..

theorem performAtoms_kept (it : Item) (k : Nat) (x : Elem) (n : Nat) : (performAtoms s it k x n).kept κ := by
  unfold performAtoms
  dsimp only
  split
  · exact refuseElem_kept (seeOffset_kept hs ..) ..
  · exact resolve_kept (atomAcquire_kept (updateScratch_kept (seeOffset_kept hs ..) ..) _) ..

theorem execDeferredAtomicPerform_leaves (id elem : Nat) (mf : Option MemFault) : Leaves κ (execDeferredAtomicPerform id elem mf s) := by
  unfold execDeferredAtomicPerform
  split
  · exact hs
  · split
    · exact hs
    · refine ite_kept hs ?_
      split
      · exact hs
      · exact performAtoms_kept hs ..
      · exact performAtomic_kept hs ..
      · exact hs

theorem setParked_kept (die : Nat) (p : Parked) : (setParked s die p).kept κ := by
  unfold setParked
  exact setDie_kept hs ..

theorem dropParked_kept (die : Nat) (p : Parked) : (dropParked s die p).kept κ := by
  unfold dropParked
  exact setDie_kept hs ..

theorem execAtomicRepair_leaves (die at_ : Nat) : Leaves κ (execAtomicRepair die at_ s) := by
  unfold execAtomicRepair
  split
  · exact hs
  · split
    · exact hs
    · exact ite_kept hs (ite_kept (raiseService_kept (setParked_kept hs ..) ..) (setParked_kept hs ..))

theorem execAtomicReplay_leaves (die at_ : Nat) : Leaves κ (execAtomicReplay die at_ s) := by
  unfold execAtomicReplay
  split
  · exact hs
  · split
    · exact hs
    · split
      · exact ite_kept (refuseElem_kept (dropParked_kept hs ..) ..) (ite_kept hs (resolve_kept (atomAcquire_kept (updateGlobal_kept
          (dropParked_kept hs ..) ..) _) ..))
      · exact hs

theorem applyPair_kept (m : MergePair) : (applyPair s m).kept κ := by
  unfold applyPair
  refine State.kept.foldl (ite_kept (pwrite_kept ?_ ..) ?_) _ (fun t _ ht => ?_)
  · exact hs
  · exact hs
  · split
    · split
      · exact ite_kept (resolve_kept (l1Write_kept ht ..) ..) (refuseElem_kept ht ..)
      · exact ht
    · exact ht

theorem sendPeer_kept (it : Item) (k : Nat) (x : Elem) : (sendPeer s it k x).kept κ := by
  unfold sendPeer
  refine resolve_kept (ite_kept (writeErr_kept ?_ _) ?_) ..
  all_goals exact hs

theorem execSredElementApply_leaves (id elem : Nat) (turn : SredTurn) : Leaves κ (execSredElementApply id elem turn s) := by
  unfold execSredElementApply
  split
  · exact hs
  · split
    · exact hs
    · refine ite_kept hs ?_
      split
      · dsimp only
        split
        · exact hs
        · refine ite_kept hs (ite_kept ?_ (applyPair_kept (seeSpan_kept hs ..) _))
          exact seeSpan_kept hs ..
        · exact ite_kept (performAtomic_kept hs ..) hs
        · refine ite_kept hs ?_
          split
          · refine ite_kept hs ?_
            exact hs
          · refine ite_kept ?_ hs
            exact hs
      · exact ite_kept (sendPeer_kept hs ..) hs
      · exact hs

theorem parkPeer_kept (it : Item) (x : Elem) (cause : Nat) : (parkPeer s it x cause).kept κ := by
  unfold parkPeer
  exact ite_kept hs (park_kept (addItem_kept hs _) ..)

theorem execSredPeerElement_leaves (part die : Nat) (addr : DWord) (op ty : BitVec 3) (value : DWord) :
    Leaves κ (execSredPeerElement part die addr op ty value s) := by
  unfold execSredPeerElement
  refine ite_kept hs (ite_kept (writeErr_kept (seeWalk_kept hs ..) _) ?_)
  split
  · exact writeErr_kept (seeWalk_kept hs ..) _
  · refine ite_kept (writeErr_kept (seeWalk_kept hs ..) _) (ite_kept (seeWalk_kept hs ..) ?_)
    dsimp only
    split
    · exact parkPeer_kept (seeSpan_kept (seeWalk_kept hs ..) ..) ..
    · exact pwrite_kept (seeSpan_kept (seeWalk_kept hs ..) ..) ..

theorem execLdaElementWrite_leaves (id elem : Nat) (e : LineError) : Leaves κ (execLdaElementWrite id elem e s) := by
  unfold execLdaElementWrite
  split
  · exact hs
  · split
    · refine ite_kept hs (resolve_kept (ite_kept ?_ (writeScratch_kept (seeSpan_kept (setFlaw_kept hs ..) ..) ..)) ..)
      split
      · exact setGroup_kept (seeSpan_kept (setFlaw_kept hs ..) ..) _
      · exact seeSpan_kept (setFlaw_kept hs ..) ..
    · exact hs

/-! ### Posts to engines -/

theorem postEffect_kept (m : PostForm) (d a : Nat) (body : List Byte) (g : Group) (n : Node) (c : Ctx) :
    (postEffect m d a body s g n c).kept κ := by
  unfold postEffect
  refine ite_kept (groupFault_kept hs ..) ?_
  dsimp only
  split
  · exact putCtx_kept (seeSpotWalk_kept hs ..) ..
  · exact uniFault_kept (seeSpotWalk_kept hs ..) ..

theorem postOp_leaves (m : PostForm) (o : LOp) : Leaves κ (postOp m o s) := by
  unfold postOp
  exact waitOp_leaves hs (fun t _ _ _ ht => ite_kept (uniFault_kept ht ..) (postEffect_kept ht ..)) ..

theorem execLayout_leaves (o : LOp) : Leaves κ (execLayout o s) := by
  unfold execLayout
  exact postOp_leaves hs ..

theorem execCopy_leaves (o : LOp) : Leaves κ (execCopy o s) := by
  unfold execCopy
  exact postOp_leaves hs ..

theorem execGather_leaves (o : LOp) : Leaves κ (execGather o s) := by
  unfold execGather
  exact postOp_leaves hs ..

theorem execScatter_leaves (o : LOp) : Leaves κ (execScatter o s) := by
  unfold execScatter
  exact postOp_leaves hs ..

theorem execColl_leaves (o : LOp) : Leaves κ (execColl o s) := by
  unfold execColl
  exact postOp_leaves hs ..

theorem execQfence_leaves (o : LOp) : Leaves κ (execQfence o s) := by
  unfold execQfence
  exact waitOp_leaves hs (fun t _ _ _ ht => ite_kept (uniFault_kept ht ..) (postEffect_kept ht ..)) ..

theorem execSeqrd_leaves (o : LOp) : Leaves κ (execSeqrd o s) := by
  unfold execSeqrd
  refine waitOp_leaves hs (fun t _ _ _ ht => ite_kept (uniFault_kept ht ..) (putCtx_kept ?_ ..)) ..
  exact acquire_kept ht ..

theorem execGang_leaves (o : LOp) : Leaves κ (execGang o s) := by
  unfold execGang
  exact coreOp_leaves hs (fun t _ _ _ ht => ite_kept (uniFault_kept ht ..) (putCtx_kept ht ..)) ..

theorem execMma_leaves (o : LOp) : Leaves κ (execMma o s) := by
  unfold execMma
  exact coreOp_leaves hs (fun t _ _ _ ht => ite_kept (uniFault_kept ht ..) (ite_kept (groupFault_kept ht ..) (ite_kept (uniFault_kept ht ..)
    (putCtx_kept ht ..)))) ..

/-! ### Calls and reads of objects -/

theorem execRcall_leaves (o : CtlOp) : Leaves κ (execRcall o s) := by
  unfold execRcall
  exact coreOp_leaves hs (fun t _ _ _ ht => ite_kept (groupFault_kept ht ..) (terminate_kept ht ..)) ..

theorem execRread_leaves (o : LOp) : Leaves κ (execRread o s) := by
  unfold execRread
  refine coreOp_leaves hs (fun t _ _ _ ht => ite_kept (uniFault_kept ht ..) (putCtx_kept ?_ ..)) ..
  exact ht

theorem execRsync_leaves (o : LOp) : Leaves κ (execRsync o s) := by
  unfold execRsync
  exact waitOp_leaves hs (fun t _ _ _ ht => ite_kept (uniFault_kept ht ..) (putCtx_kept (acquire_kept ht ..) ..)) ..

theorem execRret_leaves (o : LOp) : Leaves κ (execRret o s) := by
  unfold execRret
  exact coreOp_leaves hs (fun t _ _ _ ht => ite_kept (groupFault_kept ht ..) (ite_kept (uniFault_kept ht ..) (putCtx_kept ht ..))) ..

theorem treeSee_kept (g : Group) (c : Ctx) (lane node base : Nat) : (treeSee s g c lane node base).kept κ := by
  unfold treeSee
  dsimp only
  split
  · exact seeLoad_kept (seeLoad_kept hs ..) ..
  · exact seeLoad_kept hs ..

theorem execTstep_leaves (o : LOp) : Leaves κ (execTstep o s) := by
  unfold execTstep
  refine waitOp_leaves hs (fun t _ _ _ ht => ite_kept (faultLanes_kept ht ..) ?_) ..
  dsimp only
  split
  · exact rejectCall_kept (ht.foldl _ (fun t _ ht => treeSee_kept ht ..)) ..
  · refine ite_kept (faultLanes_kept (ht.foldl _ (fun t _ ht => treeSee_kept ht ..)) ..) (ite_kept (groupFault_kept (ht.foldl _
      (fun t _ ht => treeSee_kept ht ..)) ..) (faultLanes_kept ?_ ..))
    refine State.kept.foldl (ht.foldl _ (fun t _ ht => treeSee_kept ht ..)) _ (fun t _ ht => ?_)
    split
    · exact l1Drop_kept ht ..
    · exact l1Drop_kept ht ..
    · exact ht

theorem execPdgset_leaves (o : LOp) : Leaves κ (execPdgset o s) := by
  unfold execPdgset
  exact laneOp_leaves hs _

theorem execPdgrd_leaves (o : LOp) : Leaves κ (execPdgrd o s) := by
  unfold execPdgrd
  exact laneOp_leaves hs _

theorem execDlog_leaves (o : LOp) : Leaves κ (execDlog o s) := by
  unfold execDlog
  exact coreOp_leaves hs (fun t _ _ _ ht => ite_kept (faultLanes_kept ht ..) (ite_kept (groupFault_kept ht ..) (ite_kept
    (faultLanes_kept ht ..) (putCtx_kept ht ..)))) ..

/-! ### Special registers -/

theorem execSysrd_leaves (o : LOp) : Leaves κ (execSysrd o s) := by
  unfold execSysrd
  exact laneOp_leaves hs _

theorem latchCycle_kept (o : LOp) : (latchCycle o s).kept κ := by
  unfold latchCycle
  split
  · exact hs
  · split
    · exact hs
    · exact ite_kept (setGroup_kept hs _) hs

theorem execSysrdCycle_leaves (o : LOp) : Leaves κ (execSysrdCycle o s) := by
  unfold execSysrdCycle
  exact laneOp_leaves (latchCycle_kept hs _) _

theorem syswrOp_leaves (o : LOp) (owned : List Nat) (zero : Word) (f : Word → Group → Node → Ctx → Group × Node × Ctx) :
    Leaves κ (syswrOp o owned zero f s) := by
  unfold syswrOp
  exact coreOp_leaves hs (fun t _ _ _ ht => ite_kept (uniFault_kept ht ..) (putCtx_kept ht ..)) ..

theorem execSyswrFmode_leaves (o : LOp) : Leaves κ (execSyswrFmode o s) := by
  unfold execSyswrFmode
  exact ite_leaves (syswrOp_leaves hs ..) (coreOp_leaves hs (fun t _ _ _ ht => uniFault_kept ht ..) ..)

theorem execSyswrFstat_leaves (o : LOp) : Leaves κ (execSyswrFstat o s) := by
  unfold execSyswrFstat
  exact syswrOp_leaves hs ..

theorem execSyswrSfrqPop_leaves (o : LOp) : Leaves κ (execSyswrSfrqPop o s) := by
  unfold execSyswrSfrqPop
  exact syswrOp_leaves hs ..

theorem execSyswrSfrqClearLost_leaves (o : LOp) : Leaves κ (execSyswrSfrqClearLost o s) := by
  unfold execSyswrSfrqClearLost
  exact syswrOp_leaves hs ..

theorem execSyswrPreempt_leaves (o : LOp) : Leaves κ (execSyswrPreempt o s) := by
  unfold execSyswrPreempt
  exact syswrOp_leaves hs ..

theorem execSyswrSavelo_leaves (o : LOp) : Leaves κ (execSyswrSavelo o s) := by
  unfold execSyswrSavelo
  exact syswrOp_leaves hs ..

theorem execSyswrSavehi_leaves (o : LOp) : Leaves κ (execSyswrSavehi o s) := by
  unfold execSyswrSavehi
  exact syswrOp_leaves hs ..

theorem execSyswrLdaerr_leaves (o : LOp) : Leaves κ (execSyswrLdaerr o s) := by
  unfold execSyswrLdaerr
  exact syswrOp_leaves hs ..

theorem execSavesplit_leaves : Leaves κ (execSavesplit s) := by
  unfold execSavesplit
  exact coreOp_leaves hs (fun t _ _ _ ht => ite_kept (putCtx_kept ht ..) (groupFault_kept ht ..)) ..

theorem execLoadsplit_leaves : Leaves κ (execLoadsplit s) := by
  unfold execLoadsplit
  -- the addresses of a tree's words stand as they are: nothing below may evaluate them
  obtain ⟨wordsOf, hwords⟩ : ∃ f, f = splitWords := ⟨_, rfl⟩
  rw [← hwords]
  refine waitOp_leaves hs (fun t g n c ht => ite_kept ?_ (groupFault_kept ht ..)) ..
  have h1 : ((wordsOf g).foldl (fun s a => seeLoad s g a 16 false) t).kept κ := ht.foldl _ fun t _ ht => seeLoad_kept ht ..
  dsimp only
  split
  · exact putCtx_kept (issueLoad_kept h1 ..) ..
  · exact uniFault_kept h1 ..
  · exact rejectCall_kept h1 ..

/-! ### Fragment trees, saved and loaded -/

theorem execFragmentSpillMove_leaves (g n : Nat) : Leaves κ (execFragmentSpillMove g n s) := by
  unfold execFragmentSpillMove
  split
  · exact hs
  · split
    · exact hs
    · refine ite_kept hs (ite_kept (setGroup_kept hs _) ?_)
      split
      · exact setGroup_kept hs _
      · exact hs

theorem addLeavings_kept (gid : Nat) (n : Node) (c : Ctx) (rejoin : Nat) (parent : Option Nat)
    (xs : List Leaving) : (addLeavings s gid n c rejoin parent xs).kept κ := by
  induction xs generalizing s with
  | nil => exact hs
  | cons x rest ih =>
    unfold addLeavings
    split
    · exact hs
    · refine ih ?_
      split
      · exact raiseService_kept hs ..
      · exact hs

theorem execRejoinFusion_leaves (g n : Nat) : Leaves κ (execRejoinFusion g n s) := by
  unfold execRejoinFusion
  split
  · exact hs
  · split
    · exact hs
    · refine ite_kept hs ?_
      dsimp only
      split
      · exact hs
      · exact setGroup_kept hs _

/-! ### Effects enter the pipeline -/

theorem onGroup_kept (uid : Nat) (f : Group → Group) : (onGroup s uid f).kept κ := by
  unfold onGroup
  split
  · exact setGroup_kept hs _
  · exact hs

theorem linkTail_kept (q : EngQ) (core addr : Nat) : (linkTail s q core addr).kept κ := by
  unfold linkTail
  split
  · exact spotWrite_kept hs ..
  · exact hs

theorem postEntry_kept (g : Group) (ref : QueueRef) (addr op : Nat) (body : List Byte) (counter : Nat) (members : List (Nat × LaneMask)) :
    (postEntry s g ref addr op body counter members).1.kept κ := by
  unfold postEntry
  split
  · exact hs
  · split
    · exact hs
    · dsimp only
      split
      · exact setPart_kept (spotWrite_kept (landOwn_kept (linkTail_kept hs ..) ..) ..) _
      · exact spotWrite_kept (landOwn_kept (linkTail_kept hs ..) ..) ..

theorem enterPost_kept (g : Group) (kind : QueueKind) (addr op : Nat) (body : List Byte) (d : Nat) (counted : Bool) :
    (enterPost s g kind addr op body d counted).kept κ := by
  unfold enterPost
  exact onGroup_kept (postEntry_kept hs ..) ..

theorem seeAck_kept (g : Group) (records : Nat) : (seeAck s g records).kept κ := by
  unfold seeAck
  split
  · exact ite_kept hs (seeSpan_kept hs ..)
  · exact hs

theorem appendLog_kept (g : Group) (c : Ctx) (e : Eff) (sealNum : Nat) (x : Elem) : (appendLog s g c e sealNum x).kept κ := by
  unfold appendLog
  split
  · exact hs
  · exact addItem_kept (setPart_kept hs _) _

theorem enterRing_kept (g : Group) (attach cons bench : Bool) (addr : Nat) : (enterRing s g attach cons bench addr).kept κ := by
  unfold enterRing
  exact ite_kept hs (ite_kept (rejectCall_kept hs ..) (ite_kept (ringCount_kept (setGroup_kept hs _) ..) (sendRing_kept
    (setGroup_kept hs _) ..)))

theorem detachAll_kept (g : Group) : (detachAll s g).kept κ := by
  unfold detachAll
  exact hs.foldl _ fun t _ ht => sendRing_kept ht ..

theorem requestPreempt_kept (g : Group) (serial : Word) : (requestPreempt s g serial).kept κ := by
  unfold requestPreempt
  split
  · split
    · exact setGroup_kept hs _
    · exact ite_kept (setGroup_kept (setLaunch_kept hs _) _) (setGroup_kept hs _)
    · exact setGroup_kept hs _
  · exact setGroup_kept hs _

theorem enterSysw_kept (g : Group) (r : CommitReg) (v : Word) : (enterSysw s g r v).kept κ := by
  unfold enterSysw
  split
  · exact setGroup_kept hs _
  · exact setGroup_kept hs _
  · exact setGroup_kept hs _
  · exact requestPreempt_kept hs ..

theorem latchFault_kept (g : Group) (n : Node) (c : Ctx) (ix code : Nat) : (latchFault s g n c ix code).kept κ := by
  unfold latchFault
  exact faultLanes_kept hs ..

theorem breakLatch_kept (g : Group) (pick : Group → Bool) : (breakLatch s g pick).kept κ := by
  unfold breakLatch
  refine hs.foldl _ fun t _ ht => ?_
  split
  · split
    · split
      · exact latchFault_kept ht ..
      · exact ht
    · exact ht
  · exact ht

theorem enterGang_kept (g : Group) (v : Word) : (enterGang s g v).kept κ := by
  unfold enterGang
  exact ite_kept hs (breakLatch_kept (setGroup_kept hs _) ..)

theorem writeContext_kept (g : Group) (addr st : Nat) : (writeContext s g addr st).kept κ := by
  unfold writeContext
  split
  · exact hwWrite_kept hs ..
  · exact hs

theorem endGroup_kept (uid : Nat) : (endGroup s uid).kept κ := by
  unfold endGroup
  split
  · exact hs
  · next g _ =>
    refine ite_kept (setGroup_kept hs _) (wkgMaybeEnd_kept ?_ ..)
    have h2 : (breakLatch (detachAll s g) g fun h => h.uid != uid && gangHas h.gang g.gid).kept κ :=
      breakLatch_kept (detachAll_kept hs _) ..
    have h3 := h2.map_wkgs (f := fun w => { w with saves := w.saves.filter (fun x => x.uid != uid) }) fun _ => rfl
    split
    · next w hw =>
      refine ite_kept (writeContext_kept (setWkg_kept ?_ ?_) ..) h3
      · exact h3
      · exact h3.wkgs w (List.mem_of_find?_eq_some hw)
    · exact h3

theorem killGroup_kept (uid nix : Nat) : (killGroup s uid nix).kept κ := by
  unfold killGroup
  split
  · exact hs
  · exact endGroup_kept (hs.foldl _ (fun t _ ht => rollBack_kept ht ..)) _

theorem maybeEnd_kept (uid : Nat) (saver : Bool) : (maybeEnd s uid saver).kept κ := by
  unfold maybeEnd
  split
  · exact ite_kept hs (endGroup_kept hs _)
  · exact hs

theorem methodElem_kept (g : Group) (op : EffOp) (x : Elem) : (methodElem s g op x).kept κ := by
  have h1 : (seeWalk s g.core g.die g.part x.addr).kept κ := seeWalk_kept hs ..
  have h2 (pa n : Nat) : (seeSpan (seeWalk s g.core g.die g.part x.addr) g.die pa n (some g.part) g.coreNo).kept κ := seeSpan_kept h1 ..
  have hwrite {t : State} (ht : t.kept κ) (pa n : Nat) (d : List Byte) : (pwrite (journalled t g pa n) pa d).kept κ :=
    pwrite_kept (journalled_kept ht ..) ..
  unfold methodElem
  refine ite_kept (rejectCall_kept h1 ..) ?_
  split
  · exact rejectCall_kept h1 ..
  · refine ite_kept (rejectCall_kept h1 ..) ?_
    split
    · refine ite_kept (rejectCall_kept (h2 ..) ..) (ite_kept (rejectCall_kept (h2 ..) ..) (ite_kept (ite_kept ?_ ?_) ?_))
      · exact onGroup_kept (onGroup_kept (hwrite (h2 ..) ..) ..) ..
      · exact onGroup_kept (hwrite (h2 ..) ..) ..
      · exact hwrite (h2 ..) ..
    · exact hwrite h1 ..

theorem seeSavesplit_kept (g : Group) : (seeSavesplit s g).kept κ := by
  unfold seeSavesplit
  exact hs.foldl _ fun t _ ht => seeWalk_kept ht ..

theorem enterEff_kept {mma : State → Group → Eff → State}
    (hm : ∀ t g e, t.kept κ → (mma t g e).kept κ) (c : Ctx) (n : Node) (g : Group) (e : Eff) : (enterEff mma c n s g e).kept κ := by
  have hfold (op : EffOp) (xs : List Elem) : (xs.foldl (fun s x => methodElem s g op x) s).kept κ :=
    hs.foldl _ fun t _ ht => methodElem_kept ht ..
  unfold enterEff
  -- the elements of a saved tree stand as they are: nothing below may evaluate them
  obtain ⟨elemsOf, helems⟩ : ∃ f, f = savesplitElems := ⟨_, rfl⟩
  rw [← helems]
  obtain ⟨ix, op, elems⟩ := e
  cases op with
  | store => exact ite_kept hs (ite_kept (hfold ..) (onGroup_kept (addItem_kept hs _) ..))
  | atomic => exact ite_kept hs (ite_kept (hfold ..) (ite_kept (addItem_kept hs _) (addItem_kept hs _)))
  | post => exact enterPost_kept hs ..
  | mma => exact hm _ _ _ hs
  | lda => exact ite_kept hs (onGroup_kept (addItem_kept hs _) ..)
  | dlog => exact hs.foldl _ fun t _ ht => appendLog_kept ht ..
  | spawn => exact hs
  | release => exact hs
  | fence => exact tidy_kept (addItem_kept hs _)
  | icinv => exact tidy_kept (addItem_kept hs _)
  | sysw => exact enterSysw_kept hs ..
  | gang => exact enterGang_kept hs ..
  | ring => exact enterRing_kept hs ..
  | savesplit =>
    dsimp only
    split
    · exact onGroup_kept (addItem_kept (seeSavesplit_kept hs g) _) ..
    · exact addFatal_kept (seeSavesplit_kept hs g) ..
  | loadsplit => exact hs
  | rret => exact hs

theorem enterLate_kept (c : Ctx) (g : Group) (e : Eff) : (enterLate c s g e).kept κ := by
  unfold enterLate
  dsimp only
  split
  · exact addItem_kept hs _
  · exact ite_kept hs (addItem_kept hs _)
  · exact hs

theorem eachEff_kept {f : State → Group → Eff → State} (hf : ∀ t g e, t.kept κ → (f t g e).kept κ)
    (c : Ctx) (uid : Nat) : (eachEff f c uid s).kept κ := by
  refine hs.foldl _ fun t x ht => ?_
  split
  · exact hf _ _ _ ht
  · exact ht

/-! ### The end of groups and clusters -/

theorem readTermcnt_kept (die : Nat) (p : Partition) : (readTermcnt s die p).2.kept κ := by
  unfold readTermcnt
  dsimp only
  split
  · exact seeSpan_kept hs ..
  · exact fresh_kept (seeSpan_kept hs ..)

theorem termRecord_kept (w : Workgroup) (c : EndCause) : (termRecord s w c).kept κ := by
  unfold termRecord
  split
  · exact hs
  · exact signal_kept (hwWrite_kept (hwWrite_kept (readTermcnt_kept hs ..) ..) ..) _

theorem rollBackAll_kept (uid : Nat) : (rollBackAll s uid).kept κ := by
  unfold rollBackAll
  split
  · exact hs
  · exact hs.foldl _ fun t _ ht => rollBack_kept ht ..

theorem detachSaved_kept (w : Workgroup) (x : Saved) : (detachSaved s w x).kept κ := by
  unfold detachSaved
  exact hs.foldl _ fun t _ ht => sendRing_kept ht ..

theorem endResident_kept (w : Workgroup) (uid : Nat) : (endResident w s uid).kept κ := by
  unfold endResident
  split
  · exact ite_kept (writeContext_kept (detachAll_kept hs _) ..) (detachAll_kept hs _)
  · exact hs

theorem endSaved_kept (w : Workgroup) (x : Saved) : (endSaved w s x).kept κ := by
  unfold endSaved
  exact ite_kept (writeContext_kept (detachSaved_kept hs ..) ..) (detachSaved_kept hs ..)

theorem endWkg_kept (w : Workgroup) (c : EndCause) : (endWkg s w c).kept κ := by
  have h1 : (((s.groups.filter (inWkg w)).map (·.uid)).foldl rollBackAll s).kept κ := hs.foldl _ fun t _ ht => rollBackAll_kept ht _
  have h2 := h1.foldl (f := endResident w) ((s.groups.filter (inWkg w)).map (·.uid)) fun t _ ht => endResident_kept ht ..
  have h3 := h2.foldl (f := endSaved w) (w.saves.filter fun x => !((s.groups.filter (inWkg w)).map (·.uid)).contains x.uid)
    fun t _ ht => endSaved_kept ht ..
  unfold endWkg
  refine termRecord_kept ?_ ..
  split
  · next y hy => exact ite_kept (Kept.filter_wkgs h3 _) (leaveRemains_kept h3 (State.kept.found h3 hy))
  · exact h3

theorem markFatal_kept (part : Nat) (serial : Word) : (markFatal s part serial).kept κ := by
  unfold markFatal
  split
  · exact setLaunch_kept hs _
  · exact hs

theorem failRestore_kept (part : Nat) (serial : Word) : (failRestore s part serial).kept κ := by
  unfold failRestore
  exact hs.foldl _ fun t _ ht => endWkg_kept ht ..

theorem stopQueues_kept (part : Nat) : (stopQueues s part).kept κ := by
  unfold stopQueues
  split
  · exact hs
  · exact hs.foldl _ fun t _ ht => endVisit_kept (parkQueue_kept ht ..) ..

theorem execClusterTermination_leaves (clu : Nat) : Leaves κ (execClusterTermination clu s) := by
  unfold execClusterTermination
  split
  · exact hs
  · refine ite_kept (hs.foldl _ (fun t _ ht => rollBackAll_kept ht _)) (State.kept.foldl ?_ _ (fun t _ ht => stopQueues_kept ht _))
    exact State.kept.foldl (hs.foldl _ (fun t _ ht => rollBackAll_kept ht _)) _ (fun t _ ht => markFatal_kept (endWkg_kept ht ..) ..)

/-! ### Commits, latches, barriers and rings -/

theorem onTrace_kept {f : State → Group → Node → Ctx → State}
    (hf : ∀ t g n c, t.kept κ → (f t g n c).kept κ) (uid nix : Nat) : (onTrace s uid nix f).kept κ := by
  unfold onTrace
  split
  · exact hf _ _ _ _ hs
  · exact hs

theorem faultsAt_kept (g : Group) (n : Node) (c : Ctx) (ix : Nat) (fs : List (Nat × Nat)) : (faultsAt s g n c ix fs).kept κ := by
  unfold faultsAt
  exact faultLanes_kept hs ..

theorem checkEff_kept (g : Group) (n : Node) (c : Ctx) (k : Nat) : (checkEff s g n c k).kept κ := by
  unfold checkEff
  split
  · exact hs
  · exact ite_kept hs (faultsAt_kept (hs.foldl _ (fun t _ ht => seeWalk_kept ht ..)) ..)

theorem checkTrace_kept (uid nix : Nat) : (checkTrace s uid nix).kept κ := by
  unfold checkTrace
  split
  · exact hs
  · exact ite_kept (hs.foldl _ (fun t _ ht => onTrace_kept ht (fun t _ _ _ ht => checkEff_kept ht ..) ..)) hs

theorem checkWindow_kept (uid nix : Nat) : (checkWindow s uid nix).kept κ := by
  unfold checkWindow
  exact onTrace_kept hs (fun t _ _ _ ht => ite_kept ht (faultsAt_kept ht ..)) ..

theorem checkPark_kept (uid nix : Nat) : (checkPark s uid nix).kept κ := by
  unfold checkPark
  exact onTrace_kept hs (fun t _ _ _ ht => ite_kept (rejectCall_kept ht ..) ht) ..

theorem beforeCommit_kept (uid nix : Nat) : (beforeCommit s uid nix).kept κ := by
  unfold beforeCommit
  exact checkPark_kept (checkWindow_kept (checkTrace_kept hs ..) ..) ..

theorem leaveLanes_kept (uid nix : Nat) (mask : LaneMask) : (leaveLanes s uid nix mask).kept κ := by
  unfold leaveLanes
  exact onTrace_kept hs (fun t _ _ _ ht => addLeavings_kept (setGroup_kept (voidSlots_kept ht ..) _) ..) ..

theorem commitNone_kept (uid nix : Nat) (saver : Bool) : (commitNone s uid nix saver).kept κ := by
  unfold commitNone
  exact maybeEnd_kept (onGroup_kept (leaveLanes_kept (onTrace_kept hs (fun t _ _ _ ht => setGroup_kept ht _) ..) ..) ..) ..

theorem commitLanes_kept (uid nix : Nat) : (commitLanes s uid nix).kept κ := by
  unfold commitLanes
  dsimp only
  split
  · exact onTrace_kept hs (fun t _ _ _ ht => putCtx_kept ht ..) ..
  · exact onTrace_kept (leaveLanes_kept (onTrace_kept hs (fun t _ _ _ ht => putCtx_kept ht ..) ..) ..)
      (fun t _ _ _ ht => putCtx_kept ht ..) ..

theorem enterTrace_kept {mma : State → Group → Eff → State}
    (hm : ∀ t g e, t.kept κ → (mma t g e).kept κ) (uid nix : Nat) : (enterTrace mma s uid nix).kept κ := by
  unfold enterTrace
  split
  · exact eachEff_kept hs (fun t _ _ ht => enterEff_kept ht (fun t _ _ ht => hm _ _ _ ht) ..) ..
  · exact hs

theorem enterTraceLate_kept (uid nix : Nat) : (enterTraceLate s uid nix).kept κ := by
  unfold enterTraceLate
  split
  · exact eachEff_kept hs (fun t _ _ ht => enterLate_kept ht ..) ..
  · exact hs

theorem deliver_kept (g : Group) (n : Node) (kind ix : Nat) : (deliver s g n kind ix).kept κ := by
  unfold deliver
  exact setGroup_kept hs _

theorem returnLanes_kept (g : Group) (n : Node) (kind : Nat) : (returnLanes s g n kind).kept κ := by
  unfold returnLanes
  split
  · exact hs
  · exact setGroup_kept hs _

theorem goOn_kept (g : Group) (n : Node) (kind ix target : Nat) (flow : Option Flow) : (goOn s g n kind ix target flow).kept κ := by
  unfold goOn
  refine ite_kept (deliver_kept hs ..) ?_
  split
  · exact setGroup_kept hs _
  · exact returnLanes_kept hs ..
  · exact setGroup_kept hs _

theorem completeSync_kept (uid nix : Nat) : (completeSync s uid nix).kept κ := by
  unfold completeSync
  split
  · exact hs
  · split
    · exact hs
    · exact goOn_kept hs ..

theorem putBar_kept (g : Group) (cluster : Bool) (b : Barrier) : (putBar s g cluster b).kept κ := by
  unfold putBar
  refine ite_kept ?_ ?_
  · split
    · exact setLaunch_kept hs _
    · exact hs
  · split
    · next w hw => exact setWkg_kept hs (hs.found hw :)
    · exact hs

theorem arriveBar_kept (uid nix : Nat) (cluster : Bool) (num : Nat) : (arriveBar s uid nix cluster num).kept κ := by
  unfold arriveBar
  split
  · exact hs
  · dsimp only
    split
    · exact setGroup_kept (putBar_kept hs ..) _
    · exact putBar_kept hs ..

theorem performSync_kept (uid : Nat) (n : Node) : (performSync s uid n).kept κ := by
  unfold performSync
  split
  · exact arriveBar_kept hs ..
  · exact hs

theorem resumeGroup_kept (uid : Nat) : (resumeGroup s uid).kept κ := by
  unfold resumeGroup
  split
  · exact hs
  · dsimp only
    split
    · exact failRestore_kept hs ..
    · refine maybeEnd_kept (State.kept.foldl ?_ _ (fun t _ ht => performSync_kept ht ..)) ..
      exact Kept.map_wkgs (onGroup_kept (rollBackAll_kept hs _) ..) fun _ => rfl

theorem exitLanes_kept (uid nix : Nat) (saver : Bool) : (exitLanes s uid nix saver).kept κ := by
  unfold exitLanes
  exact maybeEnd_kept (onGroup_kept hs ..) ..

theorem sendCall_kept (g : Group) (n : Node) (obj method : Nat) (tag : Word) (args : List Word) :
    (sendCall s g n obj method tag args).kept κ := by
  unfold sendCall
  split
  · exact hs
  · exact setPart_kept hs _

theorem finishTerm_kept (g : Group) (n : Node) (c : Ctx) : (finishTerm s g n c).kept κ := by
  unfold finishTerm
  dsimp only
  split
  · exact goOn_kept hs ..
  · exact goOn_kept hs ..
  · exact ite_kept (setGroup_kept hs _) (goOn_kept hs ..)
  · exact ite_kept (resumeGroup_kept hs _) (ite_kept hs (ite_kept (deliver_kept hs ..) (exitLanes_kept hs ..)))
  · exact arriveBar_kept (setGroup_kept hs _) ..
  · exact setGroup_kept hs _
  · exact setGroup_kept hs _
  · exact sendCall_kept (setGroup_kept hs _) ..
  · exact hs

theorem afterCommit_kept (uid nix : Nat) : (afterCommit s uid nix).kept κ := by
  unfold afterCommit
  refine onTrace_kept hs (fun t _ _ _ ht => ?_) ..
  split
  · exact ht
  · refine ite_kept ht ?_
    dsimp only
    split
    · refine killGroup_kept (ite_kept ?_ ht) ..
      exact ht
    · refine onGroup_kept (rollBackAll_kept (ite_kept ?_ ht) _) ..
      exact ht
    · refine finishTerm_kept (ite_kept ?_ ht) ..
      exact ht

theorem arriveLatch_kept (g : Group) (n : Node) (c : Ctx) : (arriveLatch s g n c).kept κ := by
  unfold arriveLatch
  refine ite_kept (latchFault_kept hs ..) (breakLatch_kept (putCtx_kept ?_ ..) ..)
  exact hs

theorem claimEndx_some {t : State} {uid nix : Nat} (h : claimEndx s uid nix = some t) : t.kept κ := by
  unfold claimEndx at h
  split at h
  · split at h
    · dsimp only at h
      split at h
      · cases h
      · exact Option.some.inj h ▸ hs.foldl _ fun t _ ht => rollBack_kept ht ..
    · exact Option.some.inj h ▸ hs
  · exact Option.some.inj h ▸ hs

theorem execTraceCommit_leaves (g n : Nat) : Leaves κ (execTraceCommit g n s) := by
  unfold execTraceCommit
  unfold Leaves
  dsimp only
  split
  · exact hs
  · refine ite_kept hs (ite_kept (afterCommit_kept hs ..) (ite_kept hs ?_))
    split
    · exact hs
    · next s0 h0 =>
      have h1 (gr : Group) (k : Nat) : (seeAck (beforeCommit s0 g n) gr k).kept κ := seeAck_kept (beforeCommit_kept
        (claimEndx_some hs h0) ..) ..
      split
      · exact h1 ..
      · exact ite_kept (h1 ..) (ite_kept (commitNone_kept (h1 ..) ..) (ite_kept (arriveLatch_kept (h1 ..) ..)
          (afterCommit_kept (commitLanes_kept (enterTraceLate_kept (enterTrace_kept (h1 ..) (fun _ _ _ ht => ht) ..) ..) ..) ..)))

theorem postJoint_kept (js : List Arrival) (g : Group) : (postJoint js s g).kept κ := by
  unfold postJoint
  exact State.kept.foldl (postEntry_kept hs ..) _ fun t _ ht => onGroup_kept ht ..

theorem voteFault_kept (code : Nat) (j : Arrival) : (voteFault code s j).kept κ := by
  unfold voteFault
  exact onTrace_kept hs (fun t _ _ _ ht => latchFault_kept ht ..) ..

/-- Claims made one after another. -/
theorem claims_some (ws : List (Nat × Nat × Nat × Ctx)) {t : State}
    (h : ws.foldl (fun (t : Option State) w => t.bind fun s => claimEndx s w.2.1 w.2.2.1) (some s) = some t) : t.kept κ := by
  refine foldl_inv (fun o : Option State => ∀ t, o = some t → t.kept κ) _ (fun o w ho t ht => ?_) ws (some s) ?_ t h
  · obtain ⟨s', hs', hc⟩ := Option.bind_eq_some_iff.mp ht
    exact claimEndx_some (ho s' hs') hc
  · rintro t ⟨⟩
    exact hs

theorem execGangwayLatchOpen_leaves (g : Nat) : Leaves κ (execGangwayLatchOpen g s) := by
  unfold execGangwayLatchOpen
  unfold Leaves
  dsimp only
  split
  · exact hs
  · split
    · exact hs
    · exact hs.foldl _ fun t _ ht => voteFault_kept ht ..
    · split
      · exact hs.foldl _ fun t _ ht => voteFault_kept ht ..
      · refine ite_kept hs ?_
        split
        · exact hs
        · next s0 h0 =>
          have h1 := claims_some hs _ h0
          refine State.kept.foldl (State.kept.foldl (h1.foldl _ fun t w ht => ?_) _ fun t w ht => ?_) _ fun t w ht => ?_
          · refine onTrace_kept ht (fun _ _ _ _ ht => ?_) ..
            exact ht
          · refine commitLanes_kept (enterTraceLate_kept (enterTrace_kept ht (fun t g e ht => ?_) ..) ..) ..
            split
            · exact postJoint_kept ht ..
            · exact ht
          · exact afterCommit_kept ht ..

/-! ### Loads return -/

theorem returnLoad_kept (g : Group) (n : Node) (c : Ctx) (l : Load) : (returnLoad s g n c l).kept κ := by
  unfold returnLoad
  exact faultLanes_kept hs ..

theorem execLoadDataReturn_leaves (g id : Nat) (e : LineError) : Leaves κ (execLoadDataReturn g id e s) := by
  unfold execLoadDataReturn
  split
  · exact hs
  · split
    · exact hs
    · split
      · exact hs
      · dsimp only
        split
        · refine returnLoad_kept (State.kept.foldl ?_ _ (fun t _ ht => seeSpan_kept ht ..)) ..
          split
          · exact hs
          · exact setFlaw_kept hs ..
        · refine State.kept.foldl ?_ _ (fun t _ ht => seeSpan_kept ht ..)
          split
          · exact hs
          · exact setFlaw_kept hs ..

theorem execBarrierComplete_leaves (b : BarrierRef) : Leaves κ (execBarrierComplete b s) := by
  unfold execBarrierComplete
  split
  · exact hs
  · exact ite_kept hs (State.kept.foldl (State.kept.foldl (putBar_kept hs ..) _ (fun t _ ht => acquire_kept ht ..)) _
      (fun t _ ht => completeSync_kept ht ..))

theorem ringStatus_kept (g : Group) (n : Node) (pd : Nat) (x : Pred) : (ringStatus s g n pd x).kept κ := by
  unfold ringStatus
  exact completeSync_kept (setGroup_kept hs _) ..

theorem execRingPush_leaves (g n : Nat) : Leaves κ (execRingPush g n s) := by
  unfold execRingPush
  split
  · split
    · exact ite_kept hs (ite_kept (ringStatus_kept (seeSpot_kept hs ..) ..) (ite_kept (seeSpot_kept hs ..) (ite_kept (seeSpot_kept hs ..)
        (ringStatus_kept (spotWrite_kept (spotWrite_kept (seeSpot_kept hs ..) ..) ..) ..))))
    · exact hs
  · exact hs

theorem execRingPop_leaves (g n : Nat) : Leaves κ (execRingPop g n s) := by
  unfold execRingPop
  split
  · split
    · exact ite_kept hs (ite_kept (ringStatus_kept (seeSpot_kept hs ..) ..) (ite_kept (ite_kept (ringStatus_kept (acquire_kept
        (seeSpot_kept hs ..) ..) ..) (seeSpot_kept hs ..)) (ite_kept (seeSpot_kept hs ..) (ite_kept (ringStatus_kept (seeSpot_kept
        (seeSpot_kept hs ..) ..) ..) (ringStatus_kept (spotWrite_kept (acquire_kept (seeSpot_kept (seeSpot_kept hs ..) ..) ..) ..) ..)))))
    · exact hs
  · exact hs

end Keeps

end Sys2Proof.Machine
end

section
/-! PROOFS. What a step keeps: Ferry, registers, links, engines, objects and launches. -/
namespace Sys2Proof.Machine

section Keeps
variable {s : State} {κ : Cur} (hs : s.kept κ)
include hs

/-! ### Ferry commands -/

theorem ringFail_kept (w addr : Nat) : (ringFail s w addr).kept κ := by
  unfold ringFail
  exact writeErrTo_kept (setWin_kept hs ..) ..

theorem complete_kept (w : Nat) (d : FerryDesc) (status detail : Nat) : (complete s w d status detail).kept κ := by
  unfold complete
  exact ite_kept (setWin_kept hs ..) (ite_kept (ite_kept (signal_kept (setWin_kept (hwrite_kept hs ..) ..) _) (setWin_kept
    (hwrite_kept hs ..) ..)) (ringFail_kept (setWin_kept hs ..) ..))

theorem completeOpen_kept (w : Nat) (d : FerryDesc) (status : Nat) : (completeOpen s w d status).kept κ := by
  unfold completeOpen
  refine complete_kept ?_ ..
  exact hs

theorem waitCmd_kept (w : Nat) (d : FerryDesc) (progress : Nat) : (waitCmd s w d progress).kept κ := by
  unfold waitCmd
  exact setWin_kept hs ..

theorem ferryCmd_leaves {go : State → State} (hf : ∀ t, t.kept κ → (go t).kept κ) (w : Nat)
    (d : FerryDesc) (place : Where) (used : Nat → Bool) (extraBad : Bool) : Leaves κ (ferryCmd w d place used extraBad go s) := by
  unfold ferryCmd
  exact ite_kept (completeOpen_kept hs ..) (ite_kept (completeOpen_kept hs ..) (ite_kept (completeOpen_kept hs ..) (hf _ hs)))

theorem seePages_kept (w va n : Nat) : (seePages s w va n).kept κ := by
  unfold seePages
  exact ite_kept hs (hs.foldl _ (fun t _ ht => seeWalk_kept ht ..))

theorem writeUnit_kept (h pa n : Nat) : (writeUnit s h pa n).kept κ := by
  unfold writeUnit
  exact ite_kept (pwriteLong_kept hs ..) hs

theorem readUnit_kept (w h pa n : Nat) : (readUnit s w h pa n).kept κ := by
  unfold readUnit
  exact ite_kept (seeSpan_kept hs ..) (hwrite_kept (seeSpan_kept hs ..) ..)

theorem moveUnit_kept (w : Nat) (d : FerryDesc) (write : Bool) (k : Nat) : (moveUnit s w d write k).kept κ := by
  unfold moveUnit
  split
  · exact completeOpen_kept hs ..
  · exact ite_kept hs (ite_kept (completeOpen_kept hs ..) (ite_kept (completeOpen_kept (ite_kept (writeUnit_kept hs ..)
      (readUnit_kept hs ..)) ..) (waitCmd_kept (ite_kept (writeUnit_kept hs ..) (readUnit_kept hs ..)) ..)))

theorem beginMove_kept (w : Nat) (d : FerryDesc) (ps : List (Nat × Nat)) : (beginMove s w d ps).kept κ := by
  unfold beginMove
  exact setWin_kept hs ..

theorem execFerryWrite_leaves (w : Nat) (d : FerryDesc) : Leaves κ (execFerryWrite w d s) := by
  unfold execFerryWrite
  split
  · exact moveUnit_kept hs ..
  · refine ferryCmd_leaves hs (fun t ht => ite_kept (completeOpen_kept ht ..) ?_) ..
    dsimp only
    split
    · exact complete_kept (seePages_kept ht ..) ..
    · exact ite_kept (completeOpen_kept (seePages_kept ht ..) ..) (beginMove_kept (seePages_kept ht ..) ..)

theorem execFerryRead_leaves (w : Nat) (d : FerryDesc) : Leaves κ (execFerryRead w d s) := by
  unfold execFerryRead
  split
  · exact moveUnit_kept hs ..
  · refine ferryCmd_leaves hs (fun t ht => ite_kept (completeOpen_kept ht ..) ?_) ..
    dsimp only
    split
    · exact complete_kept (seePages_kept ht ..) ..
    · exact beginMove_kept (seePages_kept ht ..) ..

theorem seeTail_kept (p : Partition) (x : Queue) : (seeTail s p x).kept κ := by
  unfold seeTail
  exact ite_kept (seeSpan_kept hs ..) hs

theorem execFerryTail_leaves (w : Nat) (d : FerryDesc) : Leaves κ (execFerryTail w d s) := by
  unfold execFerryTail
  refine ferryCmd_leaves hs (fun t ht => ?_) ..
  split
  · exact completeOpen_kept ht ..
  · split
    · exact completeOpen_kept ht ..
    · dsimp only
      split
      · exact completeOpen_kept (seeTail_kept ht ..) ..
      · exact ite_kept (completeOpen_kept (seeTail_kept ht ..) ..) (completeOpen_kept (writeDesc_kept (putQueue_kept
          (seeTail_kept ht ..) ..) ..) ..)

theorem execFerryRearm_leaves (w : Nat) (d : FerryDesc) : Leaves κ (execFerryRearm w d s) := by
  unfold execFerryRearm
  refine ferryCmd_leaves hs (fun t ht => ?_) ..
  split
  · exact completeOpen_kept ht ..
  · split
    · exact completeOpen_kept ht ..
    · refine ite_kept (complete_kept (putQueue_kept (putQueue_kept ht ..) ..) ..) (ite_kept (waitCmd_kept ht ..) ?_)
      dsimp only
      split
      · exact complete_kept (seeReload_kept (putQueue_kept ht ..) ..) ..
      · exact complete_kept (putQueue_kept (seeReload_kept (putQueue_kept ht ..) ..) ..) ..

theorem ferrySubmit_kept (w : Nat) (d : FerryDesc) (r : List Byte) : (ferrySubmit s w d r).kept κ := by
  unfold ferrySubmit
  split
  · exact completeOpen_kept hs ..
  · dsimp only
    split
    · split
      · exact waitCmd_kept (seeLaunch_kept hs ..) ..
      · exact complete_kept (acceptLaunch_kept (seeLaunch_kept hs ..) ..) ..
    · exact complete_kept (seeLaunch_kept hs ..) ..

theorem execFerryLaunch_leaves (w : Nat) (d : FerryDesc) : Leaves κ (execFerryLaunch w d s) := by
  unfold execFerryLaunch
  exact ite_leaves (ferrySubmit_kept hs ..) (ferryCmd_leaves hs (fun t ht => ite_kept (ferrySubmit_kept ht ..)
    (completeOpen_kept ht ..)) ..)

theorem dropTlb_kept (part va len : Nat) : (dropTlb s part va len).kept κ := by
  unfold dropTlb
  exact hs

theorem execInval_leaves (w : Nat) (d : FerryDesc) : Leaves κ (execInval w d s) := by
  unfold execInval
  split
  · exact ite_kept hs (completeOpen_kept hs ..)
  · exact ferryCmd_leaves hs (fun t ht => ite_kept (completeOpen_kept ht ..) (ite_kept (setWin_kept (ht.foldl _
      (fun t _ ht => dropTlb_kept ht ..)) ..) (completeOpen_kept (ht.foldl _ (fun t _ ht => dropTlb_kept ht ..)) ..))) ..

theorem dropL1Range_kept (pa n : Nat) : (dropL1Range s pa n).kept κ := by
  unfold dropL1Range
  exact hs

theorem setSealedBits_kept (p : Partition) (base pages va : Nat) : (setSealedBits s p base pages va).kept κ := by
  unfold setSealedBits
  refine hs.foldl _ fun t _ ht => ?_
  split
  · exact ht
  · exact ite_kept ht (hwWrite_kept ht ..)

theorem setSeal_kept (part k : Nat) (r : SealReg) : (setSeal s part k r).kept κ := by
  unfold setSeal
  split
  · exact setPart_kept hs _
  · exact hs

theorem freeDigest_kept : (freeDigest s).2.kept κ := by
  unfold freeDigest
  refine foldl_inv (fun x : List Byte × State => x.2.kept κ) _ (fun x _ hx => ?_) _ ([], s) hs
  exact fresh_kept hx

theorem sealDigest_kept (part base n : Nat) : (sealDigest s part base n).2.kept κ := by
  unfold sealDigest
  dsimp only
  split
  · exact freeDigest_kept (seeSpan_kept hs ..)
  · exact seeSpan_kept hs ..

theorem sealStep_kept (w : Nat) (d : FerryDesc) (k : Nat) (digested : Bool) : (sealStep s w d k digested).kept κ := by
  unfold sealStep
  split
  · exact completeOpen_kept hs ..
  · exact ite_kept (ite_kept (complete_kept (setSealedBits_kept (setSeal_kept hs ..) ..) ..) (waitCmd_kept hs ..)) (ite_kept
      (waitCmd_kept hs ..) (waitCmd_kept (dropL1Range_kept (setSeal_kept (sealDigest_kept hs ..) ..) ..) ..))

theorem execSealRange_leaves (w : Nat) (d : FerryDesc) : Leaves κ (execSealRange w d s) := by
  unfold execSealRange
  split
  · exact sealStep_kept hs ..
  · refine ferryCmd_leaves hs (fun t ht => ?_) ..
    split
    · exact completeOpen_kept ht ..
    · refine ite_kept (completeOpen_kept ht ..) ?_
      dsimp only
      split
      · exact complete_kept (ht.foldl _ (fun t _ ht => seeWalk_kept ht ..)) ..
      · refine ite_kept (completeOpen_kept (ht.foldl _ (fun t _ ht => seeWalk_kept ht ..)) ..) ?_
        split
        · exact completeOpen_kept (ht.foldl _ (fun t _ ht => seeWalk_kept ht ..)) ..
        · refine waitCmd_kept ?_ ..
          exact setSeal_kept (ht.foldl _ (fun t _ ht => seeWalk_kept ht ..)) ..

theorem execBudget_leaves (w : Nat) (d : FerryDesc) : Leaves κ (execBudget w d s) := by
  unfold execBudget
  refine ferryCmd_leaves hs (fun t ht => ?_) ..
  split
  · exact complete_kept ht ..
  · exact completeOpen_kept (setPart_kept ht _) ..

theorem execModeset_leaves (w : Nat) (d : FerryDesc) : Leaves κ (execModeset w d s) := by
  unfold execModeset
  refine ferryCmd_leaves hs (fun t ht => ?_) ..
  split
  · exact complete_kept ht ..
  · exact completeOpen_kept (setPart_kept ht _) ..

theorem execThresh_leaves (w : Nat) (d : FerryDesc) : Leaves κ (execThresh w d s) := by
  unfold execThresh
  refine ferryCmd_leaves hs (fun t ht => ite_kept (completeOpen_kept ht ..) (completeOpen_kept ?_ ..)) ..
  exact ht

theorem execPcreate_leaves (w : Nat) (d : FerryDesc) : Leaves κ (execPcreate w d s) := by
  refine ferryCmd_leaves hs (fun t ht => ite_kept (completeOpen_kept ht ..) ?_) ..
  dsimp only
  split
  · refine ite_kept (completeOpen_kept ht ..) (completeOpen_kept ?_ ..)
    exact ht
  · exact complete_kept ht ..

theorem execFerryBadop_leaves (w : Nat) (d : FerryDesc) : Leaves κ (execFerryBadop w d s) := by
  unfold execFerryBadop
  exact completeOpen_kept hs ..

/-! ### Window registers -/

theorem badRing_kept (w : Nat) : (badRing s w).kept κ := by
  unfold badRing
  exact setWin_kept hs ..

theorem execCmdtailWrite_leaves (w : Nat) (v : DWord) : Leaves κ (execCmdtailWrite w v s) := by
  unfold execCmdtailWrite
  exact ite_kept (badRing_kept hs _) (setWin_kept hs ..)

theorem execCplheadWrite_leaves (w : Nat) (v : DWord) : Leaves κ (execCplheadWrite w v s) := by
  unfold execCplheadWrite
  exact ite_kept (badRing_kept hs _) (setWin_kept hs ..)

theorem execEvheadWrite_leaves (w : Nat) (v : DWord) : Leaves κ (execEvheadWrite w v s) := by
  unfold execEvheadWrite
  exact ite_kept (badRing_kept hs _) (setWin_kept hs ..)

theorem execRingBaseSizeWrite_leaves (w : Nat) (r : RingReg) (v : DWord) : Leaves κ (execRingBaseSizeWrite w r v s) := by
  unfold execRingBaseSizeWrite
  exact ite_kept hs (ite_kept (setWin_kept hs ..) (badRing_kept hs _))

theorem execWstateRunSet_leaves (w : Nat) : Leaves κ (execWstateRunSet w s) := by
  unfold execWstateRunSet
  exact ite_kept hs (setWin_kept hs ..)

theorem execWstateRunClear_leaves (w : Nat) : Leaves κ (execWstateRunClear w s) := by
  unfold execWstateRunClear
  exact ite_kept (setWin_kept hs ..) hs

theorem windowWrite_leaves (w off : Nat) (v : DWord) : Leaves κ (windowWrite w off v s) := by
  unfold windowWrite
  split
  · exact execRingBaseSizeWrite_leaves hs ..
  · exact execRingBaseSizeWrite_leaves hs ..
  · exact execCmdtailWrite_leaves hs ..
  · exact execRingBaseSizeWrite_leaves hs ..
  · exact execRingBaseSizeWrite_leaves hs ..
  · exact execCplheadWrite_leaves hs ..
  · exact execRingBaseSizeWrite_leaves hs ..
  · exact execRingBaseSizeWrite_leaves hs ..
  · exact execEvheadWrite_leaves hs ..
  · exact ite_leaves (execWstateRunSet_leaves hs _) (execWstateRunClear_leaves hs _)
  · exact hs

theorem msixWrite_kept (off : Nat) (v : DWord) : (msixWrite s off v).kept κ := by
  unfold msixWrite
  refine ite_kept ?_ ?_
  all_goals exact hs

theorem execRegisterWrite_leaves (bar off : Nat) (v : DWord) : Leaves κ (execRegisterWrite bar off v s) := by
  unfold execRegisterWrite
  exact ite_leaves hs (ite_leaves (ite_leaves (windowWrite_leaves hs ..) (ite_leaves (windowWrite_leaves hs ..) hs)) (ite_leaves
    (msixWrite_kept hs ..) hs))

theorem execEventRingWrite_leaves (w : Nat) : Leaves κ (execEventRingWrite w s) := by
  unfold execEventRingWrite
  dsimp only
  split
  · exact hs
  · exact ite_kept hs (ite_kept (signal_kept (setWin_kept (hwrite_kept hs ..) ..) _) (ringFail_kept hs ..))

/-! ### Resets, boots, links and dies -/

theorem heldInReset_kept : (heldInReset s).kept κ :=
  { mem := hs.mem
    hostmem := hs.hostmem
    wkgs := fun _ hw => absurd hw List.not_mem_nil
    remains := fun _ hw => absurd hw List.not_mem_nil
    cur := hs.cur }

theorem execSupplyMonitorReset_leaves : Leaves κ (execSupplyMonitorReset s) := by
  unfold execSupplyMonitorReset
  exact heldInReset_kept hs

theorem enumerate_kept (die : Nat) (reported : Option Nat) : (enumerate s die reported).kept κ := by
  unfold enumerate
  refine ite_kept hs ?_
  split
  · exact setDie_kept hs ..
  · exact writeErr_kept hs _

theorem execPackageReset_leaves (flash : BootFlash) : Leaves κ (execPackageReset flash s) := by
  unfold execPackageReset
  refine State.kept.foldl ?_ _ (fun t _ ht => enumerate_kept ht ..)
  exact (heldInReset_kept hs :)

theorem tripDie_kept (die : Nat) : (tripDie s die).kept κ := by
  unfold tripDie
  exact writeErr_kept (markClusters_kept (setDie_kept hs ..) ..) _

theorem execArbiterPeriodEnd_leaves (die power temp : Nat) : Leaves κ (execArbiterPeriodEnd die power temp s) := by
  unfold execArbiterPeriodEnd
  exact ite_kept hs (ite_kept (tripDie_kept (setDie_kept hs ..) _) (setDie_kept hs ..))

theorem execScrubLine_leaves (die : Nat) (e : LineError) : Leaves κ (execScrubLine die e s) := by
  unfold execScrubLine
  exact ite_kept hs (seeLine_kept (setDie_kept hs ..) ..)

theorem execSubarraySelfTest_leaves (core sub : Nat) (product : List Byte) : Leaves κ (execSubarraySelfTest core sub product s) := by
  unfold execSubarraySelfTest
  refine ite_kept hs (writeErr_kept ?_ _)
  exact hs

theorem onPort_kept (port : Nat) (f : Port → Port) : (onPort s port f).kept κ := by
  unfold onPort
  refine ite_kept ?_ hs
  exact hs

theorem portSend_kept (port : Nat) (data : List Byte) : (portSend s port data).kept κ := by
  unfold portSend
  exact ite_kept (onPort_kept hs ..) hs

theorem portPeerSend_kept (port : Nat) (data : List Byte) : (portPeerSend s port data).kept κ := by
  unfold portPeerSend
  exact ite_kept (onPort_kept hs ..) hs

theorem portPeerCheck_kept (port : Nat) (good : Bool) : (portPeerCheck s port good).kept κ := by
  unfold portPeerCheck
  exact onPort_kept hs ..

theorem setLink_kept (a b : Nat) (l : LinkDir) : (setLink s a b l).kept κ := by
  unfold setLink
  exact hs

theorem forwardFlit_kept (at_ : Nat) (f : Flit) : (forwardFlit s at_ f).kept κ := by
  unfold forwardFlit
  split
  · exact setLink_kept hs ..
  · exact hs

theorem sendFlit_kept (src dst : Nat) (data : List Byte) : (sendFlit s src dst data).kept κ := by
  unfold sendFlit
  split
  · exact ite_kept (forwardFlit_kept hs ..) hs
  · exact hs

theorem execBoundaryFlitReceive_leaves (b : Nat) (rev : Bool) (flit : List Byte) (crc : Word) :
    Leaves κ (execBoundaryFlitReceive b rev flit crc s) := by
  unfold execBoundaryFlitReceive
  dsimp only
  split
  · exact hs
  · exact ite_kept hs (ite_kept (setLink_kept hs ..) (ite_kept hs (ite_kept (setLink_kept hs ..) (forwardFlit_kept
      (setLink_kept hs ..) ..))))

theorem resend_kept (b : Nat) : (resend s b).kept κ := by
  unfold resend
  exact State.kept.foldl (setLink_kept (State.kept.foldl (setLink_kept hs ..) _ (fun t _ ht => forwardFlit_kept ht ..)) ..) _
    (fun t _ ht => forwardFlit_kept ht ..)

theorem execBoundaryRetrain_leaves (b : Nat) (ok : Bool) : Leaves κ (execBoundaryRetrain b ok s) := by
  unfold execBoundaryRetrain
  refine ite_kept hs (ite_kept ?_ (ite_kept (State.kept.foldl (State.kept.foldl (writeErr_kept (resend_kept ?_ _) _) _
    (fun t _ ht => ite_kept (writeErr_kept (setDie_kept ht ..) _) ht)) _ (fun t _ ht => markPart_kept ht ..)) (writeErr_kept
    (resend_kept ?_ _) _)))
  all_goals exact hs

theorem execCausewayFlitReceive_leaves (port : Nat) (flit : List Byte) (crc : Word) :
    Leaves κ (execCausewayFlitReceive port flit crc s) := by
  unfold execCausewayFlitReceive
  exact ite_kept hs (onPort_kept hs ..)

theorem execUpstreamLinkTraining_leaves (width rate : Nat) : Leaves κ (execUpstreamLinkTraining width rate s) := by
  unfold execUpstreamLinkTraining
  refine ite_kept ?_ hs
  exact hs

/-! ### Engine entries -/

theorem Place.put_kept (x : Eng) (p : Place) (b : Byte) : (Place.put x s p b).kept κ := by
  unfold Place.put
  split
  · exact Kept.sset_mem hs ..
  · split
    · next w hw => exact hs.setWkg (swrite_wf w.data _ [b] (hs.found hw))
    · exact hs

theorem healPlaces_kept (x : Eng) (ps : List Place) : (healPlaces x s ps).kept κ := by
  unfold healPlaces
  refine hs.foldl _ fun t _ ht => ?_
  split
  · exact ite_kept (healWords_kept ht ..) ht
  · split
    · next w hw => exact ite_kept (setWkg_kept ht (ht.found hw :)) ht
    · exact ht

theorem writeAll_kept (x : Eng) (ws : List ByteWrite) : (writeAll s x ws).1.kept κ := by
  unfold writeAll
  refine healPlaces_kept (foldl_inv (fun a : State × Nat => a.1.kept κ) _ (fun a w ha => ?_) _ _ hs) ..
  split
  · exact ha
  · split
    · exact Place.put_kept ha ..
    · exact ha

theorem seePlace_kept (x : Eng) (p : Place) : (seePlace s x p).kept κ := by
  unfold seePlace
  split
  · exact seeSpan_kept hs ..
  · split
    · exact seeScratch_kept hs ..
    · exact hs

theorem seeRegion_kept (x : Eng) (r : Region × Nat) : (seeRegion s x r).kept κ := by
  unfold seeRegion
  refine ite_kept ?_ (ite_kept hs (hs.foldl _ (fun t _ ht => ?_)))
  · split
    · exact seeScratch_kept hs ..
    · exact hs
  · dsimp only
    split
    · exact seePlace_kept (seeWalk_kept ht ..) ..
    · exact seeWalk_kept ht ..

theorem seeWriteWalks_kept (x : Eng) (ws : List ByteWrite) : (seeWriteWalks s x ws).kept κ := by
  unfold seeWriteWalks
  exact ite_kept hs (hs.foldl _ (fun t _ ht => seeWalk_kept ht ..))

theorem seePlan_kept (x : Eng) (p : Plan) : (seePlan s x p).kept κ := by
  unfold seePlan
  exact State.kept.foldl (State.kept.foldl (seeWriteWalks_kept hs ..) _ (fun t _ ht => seeRegion_kept ht ..)) _
    (fun t _ ht => seePlace_kept ht ..)

theorem entryWrite_kept (x : Eng) (r : QueueRef) (e : EngEntry) (off : Nat) (d : List Byte) : (entryWrite s x r e off d).kept κ := by
  unfold entryWrite
  refine healPlaces_kept (hs.foldl _ (fun t _ ht => ?_)) ..
  split
  · exact Place.put_kept ht ..
  · exact ht

theorem finishEntry_kept (r : QueueRef) (e : EngEntry) (st reason : Nat) : (finishEntry s r e st reason).kept κ := by
  unfold finishEntry
  dsimp only
  split
  · exact wkgMaybeEnd_kept (State.kept.foldl (setPart_kept (entryWrite_kept (ite_kept (entryWrite_kept hs ..) hs) ..) _) _
      (fun t _ ht => onGroup_kept ht ..)) ..
  · exact entryWrite_kept (ite_kept (entryWrite_kept hs ..) hs) ..

theorem breakChain_kept (r : QueueRef) : (breakChain s r).kept κ := by
  unfold breakChain
  split
  · exact setPart_kept hs _
  · exact hs

theorem setFirst_kept (r : QueueRef) (e : EngEntry) : (setFirst s r e).kept κ := by
  unfold setFirst
  split
  · exact setPart_kept hs _
  · exact hs

theorem readFirst_kept (r : QueueRef) (e : EngEntry) : (readFirst s r e).kept κ := by
  unfold readFirst
  exact ite_kept (finishEntry_kept (seeRegion_kept hs ..) ..) (ite_kept (finishEntry_kept (breakChain_kept (seeRegion_kept hs ..) _) ..)
    (setFirst_kept (seeRegion_kept hs ..) ..))

theorem takeEntry_kept {run : State → Eng → EngEntry → List Byte → State}
    (hr : ∀ t x e b, t.kept κ → (run t x e b).kept κ) (r : QueueRef) (op : Nat) : (takeEntry s r op run).kept κ := by
  unfold takeEntry
  split
  · exact hs
  · exact ite_kept hs (ite_kept (finishEntry_kept hs ..) (ite_kept hs (ite_kept (readFirst_kept hs ..) (ite_kept (hr _ _ _ _ hs)
      (ite_kept hs (finishEntry_kept hs ..))))))

theorem runPlan_kept (x : Eng) (r : QueueRef) (e : EngEntry) (p : Plan) : (runPlan s x r e p).kept κ := by
  unfold runPlan
  exact ite_kept hs (finishEntry_kept (writeAll_kept (seePlan_kept hs ..) ..) ..)

theorem execQfenceEntry_leaves (r : QueueRef) : Leaves κ (execQfenceEntry r s) := by
  unfold execQfenceEntry
  exact takeEntry_kept hs (fun t _ _ _ ht => ite_kept (finishEntry_kept ht ..) (ite_kept (finishEntry_kept ht ..) ht)) ..

theorem flawSource_kept (x : Eng) (b : List Byte) (le : LineError) : (flawSource s x b le).kept κ := by
  unfold flawSource
  refine ite_kept hs ?_
  split
  · exact hs
  · exact setFlaw_kept hs ..

theorem execCopyEntry_leaves (core : Nat) (le : LineError) : Leaves κ (execCopyEntry core le s) := by
  unfold execCopyEntry
  split
  · exact hs
  · exact takeEntry_kept hs (fun t _ _ _ ht => runPlan_kept (flawSource_kept ht ..) ..) ..

theorem execGatherEntry_leaves (core : Nat) : Leaves κ (execGatherEntry core s) := by
  unfold execGatherEntry
  split
  · exact hs
  · exact takeEntry_kept hs (fun t _ _ _ ht => runPlan_kept ht ..) ..

theorem execScatterEntry_leaves (core : Nat) : Leaves κ (execScatterEntry core s) := by
  unfold execScatterEntry
  split
  · exact hs
  · exact takeEntry_kept hs (fun t _ _ _ ht => runPlan_kept ht ..) ..

/-! ### Collectives -/

theorem countColl_kept (part : Nat) (gid : Word) : (countColl s part gid).kept κ := by
  unfold countColl
  split
  · exact setPart_kept hs _
  · exact hs

theorem collEnd_kept (x : Eng) (r : QueueRef) (e : EngEntry) (g : GroupRec) (p : Plan) : (collEnd s x r e g p).kept κ := by
  unfold collEnd
  exact ite_kept hs (runPlan_kept (countColl_kept hs ..) ..)

theorem execCollEntry_leaves (part die : Nat) (peers : List PeerContribution) : Leaves κ (execCollEntry part die peers s) := by
  refine takeEntry_kept hs (fun t x e b ht => ?_) ..
  split
  · exact runPlan_kept ht ..
  · refine ite_kept ht (ite_kept (collEnd_kept ht ..) ?_)
    split
    · exact ht
    · exact collEnd_kept ht ..

theorem execCollPeerTimeout_leaves (part die : Nat) : Leaves κ (execCollPeerTimeout part die s) := by
  refine takeEntry_kept hs (fun t x e b ht => ?_) ..
  split
  · exact runPlan_kept ht ..
  · exact collEnd_kept ht ..

/-! ### Emulated instructions -/

theorem parkEmul_kept (i : Instr) (k : Comp) (o : LOp) (g : Group) (n : Node) (c : Ctx) : (parkEmul i k o s g n c).kept κ := by
  unfold parkEmul
  exact ite_kept (laneEffect_kept hs ..) (faultLanes_kept hs ..)

theorem emulOp_leaves (i : Instr) : Leaves κ (emulOp i s) := by
  unfold emulOp
  split
  · exact coreOp_leaves hs (fun t _ _ _ ht => parkEmul_kept ht ..) ..
  · exact hs

theorem execIvdivIv16_leaves (o : LOp) : Leaves κ (execIvdivIv16 o s) := by
  unfold execIvdivIv16
  exact emulOp_leaves hs _

theorem execIvsqrtIv16_leaves (o : LOp) : Leaves κ (execIvsqrtIv16 o s) := by
  unfold execIvsqrtIv16
  exact emulOp_leaves hs _

theorem answerFrame_kept (die : Nat) (f : Frame) (d : List Byte) : (answerFrame s die f d).kept κ := by
  unfold answerFrame
  exact setDie_kept (pwriteLong_kept hs ..) ..

theorem computeFrame_kept (die : Nat) (f : Frame) : (computeFrame s die f).kept κ := by
  unfold computeFrame
  split
  · exact answerFrame_kept hs ..
  · exact hs

theorem addFrame_kept (die : Nat) (f : Frame) : (addFrame s die f).kept κ := by
  unfold addFrame
  exact setDie_kept hs ..

theorem execEmulationFrame_leaves (g n : Nat) : Leaves κ (execEmulationFrame g n s) := by
  unfold execEmulationFrame Leaves
  dsimp only
  split
  · exact hs
  · split
    · next e _ _ _ _ _ _ _ =>
      have h1 (slot : Nat) (bs : List Byte) (c : Ctx) : (putCtx (pwriteLong s (frameAt e.g.die slot) bs) e.g e.n c).kept κ :=
        putCtx_kept (pwriteLong_kept hs ..) ..
      exact ite_kept hs (ite_kept (addFrame_kept (raiseService_kept (h1 ..) ..) ..) (computeFrame_kept (addFrame_kept (h1 ..) ..) ..))
    · exact hs

theorem freeFrame_kept (die : Nat) (f : Frame) : (freeFrame s die f).kept κ := by
  unfold freeFrame
  exact setDie_kept hs ..

theorem endEmul_kept (gid nix : Nat) : (endEmul s gid nix).kept κ := by
  unfold endEmul
  split
  · exact ite_kept (dropFrames_kept (putCtx_kept hs ..) ..) hs
  · exact hs

theorem execEmulationResultWrite_leaves (g n : Nat) : Leaves κ (execEmulationResultWrite g n s) := by
  unfold execEmulationResultWrite
  split
  · exact hs
  · split
    · exact ite_kept hs (endEmul_kept (faultLanes_kept (freeFrame_kept hs ..) ..) ..)
    · exact hs

theorem refuseFrame_kept (f : Frame) : (refuseFrame s f).kept κ := by
  unfold refuseFrame
  split
  · exact groupFault_kept (dropFrames_kept hs ..) ..
  · exact hs

/-! ### Replayed objects -/

theorem seeVa_kept (d part va n : Nat) : (seeVa s d part va n).kept κ := by
  unfold seeVa
  exact seeVaOf_kept hs ..

theorem seeObject_kept (part : Nat) (o : Obj) : (seeObject s part o).kept κ := by
  unfold seeObject
  exact ite_kept hs (hs.foldl _ (fun t _ ht => seeWalk_kept ht ..))

theorem setObj_kept (part : Nat) (o : Obj) : (setObj s part o).kept κ := by
  unfold setObj
  split
  · exact setPart_kept hs _
  · exact hs

theorem meetObj_kept (part obj : Nat) : (meetObj s part obj).kept κ := by
  unfold meetObj
  split
  · exact hs
  · refine ite_kept hs ?_
    dsimp only
    split
    · exact seeSpan_kept hs ..
    · split <;> exact setPart_kept (seeSpan_kept hs ..) _

theorem writeEntry_kept (die part : Nat) (o : Obj) (pos : Word) (off : Nat) (d : List Byte) :
    (writeEntry s die part o pos off d).kept κ := by
  unfold writeEntry
  refine ite_kept ?_ hs
  split
  · exact ite_kept (pwrite_kept hs ..) hs
  · exact hs

theorem trim_kept (part obj : Nat) : (trim s part obj).kept κ := by
  unfold trim
  split
  · exact setObj_kept hs ..
  · exact hs

theorem claimScalar_some {t : State} {g : Group} {n : Node} {r : Nat} (h : claimScalar s g n r = some t) :
    t.kept κ := by
  unfold claimScalar at h
  dsimp only at h
  split at h
  · cases h
  · exact Option.some.inj h ▸ hs.foldl _ fun t _ ht => rollBack_kept ht ..

theorem takePosition_kept (g : Group) (n : Node) (obj sd : Nat) (pos : Word) : (takePosition s g n obj sd pos).kept κ := by
  unfold takePosition
  split
  · exact hs
  · next s1 h1 =>
    split at h1
    · cases h1
    · exact completeSync_kept (onGroup_kept (claimScalar_some hs h1) ..) ..

theorem appendCall_kept (h : HomeWait) (o : Obj) : (appendCall s h o).kept κ := by
  unfold appendCall
  dsimp only
  split
  · refine takePosition_kept (onGroup_kept ?_ ..) ..
    split
    · exact setPart_kept (setObj_kept (writeEntry_kept hs ..) ..) _
    · exact setObj_kept (writeEntry_kept hs ..) ..
  · refine onGroup_kept ?_ ..
    split
    · exact setPart_kept (setObj_kept (writeEntry_kept hs ..) ..) _
    · exact setObj_kept (writeEntry_kept hs ..) ..

theorem execManifestAppend_leaves (g n : Nat) : Leaves κ (execManifestAppend g n s) := by
  unfold execManifestAppend
  unfold Leaves
  dsimp only
  split
  · next h _ =>
    have h1 : (trim (meetObj s h.part h.obj) h.part h.obj).kept κ := trim_kept (meetObj_kept hs ..) ..
    refine ite_kept hs ?_
    split
    · exact hs
    · exact ite_kept h1 (ite_kept (appendCall_kept (seeObject_kept h1 ..) ..) (seeObject_kept h1 ..))
  · split
    · exact hs
    · split
      · exact hs
      · split
        · refine ite_kept hs ?_
          split
          · exact hs
          · next s1 h1 => exact completeSync_kept (onGroup_kept (claimScalar_some hs h1) ..) ..
        · exact hs

theorem seeMethod_kept (part d : Nat) (o : Obj) (m : Nat) : (seeMethod s part d o m).kept κ := by
  unfold seeMethod
  exact ite_kept (seeVa_kept hs ..) hs

theorem startCall_kept (part d : Nat) (o : Obj) (m : Nat) (pos : Word) (args : List Word) (caller : Option (Nat × Nat)) (a : Nat) :
    (startCall s part d o m pos args caller a).kept κ := by
  unfold startCall
  exact hs

theorem undoCall_kept (gid : Nat) : (undoCall s gid).kept κ := by
  unfold undoCall
  refine hs.foldl _ fun t _ ht => ?_
  exact Kept.sset_mem ht ..

theorem dropCall_kept (g : Group) : (dropCall s g).kept κ := by
  unfold dropCall
  exact hs.foldl _ fun t _ ht => dropFrames_kept ht ..

theorem recordOutcome_kept (part d obj : Nat) (pos : Word) (reason code : Nat) (result : DWord) :
    (recordOutcome s part d obj pos reason code result).kept κ := by
  unfold recordOutcome
  split
  · exact hs
  · exact trim_kept (setObj_kept (ite_kept (writeEntry_kept (writeEntry_kept hs ..) ..) (writeEntry_kept hs ..)) ..) ..

theorem finishCall_kept (g : Group) (l : LandingAt) (c : Call) : (finishCall s g l c).kept κ := by
  unfold finishCall
  exact recordOutcome_kept (dropCall_kept (ite_kept hs (undoCall_kept hs _)) _) ..

theorem applyNext_kept (part d : Nat) (o : Obj) : (applyNext s part d o).kept κ := by
  unfold applyNext
  refine ite_kept hs (ite_kept (recordOutcome_kept hs ..) (ite_kept hs (ite_kept (recordOutcome_kept (seeVa_kept hs ..) ..) ?_)))
  dsimp only
  split
  · exact recordOutcome_kept (seeMethod_kept (seeVa_kept hs ..) ..) ..
  · exact startCall_kept (seeMethod_kept (seeVa_kept hs ..) ..) ..

theorem execLandingApply_leaves (part d obj : Nat) : Leaves κ (execLandingApply part d obj s) := by
  unfold execLandingApply
  refine ite_kept hs ?_
  split
  · split
    · exact ite_kept (dropCall_kept (undoCall_kept hs _) _) (ite_kept hs (ite_kept hs (finishCall_kept hs ..)))
    · exact hs
  · split
    · exact applyNext_kept hs ..
    · exact hs

theorem answerRead_kept (gid id obj sd : Nat) (reason code : Nat) (result : DWord) :
    (answerRead s gid id obj sd reason code result).kept κ := by
  unfold answerRead
  exact onGroup_kept hs ..

theorem noteRead_kept (g : Group) (l : Load) (obj : Nat) (pos : Word) : (noteRead s g l obj pos).kept κ := by
  unfold noteRead
  exact ite_kept (setGroup_kept hs _) hs

theorem startRead_kept (g : Group) (id : Nat) (r : Nat × Nat × List Word × Nat) (o : Obj) : (startRead s g id r o).kept κ := by
  unfold startRead
  split
  · exact answerRead_kept hs ..
  · refine startCall_kept ?_ ..
    exact hs

theorem execRreadMethodRun_leaves (g id : Nat) : Leaves κ (execRreadMethodRun g id s) := by
  unfold execRreadMethodRun
  split
  · split
    · exact hs
    · refine ite_kept (dropCall_kept (undoCall_kept hs _) _) (ite_kept hs ?_)
      split
      · split
        · exact answerRead_kept (dropCall_kept (ite_kept hs (undoCall_kept hs _)) _) ..
        · exact dropCall_kept hs _
      · exact dropCall_kept hs _
  · split
    · exact hs
    · split
      · exact hs
      · exact noteRead_kept hs ..
      · refine ite_kept hs ?_
        dsimp only
        split
        · exact ite_kept (meetObj_kept hs ..) (ite_kept (meetObj_kept hs ..) (startRead_kept (seeMethod_kept (meetObj_kept hs ..) ..) ..))
        · exact meetObj_kept hs ..

/-! ### Exchange between lanes -/

theorem execShfl_leaves (o : LOp) : Leaves κ (execShfl o s) := by
  unfold execShfl
  exact laneOp_leaves hs _

theorem execQswap_leaves (o : LOp) : Leaves κ (execQswap o s) := by
  unfold execQswap
  exact laneOp_leaves hs _

theorem execQbcast_leaves (o : LOp) : Leaves κ (execQbcast o s) := by
  unfold execQbcast
  exact laneOp_leaves hs _

theorem execMatchLanes_leaves (o : LOp) : Leaves κ (execMatchLanes o s) := by
  unfold execMatchLanes
  exact laneOp_leaves hs _

theorem execRedux_leaves (o : LOp) : Leaves κ (execRedux o s) := by
  unfold execRedux
  exact laneOp_leaves hs _

theorem execScan_leaves (o : LOp) : Leaves κ (execScan o s) := by
  unfold execScan
  exact laneOp_leaves hs _

theorem execRdlane_leaves (o : LOp) : Leaves κ (execRdlane o s) := by
  unfold execRdlane
  exact laneOp_leaves hs _

theorem execWrlane_leaves (o : LOp) : Leaves κ (execWrlane o s) := by
  unfold execWrlane
  exact coreOp_leaves hs (fun t _ _ _ ht => ite_kept (uniFault_kept ht ..) (ite_kept (putCtx_kept ht ..) (ite_kept (uniFault_kept ht ..)
    (ite_kept (groupFault_kept ht ..) (putCtx_kept ht ..))))) ..

/-! ### Launches and tasks -/

theorem startGroup_kept (mk : Nat → Nat → Nat → Group) (core gid : Nat) : (startGroup s mk core gid).kept κ := by
  unfold startGroup
  split <;> exact hs

theorem clearCore_kept (core : Nat) : (clearCore s core).kept κ := by
  unfold clearCore
  refine l1DropAll_kept ?_ _
  exact Kept.filter_remains hs _

theorem placeWkg_mem (l : Launch) (w : Nat × Nat) : (placeWkg l s w).kept κ := by
  unfold placeWkg
  refine ite_kept ?_ (State.kept.foldl ?_ _ (fun t _ ht => startGroup_kept ht ..))
  all_goals exact Kept.snoc_wkgs (clearCore_kept hs _) rfl

theorem execLaunchPlacement_leaves (part : Nat) : Leaves κ (execLaunchPlacement part s) := by
  unfold execLaunchPlacement
  split
  · exact hs
  · exact ite_kept hs (State.kept.foldl (setLaunch_kept hs _) _ (fun t _ ht => placeWkg_mem ht ..))

theorem seeTasks_kept (core part : Nat) (q : TaskQ) (cs : List Word) : (seeTasks s core part q cs).kept κ := by
  unfold seeTasks
  exact ite_kept hs (hs.foldl _ (fun t _ ht => seeVaOf_kept ht ..))

theorem consumeTasks_kept (core part : Nat) (q : TaskQ) (upto : Word) : (consumeTasks s core part q upto).kept κ := by
  unfold consumeTasks
  dsimp only
  split
  · exact setPart_kept (hs.foldl _ (fun t _ ht => setSlotState_kept ht ..)) _
  · exact hs.foldl _ fun t _ ht => setSlotState_kept ht ..

theorem execTaskGather_leaves (part q : Nat) : Leaves κ (execTaskGather part q s) := by
  unfold execTaskGather
  split
  · exact hs
  · split
    · exact hs
    · split
      · exact hs
      · refine ite_kept hs ?_
        split
        · exact hs
        · dsimp only
          split
          · exact seeTasks_kept hs ..
          · exact ite_kept (consumeTasks_kept (seeTasks_kept hs ..) ..) (ite_kept (seeTasks_kept hs ..) (setLaunch_kept (startGroup_kept
              (l1DropAll_kept (consumeTasks_kept (seeTasks_kept (seeTasks_kept hs ..) ..) ..) _) ..) _))

theorem writeDonesig_kept (l : Launch) : (writeDonesig s l).kept κ := by
  unfold writeDonesig
  refine ite_kept hs ?_
  dsimp only
  split
  · exact ite_kept (pwrite_kept (seeWalk_kept hs ..) ..) (seeWalk_kept hs ..)
  · exact writeErr_kept (seeWalk_kept hs ..) _

theorem unbind_kept (l : Launch) : (unbind s l).kept κ := by
  unfold unbind
  split
  · exact hs
  · split
    · exact hs
    · exact setPart_kept (hwWrite_kept hs ..) _

theorem removeLaunch_kept (l : Launch) : (removeLaunch s l).kept κ := by
  unfold removeLaunch
  have key (ws : List Workgroup) (hw : ∀ w ∈ ws, Memory.wf w.data = true) : ∀ {t : State}, t.kept κ → (ws.foldl leaveRemains t).kept κ := by
    induction ws with
    | nil => exact fun ht => ht
    | cons w ws ih =>
      exact fun ht => ih (fun x hx => hw x (List.mem_cons_of_mem _ hx)) (leaveRemains_kept ht (hw w List.mem_cons_self))
  refine key _ (fun w hw => hs.wkg (mem_of_mem_filtered hw)) ?_
  exact hs

theorem execGridTermination_leaves (part : Nat) (serial : Word) : Leaves κ (execGridTermination part serial s) := by
  unfold execGridTermination
  split
  · exact hs
  · exact ite_kept hs (removeLaunch_kept (unbind_kept (writeDonesig_kept hs _) _) _)

/-! ### Partitions -/

theorem dropRequest_kept (part : Nat) (t : Word) : (dropRequest s part t).kept κ := by
  unfold dropRequest
  split
  · exact setPart_kept hs _
  · exact hs

theorem answerLanes_kept (gid : Nat) (t : Word) (answer : Nat) : (answerLanes s gid t answer).kept κ := by
  unfold answerLanes
  split
  · exact hs
  · split
    · exact hs
    · split
      · exact ite_kept (setGroup_kept hs _) (ite_kept (entryFault_kept hs ..) (ite_kept (addFatal_kept (setGroup_kept hs _) ..)
          (setGroup_kept hs _)))
      · exact hs

theorem answerHeld_kept (id answer cause : Nat) : (answerHeld s id answer cause).kept κ := by
  unfold answerHeld
  split
  · exact hs
  · exact ite_kept (ite_kept (setItem_kept hs _) (checkDone_kept (seeItem_kept hs ..) _)) (closeItem_kept (settleRecord_kept
      (setItem_kept hs _) _) _)

theorem answerParked_kept (id elem : Nat) : (answerParked s id elem).kept κ := by
  unfold answerParked
  exact hs

theorem answerEmul_kept (t : Word) (answer : Nat) (result : List Byte) : (answerEmul s t answer result).kept κ := by
  unfold answerEmul
  split
  · exact hs
  · split
    · exact computeFrame_kept hs ..
    · exact refuseFrame_kept hs _
    · exact answerFrame_kept hs ..

theorem answerRequest_kept (about : Nat) (body : List Byte) (t : Word) (answer : Nat) (result : List Byte) :
    (answerRequest s about body t answer result).kept κ := by
  unfold answerRequest
  split
  · exact answerLanes_kept hs ..
  · exact answerHeld_kept hs ..
  · exact answerParked_kept hs ..
  · exact answerEmul_kept hs ..

theorem execService_leaves (w : Nat) (d : FerryDesc) : Leaves κ (execService w d s) := by
  unfold execService
  refine ferryCmd_leaves hs (fun t ht => ?_) ..
  dsimp only
  split
  · exact completeOpen_kept ht ..
  · exact ite_kept (completeOpen_kept ht ..) (ite_kept (completeOpen_kept ht ..) (completeOpen_kept (answerRequest_kept
      (dropRequest_kept ht ..) ..) ..))

theorem stopFetching_kept (p : Partition) : (stopFetching s p).kept κ := by
  unfold stopFetching
  exact hs

theorem dropStuck_kept (part : Nat) : (dropStuck s part).kept κ := by
  unfold dropStuck
  exact hs

theorem dropCalls_kept (part : Nat) : (dropCalls s part).kept κ := by
  unfold dropCalls
  exact hs.foldl _ fun t _ ht => dropCall_kept (undoCall_kept ht _) _

theorem tearWorkgroups_kept (part : Nat) : (tearWorkgroups s part).kept κ := by
  unfold tearWorkgroups
  exact hs.foldl _ fun t _ ht => endWkg_kept ht ..

theorem tearWindow_kept (part : Nat) : (tearWindow s part).kept κ := by
  unfold tearWindow
  refine setWin_kept ?_ ..
  split
  · exact completeOpen_kept hs ..
  · exact hs

theorem tearDown_kept (p : Partition) : (tearDown s p).kept κ := by
  unfold tearDown
  exact tearWindow_kept (tearWorkgroups_kept (dropCalls_kept (dropStuck_kept (stopFetching_kept hs _) _) _) _) _

theorem clearPartition_kept (p : Partition) : (clearPartition s p).kept κ := by
  unfold clearPartition
  exact Kept.filter_remains (Kept.filter_wkgs (hs.foldl _ (fun t _ ht => unbind_kept (writeDonesig_kept ht _) _)) _) _

theorem execPdestroy_leaves (w : Nat) (d : FerryDesc) : Leaves κ (execPdestroy w d s) := by
  unfold execPdestroy
  refine ferryCmd_leaves hs (fun t ht => ?_) ..
  dsimp only
  split
  · exact complete_kept ht ..
  · exact ite_kept (waitCmd_kept (tearDown_kept ht _) ..) (ite_kept (completeOpen_kept (clearPartition_kept ht _) ..) ht)

end Keeps

end Sys2Proof.Machine
end

section
/-! PROOFS. What a step keeps: matrix engine, pre-emption, SPDM and caches. -/
namespace Sys2Proof.Machine

section Keeps
variable {s : State} {κ : Cur} (hs : s.kept κ)
include hs

/-! ### The matrix engine -/

theorem seeTile_kept (x : Eng) (lines ksl : Nat) (f : ZFmt) (ex pl : Nat) : (seeTile s x lines ksl f ex pl).kept κ := by
  unfold seeTile
  exact seeRegion_kept (seeRegion_kept hs ..) ..

theorem promote_kept (m : MmaCmd) (e : EngEntry) (set : Bool) (acc : Acc) : (promote m e set acc s).kept κ := by
  unfold promote
  exact hs.foldl _ fun t _ ht => onGroup_kept ht ..

theorem runMma_kept (x : Eng) (r : QueueRef) (e : EngEntry) (b : List Byte) : (runMma s x r e b).kept κ := by
  unfold runMma
  split
  · exact runPlan_kept hs ..
  · dsimp only
    split
    · refine ite_kept (finishEntry_kept hs ..) (ite_kept (finishEntry_kept ?_ ..) (setFirst_kept (promote_kept ?_ ..) ..))
      all_goals exact seeTile_kept (seeTile_kept hs ..) ..
    · exact hs

theorem execMmaEntry_leaves (core : Nat) : Leaves κ (execMmaEntry core s) := by
  unfold execMmaEntry
  split
  · exact hs
  · exact takeEntry_kept hs (fun t _ _ _ ht => runMma_kept ht ..) ..

/-! ### Predicate instructions -/

theorem execPlogic_leaves (o : LOp) : Leaves κ (execPlogic o s) := by
  unfold execPlogic
  exact laneOp_leaves hs _

theorem execPnot_leaves (o : LOp) : Leaves κ (execPnot o s) := by
  unfold execPnot
  exact laneOp_leaves hs _

theorem execPmov_leaves (o : LOp) : Leaves κ (execPmov o s) := by
  unfold execPmov
  exact laneOp_leaves hs _

theorem execPforce_leaves (o : LOp) : Leaves κ (execPforce o s) := by
  unfold execPforce
  exact laneOp_leaves hs _

theorem execPvote_leaves (o : LOp) : Leaves κ (execPvote o s) := by
  unfold execPvote
  exact laneOp_leaves hs _

theorem execPtov_leaves (o : LOp) : Leaves κ (execPtov o s) := by
  unfold execPtov
  exact laneOp_leaves hs _

theorem execVtop_leaves (o : LOp) : Leaves κ (execVtop o s) := by
  unfold execVtop
  exact laneOp_leaves hs _

/-! ### Pre-emption -/

theorem execPreemptRequestArrival_leaves (part : Nat) (serial : Word) (core : Nat) :
    Leaves κ (execPreemptRequestArrival part serial core s) := by
  unfold execPreemptRequestArrival
  unfold Leaves
  dsimp only
  split
  · next w _ hw =>
    refine ite_kept hs (wkgMaybeEnd_kept (setWkg_kept hs ?_) ..)
    exact (hs.wkg (List.mem_of_find?_eq_some hw) :)
  · exact hs

theorem execPreemptAllowanceExpiry_leaves (g n : Nat) : Leaves κ (execPreemptAllowanceExpiry g n s) := by
  unfold execPreemptAllowanceExpiry
  exact onTrace_kept hs (fun t _ _ _ ht => ite_kept (rollBack_kept ht ..) ht) ..

theorem withdraw_kept (g : Group) : (withdraw s g).kept κ := by
  unfold withdraw
  dsimp only
  split
  · refine setLaunch_kept ?_ _
    split
    · next w hw => exact setWkg_kept hs (hs.found hw :)
    · exact hs
  · split
    · next w hw => exact setWkg_kept hs (hs.found hw :)
    · exact hs

theorem freeze_kept (g : Group) : (freeze s g).kept κ := by
  unfold freeze
  refine setGroup_kept ?_ _
  exact hs

theorem startSaving_kept {w : Workgroup} (hw : Memory.wf w.data = true) :
    (startSaving s w).kept κ := by
  have h1 : (s.setWkg { w with st := .saving }).kept κ := setWkg_kept hs hw
  refine h1.foldl _ fun t _ ht => ?_
  split
  · exact freeze_kept (withdraw_kept ht _) _
  · exact ht

theorem startHandler_kept (uid : Nat) (entry : Nat) : (startHandler s uid entry).kept κ := by
  unfold startHandler
  split
  · exact hs
  · exact ite_kept (setGroup_kept hs _) (setGroup_kept hs _)

theorem execPreemptHandlerStart_leaves (g : Nat) : Leaves κ (execPreemptHandlerStart g s) := by
  unfold execPreemptHandlerStart
  split
  · exact hs
  · split
    · exact ite_kept hs (startHandler_kept (ite_kept hs (startSaving_kept hs (hs.found ‹_› :))) ..)
    · exact hs

theorem saveGroup_kept (g : Group) : (saveGroup s g).kept κ := by
  have h1 : (writeContext s g (saveBlock g) 1).kept κ := writeContext_kept hs ..
  unfold saveGroup
  refine wkgMaybeEnd_kept ?_ ..
  split
  · next w hw => exact setWkg_kept h1 (h1.found hw :)
  · exact h1

theorem seeSave_kept (g : Group) : (seeSave s g).kept κ := by
  unfold seeSave
  exact ite_kept hs (hs.foldl _ (fun t _ ht => seeWalk_kept ht ..))

theorem execYieldSave_leaves (g : Nat) : Leaves κ (execYieldSave g s) := by
  unfold execYieldSave
  split
  · exact hs
  · refine ite_kept hs ?_
    dsimp only
    split
    · exact addFatal_kept (seeSave_kept hs _) ..
    · exact ite_kept (seeSave_kept hs _) (saveGroup_kept (State.kept.foldl (seeSave_kept hs _) _ (fun t _ ht => ite_kept
        (pwrite_kept ht ..) ht)) _)

theorem seeBlock_kept (core part va : Nat) : (seeBlock s core part va).kept κ := by
  unfold seeBlock
  exact ite_kept hs (hs.foldl _ (fun t _ ht => seeVaOf_kept ht ..))

theorem moveItems_kept (uid core : Nat) : (moveItems s uid core).kept κ := by
  unfold moveItems
  exact hs

theorem restoreWkg_some {t : State} {p : Partition} {l : Launch} {w : Workgroup} {core : Nat}
    (h : restoreWkg p l s w core = some t) : t.kept κ := by
  unfold restoreWkg at h
  have h0 : (clearCore s core).kept κ := clearCore_kept hs _
  have h1 := h0.setWkg (w := { w with core := core, st := .running, data := [], flaws := [], bars := [], ended := [] }) rfl
  refine foldl_inv (fun acc : Option State => ∀ t, acc = some t → t.kept κ) _ (fun acc x hacc t ht => ?_) _ _ ?_ t h
  · dsimp only at ht
    split at ht
    · cases ht
    · next s' => 
      have h2 := hacc s' rfl
      split at ht
      · cases ht
      · split at ht
        · cases ht
        · exact Option.some.inj ht ▸ startGroup_kept (moveItems_kept (seeSpan_kept (seeBlock_kept h2 ..) ..) ..) ..
  · rintro t ⟨⟩
    exact h1

/-- Workgroups restored one after another. -/
theorem restores_some {p : Partition} {l : Launch} (as : List (Workgroup × Nat)) {t : State}
    (h : as.foldl (fun (acc : Option State) a => match acc with
      | some t => restoreWkg p l t a.1 a.2
      | none => none) (some s) = some t) : t.kept κ := by
  refine foldl_inv (fun o : Option State => ∀ t, o = some t → t.kept κ) _ (fun o w ho t ht => ?_) as (some s) ?_ t h
  · cases o with
    | none => cases ht
    | some s' => exact restoreWkg_some (ho s' rfl) ht
  · rintro t ⟨⟩
    exact hs

theorem execLaunchRestore_leaves (part : Nat) (serial : Word) : Leaves κ (execLaunchRestore part serial s) := by
  unfold execLaunchRestore
  unfold Leaves
  dsimp only
  split
  · have h1 : s.fresh.2.kept κ := fresh_kept hs
    refine ite_kept hs ?_
    split
    · exact h1
    · refine ite_kept h1 ?_
      split
      · next t ht => exact setLaunch_kept (restores_some h1 _ ht) _
      · exact failRestore_kept h1 ..
  · exact hs

/-! ### The Sett engine -/

theorem execLayoutEntry_leaves (clu : Nat) : Leaves κ (execLayoutEntry clu s) := by
  unfold execLayoutEntry
  split
  · exact hs
  · exact takeEntry_kept hs (fun t _ _ _ ht => runPlan_kept ht ..) ..

/-! ### SPDM -/

theorem spdmAnswer_kept (b : List Byte) : (spdmAnswer s b).kept κ := by
  unfold spdmAnswer
  exact hs

theorem spdmError_kept (code : Byte) : (spdmError s code).kept κ := by
  unfold spdmError
  exact spdmAnswer_kept hs _

theorem spdmServe_kept {t : State} (ht : t.kept κ) (r : SpdmReq) (phase least : Nat) :
    (spdmServe s r phase least t).kept κ := by
  unfold spdmServe
  exact ite_kept hs (ite_kept (spdmError_kept hs _) (ite_kept (spdmError_kept hs _) (ite_kept (spdmError_kept hs _) ht)))

theorem execSpdmVersionRequest_leaves (r : SpdmReq) : Leaves κ (execSpdmVersionRequest r s) := by
  unfold execSpdmVersionRequest
  exact ite_kept hs (ite_kept (spdmError_kept hs _) (spdmAnswer_kept (setDie_kept hs ..) _))

theorem execSpdmCapabilitiesRequest_leaves (r : SpdmReq) : Leaves κ (execSpdmCapabilitiesRequest r s) := by
  unfold execSpdmCapabilitiesRequest
  exact spdmServe_kept hs (ite_kept (spdmError_kept hs _) (spdmAnswer_kept (setDie_kept hs ..) _)) ..

theorem execSpdmAlgorithmsRequest_leaves (r : SpdmReq) : Leaves κ (execSpdmAlgorithmsRequest r s) := by
  unfold execSpdmAlgorithmsRequest
  exact spdmServe_kept hs (spdmAnswer_kept (setDie_kept hs ..) _) ..

theorem certAnswer_kept (code : Byte) (r : SpdmReq) (a : List Byte) : (certAnswer s code r a).kept κ := by
  unfold certAnswer
  exact spdmAnswer_kept (setDie_kept hs ..) _

theorem execSpdmDigestsRequest_leaves (r : SpdmReq) : Leaves κ (execSpdmDigestsRequest r s) := by
  unfold execSpdmDigestsRequest
  exact spdmServe_kept hs (certAnswer_kept hs ..) ..

theorem execSpdmCertificateRequest_leaves (r : SpdmReq) : Leaves κ (execSpdmCertificateRequest r s) := by
  unfold execSpdmCertificateRequest
  exact spdmServe_kept hs (ite_kept (spdmError_kept hs _) (certAnswer_kept hs ..)) ..

theorem execSpdmChallengeRequest_leaves (r : SpdmReq) : Leaves κ (execSpdmChallengeRequest r s) := by
  unfold execSpdmChallengeRequest
  refine spdmServe_kept hs (ite_kept (spdmError_kept hs _) (spdmAnswer_kept (setDie_kept ?_ ..) _)) ..
  exact hs

theorem execSpdmMeasurementsRequest_leaves (r : SpdmReq) : Leaves κ (execSpdmMeasurementsRequest r s) := by
  unfold execSpdmMeasurementsRequest
  refine spdmServe_kept hs (ite_kept (spdmError_kept hs _) (spdmAnswer_kept (setDie_kept ?_ ..) _)) ..
  exact hs

theorem execSpdmUnsupportedRequest_leaves (code : Byte) : Leaves κ (execSpdmUnsupportedRequest code s) := by
  unfold execSpdmUnsupportedRequest
  exact ite_kept (spdmAnswer_kept hs _) hs

/-! ### Caches and hardware activity -/

theorem tlbFill_kept (unit part level va : Nat) : (tlbFill s unit part level va).kept κ := by
  unfold tlbFill
  refine ite_kept hs ?_
  dsimp only
  split
  · exact seeWalk_kept hs ..
  · refine ite_kept (seeWalk_kept hs ..) ?_
    exact seeWalk_kept hs ..

theorem tlbEvict_kept (unit part level va : Nat) : (tlbEvict s unit part level va).kept κ := by
  unfold tlbEvict
  exact hs

theorem l1Fill_kept (core line : Nat) : (l1Fill s core line).kept κ := by
  unfold l1Fill
  refine ite_kept hs (ite_kept (seeSpan_kept hs ..) ?_)
  exact seeSpan_kept hs ..

theorem icacheFill_kept (core part line : Nat) : (icacheFill s core part line).kept κ := by
  unfold icacheFill
  refine ite_kept hs ?_
  dsimp only
  split
  · exact seeVaOf_kept hs ..
  · refine ite_kept (seeVaOf_kept hs ..) ?_
    exact seeVaOf_kept hs ..

theorem icacheEvict_kept (core part line : Nat) : (icacheEvict s core part line).kept κ := by
  unfold icacheEvict
  exact hs

theorem passClocks_kept (die n : Nat) : (passClocks s die n).kept κ := by
  unfold passClocks
  exact ite_kept (setDie_kept hs ..) hs

theorem passCoreClocks_kept (core n : Nat) : (passCoreClocks s core n).kept κ := by
  unfold passCoreClocks
  refine ite_kept ?_ hs
  exact hs

theorem setRegFlaw_kept (g : Nat) (ref : RegRef) (bad : Bool) (synd : Nat) : (setRegFlaw s g ref bad synd).kept κ := by
  unfold setRegFlaw
  split
  · exact setGroup_kept hs _
  · exact hs

theorem setWordFlaw_kept (part : Nat) (serial : Word) (wkg off : Nat) (bad : Bool) (synd : Nat) :
    (setWordFlaw s part serial wkg off bad synd).kept κ := by
  unfold setWordFlaw
  split
  · next w hw => exact ite_kept hs (setWkg_kept hs (hs.found hw :))
  · exact hs

theorem setHostFail_kept (addr : Nat) (fails : Bool) : (setHostFail s addr fails).kept κ := by
  unfold setHostFail
  exact hs

theorem background_kept (a : Activity) : (background a s).kept κ := by
  unfold background
  split
  · exact tlbFill_kept hs ..
  · exact tlbEvict_kept hs ..
  · exact l1Fill_kept hs ..
  · exact l1Drop_kept hs ..
  · exact icacheFill_kept hs ..
  · exact icacheEvict_kept hs ..
  · exact passClocks_kept hs ..
  · exact passCoreClocks_kept hs ..
  · exact sendFlit_kept hs ..
  · exact portSend_kept hs ..
  · exact portPeerSend_kept hs ..
  · exact portPeerCheck_kept hs ..
  · exact ite_kept (setFlaw_kept hs ..) hs
  · exact setRegFlaw_kept hs ..
  · exact setWordFlaw_kept hs ..
  · exact hs
  · exact hwrite_kept hs ..
  · exact setHostFail_kept hs ..
  · exact hs
  · exact hs
  · exact hs
  · exact hs

end Keeps

end Sys2Proof.Machine
end

section
/-! PROOFS. Every step keeps the canonical form of every memory, and nothing issues between steps. -/
namespace Sys2Proof.Machine

/-! ### Execution -/

/-- Whatever is executed keeps the form. -/
theorem exec_leaves {s : State} {κ : Cur} (hs : s.kept κ) (i : Instr) : Leaves κ (exec i s) := by
  unfold exec
  split
  · exact execFerryWrite_leaves hs ..
  · exact execFerryRead_leaves hs ..
  · exact execFerryTail_leaves hs ..
  · exact execFerryRearm_leaves hs ..
  · exact execFerryLaunch_leaves hs ..
  · exact execSealRange_leaves hs ..
  · exact execInval_leaves hs ..
  · exact execService_leaves hs ..
  · exact execBudget_leaves hs ..
  · exact execModeset_leaves hs ..
  · exact execThresh_leaves hs ..
  · exact execPcreate_leaves hs ..
  · exact execPdestroy_leaves hs ..
  · exact execFerryBadop_leaves hs ..
  · exact execLdp_leaves hs ..
  · exact execLdq_leaves hs ..
  · exact execStq_leaves hs ..
  · exact execLdi_leaves hs ..
  · exact execPilotAdd_leaves hs ..
  · exact execPilotSub_leaves hs ..
  · exact execPilotAddi_leaves hs ..
  · exact execPilotAnd_leaves hs ..
  · exact execPilotOr_leaves hs ..
  · exact execPilotXor_leaves hs ..
  · exact execPilotShl_leaves hs ..
  · exact execPilotShr_leaves hs ..
  · exact execBeq_leaves hs ..
  · exact execBne_leaves hs ..
  · exact execBltu_leaves hs ..
  · exact execLoop_leaves hs ..
  · exact execStl_leaves hs ..
  · exact execPilotLaunch_leaves hs _
  · exact execSigw_leaves hs ..
  · exact execSigwait_leaves hs ..
  · exact execEmit_leaves hs _
  · exact execFault_leaves hs _
  · exact execUnallocatedOpcode_leaves hs ..
  · exact execIaddS_leaves hs _
  · exact execIsubS_leaves hs _
  · exact execImulS_leaves hs _
  · exact execImulhS_leaves hs _
  · exact execIminS_leaves hs _
  · exact execImaxS_leaves hs _
  · exact execIabsS_leaves hs _
  · exact execInegS_leaves hs _
  · exact execAndS_leaves hs _
  · exact execOrS_leaves hs _
  · exact execXorS_leaves hs _
  · exact execAndnS_leaves hs _
  · exact execNotS_leaves hs _
  · exact execShlS_leaves hs _
  · exact execShrS_leaves hs _
  · exact execSarS_leaves hs _
  · exact execRotS_leaves hs _
  · exact execPopcS_leaves hs _
  · exact execClzS_leaves hs _
  · exact execBrevS_leaves hs _
  · exact execMovS_leaves hs _
  · exact execFaddS_leaves hs _
  · exact execFsubS_leaves hs _
  · exact execFmulS_leaves hs _
  · exact execFmulzS_leaves hs _
  · exact execFminS_leaves hs _
  · exact execFmaxS_leaves hs _
  · exact execFrcpS_leaves hs _
  · exact execFrsqS_leaves hs _
  · exact execFsqrtS_leaves hs _
  · exact execFexp2S_leaves hs _
  · exact execFlog2S_leaves hs _
  · exact execFsinS_leaves hs _
  · exact execFcosS_leaves hs _
  · exact execFtanhS_leaves hs _
  · exact execTrace_leaves hs _
  · exact execEndTrace_leaves hs _
  · exact execEndx_leaves hs _
  · exact execJoin_leaves hs _
  · exact execGuard_leaves hs _
  · exact execGuardc_leaves hs _
  · exact execCallt_leaves hs _
  · exact execTrap_leaves hs _
  · exact execBrk_leaves hs _
  · exact execPlogic_leaves hs _
  · exact execPnot_leaves hs _
  · exact execPmov_leaves hs _
  · exact execPvote_leaves hs _
  · exact execPtov_leaves hs _
  · exact execVtop_leaves hs _
  · exact execPforce_leaves hs _
  · exact execWaitc_leaves hs _
  · exact execWaitp_leaves hs _
  · exact execWaitseq_leaves hs _
  · exact execBar_leaves hs _
  · exact execCbar_leaves hs _
  · exact execFence_leaves hs _
  · exact execQfence_leaves hs _
  · exact execQopen_leaves hs _
  · exact execQclose_leaves hs _
  · exact execPushq_leaves hs _
  · exact execPopq_leaves hs _
  · exact execQstat_leaves hs _
  · exact execTicket_leaves hs _
  · exact execSpawn_leaves hs _
  · exact execIadd_leaves hs _
  · exact execIsub_leaves hs _
  · exact execIaddc_leaves hs _
  · exact execImul_leaves hs _
  · exact execImulh_leaves hs _
  · exact execImad_leaves hs _
  · exact execImin_leaves hs _
  · exact execImax_leaves hs _
  · exact execIabs_leaves hs _
  · exact execIneg_leaves hs _
  · exact execAnd_leaves hs _
  · exact execOr_leaves hs _
  · exact execXor_leaves hs _
  · exact execAndn_leaves hs _
  · exact execNot_leaves hs _
  · exact execShl_leaves hs _
  · exact execShr_leaves hs _
  · exact execSar_leaves hs _
  · exact execRot_leaves hs _
  · exact execBfe_leaves hs _
  · exact execBfi_leaves hs _
  · exact execPopc_leaves hs _
  · exact execClz_leaves hs _
  · exact execBrev_leaves hs _
  · exact execIcmp_leaves hs _
  · exact execSel_leaves hs _
  · exact execLea_leaves hs _
  · exact execMov_leaves hs _
  · exact execMovi_leaves hs _
  · exact execFadd_leaves hs _
  · exact execFsub_leaves hs _
  · exact execFmul_leaves hs _
  · exact execFmulz_leaves hs _
  · exact execFma_leaves hs _
  · exact execFmaz_leaves hs _
  · exact execFmin_leaves hs _
  · exact execFmax_leaves hs _
  · exact execFcmp_leaves hs _
  · exact execFclass_leaves hs _
  · exact execFrnd_leaves hs _
  · exact execFscale_leaves hs _
  · exact execFrcp_leaves hs _
  · exact execFrsq_leaves hs _
  · exact execFsqrt_leaves hs _
  · exact execFexp2_leaves hs _
  · exact execFlog2_leaves hs _
  · exact execFsin_leaves hs _
  · exact execFcos_leaves hs _
  · exact execFtanh_leaves hs _
  · exact execCvt_leaves hs _
  · exact execPack_leaves hs _
  · exact execUnpack_leaves hs _
  · exact execDot4_leaves hs _
  · exact execDot8_leaves hs _
  · exact execBscale_leaves hs _
  · exact execIvmake_leaves hs _
  · exact execIvadd_leaves hs _
  · exact execIvsub_leaves hs _
  · exact execIvmul_leaves hs _
  · exact execIvdiv_leaves hs _
  · exact execIvsqr_leaves hs _
  · exact execIvsqrt_leaves hs _
  · exact execIvhull_leaves hs _
  · exact execIvisect_leaves hs _
  · exact execIvmid_leaves hs _
  · exact execIvwid_leaves hs _
  · exact execIvcmp_leaves hs _
  · exact execIvsplit_leaves hs _
  · exact execIvbis_leaves hs _
  · exact execIvld_leaves hs _
  · exact execIvst_leaves hs _
  · exact execIvmakeIv16_leaves hs _
  · exact execIvaddIv16_leaves hs _
  · exact execIvsubIv16_leaves hs _
  · exact execIvmulIv16_leaves hs _
  · exact execIvdivIv16_leaves hs _
  · exact execIvsqrIv16_leaves hs _
  · exact execIvsqrtIv16_leaves hs _
  · exact execIvhullIv16_leaves hs _
  · exact execIvisectIv16_leaves hs _
  · exact execIvmidIv16_leaves hs _
  · exact execIvwidIv16_leaves hs _
  · exact execIvcmpIv16_leaves hs _
  · exact execIvsplitIv16_leaves hs _
  · exact execIvbisIv16_leaves hs _
  · exact execIvldIv16_leaves hs _
  · exact execIvstIv16_leaves hs _
  · exact execShfl_leaves hs _
  · exact execQswap_leaves hs _
  · exact execQbcast_leaves hs _
  · exact execMatchLanes_leaves hs _
  · exact execRedux_leaves hs _
  · exact execScan_leaves hs _
  · exact execRdlane_leaves hs _
  · exact execWrlane_leaves hs _
  · exact execLd_leaves hs _
  · exact execSt_leaves hs _
  · exact execLdu_leaves hs _
  · exact execStu_leaves hs _
  · exact execLds_leaves hs _
  · exact execSts_leaves hs _
  · exact execLda_leaves hs _
  · exact execLdlit_leaves hs _
  · exact execPref_leaves hs _
  · exact execCctl_leaves hs _
  · exact execIcinv_leaves hs _
  · exact execAtom_leaves hs _
  · exact execAtoms_leaves hs _
  · exact execRed_leaves hs _
  · exact execSred_leaves hs _
  · exact execBop_leaves hs _
  · exact execGang_leaves hs _
  · exact execMma_leaves hs _
  · exact execLayout_leaves hs _
  · exact execCopy_leaves hs _
  · exact execGather_leaves hs _
  · exact execScatter_leaves hs _
  · exact execColl_leaves hs _
  · exact execSeqrd_leaves hs _
  · exact execRcall_leaves hs _
  · exact execRread_leaves hs _
  · exact execRsync_leaves hs _
  · exact execRret_leaves hs _
  · exact execTstep_leaves hs _
  · exact execPdgset_leaves hs _
  · exact execPdgrd_leaves hs _
  · exact execDlog_leaves hs _
  · exact execSysrd_leaves hs _
  · exact execSysrdCycle_leaves hs _
  · exact execSyswrFmode_leaves hs _
  · exact execSyswrFstat_leaves hs _
  · exact execSyswrSfrqPop_leaves hs _
  · exact execSyswrSfrqClearLost_leaves hs _
  · exact execSyswrPreempt_leaves hs _
  · exact execSyswrSavelo_leaves hs _
  · exact execSyswrSavehi_leaves hs _
  · exact execSyswrLdaerr_leaves hs _
  · exact execHintKeep_leaves hs _
  · exact execHintStream_leaves hs _
  · exact execHintOcc_leaves hs _
  · exact execHintThr_leaves hs _
  · exact execHintUnimplemented_leaves hs ..
  · exact execPackageReset_leaves hs _
  · exact execBoundaryFlitReceive_leaves hs ..
  · exact execBoundaryRetrain_leaves hs ..
  · exact execCausewayFlitReceive_leaves hs ..
  · exact execArbiterPeriodEnd_leaves hs ..
  · exact execScrubLine_leaves hs ..
  · exact execSubarraySelfTest_leaves hs ..
  · exact execSpdmAlgorithmsRequest_leaves hs _
  · exact execSpdmCertificateRequest_leaves hs _
  · exact execSpdmChallengeRequest_leaves hs _
  · exact execSpdmMeasurementsRequest_leaves hs _
  · exact execSpdmUnsupportedRequest_leaves hs _
  · exact execCmdtailWrite_leaves hs ..
  · exact execCplheadWrite_leaves hs ..
  · exact execEvheadWrite_leaves hs ..
  · exact execRingBaseSizeWrite_leaves hs ..
  · exact execWstateRunSet_leaves hs _
  · exact execWstateRunClear_leaves hs _
  · exact execRegisterWrite_leaves hs ..
  · exact execEventRingWrite_leaves hs _
  · exact execFetcherVisit_leaves hs _
  · exact execFetchFaultRetry_leaves hs ..
  · exact execLaunchPlacement_leaves hs _
  · exact execGridTermination_leaves hs ..
  · exact execTaskGather_leaves hs ..
  · exact execTraceCommit_leaves hs ..
  · exact execRejoinFusion_leaves hs ..
  · exact execFragmentSpillMove_leaves hs ..
  · exact execLoadDataReturn_leaves hs ..
  · exact execPostedStoreCheck_leaves hs _
  · exact execStorePerformed_leaves hs ..
  · exact execDeferredAtomicPerform_leaves hs ..
  · exact execAtomicRepair_leaves hs ..
  · exact execAtomicReplay_leaves hs ..
  · exact execSredElementApply_leaves hs ..
  · exact execSredPeerElement_leaves hs ..
  · exact execLdaElementWrite_leaves hs ..
  · exact execMmaEntry_leaves hs _
  · exact execLayoutEntry_leaves hs _
  · exact execCopyEntry_leaves hs ..
  · exact execGatherEntry_leaves hs _
  · exact execScatterEntry_leaves hs _
  · exact execCollEntry_leaves hs ..
  · exact execCollPeerTimeout_leaves hs ..
  · exact execQfenceEntry_leaves hs _
  · exact execGangwayLatchOpen_leaves hs _
  · exact execBarrierComplete_leaves hs _
  · exact execRingPush_leaves hs ..
  · exact execRingPop_leaves hs ..
  · exact execPreemptRequestArrival_leaves hs ..
  · exact execPreemptAllowanceExpiry_leaves hs ..
  · exact execPreemptHandlerStart_leaves hs _
  · exact execYieldSave_leaves hs _
  · exact execLaunchRestore_leaves hs ..
  · exact execClusterTermination_leaves hs _
  · exact execEmulationFrame_leaves hs ..
  · exact execEmulationResultWrite_leaves hs ..
  · exact execManifestAppend_leaves hs ..
  · exact execLandingApply_leaves hs ..
  · exact execRreadMethodRun_leaves hs ..
  · exact execUpstreamLinkTraining_leaves hs ..
  · exact execSupplyMonitorReset_leaves hs
  · exact execSpdmVersionRequest_leaves hs _
  · exact execSpdmCapabilitiesRequest_leaves hs _
  · exact execSpdmDigestsRequest_leaves hs _
  · exact execPilotStepBudgetExhausted_leaves hs
  · exact execPilotFence_leaves hs
  · exact execDone_leaves hs
  · exact execNop_leaves hs
  · exact execExit_leaves hs
  · exact execRett_leaves hs
  · exact execKill_leaves hs
  · exact execYield_leaves hs
  · exact execResume_leaves hs
  · exact execNopLong_leaves hs
  · exact execGate_leaves hs
  · exact execRelease_leaves hs
  · exact execDrain_leaves hs
  · exact execSavesplit_leaves hs
  · exact execLoadsplit_leaves hs

theorem settle_leaves {κ : Cur} {o : Host.Outcome State Fault Refusal} (h : Leaves κ o) : Leaves .none (settle o) := by
  cases o with
  | next s => exact { h with cur := rfl }
  | fault f => trivial
  | refused r => trivial

theorem issue_leaves {s : State} {κ : Cur} (hs : s.kept κ) (c : Cur) (i : Instr) : Leaves .none (issue c i s) :=
  settle_leaves (exec_leaves (s := { s with cur := c }) (κ := c) { hs with cur := rfl } i)

/-! ### A step -/

/-- The form of what a fetch leaves. -/
def Fetched.kept (k : Cur) : Fetched → Prop
  | .idle => True
  | .fault s => s.kept k
  | .instr s _ => s.kept k

theorem fetchFor_kept {s : State} {κ : Cur} (hs : s.kept κ) (g n : Nat) : (fetchFor s g n).kept κ := by
  unfold fetchFor
  split
  · trivial
  · split
    · trivial
    · split
      · trivial
      · split
        · split
          · exact entryFault_kept hs ..
          · split
            · trivial
            · dsimp only
              split
              · exact entryFetchFault_kept (seeWords_kept hs ..) ..
              · exact seeWords_kept hs ..
        · split
          · trivial
          · split
            · exact groupFault_kept hs ..
            · split
              · trivial
              · dsimp only
                split
                · exact groupFault_kept (seeWords_kept hs ..) ..
                · exact putCtx_kept (seeWords_kept hs ..) ..

theorem ferryFetch_kept {s : State} {κ : Cur} (hs : s.kept κ) (w : Nat) : (ferryFetch s w).kept κ := by
  unfold ferryFetch
  dsimp only
  split
  · exact hs
  · split
    · trivial
    · split
      · exact ringFail_kept hs ..
      · split
        · trivial
        · exact setWin_kept hs ..

theorem act_leaves {s : State} (hs : s.kept .none) (a : Activity) : Leaves .none (act a s) := by
  unfold act
  split
  · next g n =>
    have h1 := fetchFor_kept hs g n
    split
    · exact hs
    · next e => exact (e ▸ h1 :)
    · next e =>
      rw [e] at h1
      exact issue_leaves h1 ..
  · split
    · exact issue_leaves hs ..
    · exact hs
  · next w =>
    have h1 := ferryFetch_kept hs w
    split
    · split
      · exact hs
      · next e => exact (e ▸ h1 :)
      · next e =>
        rw [e] at h1
        exact issue_leaves h1 ..
    · exact hs
  · exact ite_leaves (issue_leaves hs ..) hs
  · exact background_kept hs _

theorem step_leaves {s : State} (hs : s.kept .none) :
    Leaves .none (step s) := act_leaves (s := { s with agenda := s.agenda.tail, tick := s.tick + 1 }) hs _

theorem memOk_iff {s : State} : s.memOk = true ↔ s.kept s.cur := by
  unfold State.memOk
  simp only [Bool.and_eq_true, List.all_eq_true]
  constructor
  · rintro ⟨⟨⟨hmem, hhost⟩, hwkgs⟩, hremains⟩
    exact ⟨hmem, hhost, hwkgs, hremains, rfl⟩
  · intro h
    exact ⟨⟨⟨h.mem, h.hostmem⟩, h.wkgs⟩, h.remains⟩

/-- Settles O7: what a step executes keeps the form, and the step's end leaves nothing issuing. -/
theorem everyStepKeepsMemoryCanonical : Obligations.EveryStepKeepsMemoryCanonical := by
  intro s t hmem hcur hstep
  have hs : s.kept .none := hcur ▸ memOk_iff.mp hmem
  have ht : t.kept .none := (step_leaves hs).next hstep
  exact ⟨memOk_iff.mpr (ht.cur ▸ ht), ht.cur⟩

end Sys2Proof.Machine
end
